-- ==== Sys2Proof/Word.lean ====
section
/-!
DEFINITION. The word types of the RZL-2560: bytes, 32-bit registers and 64-bit counters (R4, R5 of spec/00_scope.md).
-/
namespace Sys2Proof

/-- A byte of memory or of a frame. -/
abbrev Byte := BitVec 8

/-- A 32-bit register (R40). -/
abbrev Word := BitVec 32

/-- A 64-bit counter or record word. -/
abbrev DWord := BitVec 64

end Sys2Proof
end

