-- ==== Sys2Proof/Syntax.lean ====
section
/-!
DEFINITION. The commands of the block: one constructor per row of spec/opcode_table.json, in its order. The rows have no
encoding; their operands name what a command acts on, and what the environment brings with it (host data, outcomes of
memory reads, pin levels), as log entry 10 says. Operands of one name mean the same in every row:
`master` who commands (0 the warden, 1–4 the PFs, 16–75 the VFs); `src` a ring, or 65,536 + a table command window;
`data` and `ok` the bytes a read of host memory brings and whether it succeeded; `ecc` a memory word's outcome (0 none,
1 corrected, 2 uncorrectable), `tid` and `slot` the table and slot it lies in, `lecc` the same of a local memory word; the `ecc`
of a DRAM access is 8 · the 64-byte line it meets + its code (3 a parity failure retried, 4 one that failed twice besides, R338);
`cam` the finding at the CAM address `slot` (1 a flipped check bit, 2 a flipped key bit of a VERIFY bank, 3 several, 4 and 5 a
corrected and an uncorrectable binding word, 6 a flipped key bit that makes the true match miss, 7 a flipped key bit of a bank
that does not verify); `err` the outcome of a crosspoint read (1 a corrected word, 2 an uncorrectable data word, 3 an
uncorrectable tag or descriptor); `corrected` whether the microword had an error its code corrected; `full` whether no room
is left for the pointers of a sieve rule; `late` whether a limit passed first; `rows` the failing rows of a TEST, each array ·
65,536 + row; `bad` the words, as (table, slot), that a walk over tables found uncorrectable, each table · 2^32 + slot in
SUBSTITUTION_END; `rails` the rails below their levels as RESET_N rises (bit 0 VDDA_SER,
1 VDDH_SER, 2 VDDQ_DDR, 3 VDD_IO, 4 VDD_CORE); a `clock` from 16 on says that the clock of its low bits has returned; `finished` whether a slice ended before its work period did.
-/
namespace Sys2Proof

inductive Instr where
  /-- FRAME_RECEIVE (R469). -/
  | frameReceive (port : Nat) (frame : List Byte) (fcsOk pcsBad : Bool) (begun corrected uncorrected symbols : Nat)
  /-- PAUSE_EXPIRE (R106). -/
  | pauseExpire (port cls : Nat)
  /-- HEADER_ADMIT (R113). -/
  | headerAdmit (course : Nat) (host : Bool) (ecc tid slot cam : Nat)
  /-- CAM_SEARCH_SKIP (R189). -/
  | camSearchSkip (course : Nat)
  /-- RECIRCULATION_ADMIT (R217). -/
  | recirculationAdmit (course ecc tid slot cam : Nat)
  /-- HAND_OFF (R270). -/
  | handOff (course : Nat)
  /-- VENT_CELL_WRITE (R274). -/
  | ventCellWrite (err : Nat)
  /-- VENT_STATE_RETURN (R272). -/
  | ventStateReturn (row queue : Nat)
  /-- RETURN_FETCH (R276). -/
  | returnFetch (col : Nat)
  /-- RETURN_BLOCK_CHECK (R277). -/
  | returnBlockCheck (queue ecc : Nat)
  /-- DEEP_TRANSFER_TIMEOUT (R277). -/
  | deepTransferTimeout (isFetch : Bool) (n : Nat)
  /-- BPM_RELOCATE (R280). -/
  | bpmRelocate (channel : Nat)
  /-- TM_DECISION (R298). -/
  | tmDecision (quadrant scheduler : Nat)
  /-- ENTRY_PAGE_READ (R295). -/
  | entryPageRead (queue ecc : Nat)
  /-- ENTRY_PAGE_LOST (R296). -/
  | entryPageLost (queue : Nat)
  /-- PORT_FLUSH_STEP (R304). -/
  | portFlushStep (port : Nat)
  /-- EGRESS_PASS (R208). -/
  | egressPass (port err ecc tid slot : Nat)
  /-- FRAME_TRANSMIT_END (R215). -/
  | frameTransmitEnd (port : Nat)
  /-- JOB_ACCEPT (R223). -/
  | jobAccept (cluster err : Nat)
  /-- JOB_DISPATCH (R225). -/
  | jobDispatch (cluster : Nat)
  /-- JOB_RELEASE (R228). -/
  | jobRelease (cluster : Nat)
  /-- JOB_BUDGET_EXPIRE (R236). -/
  | jobBudgetExpire (cluster engine thread : Nat)
  /-- ENGINE_STALL (R239). -/
  | engineStall (cluster engine : Nat)
  /-- WAIT_TIMEOUT (R235). -/
  | waitTimeout (cluster engine thread : Nat)
  /-- MEMORY_RESULT_RETURN (R259). -/
  | memoryResultReturn (cluster engine thread space : Nat)
  /-- GOTO (R251). -/
  | goto (cluster engine thread : Nat) (corrected : Bool)
  /-- CALL (R253). -/
  | call (cluster engine thread : Nat) (corrected : Bool)
  /-- RET (R253). -/
  | ret (cluster engine thread : Nat) (corrected : Bool)
  /-- JUMPA (R251). -/
  | jumpa (cluster engine thread : Nat) (corrected : Bool)
  /-- FAULT (R262). -/
  | fault (cluster engine thread ecc : Nat)
  /-- MOV (R256). -/
  | mov (cluster engine thread : Nat)
  /-- ADD (R255). -/
  | add (cluster engine thread : Nat)
  /-- SUB (R255). -/
  | sub (cluster engine thread : Nat)
  /-- AND (R256). -/
  | and (cluster engine thread : Nat)
  /-- OR (R256). -/
  | or (cluster engine thread : Nat)
  /-- XOR (R256). -/
  | xor (cluster engine thread : Nat)
  /-- ANDN (R256). -/
  | andn (cluster engine thread : Nat)
  /-- SHL (R256). -/
  | shl (cluster engine thread : Nat)
  /-- SHR (R256). -/
  | shr (cluster engine thread : Nat)
  /-- SAR (R256). -/
  | sar (cluster engine thread : Nat)
  /-- CMP (R255). -/
  | cmp (cluster engine thread : Nat)
  /-- SHRM (R256). -/
  | shrm (cluster engine thread : Nat)
  /-- SHLA (R256). -/
  | shla (cluster engine thread : Nat)
  /-- MUL (R256). -/
  | mul (cluster engine thread : Nat)
  /-- MIN (R256). -/
  | min (cluster engine thread : Nat)
  /-- MAX (R256). -/
  | max (cluster engine thread : Nat)
  /-- BSWAP (R256). -/
  | bswap (cluster engine thread : Nat)
  /-- CRC (R473). -/
  | crc (cluster engine thread : Nat)
  /-- SETF (R255). -/
  | setf (cluster engine thread : Nat)
  /-- POPC (R256). -/
  | popc (cluster engine thread : Nat)
  /-- CLZ (R256). -/
  | clz (cluster engine thread : Nat)
  /-- LDL (R259). -/
  | ldl (cluster engine thread ecc : Nat) (corrected : Bool)
  /-- STL (R231). -/
  | stl (cluster engine thread : Nat) (corrected : Bool)
  /-- LDP (R258). -/
  | ldp (cluster engine thread : Nat) (corrected : Bool)
  /-- STP (R258). -/
  | stp (cluster engine thread : Nat) (corrected : Bool)
  /-- LDD (R332). -/
  | ldd (cluster engine thread ecc : Nat) (corrected : Bool)
  /-- STD (R332). -/
  | std (cluster engine thread : Nat) (corrected : Bool)
  /-- EXT (R258). -/
  | ext (cluster engine thread : Nat) (corrected : Bool)
  /-- INS (R258). -/
  | ins (cluster engine thread : Nat) (corrected : Bool)
  /-- LOOKUP (R260). -/
  | lookup (cluster engine thread ecc slot cam lecc : Nat) (corrected : Bool)
  /-- CHRES (R232). -/
  | chres (cluster engine thread : Nat) (corrected : Bool)
  /-- CHCMT (R232). -/
  | chcmt (cluster engine thread : Nat) (corrected : Bool)
  /-- CHRD (R232). -/
  | chrd (cluster engine thread : Nat) (corrected : Bool)
  /-- LOCK (R234). -/
  | lock (cluster engine thread : Nat) (corrected : Bool)
  /-- UNLOCK (R234). -/
  | unlock (cluster engine thread : Nat) (corrected : Bool)
  /-- JOBRD (R226). -/
  | jobrd (cluster engine thread : Nat) (corrected : Bool)
  /-- JOBEND (R227). -/
  | jobend (cluster engine thread lecc : Nat) (corrected : Bool)
  /-- SADD (R256). -/
  | sadd (cluster engine thread : Nat) (corrected : Bool)
  /-- HALT (R241). -/
  | halt (ring : Nat)
  /-- RESUME (R242). -/
  | resume (ring : Nat)
  /-- STEP (R243). -/
  | step (ring : Nat)
  /-- READ_GREGS (R245). -/
  | readGregs (ring : Nat)
  /-- WRITE_GREG (R245). -/
  | writeGreg (ring : Nat) (data : List Byte) (ok : Bool)
  /-- READ_LMEM (R245). -/
  | readLmem (ring : Nat)
  /-- WRITE_LMEM (R245). -/
  | writeLmem (ring : Nat) (data : List Byte) (ok : Bool)
  /-- READ_CSTORE (R245). -/
  | readCstore (ring : Nat)
  /-- STEP_END (R243). -/
  | stepEnd (cluster engine thread : Nat)
  /-- UCODE_LOAD (R264). -/
  | ucodeLoad (ring : Nat) (data : List Byte) (ok : Bool)
  /-- LINK_FAULT (R100). -/
  | linkFault (port reason : Nat)
  /-- LINK_FAULT_CLEAR (R100). -/
  | linkFaultClear (port : Nat)
  /-- DOWN_DEBOUNCE_EXPIRE (R100). -/
  | downDebounceExpire (port : Nat)
  /-- SIGNAL_DETECT (R101). -/
  | signalDetect (port : Nat)
  /-- TRAINING_DONE (R95). -/
  | trainingDone (port : Nat) (modeMatches : Bool)
  /-- TRAINING_TIMEOUT (R101). -/
  | trainingTimeout (port : Nat)
  /-- UP_DEBOUNCE_EXPIRE (R100). -/
  | upDebounceExpire (port : Nat)
  /-- HOLD_EXPIRE (R104). -/
  | holdExpire (port : Nat)
  /-- PORT_ADMIN_UP (R94). -/
  | portAdminUp (master port : Nat)
  /-- PORT_ADMIN_DOWN (R105). -/
  | portAdminDown (master port : Nat)
  /-- LANE_READAPT (R98). -/
  | laneReadapt (master lane : Nat)
  /-- READAPT_TIMEOUT (R98). -/
  | readaptTimeout (lane : Nat)
  /-- PAUSE_REPEAT (R107). -/
  | pauseRepeat (port cls : Nat)
  /-- PFC_WATCHDOG_EXPIRE (R108). -/
  | pfcWatchdogExpire (port prio : Nat)
  /-- PFC_WATCHDOG_IGNORE_END (R108). -/
  | pfcWatchdogIgnoreEnd (port prio : Nat)
  /-- RESET (R45). -/
  | reset (master uid tag : Nat)
  /-- TEST (R45). -/
  | test (master uid tag : Nat)
  /-- ADMIT (R45). -/
  | unitAdmit (master uid tag : Nat)
  /-- DRAIN (R45). -/
  | drain (master uid tag : Nat)
  /-- RETIRE (R46). -/
  | retire (master uid tag : Nat)
  /-- ISOLATE (R46). -/
  | isolate (master uid tag : Nat)
  /-- UNIT_RESET_DONE (R45). -/
  | unitResetDone (uid : Nat) (late : Bool) (cfg train : Nat)
  /-- UNIT_TEST_DONE (R45). -/
  | unitTestDone (uid code : Nat) (rows : List Nat) (late : Bool)
  /-- UNIT_DRAIN_DONE (R464). -/
  | unitDrainDone (uid : Nat)
  /-- DRAIN_LIMIT_EXPIRE (R464). -/
  | drainLimitExpire (uid : Nat)
  /-- GROUP_CMD_ADVANCE (R50). -/
  | groupCmdAdvance (uid : Nat)
  /-- DEV_SETUP_LOCK (R54). -/
  | devSetupLock (master : Nat)
  /-- REGISTER_WRITE (R7). -/
  | registerWrite (master bar addr size data : Nat)
  /-- LATCHING_READ (R110). -/
  | latchingRead (master bar addr size : Nat)
  /-- RC_READ (R10). -/
  | rcRead (master bar addr size : Nat)
  /-- CLAIM_READ (R56). -/
  | claimRead (master claim : Nat)
  /-- CLAIM_RELEASE (R58). -/
  | claimRelease (master claim : Nat)
  /-- CLAIM_EXPIRE (R59). -/
  | claimExpire (claim : Nat)
  /-- CROSSING_TIMEOUT (R30). -/
  | crossingTimeout (receiver sender number entries : Nat)
  /-- WARDEN_LOST (R28). -/
  | wardenLost
  /-- HOST_LINK_DOWN (R63). -/
  | hostLinkDown (link : Nat)
  /-- FLR (R89). -/
  | flr (master : Nat)
  /-- FLR_END (R89). -/
  | flrEnd (master : Nat)
  /-- VF_ENABLE_CLEAR (R461). -/
  | vfEnableClear (master : Nat)
  /-- RING_ENABLE (R71). -/
  | ringEnable (master sizeLog : Nat)
  /-- RING_DISABLE (R83). -/
  | ringDisable (master : Nat)
  /-- RING_FLUSH_END (R83). -/
  | ringFlushEnd (ring : Nat)
  /-- RING_FLUSH_TIMEOUT (R83). -/
  | ringFlushTimeout (ring : Nat)
  /-- DOORBELL_SQ (R74). -/
  | doorbellSq (master doorbell value link : Nat) (ok : Bool)
  /-- DOORBELL_CQ (R74). -/
  | doorbellCq (master doorbell value : Nat)
  /-- DESCRIPTOR_READ (R76). -/
  | descriptorRead (ring w0 w1 w2 w3 : Nat) (ok : Bool)
  /-- CHAIN_REREAD (R85). -/
  | chainReread (ring link : Nat) (ok : Bool)
  /-- WRITE_BACK (R75). -/
  | writeBack (ring : Nat)
  /-- CQ_WAIT_TIMEOUT (R83). -/
  | cqWaitTimeout (ring : Nat)
  /-- RING_MOD_TIMER (R86). -/
  | ringModTimer (ring : Nat)
  /-- NOP (R76). -/
  | nop (ring : Nat)
  /-- FENCE (R357). -/
  | fence (ring : Nat)
  /-- FENCE_DONE (R357). -/
  | fenceDone
  /-- INJECT_COURSE (R78). -/
  | injectCourse (ring : Nat) (data : List Byte) (ok : Bool)
  /-- INJECT_QUEUE (R79). -/
  | injectQueue (ring : Nat) (data : List Byte) (ok : Bool)
  /-- BUFFER (R80). -/
  | buffer (ring : Nat)
  /-- PUNT_WRITE (R80). -/
  | puntWrite (ring : Nat)
  /-- CFG_WRITE (R81). -/
  | cfgWrite (ring : Nat) (data : List Byte) (ok : Bool)
  /-- TCW_TIMEOUT (R88). -/
  | tcwTimeout (pf : Nat)
  /-- READ (R467). -/
  | read (src : Nat) (data : List Byte) (ok : Bool) (ecc slot : Nat) (full : Bool)
  /-- WRITE (R158). -/
  | write (src : Nat) (data : List Byte) (ok : Bool) (ecc slot : Nat) (full : Bool)
  /-- INSERT (R134). -/
  | insert (src : Nat) (data : List Byte) (ok : Bool) (ecc slot : Nat) (full : Bool)
  /-- DELETE (R158). -/
  | delete (src : Nat) (data : List Byte) (ok : Bool) (ecc slot : Nat) (full : Bool)
  /-- AGE_IF_UNHIT (R149). -/
  | ageIfUnhit (src : Nat) (data : List Byte) (ok : Bool) (ecc slot : Nat) (full : Bool)
  /-- TEST_AND_SET (R150). -/
  | testAndSet (src : Nat) (data : List Byte) (ok : Bool) (ecc slot : Nat) (full : Bool)
  /-- READ_SLOT (R466). -/
  | readSlot (src : Nat) (data : List Byte) (ok : Bool) (ecc slot : Nat) (full : Bool)
  /-- HIT_SCAN (R151). -/
  | hitScan (src : Nat) (data : List Byte) (ok : Bool) (ecc slot : Nat) (full : Bool)
  /-- EM_REHASH (R136). -/
  | emRehash (src seeds : Nat) (ok : Bool)
  /-- COMMIT (R163). -/
  | commit (src operand : Nat) (ok : Bool)
  /-- COMMIT_ACCEPT (R163). -/
  | commitAccept
  /-- COMMIT_TWIN_TIMEOUT (R174). -/
  | commitTwinTimeout
  /-- GEN_ABORT (R170). -/
  | genAbort (src operand : Nat) (ok : Bool)
  /-- GEN_WAIT (R164). -/
  | genWait (src : Nat)
  /-- GEN_INVALIDATE (R467). -/
  | genInvalidate (src : Nat) (data : List Byte) (ok : Bool) (ecc slot : Nat) (full : Bool)
  /-- GEN_QUEUE_TIMEOUT (R164). -/
  | genQueueTimeout (src : Nat)
  /-- GEN_HORIZON_EXPIRE (R167). -/
  | genHorizonExpire
  /-- SWEEP_END (R169). -/
  | sweepEnd (bad : List (Nat × Nat))
  /-- EGRESS_FENCE (R172). -/
  | egressFence (src : Nat)
  /-- EGRESS_FENCE_DONE (R172). -/
  | egressFenceDone
  /-- EGRESS_FENCE_BOUND (R172). -/
  | egressFenceBound
  /-- EM_REHASH_DONE (R136). -/
  | emRehashDone (ecc slot : Nat)
  /-- SHADOW_COMPARE_SLICE (R155). -/
  | shadowCompareSlice (tid : Nat) (data : List Byte) (ok finished : Bool)
  /-- CAM_SCRUB_SLICE (R191). -/
  | camScrubSlice (finished dram : Bool) (flips corr bad : List Nat)
  /-- WORK_PERIOD_BOUNDARY (R412). -/
  | workPeriodBoundary
  /-- TALLY_RECORD_WRITE (R361). -/
  | tallyRecordWrite
  /-- TELEMETRY_RECORD_WRITE (R307). -/
  | telemetryRecordWrite (quadrant : Nat)
  /-- CAPTURE_BATCH_WRITE (R287). -/
  | captureBatchWrite
  /-- FLOW_CACHE_WRITEBACK (R363). -/
  | flowCacheWriteback (cache counter : Nat)
  /-- FLOW_WRITEBACK_TIMEOUT (R363). -/
  | flowWritebackTimeout (n : Nat)
  /-- SAMPLER_DATA_READ (R364). -/
  | samplerDataRead (master cluster engine : Nat)
  /-- FAB_CELL_SEND (R317). -/
  | fabCellSend (port err : Nat)
  /-- FAB_CELL_RECEIVE (R319). -/
  | fabCellReceive (cell : List Byte)
  /-- REORDER_WAIT_EXPIRE (R319). -/
  | reorderWaitExpire (source : Nat)
  /-- FC_CELL_RECEIVE (R323). -/
  | fcCellReceive (cell : List Byte)
  /-- XOFF_EXPIRE (R323). -/
  | xoffExpire (n : Nat)
  /-- FC_CELL_REPEAT (R324). -/
  | fcCellRepeat (source : Nat)
  /-- FABRIC_LANE_DOWN (R318). -/
  | fabricLaneDown (lane : Nat)
  /-- RANK_POWER_DOWN (R340). -/
  | rankPowerDown (channel rank : Nat)
  /-- DMC_SCRUB_SLICE (R339). -/
  | dmcScrubSlice (channel : Nat) (finished : Bool) (corrected uncorrected : List Nat)
  /-- TRAINING_HELPER_GO (R341). -/
  | trainingHelperGo (master channel value : Nat)
  /-- TRAINING_HELPER_END (R341). -/
  | trainingHelperEnd (channel : Nat) (errors : List Nat)
  /-- H2D (R344). -/
  | h2d (mover : Nat) (data : List Byte) (ok : Bool)
  /-- D2H (R344). -/
  | d2h (mover ecc : Nat)
  /-- D2D (R344). -/
  | d2d (mover ecc : Nat)
  /-- FILL (R344). -/
  | fill (mover : Nat)
  /-- GATE (R347). -/
  | gate (mover : Nat)
  /-- SIGNAL (R347). -/
  | signal (mover : Nat)
  /-- MOVER_TRANSFER_DONE (R346). -/
  | moverTransferDone (mover : Nat) (hostBytes : List Byte) (ok : Bool) (ecc : Nat)
  /-- GATE_LIMIT_EXPIRE (R347). -/
  | gateLimitExpire (mover : Nat)
  /-- FAULT_REPORT (R368). -/
  | faultReport (uid source detail : Nat)
  /-- SUBSTITUTION_END (R375). -/
  | substitutionEnd (uid : Nat) (bad : List Nat)
  /-- RAIL_MISMATCH (R365). -/
  | railMismatch (uid : Nat)
  /-- HIST_UNFREEZE (R372). -/
  | histUnfreeze (master : Nat)
  /-- ENTER (R380). -/
  | enter (master : Nat)
  /-- EXIT (R383). -/
  | exit (master : Nat)
  /-- FOOTING_UNGATE_DONE (R383). -/
  | footingUngateDone (failed : List Nat)
  /-- COURSE_HANDBACK (R379). -/
  | courseHandback (course : Nat)
  /-- HANDBACK_TIMEOUT (R379). -/
  | handbackTimeout (course : Nat)
  /-- CHECK_UNIT_SCAN (R384). -/
  | checkUnitScan (unit_ : Nat) (data : List Byte) (ok finished : Bool)
  /-- ALIVE_TIMEOUT (R385). -/
  | aliveTimeout (unit_ : Nat)
  /-- POWER_ON_RESET (R389). -/
  | powerOnReset
  /-- CHIP_RESET (R389). -/
  | chipReset (pin : Nat)
  /-- RESET_RELEASE (R418). -/
  | resetRelease (split twinId testMode rails : Nat)
  /-- BROWN_OUT (R400). -/
  | brownOut (mv : Nat)
  /-- SUPPLY_WARN (R400). -/
  | supplyWarn (mv : Nat)
  /-- RAIL_LOSS (R445). -/
  | railLoss
  /-- CLOCK_LOSS (R447). -/
  | clockLoss (clock : Nat)
  /-- POWER_UP_RAIL_TIMEOUT (R452). -/
  | powerUpRailTimeout
  /-- THERMAL_SAMPLE (R401). -/
  | thermalSample (tj : Int) (sensor : Nat)
  /-- GOVERNOR_SAMPLE (R403). -/
  | governorSample (mw : Nat)
  /-- WEAR_SECOND (R404). -/
  | wearSecond
  /-- DEV_SOFT_RESET (R391). -/
  | devSoftReset (master : Nat)
  /-- DEVICE_SOFT_RESET_END (R391). -/
  | deviceSoftResetEnd
  /-- BANKED (R395). -/
  | banked (master : Nat)
  /-- ACTIVE (R398). -/
  | active (master : Nat)
  /-- PLINTH_ONLY (R399). -/
  | plinthOnly (master : Nat)
  /-- POWER_DRAIN_DONE (R395). -/
  | powerDrainDone
  /-- POWER_DRAIN_TIMEOUT (R396). -/
  | powerDrainTimeout
  /-- BANKED_EXIT_DONE (R398). -/
  | bankedExitDone (bad : List (Nat × Nat)) (channels : List Nat)
  /-- WAKE (R399). -/
  | wake (source : Nat)
  /-- TIME_SET (R411). -/
  | timeSet (master : Nat)
  /-- PLN_SLEW (R406). -/
  | plnSlew (master ns : Nat)
  /-- TIME_COMPARATOR_FIRE (R408). -/
  | timeComparatorFire (k : Nat)
  /-- PPS_EDGE (R409). -/
  | ppsEdge (input : Nat) (falling : Bool)
  /-- WARDEN_LOAD (R420). -/
  | wardenLoad (ring : Nat) (data : List Byte) (ok : Bool)
  /-- WARDEN_SWITCH (R421). -/
  | wardenSwitch (ring : Nat)
  /-- WARDEN_SWITCH_TIMEOUT (R421). -/
  | wardenSwitchTimeout
  /-- CONFIG_IMAGE (R419). -/
  | configImage (ring : Nat) (data : List Byte) (ok : Bool)
  /-- FUSE_UPDATE (R417). -/
  | fuseUpdate (ring : Nat) (data : List Byte) (ok : Bool)
  /-- MB_OUT_WRITE (R424). -/
  | mbOutWrite (master channel data : Nat)
  /-- MB_IN_ACK (R424). -/
  | mbInAck (master channel : Nat)
  /-- MB_IN_WRITE (R424). -/
  | mbInWrite (channel : Nat) (own : Option Nat)
  /-- MB_CROSS_TIMEOUT (R426). -/
  | mbCrossTimeout (channel : Nat)
  /-- PING (R428). -/
  | ping (channel : Nat)
  /-- STATUS (R428). -/
  | status (channel : Nat)
  /-- ATTEST (R428). -/
  | attest (channel : Nat)
  /-- MB_AUTH_GO (R429). -/
  | mbAuthGo (master slot : Nat)
  /-- AUTH_VERIFY_DONE (R429). -/
  | authVerifyDone
  /-- LOCKOUT_END (R429). -/
  | lockoutEnd
  /-- MB_AUTH_CLOSE (R429). -/
  | mbAuthClose (master : Nat)
  /-- GET_VERSION (R423). -/
  | getVersion (pf : Nat) (request : List Byte)
  /-- GET_CAPABILITIES (R423). -/
  | getCapabilities (pf : Nat) (request : List Byte)
  /-- NEGOTIATE_ALGORITHMS (R423). -/
  | negotiateAlgorithms (pf : Nat) (request : List Byte)
  /-- GET_DIGESTS (R423). -/
  | getDigests (pf : Nat) (request : List Byte)
  /-- GET_CERTIFICATE (R423). -/
  | getCertificate (pf : Nat) (request : List Byte)
  /-- CHALLENGE (R423). -/
  | challenge (pf : Nat) (request : List Byte)
  /-- GET_MEASUREMENTS (R423). -/
  | getMeasurements (pf : Nat) (request : List Byte)
  /-- HEARTBEAT_SEND (R432). -/
  | heartbeatSend
  /-- HEARTBEAT (R432). -/
  | heartbeat (message : List Byte)
  /-- TWIN_TABLE_CMD (R434). -/
  | twinTableCmd (message : List Byte) (leadStatus : Nat)
  /-- CFG_ENTRIES (R434). -/
  | cfgEntries (message : List Byte)
  /-- COMMIT_REQ (R435). -/
  | commitReq (message : List Byte)
  /-- COMMIT_OK (R435). -/
  | commitOk (message : List Byte)
  /-- COMMIT_GO (R435). -/
  | commitGo (message : List Byte)
  /-- SNAPSHOT (R436). -/
  | snapshot (message : List Byte)
  /-- RESYNC_ENTRY (R437). -/
  | resyncEntry (message : List Byte)
  /-- RESYNC_DONE (R437). -/
  | resyncDone (message : List Byte)
  /-- HELLO (R437). -/
  | hello (message : List Byte)
  /-- RELEASE (R440). -/
  | release (message : List Byte)
  /-- NAK (R431). -/
  | nak (message : List Byte)
  /-- TWIN_RESEND_TIMEOUT (R431). -/
  | twinResendTimeout
  /-- TWIN_LOST (R433). -/
  | twinLost
  /-- TAKEOVER_WINDOW_END (R440). -/
  | takeoverWindowEnd
  /-- PAIR (R437). -/
  | pair (master : Nat)
  /-- UNPAIR (R442). -/
  | unpair (master : Nat)
  /-- TAKEOVER (R440). -/
  | takeover (master : Nat)
  /-- TWN_RELEASE (R441). -/
  | twnRelease (master : Nat)
  /-- DEVICE_INFO (R454). -/
  | deviceInfo (addr : Nat) (pec : Bool)
  /-- AVS_TARGET (R444). -/
  | avsTarget (addr : Nat) (pec : Bool)
  /-- VDD_SENSE (R454). -/
  | vddSense (addr : Nat) (pec : Bool)
  /-- TJ (R454). -/
  | tj (addr : Nat) (pec : Bool)
  /-- SMB_POWER (R454). -/
  | smbPower (addr : Nat) (pec : Bool)
  /-- RESET_CAUSE (R454). -/
  | resetCause (addr : Nat) (pec : Bool)
  /-- POWER_STATE (R454). -/
  | powerState (addr : Nat) (pec : Bool)
  /-- WEAR (R454). -/
  | wear (addr : Nat) (pec : Bool)
  /-- FAULT_STATUS (R454). -/
  | faultStatus (addr : Nat) (pec : Bool)
  /-- HIST (R454). -/
  | hist (addr : Nat) (pec : Bool)
  /-- HIST_SEL (R454). -/
  | histSel (addr value : Nat) (pec : Option Nat)
  /-- SMB_TIME (R454). -/
  | smbTime (addr : Nat) (pec : Bool)
  /-- SMB_CLOCK_TIMEOUT (R454). -/
  | smbClockTimeout
  /-- ALERT_RESPONSE (R454). -/
  | alertResponse
  /-- BYPASS (R456). -/
  | bypass
  /-- IDCODE (R456). -/
  | idcode
  /-- SAMPLE_PRELOAD (R456). -/
  | samplePreload (pins cells : Nat)
  /-- EXTEST (R456). -/
  | extest (pins cells : Nat)
  /-- CLAMP (R456). -/
  | clamp
  /-- HIGHZ (R456). -/
  | highz
  /-- EXTEST_PULSE (R456). -/
  | extestPulse (pins cells : Nat)
  /-- EXTEST_TRAIN (R456). -/
  | extestTrain (pins cells : Nat)
  /-- TAP_RESET (R456). -/
  | tapReset
  /-- LANE_READAPT_DONE (R98). -/
  | laneReadaptDone (lane : Nat)
  /-- FABRIC_LANE_UP (R312). -/
  | fabricLaneUp (lane : Nat)
  /-- TWIN_LANE_DOWN (R430). -/
  | twinLaneDown (lane : Nat)
  /-- TWIN_LANE_UP (R430). -/
  | twinLaneUp (lane : Nat)
  /-- HOST_LINK_UP (R459). -/
  | hostLinkUp (link gen width : Nat)
  /-- CORE_PWR_EN_RETRY (R452). -/
  | corePwrEnRetry
  /-- SUPPLY_WARN_END (R400). -/
  | supplyWarnEnd (mv : Nat)
  /-- SLEW_ABSORBED (R406). -/
  | slewAbsorbed
  /-- MB_OUT_ACK (R424). -/
  | mbOutAck (channel : Nat)
  /-- RANK_REFRESH (R336). -/
  | rankRefresh (channel rank : Nat)
  /-- OPEN_PAGE_IDLE_CLOSE (R335). -/
  | openPageIdleClose (channel bank : Nat)
  /-- VENT_WRITE_DONE (R277). -/
  | ventWriteDone (block : Nat)
  /-- FLOW_WRITEBACK_DONE (R363). -/
  | flowWritebackDone (n ecc : Nat)
  /-- UCODE_LOAD_DONE (R266). -/
  | ucodeLoadDone
  /-- WARDEN_SWITCH_DONE (R421). -/
  | wardenSwitchDone
  /-- HELLO_RESEND (R437). -/
  | helloResend
  /-- TWIN_HOLD_EDGE (R440). -/
  | twinHoldEdge (high : Bool)
  /-- ENGINE_SAMPLE_TIMEOUT (R364). -/
  | engineSampleTimeout (cluster engine thread : Nat)
  deriving DecidableEq, Repr

end Sys2Proof
end

