-- ==== Sys2Proof/Decode.lean ====
section
/-!
DEFINITION. The words of commands. No row of spec/opcode_table.json has bits: a command is an event, not a word, so no word
spells one.
-/
namespace Sys2Proof

/-- The command that a word spells by the table's bits: none, as the table gives no row any. -/
def decodeTableWord (_nbits _w : Nat) : Option Instr := none

end Sys2Proof
end

