-- ==== Sys2Proof/Machine/Map.lean ====
section
/-!
DEFINITION. Sparse maps: every memory, table, register file and counter file of the model is a list of key and value
pairs in ONE canonical form, keys strictly rising and no entry equal to what an unlisted key reads as, so that equal
contents are equal data. What an unlisted key reads as is the `dflt` function handed to each operation.
-/
namespace Sys2Proof.Machine

/-- A sparse map from numbers to `α`. -/
abbrev KMap (α : Type) := List (Nat × α)

namespace KMap
variable {α : Type}

/-- The entry at key `k`, if one is listed. -/
def find : KMap α → Nat → Option α
  | [], _ => none
  | (k', v) :: r, k => if k = k' then some v else find r k

/-- What key `k` reads as. -/
def get (dflt : Nat → α) (m : KMap α) (k : Nat) : α := (m.find k).getD (dflt k)

/-- Put the pair at its place among rising keys. -/
def insertAt (k : Nat) (v : α) : KMap α → KMap α
  | [] => [(k, v)]
  | (k', v') :: r => if k < k' then (k, v) :: (k', v') :: r else (k', v') :: insertAt k v r

/-- Write `v` at key `k`, keeping the canonical form. -/
def put [DecidableEq α] (dflt : Nat → α) (m : KMap α) (k : Nat) (v : α) : KMap α :=
  let m' := m.filter fun e => e.1 != k
  if v = dflt k then m' else insertAt k v m'

/-- Rewrite every listed entry by `f`, dropping those that come to read as their default. -/
def remap [DecidableEq α] (dflt : Nat → α) (f : Nat → α → α) : KMap α → KMap α
  | [] => []
  | (k, v) :: r => if f k v = dflt k then remap dflt f r else (k, f k v) :: remap dflt f r

/-- Keep the listed entries whose key satisfies `p`; the others read as their default again. -/
def keep (p : Nat → Bool) (m : KMap α) : KMap α := m.filter fun e => p e.1

/-- Keys above `lo` rise strictly and no entry reads as its default. -/
def wfFrom [DecidableEq α] (dflt : Nat → α) : Option Nat → KMap α → Bool
  | _, [] => true
  | lo, (k, v) :: r =>
    (match lo with | none => true | some l => decide (l < k)) && decide (v ≠ dflt k) && wfFrom dflt (some k) r

/-- The canonical form. -/
def wf [DecidableEq α] (dflt : Nat → α) (m : KMap α) : Bool := wfFrom dflt none m

end KMap

/-- The bytes of `n` in little-endian order, `len` of them (R5). -/
def leBytes (n : Nat) : Nat → List Byte
  | 0 => []
  | len + 1 => BitVec.ofNat 8 n :: leBytes (n / 256) len

/-- The number a little-endian byte list spells. -/
def leNat : List Byte → Nat
  | [] => 0
  | b :: r => b.toNat + 256 * leNat r

/-- The number a byte list in wire order (most significant byte first, R5) spells. -/
def beNat (bs : List Byte) : Nat := leNat bs.reverse

/-- The bytes of `n` in wire order, `len` of them. -/
def beBytes (n len : Nat) : List Byte := (leBytes n len).reverse

/-- Bits `[lo + w - 1 : lo]` of `n`. -/
def bitsOf (n lo w : Nat) : Nat := n / 2 ^ lo % 2 ^ w

/-- `n` with bits `[lo + w - 1 : lo]` replaced by `v`. -/
def setBitsOf (n lo w v : Nat) : Nat := n / 2 ^ (lo + w) * 2 ^ (lo + w) + v % 2 ^ w * 2 ^ lo + n % 2 ^ lo

/-- Two's complement reading of a `w`-bit number. -/
def signedOf (n w : Nat) : Int := if n % 2 ^ w < 2 ^ (w - 1) then (n % 2 ^ w : Nat) else (n % 2 ^ w : Nat) - (2 ^ w : Nat)

/-- Round `n` up to the next whole number of units of `d`. -/
def ceilDiv (n d : Nat) : Nat := (n + d - 1) / d

/-- Take `len` bytes from offset `off`, zeros past the end. -/
def sliceBytes (bs : List Byte) (off len : Nat) : List Byte :=
  let t := (bs.drop off).take len
  t ++ List.replicate (len - t.length) 0

/-- Replace the bytes from offset `off` by `new`, within the list's length. -/
def patchBytes (bs : List Byte) (off : Nat) (new : List Byte) : List Byte :=
  bs.take off ++ new.take (bs.length - off) ++ bs.drop (off + new.length)

/-- The first key at which `p` holds, below `n`. -/
def firstBelow (n : Nat) (p : Nat → Bool) : Option Nat := (List.range n).find? p

end Sys2Proof.Machine
end

