-- ==== Sys2Proof/Machine/Crypto.lean ====
section
/-!
DEFINITION. SHA-384, the P-384 curve and ECDSA verification over it (R414, R415, R417, R422, R429), which the spec names and
does not restate: taken from FIPS 180-4, SP 800-186 and FIPS 186-5 (PRESUMED, log entry 2). Every step works on natural numbers,
so that Lean's kernel can evaluate it.
-/
namespace Sys2Proof.Machine

/-! ### SHA-384 -/

/-- The low 64 bits. -/
def low64 (x : Nat) : Nat := x % 2 ^ 64

/-- Rotation of a 64-bit word to the right. -/
def rotr64 (x n : Nat) : Nat := (x >>> n) ||| low64 (x <<< (64 - n))

/-- The 80 round constants. -/
def shaK : List Nat :=
  [0x428a2f98d728ae22, 0x7137449123ef65cd, 0xb5c0fbcfec4d3b2f, 0xe9b5dba58189dbbc,
   0x3956c25bf348b538, 0x59f111f1b605d019, 0x923f82a4af194f9b, 0xab1c5ed5da6d8118,
   0xd807aa98a3030242, 0x12835b0145706fbe, 0x243185be4ee4b28c, 0x550c7dc3d5ffb4e2,
   0x72be5d74f27b896f, 0x80deb1fe3b1696b1, 0x9bdc06a725c71235, 0xc19bf174cf692694,
   0xe49b69c19ef14ad2, 0xefbe4786384f25e3, 0x0fc19dc68b8cd5b5, 0x240ca1cc77ac9c65] ++
  [0x2de92c6f592b0275, 0x4a7484aa6ea6e483, 0x5cb0a9dcbd41fbd4, 0x76f988da831153b5,
   0x983e5152ee66dfab, 0xa831c66d2db43210, 0xb00327c898fb213f, 0xbf597fc7beef0ee4,
   0xc6e00bf33da88fc2, 0xd5a79147930aa725, 0x06ca6351e003826f, 0x142929670a0e6e70,
   0x27b70a8546d22ffc, 0x2e1b21385c26c926, 0x4d2c6dfc5ac42aed, 0x53380d139d95b3df,
   0x650a73548baf63de, 0x766a0abb3c77b2a8, 0x81c2c92e47edaee6, 0x92722c851482353b] ++
  [0xa2bfe8a14cf10364, 0xa81a664bbc423001, 0xc24b8b70d0f89791, 0xc76c51a30654be30,
   0xd192e819d6ef5218, 0xd69906245565a910, 0xf40e35855771202a, 0x106aa07032bbd1b8,
   0x19a4c116b8d2d0c8, 0x1e376c085141ab53, 0x2748774cdf8eeb99, 0x34b0bcb5e19b48a8,
   0x391c0cb3c5c95a63, 0x4ed8aa4ae3418acb, 0x5b9cca4f7763e373, 0x682e6ff3d6b2b8a3,
   0x748f82ee5defb2fc, 0x78a5636f43172f60, 0x84c87814a1f0ab72, 0x8cc702081a6439ec] ++
  [0x90befffa23631e28, 0xa4506cebde82bde9, 0xbef9a3f7b2c67915, 0xc67178f2e372532b,
   0xca273eceea26619c, 0xd186b8c721c0c207, 0xeada7dd6cde0eb1e, 0xf57d4f7fee6ed178,
   0x06f067aa72176fba, 0x0a637dc5a2c898a6, 0x113f9804bef90dae, 0x1b710b35131c471b,
   0x28db77f523047d84, 0x32caab7b40c72493, 0x3c9ebe0a15c9bebc, 0x431d67c49c100d4c,
   0x4cc5d4becb3e42b6, 0x597f299cfc657e2a, 0x5fcb6fab3ad6faec, 0x6c44198c4a475817]

/-- The eight working words. -/
structure Sha where
  (a b c d e f g h : Nat)

/-- The initial hash value. -/
def shaInit : Sha :=
  ⟨0xcbbb9d5dc1059ed8, 0x629a292a367cd507, 0x9159015a3070dd17, 0x152fecd8f70e5939,
   0x67332667ffc00b31, 0x8eb44a8768581511, 0xdb0c2e0d64f98fa7, 0x47b5481dbefa4fa4⟩

/-- The next word of the message schedule, `l` the words before it, newest first. -/
def shaWord (l : List Nat) : Nat :=
  let x := l.getD 1 0
  let y := l.getD 14 0
  low64 ((rotr64 x 19 ^^^ rotr64 x 61 ^^^ (x >>> 6)) + l.getD 6 0 + (rotr64 y 1 ^^^ rotr64 y 8 ^^^ (y >>> 7)) + l.getD 15 0)

/-- `n` more words of the message schedule. -/
def shaSchedule : Nat → List Nat → List Nat
  | 0, l => l
  | n + 1, l => shaSchedule n (shaWord l :: l)

/-- One round with the sum of its constant and its word. -/
def shaRound (s : Sha) (kw : Nat) : Sha :=
  let t1 := s.h + (rotr64 s.e 14 ^^^ rotr64 s.e 18 ^^^ rotr64 s.e 41) + ((s.e &&& s.f) ^^^ ((2 ^ 64 - 1 - s.e) &&& s.g)) + kw
  let t2 := (rotr64 s.a 28 ^^^ rotr64 s.a 34 ^^^ rotr64 s.a 39) + ((s.a &&& s.b) ^^^ (s.a &&& s.c) ^^^ (s.b &&& s.c))
  ⟨low64 (t1 + t2), s.a, s.b, s.c, low64 (s.d + t1), s.e, s.f, s.g⟩

/-- A block of 16 words. -/
def shaBlock (h : Sha) (ws : List Nat) : Sha :=
  let s := ((shaK.zip (shaSchedule 64 ws.reverse).reverse).map fun x => x.1 + x.2).foldl shaRound h
  ⟨low64 (h.a + s.a), low64 (h.b + s.b), low64 (h.c + s.c), low64 (h.d + s.d), low64 (h.e + s.e), low64 (h.f + s.f),
   low64 (h.g + s.g), low64 (h.h + s.h)⟩

/-- The message with its padding: a 1 bit, zeros, its length in bits in 16 bytes. -/
def shaPad (m : List Byte) : List Byte :=
  m ++ 0x80 :: (List.replicate ((239 - m.length % 128) % 128) 0 ++ beBytes (8 * m.length) 16)

/-- Hash `n` blocks of bytes. -/
def shaBlocks : Nat → List Byte → Sha → Sha
  | 0, _, h => h
  | n + 1, l, h => shaBlocks n (l.drop 128) (shaBlock h ((List.range 16).map fun i => beNat (sliceBytes l (8 * i) 8)))

/-- SHA-384, 48 bytes. -/
def sha384 (m : List Byte) : List Byte :=
  let p := shaPad m
  let h := shaBlocks (p.length / 128) p shaInit
  [h.a, h.b, h.c, h.d, h.e, h.f].flatMap fun x => beBytes x 8

/-! ### The curve P-384 -/

/-- The field's prime, the curve's coefficient b, the order of its group and its base point. -/
def p384P : Nat := 2 ^ 384 - 2 ^ 128 - 2 ^ 96 + 2 ^ 32 - 1
def p384B : Nat :=
  0xb3312fa7e23ee7e4988e056be3f82d19181d9c6efe8141120314088f5013875ac656398d8a2ed19d2a85c8edd3ec2aef
def p384N : Nat :=
  0xffffffffffffffffffffffffffffffffffffffffffffffffc7634d81f4372ddf581a0db248b0a77aecec196accc52973
def p384Gx : Nat :=
  0xaa87ca22be8b05378eb1c71ef320ad746e1d3b628ba79b9859f741e082542a385502f25dbf55296c3a545e3872760ab7
def p384Gy : Nat :=
  0x3617de4a96262c6f5d9e98bf9292dc29f8f41dbd289a147ce9da3113b5f0b8c00a60b1ce1d7e819d7a431d7c90ea0e5f

/-- `k` of a number, which is evaluated first. -/
def withNat {α : Type} (n : Nat) (k : Nat → α) : α := match n with | 0 => k 0 | m + 1 => k (m + 1)

/-- A point in Jacobian coordinates; Z 0 is the point at infinity. -/
structure EcPoint where
  (x y z : Nat)

/-- A point of reduced coordinates. -/
def ecMake (x y z : Nat) : EcPoint :=
  withNat (x % p384P) fun x => withNat (y % p384P) fun y => withNat (z % p384P) fun z => ⟨x, y, z⟩

def ecInf : EcPoint := ⟨1, 1, 0⟩

/-- A difference modulo the field's prime. -/
def ecSub (a b : Nat) : Nat := a + (p384P - b % p384P)

/-- Twice a point. -/
def ecDouble (p : EcPoint) : EcPoint :=
  withNat (p.z * p.z % p384P) fun d => withNat (p.y * p.y % p384P) fun g => withNat (p.x * g % p384P) fun b =>
  withNat (3 * ecSub p.x d * (p.x + d) % p384P) fun a =>
  withNat (ecSub (a * a) (8 * b) % p384P) fun x =>
  ecMake x (ecSub (a * ecSub (4 * b) x) (8 * g * g)) (2 * p.y * p.z)

/-- The sum of two points. -/
def ecAdd (p q : EcPoint) : EcPoint :=
  if p.z = 0 then q
  else if q.z = 0 then p
  else
    withNat (p.z * p.z % p384P) fun z1 => withNat (q.z * q.z % p384P) fun z2 =>
    withNat (p.x * z2 % p384P) fun u1 => withNat (q.x * z1 % p384P) fun u2 =>
    withNat (p.y * q.z * z2 % p384P) fun s1 => withNat (q.y * p.z * z1 % p384P) fun s2 =>
    if u1 = u2 then (if s1 = s2 then ecDouble p else ecInf)
    else
      withNat (ecSub u2 u1 % p384P) fun h => withNat (ecSub s2 s1 % p384P) fun r =>
      withNat (h * h % p384P) fun h2 => withNat (h * h2 % p384P) fun h3 => withNat (u1 * h2 % p384P) fun v =>
      withNat (ecSub (ecSub (r * r) h3) (2 * v) % p384P) fun x =>
      ecMake x (ecSub (r * ecSub v x) (s1 * h3)) (h * p.z * q.z)

/-- u·G + v·Q by the low `n` bits of `u` and `v`, from the top; `gq` is G + Q. -/
def ecMulAdd (g q gq : EcPoint) (u v : Nat) : Nat → EcPoint → EcPoint
  | 0, a => a
  | n + 1, a =>
    let d := ecDouble a
    let i := u / 2 ^ n % 2
    let j := v / 2 ^ n % 2
    ecMulAdd g q gq u v n (if i = 1 then (if j = 1 then ecAdd d gq else ecAdd d g) else if j = 1 then ecAdd d q else d)

/-- A power modulo `m` by the low `n` bits of the exponent. -/
def powMod (b e m : Nat) : Nat → Nat → Nat
  | 0, a => a
  | n + 1, a => withNat (if e / 2 ^ n % 2 = 1 then a * a % m * b % m else a * a % m) fun a => powMod b e m n a

/-- A pair of coordinates is a point of the curve. -/
def onCurve (x y : Nat) : Bool :=
  decide (x < p384P) && decide (y < p384P) && (y * y % p384P == (x * x * x + (p384P - 3) * x + p384B) % p384P)

/-- Coordinates, or r and s, from 96 bytes in the order of SEC 1. -/
def ecPair (b : List Byte) : Nat × Nat := (beNat (sliceBytes b 0 48), beNat (sliceBytes b 48 48))

/-- The P-384 curve check of a public key of 96 bytes, x then y (R417). -/
def keyOnCurve (key : List Byte) : Bool := onCurve (ecPair key).1 (ecPair key).2

/-- ECDSA verification of a digest's number `e`. -/
def ecVerify (x y e r s : Nat) : Bool :=
  onCurve x y && decide (0 < r) && decide (r < p384N) && decide (0 < s) && decide (s < p384N) &&
    (withNat (powMod s (p384N - 2) p384N 384 1) fun w =>
     withNat (e * w % p384N) fun u => withNat (r * w % p384N) fun v =>
       let g : EcPoint := ⟨p384Gx, p384Gy, 1⟩
       let q : EcPoint := ⟨x, y, 1⟩
       let t := ecMulAdd g q (ecAdd g q) u v 384 ecInf
       t.z != 0 && withNat (t.z * t.z % p384P) fun z2 =>
         t.x == r * z2 % p384P || (decide (r + p384N < p384P) && t.x == (r + p384N) * z2 % p384P))

/-- ECDSA P-384 verification of a digest under a public key, x then y, and a signature, r then s (R415, R429). A key that is no
point of the curve verifies nothing. -/
def ecdsaVerify (key digest sig : List Byte) : Bool :=
  ecVerify (ecPair key).1 (ecPair key).2 (beNat digest) (ecPair sig).1 (ecPair sig).2

end Sys2Proof.Machine
end

