-- ==== Sys2Proof/Machine/Hash.lean ====
section
/-!
DEFINITION. The two CRCs of R384 and R473 (spec/17_faults_and_repair.md).
-/
namespace Sys2Proof.Machine

/-- One bit of the reflected CRC-32C register. -/
def crc32Bit (c : BitVec 32) : BitVec 32 := if c.getLsbD 0 then (c >>> 1) ^^^ 0x82F63B78#32 else c >>> 1

/-- One byte of CRC-32C. -/
def crc32Byte (c : BitVec 32) (b : Byte) : BitVec 32 :=
  crc32Bit (crc32Bit (crc32Bit (crc32Bit (crc32Bit (crc32Bit (crc32Bit (crc32Bit (c ^^^ b.setWidth 32))))))))

/-- CRC-32C of bytes with a register preset, the final XOR applied (R384, R473). -/
def crc32c (preset : BitVec 32) (bs : List Byte) : BitVec 32 := (bs.foldl crc32Byte preset) ^^^ 0xFFFFFFFF#32

/-- One bit of the CRC-64/ECMA-182 register. -/
def crc64Bit (c : BitVec 64) : BitVec 64 := if c.getLsbD 63 then (c <<< 1) ^^^ 0x42F0E1EBA9EA3693#64 else c <<< 1

/-- One byte of CRC-64/ECMA-182. -/
def crc64Byte (c : BitVec 64) (b : Byte) : BitVec 64 :=
  crc64Bit (crc64Bit (crc64Bit (crc64Bit (crc64Bit (crc64Bit (crc64Bit (crc64Bit (c ^^^ b.setWidth 64 <<< 56))))))))

/-- CRC-64/ECMA-182 continued from a register (R384). -/
def crc64 (init : BitVec 64) (bs : List Byte) : BitVec 64 := bs.foldl crc64Byte init

/-- One bit of the IEEE 802.3 frame check sequence register (PRESUMED, log entry 24). -/
def fcsBit (c : BitVec 32) : BitVec 32 := if c.getLsbD 0 then (c >>> 1) ^^^ 0xEDB88320#32 else c >>> 1

/-- One byte of the frame check sequence. -/
def fcsByte (c : BitVec 32) (b : Byte) : BitVec 32 :=
  fcsBit (fcsBit (fcsBit (fcsBit (fcsBit (fcsBit (fcsBit (fcsBit (c ^^^ b.setWidth 32))))))))

/-- A frame with its FCS (R208 step 8). -/
def withFcs (f : List Byte) : List Byte := f ++ leBytes ((f.foldl fcsByte 0xFFFFFFFF#32) ^^^ 0xFFFFFFFF#32).toNat 4

end Sys2Proof.Machine
end

