-- ==== Sys2Proof/Machine/Micro.lean ====
section
/-!
DEFINITION. The microword (R249, Tables 1–9 of spec/11_microcode.md) and the checks an image passes before it is loaded
(R250, R252, R257, R261, Table 12).
-/
namespace Sys2Proof.Machine

/-! Fields of a 128-bit microword. -/
def uCyc (w : Nat) : Nat := bitsOf w 126 2
def uSeq (w : Nat) : Nat := bitsOf w 120 6
def uGroup (w : Nat) : Nat := bitsOf w 118 2
def uNib (w : Nat) : Nat := bitsOf w 116 2
def uMask (w : Nat) : Nat := bitsOf w 112 4
def uNext (w : Nat) : Nat := bitsOf w 100 12
def uAop (w : Nat) : Nat := bitsOf w 94 6
def uSetc (w : Nat) : Bool := bitsOf w 93 1 == 1
def uDst (w : Nat) : Nat := bitsOf w 87 6
def uSa (w : Nat) : Nat := bitsOf w 81 6
def uSb (w : Nat) : Nat := bitsOf w 75 6
def uBmode (w : Nat) : Nat := bitsOf w 73 2
def uSh (w : Nat) : Nat := bitsOf w 64 6
def uBop (w : Nat) : Nat := bitsOf w 59 5
def uReg (w : Nat) : Nat := bitsOf w 53 6
def uAreg (w : Nat) : Nat := bitsOf w 47 6
def uSz (w : Nat) : Nat := bitsOf w 45 2
def uDisp (w : Nat) : Nat := bitsOf w 28 17
def uLit (w : Nat) : Nat := bitsOf w 0 28

/-- Least cycle length, 1–4, that the three operations of a microword allow (Tables 2, 6 and 8). -/
def uMinCyc (w : Nat) : Nat :=
  max (if uSeq w = 0x04 then 2 else 1)
    (max (if uAop w = 0x0E then 3 else if uAop w = 0x12 then 2 else 1)
      (if [0x08, 0x0A, 0x10].contains (uBop w) then 2 else 1))

/-- The ALU operation writes DST. -/
def uAluWrites (w : Nat) : Bool := !([0x00, 0x0B, 0x13].contains (uAop w))

/-- The ALU operation reads SA; reads B. -/
def uUsesA (w : Nat) : Bool := !([0x00, 0x01, 0x13].contains (uAop w))
def uUsesB (w : Nat) : Bool := !([0x00, 0x11, 0x14, 0x15].contains (uAop w))

/-- Registers the ALU slot reads. -/
def uAluReads (w : Nat) : List Nat :=
  (if uUsesA w then [uSa w] else []) ++ (if uUsesB w && uBmode w == 0 then [uSb w] else [])

/-- Registers the memory slot reads. -/
def uMemReads (w : Nat) : List Nat :=
  let b := uBop w
  (if 1 ≤ b ∧ b ≤ 9 ∨ b = 0x10 then [uAreg w] else []) ++
  (if [0x02, 0x04, 0x06, 0x08, 0x11].contains b then [uReg w] else []) ++
  (if b = 0x0B then (List.range (bitsOf (uDisp w) 8 3 + 1)).map (uReg w + ·) else []) ++
  (if b = 0x11 then [32 + bitsOf (uDisp w) 0 4] else [])

/-- Registers the memory slot writes; CHRD fills up to nine. -/
def uMemWrites (w : Nat) : List Nat :=
  let b := uBop w
  if [0x01, 0x03, 0x05, 0x07, 0x09, 0x0F].contains b then [uReg w]
  else if b = 0x11 then [uReg w, 32 + bitsOf (uDisp w) 0 4]
  else if b = 0x0C then (List.range 9).map (uReg w + ·) else []

/-- Registers a microword reads (R257). -/
def uReads (w : Nat) : List Nat := uAluReads w ++ uMemReads w

/-- What a microword shares with other threads of its cluster (R233, R234, R256): channel n as n, lock n as 64 + n, s register
n as 320 + n. -/
def uShared (w : Nat) : List Nat :=
  (match uBop w with
   | 0x0A | 0x0B | 0x0C => [uDisp w % 64]
   | 0x0D | 0x0E => [64 + uDisp w % 256]
   | 0x11 => [320 + uDisp w % 16]
   | _ => []) ++
  (if uAluWrites w ∧ 32 ≤ uDst w ∧ uDst w < 48 then [320 + (uDst w - 32)] else [])

/-- Registers a microword reads, or writes with its ALU: it waits for a load into one of them (R257). -/
def uHazards (w : Nat) : List Nat := uReads w ++ (if uAluWrites w then [uDst w] else [])

/-- Check 2: defined operations and lookup tables. -/
def uCheck2 (w : Nat) : Bool :=
  uSeq w ≤ 0x04 && uAop w ≤ 0x15 && uBop w ≤ 0x11 &&
  (uBop w ≠ 0x09 || (let t := bitsOf w 0 8; [0x10, 0x12, 0x13].contains t || (0x38 ≤ t && t ≤ 0x3F)))

/-- Check 3: the cycle length. -/
def uCheck3 (w : Nat) : Bool := uMinCyc w ≤ uCyc w + 1

/-- Check 4: NEXT AND MASK is 0 for GOTO and CALL. -/
def uCheck4 (w : Nat) : Bool := !(uSeq w == 1 || uSeq w == 2) || (uNext w &&& uMask w) == 0

/-- Check 5: fields that must be 0, reserved bits, and the fixed DST and SETC of CMP and SETF. -/
def uCheck5 (w : Nat) : Bool :=
  let a := uAop w
  let b := uBop w
  let d := uDisp w
  let z (l : List Nat) (v : Nat) := !l.contains b || v == 0
  bitsOf w 70 3 == 0 &&
  (uSeq w ≠ 2 || bitsOf w 12 16 == 0) &&
  (!(uSeq w == 3 || uSeq w == 4) || (uNext w == 0 && bitsOf w 112 8 == 0)) &&
  (uSeq w ≠ 4 || uAluWrites w) &&
  (a ≠ 0 || bitsOf w 64 36 == 0) &&
  (uUsesA w || uSa w == 0) &&
  (uUsesB w || (uSb w == 0 && uBmode w == 0)) &&
  (a == 0x0C || a == 0x0D || uSh w == 0) &&
  (a ≠ 0x0B || (uDst w == 48 && uSetc w)) &&
  (a ≠ 0x13 || (uDst w == 48 && !uSetc w)) &&
  (b ≠ 0 || bitsOf w 28 36 == 0) &&
  ((1 ≤ b && b ≤ 6) || uSz w == 0) &&
  z [0x0A, 0x0D, 0x0E, 0x10] (uReg w) &&
  z [0x0A, 0x0B, 0x0C, 0x0D, 0x0E, 0x0F, 0x11] (uAreg w) &&
  z [0x07, 0x08, 0x0F] d && z [0x0A, 0x0C] (d / 64) &&
  z [0x0B] (bitsOf d 6 2 + d / 2048) && z [0x0D, 0x0E] (d / 256) && z [0x11] (d / 16) &&
  z [0x07, 0x08] (bitsOf w 0 5) && z [0x09] (bitsOf w 16 12) &&
  (b ≠ 0x09 || (if bitsOf w 0 8 == 0x10 then bitsOf w 8 8 ≤ 63 else bitsOf w 8 8 == 0))

/-- Check 6: register codes (Table 4). -/
def uCheck6 (w : Nat) : Bool :=
  (uAluReads w ++ uMemReads w).all (· ≤ 53) && (!uAluWrites w || uDst w ≤ 48) && (uMemWrites w).all (· ≤ 48)

/-- Check 7: no register that either slot writes is named in both. -/
def uCheck7 (w : Nat) : Bool :=
  let an := uAluReads w ++ (if uAluWrites w then [uDst w] else [])
  let mn := uMemReads w ++ uMemWrites w
  ((uMemWrites w).filter (· ≠ 48)).all (fun r => !an.contains r) &&
  (!uAluWrites w || uDst w == 48 || !mn.contains (uDst w))

/-- Check 8: one user of LIT, and no bit it does not read. -/
def uCheck8 (w : Nat) : Bool :=
  let u1 := uUsesB w && uBmode w ≠ 0
  let u2 := uSeq w == 2
  let u3 := [0x07, 0x08, 0x09].contains (uBop w)
  (u1.toNat + u2.toNat + u3.toNat ≤ 1) &&
  (u1 || u2 || u3 || uLit w == 0) &&
  (!(u1 && uBmode w ≠ 2) || bitsOf w 16 12 == 0)

/-- Check 9: bit fields and register ranges. -/
def uCheck9 (w : Nat) : Bool :=
  (!(uBop w == 0x07 || uBop w == 0x08) || bitsOf w 11 3 + bitsOf w 5 6 ≤ 63) &&
  (uBop w ≠ 0x0C || uReg w ≤ 23) && (uBop w ≠ 0x0B || uReg w + bitsOf (uDisp w) 8 3 ≤ 31)

/-- A microword passes check `n` of Table 12, 2–9. -/
def uCheck (n w : Nat) : Bool :=
  match n with
  | 2 => uCheck2 w | 3 => uCheck3 w | 4 => uCheck4 w | 5 => uCheck5 w | 6 => uCheck6 w | 7 => uCheck7 w
  | 8 => uCheck8 w | 9 => uCheck9 w | _ => true

/-- A microword's 16 bytes as stored (R5, R249). -/
def uBytes (w : Nat) : List Byte := leBytes w 16

/-- A payload read under Table 11: ENTRY, IMAGE_ID, CRC, and the addressed microwords. -/
structure Payload where
  entry : Nat
  id : Nat
  crc : Nat
  words : List (Nat × Nat)
  deriving DecidableEq, Repr

/-- Segments of a payload as (START, COUNT). -/
def payloadSegs (bs : List Byte) (n : Nat) : List (Nat × Nat) :=
  (List.range n).map fun k =>
    let w := leNat (sliceBytes bs (0x20 + 8 * k) 8)
    (bitsOf w 32 12, bitsOf w 0 13)

/-- Check 1: the form of a payload; none where it breaks Table 11. -/
def readPayload (bs : List Byte) : Option Payload :=
  let w (o : Nat) := leNat (sliceBytes bs o 8)
  let n := bitsOf (w 0) 16 16
  let segs := payloadSegs bs n
  let entry := bitsOf (w 0) 32 12
  let total := (segs.map (·.2)).sum
  let rsvd := bitsOf (w 0) 44 4 + bitsOf (w 0) 0 16 + w 0x18 +
    ((List.range n).map fun k => bitsOf (w (0x20 + 8 * k)) 44 20 + bitsOf (w (0x20 + 8 * k)) 13 19).sum
  let inSeg (a : Nat) := segs.any fun g => g.1 ≤ a ∧ a < g.1 + g.2
  let apart := (List.range n).all fun i => (List.range i).all fun j =>
    match segs[i]?, segs[j]? with
    | some a, some b => a.1 + a.2 ≤ b.1 ∨ b.1 + b.2 ≤ a.1
    | _, _ => true
  if bitsOf (w 0) 48 16 = 1 ∧ 1 ≤ n ∧ n ≤ 64 ∧ rsvd = 0 ∧ (segs.all fun g => 1 ≤ g.2 ∧ g.1 + g.2 ≤ 4096) ∧ apart ∧
      inSeg entry ∧ bs.length = 0x20 + 8 * n + 16 * total then
    let addrs := segs.flatMap fun g => (List.range g.2).map (g.1 + ·)
    some { entry := entry, id := w 8, crc := w 0x10
           words := addrs.zipIdx.map fun a => (a.1, leNat (sliceBytes bs (0x20 + 8 * n + 16 * a.2) 16)) }
  else none

/-- The constructed store (R264): words outside the segments are 0. -/
def payloadStore (p : Payload) : KMap Nat := p.words.foldl (fun m a => m.put (fun _ => 0) a.1 a.2) []

/-- CRC-64 over all 4,096 words of a store. -/
def storeCrc (m : KMap Nat) : Nat :=
  ((List.range 4096).foldl (fun c a => crc64 c (uBytes (m.get (fun _ => 0) a))) 0#64).toNat

/-- R264, Table 12: the first load check that fails, with the first microword that fails it; none if all pass. -/
def loadCheck (bs : List Byte) : Option (Nat × Nat) :=
  match readPayload bs with
  | none => some (1, 0)
  | some p =>
    let m := payloadStore p
    match (List.range 10).find? fun n => 2 ≤ n && m.any fun a => !uCheck n a.2 with
    | some n => some (n, match m.find? fun a => !uCheck n a.2 with | some a => a.1 | none => 0)
    | none => if storeCrc m = p.crc then none else some (10, 0)

end Sys2Proof.Machine
end

