-- ==== Sys2Proof/Config.lean ====
section
/-!
DEFINITION. What the spec leaves open and what it takes from published standards without restating them: free values
(log entry 1), the identity key's signatures and the digests whose layout chapter spec/19_security_and_mailboxes.md does not give
(log entry 2). None has a
body that Lean can look into, so a statement about one holds for every value it could have.
-/
namespace Sys2Proof

/-- A value the spec leaves open; the argument is the number of values drawn before it (log entry 1). -/
opaque Config.freeValue : Nat → Nat

/-- The identity key's ECDSA P-384 signature of a digest, r then s, 96 bytes (R416, R422). The first argument numbers
the signatures made. -/
opaque Config.identitySign : Nat → List Byte → List Byte

/-- The boot ROM's own digest (R418). -/
opaque Config.romDigest : List Byte

/-- The digest of the fuse state (R418): of the vendor keys, revoke bits, operator keys, their present and revoke bits, and
the count, whose layout the spec does not give (log entry 2). -/
opaque Config.fuseDigest : List (List Byte) → Nat → List (List Byte) → Nat → Nat → List Byte

/-- The digest with which MEAS7 takes a switch count (R421), whose layout the spec does not give (log entry 2). -/
opaque Config.countDigest : Nat → List Byte

/-- What the device's SPDM CAPABILITIES say beside its flags (R423): CTExponent, DataTransferSize, MaxSPDMmsgSize
(log entry 2). -/
opaque Config.spdmSizes : Nat × Nat × Nat

/-- The certificate chain of the boot flash (R416). -/
opaque Config.certChain : List Byte

/-- How many low bits of a channel-local DRAM address are column bits, and which rank an address lies in, by channel (R334, R335):
the module's geometry is the implementation's (log entry 6). -/
opaque Config.colBits : Nat → Nat
opaque Config.dramRank : Nat → Nat → Nat

/-- Number, in its crosspoint, of a cell of a stored instance, by instance and cell (R268, log entry 83). -/
opaque Config.cellNo : Nat → Nat → Nat

/-- RAAIMT of a channel's module, from its SPD (R336, log entry 6). -/
opaque Config.raaimt : Nat → Nat

/-- Uncorrectable words, as (table, slot), that the rebuild of a search index's word meets (R159, log entry 77). -/
opaque Config.rebuildBad : Nat → List (Nat × Nat)

/-- Bytes of an SRAM array of a unit, by UID and array number (R377: an array below 64 KiB has no spare rows). The spec does not
say how a unit's SRAM is divided into arrays (log entry 84). -/
opaque Config.arrayBytes : Nat → Nat → Nat

/-- Frames a MAC holds, beside one, before it has no room (R297): the spec gives no depth (log entry 75). -/
opaque Config.macFrames : Nat

/-- The silicon revision of the part (Table 7 of chapter 21, log entry 2). -/
opaque Config.siliconRev : Nat

end Sys2Proof
end

