-- ==== Sys2Proof/Machine/RegTable.lean ====
section
/-!
DEFINITION. The register map of every unit kind: each register's place in its window, its fields, their access
codes, reset values, reset classes and ranges, written from the register tables of the spec (the file and table of
each list stand above it). Access codes: R4, Table 3 of spec/00_scope.md; classes: Table 4 there, as a number
P = 1, C = 2, D = 4, F = 8, U = 16. Bits that no field covers are RSVD bits (R7). A reset value that the table
gives by another rule (per unit, per kind, fuse, strap) stands as 0 here and is set in `Regs.lean`.
-/
namespace Sys2Proof.Machine

/-- Access codes of register fields (Table 3 of spec/00_scope.md). -/
inductive Access where
  | ro | rw | rwl | rws | wo | w1c | w1s | rc
  deriving DecidableEq, Repr

/-- One field of a register: its lowest bit, width, access, reset value, reset classes, least and largest value in range. -/
structure FieldDef where
  lo : Nat
  w : Nat
  acc : Access
  reset : Nat
  cls : Nat
  min : Nat
  max : Nat
  deriving DecidableEq, Repr

/-- A register, or `count` like registers `stride` bytes apart; `sel` is the window offset of the register that
selects the instance an indirect register shows (0 where it is not indirect). -/
structure RegDef where
  off : Nat
  stride : Nat
  count : Nat
  sel : Nat
  fields : List FieldDef
  deriving DecidableEq, Repr

/-- The place of a field, as the meanings name it: window offset, stride between instances, lowest bit, width. -/
structure Fld where
  off : Nat
  stride : Nat
  lo : Nat
  w : Nat
  deriving DecidableEq, Repr

/-- The field in instance `n` of a repeated register. -/
def Fld.i (f : Fld) (n : Nat) : Fld := { f with off := f.off + f.stride * n, stride := 0 }

/-- Table 3 (Unit Control Block fields) of spec/02_units_and_setup_space.md. -/
def regs_ucb : List RegDef := [
  ⟨0, 0, 1, 0, [⟨24, 8, .ro, 0, 23, 0, 0xFF⟩, ⟨0, 14, .ro, 0, 23, 0, 0x3FFF⟩]⟩,
  ⟨4, 0, 1, 0, [⟨31, 1, .ro, 0, 23, 0, 1⟩, ⟨0, 14, .ro, 0, 23, 0, 0x3FFF⟩]⟩,
  ⟨8, 0, 1, 0, [⟨16, 16, .ro, 0, 23, 0, 0xFFFF⟩, ⟨0, 7, .ro, 0, 23, 0, 0x7F⟩]⟩,
  ⟨0xC, 0, 1, 0, [⟨16, 1, .ro, 0, 23, 0, 1⟩, ⟨0, 3, .ro, 0, 23, 0, 7⟩]⟩,
  ⟨0x10, 0, 1, 0, [⟨8, 8, .wo, 0, 0, 0, 0xFF⟩, ⟨0, 3, .wo, 0, 0, 1, 6⟩]⟩,
  ⟨0x14, 0, 1, 0, [⟨31, 1, .ro, 0, 23, 0, 1⟩, ⟨16, 14, .ro, 0, 23, 0, 0x3FFF⟩, ⟨8, 8, .ro, 0, 23, 0, 0xFF⟩, ⟨0, 8, .ro, 0, 23, 0, 0xFF⟩]⟩,
  ⟨0x18, 0, 1, 0, [⟨31, 1, .ro, 0, 23, 0, 1⟩, ⟨0, 16, .w1c, 0, 23, 0, 0xFFFF⟩]⟩,
  ⟨0x1C, 0, 1, 0, [⟨0, 16, .rw, 0, 23, 0, 0xFFFF⟩]⟩,
  ⟨0x20, 0, 1, 0, [⟨16, 5, .ro, 0, 23, 0, 0x1F⟩, ⟨0, 12, .ro, 0, 23, 0, 0xFFF⟩]⟩,
  ⟨0x24, 0, 1, 0, [⟨24, 1, .ro, 0, 23, 0, 1⟩, ⟨16, 8, .ro, 0, 23, 0, 0xFF⟩, ⟨0, 16, .ro, 0, 23, 0, 0xFFFF⟩]⟩,
  ⟨0x28, 0, 1, 0, [⟨28, 4, .ro, 0, 23, 0, 0xF⟩, ⟨0, 20, .ro, 0, 23, 0, 0xFFFFF⟩]⟩,
  ⟨0x2C, 0, 1, 0, [⟨0, 20, .rw, 0, 7, 0xA, 0xF4240⟩]⟩,
  ⟨0x30, 0, 1, 0, [⟨31, 1, .ro, 0, 23, 0, 1⟩, ⟨30, 1, .ro, 0, 23, 0, 1⟩, ⟨0, 16, .ro, 0, 23, 0, 0xFFFF⟩]⟩,
  ⟨0x34, 0, 1, 0, [⟨0, 32, .ro, 0, 23, 0, 0xFFFFFFFF⟩]⟩]

/-- Table 11 (Device registers in the DEV window (UID 0x0000)) of spec/02_units_and_setup_space.md; Table 8 (Power registers
in the DEV window (UID 0x0000)) of spec/18_resets_power_time.md. -/
def regs_dev : List RegDef := [
  ⟨0x100, 0, 1, 0, [⟨0, 1, .w1s, 0, 7, 0, 1⟩]⟩,
  ⟨0x104, 0, 1, 0, [⟨0, 16, .rw, 0x3E8, 7, 1, 0xEA60⟩]⟩,
  ⟨0x108, 0, 1, 0, [⟨16, 16, .wo, 0, 0, 0xD5E7, 0xD5E7⟩]⟩,
  ⟨0x10C, 0, 1, 0, [⟨0, 2, .wo, 0, 0, 1, 3⟩]⟩,
  ⟨0x110, 0, 1, 0, [⟨31, 1, .ro, 0, 7, 0, 1⟩, ⟨0, 3, .ro, 0, 7, 0, 7⟩]⟩,
  ⟨0x114, 0, 1, 0, [⟨0, 14, .rwl, 0x64, 7, 0xA, 0x2710⟩]⟩,
  ⟨0x118, 0, 1, 0, [⟨0, 32, .rc, 0, 7, 0, 0xFFFFFFFF⟩]⟩]

/-- Table 5 (HIF ring, function and event registers) of spec/03_host_rings.md. -/
def regs_hif : List RegDef := [
  ⟨0x100, 0, 1, 0, [⟨0, 15, .rw, 0, 7, 0, 0x7FFF⟩]⟩,
  ⟨0x104, 0, 1, 0x100, [⟨12, 1, .rwl, 0, 15, 0, 1⟩, ⟨0, 8, .rwl, 0, 15, 0, 0xFF⟩]⟩,
  ⟨0x108, 0, 1, 0x100, [⟨0, 16, .rwl, 0, 15, 0, 0x10⟩]⟩,
  ⟨0x10C, 0, 1, 0x100, [⟨0, 15, .rwl, 0, 15, 0, 0x7FFF⟩]⟩,
  ⟨0x110, 0, 1, 0x100, [⟨5, 27, .rwl, 0, 15, 0, 0x7FFFFFF⟩]⟩,
  ⟨0x114, 0, 1, 0x100, [⟨0, 32, .rwl, 0, 15, 0, 0xFFFFFFFF⟩]⟩,
  ⟨0x118, 0, 1, 0x100, [⟨3, 29, .rwl, 0, 15, 0, 0x1FFFFFFF⟩]⟩,
  ⟨0x11C, 0, 1, 0x100, [⟨0, 32, .rwl, 0, 15, 0, 0xFFFFFFFF⟩]⟩,
  ⟨0x120, 0, 1, 0x100, [⟨31, 1, .rw, 0, 15, 0, 1⟩, ⟨0, 8, .rw, 0, 15, 0, 0xFF⟩]⟩,
  ⟨0x124, 0, 1, 0x100, [⟨16, 16, .rw, 8, 15, 1, 0x3E8⟩, ⟨0, 16, .rw, 1, 15, 1, 0xFFFF⟩]⟩,
  ⟨0x128, 0, 1, 0x100, [⟨28, 4, .ro, 0, 15, 0, 0xF⟩, ⟨24, 4, .ro, 0, 15, 0, 0xF⟩, ⟨0, 17, .ro, 0, 15, 0, 0x1FFFF⟩]⟩,
  ⟨0x12C, 0, 1, 0x100, [⟨0, 32, .rc, 0, 15, 0, 0xFFFFFFFF⟩]⟩,
  ⟨0x140, 0, 1, 0, [⟨0, 7, .rw, 1, 7, 1, 0x4B⟩]⟩,
  ⟨0x144, 0, 1, 0x140, [⟨16, 16, .rwl, 0, 7, 0, 0xFFFF⟩, ⟨0, 15, .rwl, 0, 7, 0, 0x7FFF⟩]⟩,
  ⟨0x148, 0, 1, 0x140, [⟨1, 1, .rwl, 0, 7, 0, 1⟩, ⟨0, 1, .rwl, 0, 7, 0, 1⟩]⟩,
  ⟨0x14C, 0, 1, 0x140, [⟨1, 1, .ro, 0, 7, 0, 1⟩, ⟨0, 1, .ro, 0, 7, 0, 1⟩]⟩,
  ⟨0x160, 0, 1, 0, [⟨0, 12, .rw, 0, 7, 0, 0xFFF⟩]⟩,
  ⟨0x164, 0, 1, 0x160, [⟨16, 1, .rwl, 1, 7, 0, 1⟩, ⟨15, 1, .rwl, 1, 7, 0, 1⟩, ⟨0, 15, .rwl, 0, 7, 0, 0x7FFF⟩]⟩,
  ⟨0x168, 0, 1, 0, [⟨0, 32, .rc, 0, 7, 0, 0xFFFFFFFF⟩]⟩,
  ⟨0x16C, 0, 1, 0, [⟨31, 1, .ro, 0, 7, 0, 1⟩, ⟨20, 5, .ro, 0, 7, 0, 0x1F⟩, ⟨16, 4, .ro, 0, 7, 0, 0xF⟩, ⟨4, 5, .ro, 0, 7, 0, 0x1F⟩, ⟨0, 4, .ro, 0, 7, 0, 0xF⟩]⟩]

/-- Table 13 (Table command window (offsets within BAR2 of a PF)) of spec/03_host_rings.md. -/
def regs_tcw : List RegDef := [
  ⟨0xA000, 0, 1, 0, [⟨24, 8, .wo, 0, 0, 0, 0xFF⟩, ⟨16, 8, .wo, 0, 0, 0, 0xFF⟩, ⟨8, 2, .wo, 0, 0, 0, 3⟩, ⟨0, 4, .wo, 0, 0, 1, 6⟩]⟩,
  ⟨0xA004, 0, 1, 0, [⟨31, 1, .ro, 0, 15, 0, 1⟩, ⟨8, 8, .ro, 0, 15, 0, 0xFF⟩, ⟨0, 8, .ro, 0, 15, 0, 0xFF⟩]⟩,
  ⟨0xA040, 4, 16, 0, [⟨0, 32, .rw, 0, 15, 0, 0xFFFFFFFF⟩]⟩,
  ⟨0xA080, 4, 16, 0, [⟨0, 32, .rw, 0, 15, 0, 0xFFFFFFFF⟩]⟩,
  ⟨0xA0C0, 4, 16, 0, [⟨0, 32, .ro, 0, 15, 0, 0xFFFFFFFF⟩]⟩]

/-- Table 2 (MAC window registers (kind 0x17)) of spec/04_ports.md. -/
def regs_mac : List RegDef := [
  ⟨0x100, 0, 1, 0, [⟨0, 3, .rwl, 0, 7, 0, 7⟩]⟩,
  ⟨0x200, 0x40, 8, 0, [⟨31, 1, .rwl, 0, 7, 0, 1⟩, ⟨26, 2, .rwl, 0, 7, 0, 2⟩, ⟨24, 2, .rwl, 0, 7, 0, 3⟩, ⟨23, 1, .rwl, 0, 7, 0, 1⟩, ⟨0, 14, .rwl, 0x2400, 7, 0x40, 0x2400⟩]⟩,
  ⟨0x204, 0x40, 8, 0, [⟨0, 14, .rwl, 0, 7, 0, 0x2710⟩]⟩,
  ⟨0x208, 0x40, 8, 0, [⟨16, 16, .rwl, 0, 7, 0, 0x2710⟩, ⟨0, 16, .rwl, 0, 7, 0, 0x2710⟩]⟩,
  ⟨0x20C, 0x40, 8, 0, [⟨16, 8, .rwl, 0xFF, 7, 0, 0xFF⟩, ⟨8, 8, .rwl, 0xFF, 7, 0, 0xFF⟩]⟩,
  ⟨0x210, 0x40, 8, 0, [⟨16, 16, .rwl, 0x1000, 7, 1, 0xFFFF⟩, ⟨0, 16, .rwl, 0x800, 7, 0, 0xFFFF⟩]⟩,
  ⟨0x214, 0x40, 8, 0, [⟨0, 16, .rwl, 0, 7, 0, 0x3E8⟩]⟩,
  ⟨0x218, 0x40, 8, 0, [⟨16, 16, .rwl, 0, 7, 0, 0xFFFF⟩, ⟨0, 16, .rwl, 0, 7, 0, 0xFFFF⟩]⟩,
  ⟨0x21C, 0x40, 8, 0, [⟨29, 3, .ro, 0, 23, 0, 7⟩, ⟨25, 4, .ro, 0, 23, 0, 0xF⟩, ⟨24, 1, .ro, 0, 23, 0, 1⟩, ⟨16, 8, .ro, 0, 23, 0, 0xFF⟩, ⟨8, 8, .ro, 0, 23, 0, 0xFF⟩]⟩,
  ⟨0x220, 0x40, 8, 0, [⟨0, 32, .rc, 0, 7, 0, 0xFFFFFFFF⟩]⟩,
  ⟨0x400, 8, 320, 0, [⟨0, 32, .ro, 0, 7, 0, 0xFFFFFFFF⟩]⟩,
  ⟨0x404, 8, 320, 0, [⟨0, 32, .ro, 0, 7, 0, 0xFFFFFFFF⟩]⟩]

/-- Table 3 (Lane window registers (kind 0x16)) of spec/04_ports.md. -/
def regs_lane : List RegDef := [
  ⟨0x100, 0, 1, 0, [⟨31, 1, .ro, 0, 23, 0, 1⟩, ⟨30, 1, .ro, 0, 23, 0, 1⟩, ⟨29, 1, .ro, 0, 23, 0, 1⟩, ⟨0, 14, .ro, 0, 23, 0, 0x3FFF⟩]⟩,
  ⟨0x104, 0, 1, 0, [⟨1, 1, .rw, 0, 23, 0, 1⟩, ⟨0, 1, .w1s, 0, 23, 0, 1⟩]⟩,
  ⟨0x108, 0, 1, 0, [⟨1, 1, .rwl, 0, 7, 0, 1⟩, ⟨0, 1, .rwl, 0, 7, 0, 1⟩]⟩,
  ⟨0x10C, 0, 1, 0, [⟨31, 1, .rw, 0, 23, 0, 1⟩, ⟨28, 3, .rw, 0, 23, 0, 5⟩, ⟨26, 2, .rw, 0, 23, 0, 1⟩, ⟨0, 14, .rw, 0x2981, 23, 0x7D, 0x2BF2⟩]⟩,
  ⟨0x110, 0, 1, 0, [⟨0, 32, .rc, 0, 23, 0, 0xFFFFFFFF⟩]⟩]

/-- Table 8 (ADM window registers (kind 0x0E)) of spec/05_parsing.md. -/
def regs_adm : List RegDef := [
  ⟨0x100, 0, 1, 0, [⟨0, 1, .ro, 0, 7, 0, 1⟩]⟩,
  ⟨0x200, 4, 33, 0, [⟨0, 4, .rwl, 0, 7, 0, 0xF⟩]⟩,
  ⟨0x300, 4, 16, 0, [⟨16, 6, .rwl, 0, 7, 0, 0x3F⟩, ⟨0, 9, .rwl, 0x14, 7, 2, 0x1F4⟩]⟩,
  ⟨0x380, 4, 16, 0, [⟨0, 2, .rwl, 0, 7, 0, 2⟩]⟩,
  ⟨0x400, 8, 32, 0, [⟨0, 32, .ro, 0, 7, 0, 0xFFFFFFFF⟩]⟩,
  ⟨0x404, 8, 32, 0, [⟨0, 32, .ro, 0, 7, 0, 0xFFFFFFFF⟩]⟩,
  ⟨0x500, 8, 16, 0, [⟨0, 32, .ro, 0, 7, 0, 0xFFFFFFFF⟩]⟩,
  ⟨0x504, 8, 16, 0, [⟨0, 32, .ro, 0, 7, 0, 0xFFFFFFFF⟩]⟩]

/-- Table 3 (Table group window registers) of spec/06_lookup_tables.md; Table 5 (Generation registers in the table group
window (UID 0x0C00)) of spec/07_generations.md; Table 3 (Sieve registers in the table group window (UID 0x0C00)) of
spec/08_classifier_and_cam.md; Table 12 (CAM search set in the table group window (UID 0x0C00)) of
spec/08_classifier_and_cam.md; Table 7 (Resolve registers in the table group window (UID 0x0C00)) of
spec/09_actions_and_rewrite.md (part 1). -/
def regs_tgp_0 : List RegDef := [
  ⟨0x100, 0, 1, 0, [⟨0, 8, .rw, 0x10, 7, 0, 0xFF⟩]⟩,
  ⟨0x104, 0, 1, 0x100, [⟨12, 20, .rwl, 0, 7, 0, 0xFFFFF⟩]⟩,
  ⟨0x108, 0, 1, 0x100, [⟨0, 32, .rwl, 0, 7, 0, 0xFFFFFFFF⟩]⟩,
  ⟨0x10C, 0, 1, 0x100, [⟨31, 1, .rwl, 0, 7, 0, 1⟩, ⟨0, 4, .rwl, 0, 7, 0, 0xA⟩]⟩,
  ⟨0x110, 0, 1, 0x100, [⟨0, 24, .ro, 0, 7, 0, 0xFFFFFF⟩]⟩,
  ⟨0x114, 0, 1, 0x100, [⟨0, 32, .rc, 0, 7, 0, 0xFFFFFFFF⟩]⟩,
  ⟨0x118, 0, 1, 0x100, [⟨0, 32, .rc, 0, 7, 0, 0xFFFFFFFF⟩]⟩,
  ⟨0x120, 0, 1, 0, [⟨0, 4, .rwl, 0, 7, 0, 8⟩]⟩,
  ⟨0x124, 0, 1, 0, [⟨31, 1, .ro, 0, 7, 0, 1⟩, ⟨0, 4, .ro, 8, 7, 0, 0xF⟩]⟩,
  ⟨0x128, 0, 1, 0, [⟨0, 9, .ro, 0, 7, 0, 0x1FF⟩]⟩,
  ⟨0x140, 8, 8, 0, [⟨16, 4, .ro, 0, 7, 0, 0xF⟩, ⟨0, 4, .ro, 0, 7, 0, 0xF⟩]⟩,
  ⟨0x200, 8, 64, 0, [⟨24, 8, .rwl, 0, 7, 0, 0xFF⟩, ⟨19, 5, .rwl, 0, 7, 0, 0x10⟩, ⟨8, 8, .rwl, 0, 7, 0, 0xFF⟩, ⟨3, 5, .rwl, 0, 7, 0, 0x10⟩, ⟨0, 1, .rwl, 0, 7, 0, 1⟩]⟩,
  ⟨0x204, 8, 64, 0, [⟨24, 8, .rwl, 0, 7, 0, 0xFF⟩, ⟨19, 5, .rwl, 0, 7, 0, 0x10⟩, ⟨8, 8, .rwl, 0, 7, 0, 0xFF⟩, ⟨3, 5, .rwl, 0, 7, 0, 0x10⟩]⟩,
  ⟨0x400, 8, 64, 0, [⟨31, 1, .rwl, 0, 7, 0, 1⟩, ⟨25, 6, .rwl, 0, 7, 0, 0x3F⟩, ⟨24, 1, .rwl, 0, 7, 0, 1⟩, ⟨18, 6, .rwl, 0, 7, 0, 0x3F⟩, ⟨16, 2, .rwl, 0, 7, 0, 2⟩, ⟨8, 8, .rwl, 0, 7, 0, 0x9C⟩, ⟨7, 1, .rwl, 0, 7, 0, 1⟩]⟩,
  ⟨0x404, 8, 64, 0, [⟨31, 1, .rwl, 0, 7, 0, 1⟩, ⟨16, 8, .rwl, 0, 7, 0, 0x9E⟩, ⟨0, 12, .rwl, 0, 7, 0, 0xFFF⟩]⟩,
  ⟨0x600, 0x20, 8, 0, [⟨0, 32, .rwl, 0, 7, 0, 0xFFFFFFFF⟩]⟩,
  ⟨0x604, 0x20, 8, 0, [⟨0, 32, .rwl, 0, 7, 0, 0xFFFFFFFF⟩]⟩,
  ⟨0x608, 0x20, 8, 0, [⟨0, 32, .rwl, 0, 7, 0, 0xFFFFFFFF⟩]⟩,
  ⟨0x60C, 0x20, 8, 0, [⟨0, 32, .rwl, 0, 7, 0, 0xFFFFFFFF⟩]⟩,
  ⟨0x610, 0x20, 8, 0, [⟨0, 32, .rwl, 0, 7, 0, 0xFFFFFFFF⟩]⟩,
  ⟨0x614, 0x20, 8, 0, [⟨0, 32, .rwl, 0, 7, 0, 0xFFFFFFFF⟩]⟩,
  ⟨0x800, 0, 1, 0, [⟨16, 16, .ro, 0, 7, 0, 0xFFFF⟩, ⟨4, 3, .ro, 0, 7, 0, 7⟩, ⟨0, 1, .ro, 0, 7, 0, 1⟩]⟩,
  ⟨0x804, 0, 1, 0, [⟨0, 24, .ro, 0, 7, 0, 0xFFFFFF⟩]⟩,
  ⟨0x808, 0, 1, 0, [⟨0, 24, .ro, 0, 7, 0, 0xFFFFFF⟩]⟩,
  ⟨0x80C, 0, 1, 0, [⟨0, 32, .ro, 0, 7, 0, 0xFFFFFFFF⟩]⟩]

/-- Table 3 (Table group window registers) of spec/06_lookup_tables.md; Table 5 (Generation registers in the table group
window (UID 0x0C00)) of spec/07_generations.md; Table 3 (Sieve registers in the table group window (UID 0x0C00)) of
spec/08_classifier_and_cam.md; Table 12 (CAM search set in the table group window (UID 0x0C00)) of
spec/08_classifier_and_cam.md; Table 7 (Resolve registers in the table group window (UID 0x0C00)) of
spec/09_actions_and_rewrite.md (part 2). -/
def regs_tgp_1 : List RegDef := [
  ⟨0x810, 0, 1, 0, [⟨0, 32, .ro, 0, 7, 0, 0xFFFFFFFF⟩]⟩,
  ⟨0x814, 0, 1, 0, [⟨31, 1, .ro, 0, 7, 0, 1⟩, ⟨0, 24, .ro, 0, 7, 0, 0xFFFFFF⟩]⟩,
  ⟨0x818, 0, 1, 0, [⟨0, 8, .rw, 0x10, 7, 0, 0xFF⟩]⟩,
  ⟨0x81C, 0, 1, 0x818, [⟨0, 24, .ro, 0, 7, 0, 0xFFFFFF⟩]⟩,
  ⟨0x820, 0, 1, 0x818, [⟨0, 24, .ro, 0, 7, 0, 0xFFFFFF⟩]⟩,
  ⟨0x824, 0, 1, 0, [⟨0, 7, .ro, 0, 7, 0, 0x7F⟩]⟩,
  ⟨0x900, 8, 16, 0, [⟨24, 8, .rwl, 0, 7, 0, 0xFF⟩, ⟨19, 5, .rwl, 0, 7, 0, 0x10⟩, ⟨8, 8, .rwl, 0, 7, 0, 0xFF⟩, ⟨3, 5, .rwl, 0, 7, 0, 0x10⟩]⟩,
  ⟨0x904, 8, 16, 0, [⟨24, 8, .rwl, 0, 7, 0, 0xFF⟩, ⟨19, 5, .rwl, 0, 7, 0, 0x10⟩, ⟨8, 8, .rwl, 0, 7, 0, 0xFF⟩, ⟨3, 5, .rwl, 0, 7, 0, 0x10⟩]⟩,
  ⟨0x980, 4, 80, 0, [⟨31, 1, .rwl, 0, 7, 0, 1⟩, ⟨0, 4, .rwl, 0, 7, 0, 0xF⟩]⟩,
  ⟨0xAC0, 0, 1, 0, [⟨0, 6, .rw, 0, 7, 0, 0x3F⟩]⟩,
  ⟨0xAC4, 0, 1, 0xAC0, [⟨31, 1, .rwl, 0, 7, 0, 1⟩, ⟨30, 1, .rwl, 0, 7, 0, 1⟩, ⟨0, 4, .rwl, 0, 7, 0, 0xF⟩]⟩,
  ⟨0xAC8, 4, 10, 0xAC0, [⟨0, 32, .rwl, 0, 7, 0, 0xFFFFFFFF⟩]⟩,
  ⟨0xAF0, 0, 1, 0xAC0, [⟨0, 19, .ro, 0, 7, 0, 0x7FFFF⟩]⟩,
  ⟨0xB00, 0, 1, 0, [⟨0, 19, .rwl, 0, 7, 0, 0x40000⟩]⟩,
  ⟨0xB04, 0, 1, 0, [⟨0, 19, .ro, 0, 7, 0, 0x7FFFF⟩]⟩,
  ⟨0xB08, 0, 1, 0, [⟨0, 32, .rc, 0, 7, 0, 0xFFFFFFFF⟩]⟩,
  ⟨0xB10, 0, 1, 0, [⟨12, 20, .rwl, 0, 7, 0, 0xFFFFF⟩]⟩,
  ⟨0xB14, 0, 1, 0, [⟨0, 32, .rwl, 0, 7, 0, 0xFFFFFFFF⟩]⟩,
  ⟨0xB18, 0, 1, 0, [⟨31, 1, .rwl, 0, 7, 0, 1⟩, ⟨0, 4, .rwl, 0, 7, 0, 0xA⟩]⟩,
  ⟨0xB1C, 0, 1, 0, [⟨0, 18, .ro, 0, 7, 0, 0x3FFFF⟩]⟩,
  ⟨0xB20, 0, 1, 0, [⟨0, 32, .rc, 0, 7, 0, 0xFFFFFFFF⟩]⟩,
  ⟨0xB24, 0, 1, 0, [⟨0, 32, .rc, 0, 7, 0, 0xFFFFFFFF⟩]⟩,
  ⟨0x700, 4, 64, 0, [⟨31, 1, .rwl, 0, 7, 0, 1⟩, ⟨12, 3, .rwl, 0, 7, 0, 7⟩, ⟨0, 6, .rwl, 0, 7, 0, 0x3F⟩]⟩,
  ⟨0xB40, 0, 1, 0, [⟨0, 20, .rwl, 0, 7, 0, 0xFFFFF⟩]⟩,
  ⟨0xB44, 0, 1, 0, [⟨31, 1, .rwl, 0, 7, 0, 1⟩, ⟨0, 15, .rwl, 0, 7, 0, 0x7FFF⟩]⟩]

/-- Table 3 (Table group window registers) of spec/06_lookup_tables.md; Table 5 (Generation registers in the table group
window (UID 0x0C00)) of spec/07_generations.md; Table 3 (Sieve registers in the table group window (UID 0x0C00)) of
spec/08_classifier_and_cam.md; Table 12 (CAM search set in the table group window (UID 0x0C00)) of
spec/08_classifier_and_cam.md; Table 7 (Resolve registers in the table group window (UID 0x0C00)) of
spec/09_actions_and_rewrite.md (part 3). -/
def regs_tgp_2 : List RegDef := [
  ⟨0xC00, 8, 64, 0, [⟨30, 2, .rwl, 0, 7, 0, 2⟩, ⟨27, 3, .rwl, 0, 7, 0, 7⟩, ⟨0, 24, .rwl, 0xC00000, 7, 0, 0xFFFFFF⟩]⟩,
  ⟨0xC04, 8, 64, 0, [⟨0, 18, .rwl, 0, 7, 0, 0x3FFFF⟩]⟩]

/-- The registers of Table 3 (Table group window registers) of spec/06_lookup_tables.md; Table 5 (Generation registers in
the table group window (UID 0x0C00)) of spec/07_generations.md; Table 3 (Sieve registers in the table group window (UID
0x0C00)) of spec/08_classifier_and_cam.md; Table 12 (CAM search set in the table group window (UID 0x0C00)) of
spec/08_classifier_and_cam.md; Table 7 (Resolve registers in the table group window (UID 0x0C00)) of
spec/09_actions_and_rewrite.md. -/
def regs_tgp : List RegDef := regs_tgp_0 ++ regs_tgp_1 ++ regs_tgp_2

/-- Table 10 (LRN window registers (kind 0x13)) of spec/06_lookup_tables.md. -/
def regs_lrn : List RegDef := [
  ⟨0x100, 0, 1, 0, [⟨31, 1, .rwl, 0, 7, 0, 1⟩, ⟨30, 1, .rwl, 0, 7, 0, 1⟩, ⟨0, 16, .rwl, 0x400, 7, 1, 0xFFFF⟩]⟩,
  ⟨0x104, 0, 1, 0, [⟨24, 8, .rwl, 0, 7, 0, 0x9A⟩, ⟨16, 8, .rwl, 6, 7, 0, 0x9A⟩, ⟨8, 8, .rwl, 0xC, 7, 0, 0x9E⟩]⟩,
  ⟨0x108, 0, 1, 0, [⟨0, 15, .rwl, 0, 7, 0, 0x7FFF⟩]⟩,
  ⟨0x10C, 0, 1, 0, [⟨0, 17, .ro, 0, 23, 0, 0x1FFFF⟩]⟩,
  ⟨0x110, 0, 1, 0, [⟨0, 32, .rc, 0, 23, 0, 0xFFFFFFFF⟩]⟩,
  ⟨0x114, 0, 1, 0, [⟨0, 32, .rc, 0, 23, 0, 0xFFFFFFFF⟩]⟩,
  ⟨0x118, 0, 1, 0, [⟨0, 32, .rc, 0, 23, 0, 0xFFFFFFFF⟩]⟩,
  ⟨0x11C, 0, 1, 0, [⟨0, 32, .rc, 0, 23, 0, 0xFFFFFFFF⟩]⟩]

/-- Table 4 (SIV window registers (kind 0x0F), per course) of spec/08_classifier_and_cam.md. -/
def regs_siv : List RegDef := [
  ⟨0x100, 0, 1, 0, [⟨0, 32, .rc, 0, 23, 0, 0xFFFFFFFF⟩]⟩,
  ⟨0x104, 0, 1, 0, [⟨0, 32, .rc, 0, 23, 0, 0xFFFFFFFF⟩]⟩,
  ⟨0x108, 0, 1, 0, [⟨0, 32, .rc, 0, 23, 0, 0xFFFFFFFF⟩]⟩,
  ⟨0x10C, 0, 1, 0, [⟨0, 32, .rc, 0, 23, 0, 0xFFFFFFFF⟩]⟩]

/-- Table 10 (CAM group window registers (UID 0x0E80, kind 0x21)) of spec/08_classifier_and_cam.md. -/
def regs_camg : List RegDef := [
  ⟨0x100, 0, 1, 0, [⟨0, 3, .rw, 0, 7, 0, 7⟩]⟩,
  ⟨0x104, 0, 1, 0x100, [⟨31, 1, .rwl, 0, 7, 0, 1⟩, ⟨8, 2, .rwl, 0, 7, 0, 2⟩, ⟨4, 2, .rwl, 0, 7, 0, 3⟩, ⟨0, 1, .rwl, 0, 7, 0, 1⟩]⟩,
  ⟨0x108, 0, 1, 0x100, [⟨31, 1, .ro, 0, 7, 0, 1⟩, ⟨0, 4, .ro, 0, 7, 0, 0xF⟩]⟩,
  ⟨0x10C, 0, 1, 0x100, [⟨0, 19, .ro, 0, 7, 0, 0x7FFFF⟩]⟩,
  ⟨0x110, 0, 1, 0x100, [⟨0, 32, .rc, 0, 7, 0, 0xFFFFFFFF⟩]⟩,
  ⟨0x114, 0, 1, 0x100, [⟨0, 32, .rc, 0, 7, 0, 0xFFFFFFFF⟩]⟩,
  ⟨0x118, 0, 1, 0x100, [⟨0, 32, .rc, 0, 7, 0, 0xFFFFFFFF⟩]⟩,
  ⟨0x120, 0, 1, 0, [⟨8, 4, .ro, 0, 7, 0, 0xF⟩, ⟨4, 4, .ro, 0, 7, 0, 0xF⟩, ⟨0, 4, .ro, 0, 7, 0, 0xF⟩]⟩,
  ⟨0x124, 0, 1, 0, [⟨12, 20, .rwl, 0, 7, 0, 0xFFFFF⟩]⟩,
  ⟨0x128, 0, 1, 0, [⟨0, 32, .rwl, 0, 7, 0, 0xFFFFFFFF⟩]⟩,
  ⟨0x12C, 0, 1, 0, [⟨31, 1, .rwl, 0, 7, 0, 1⟩, ⟨0, 4, .rwl, 0, 7, 0, 0xA⟩]⟩,
  ⟨0x130, 0, 1, 0, [⟨0, 18, .ro, 0, 7, 0, 0x3FFFF⟩]⟩,
  ⟨0x134, 0, 1, 0, [⟨0, 32, .rc, 0, 7, 0, 0xFFFFFFFF⟩]⟩]

/-- Table 11 (CAM bank window registers (kind 0x23)) of spec/08_classifier_and_cam.md. -/
def regs_camb : List RegDef := [
  ⟨0x100, 0, 1, 0, [⟨31, 1, .rwl, 0, 7, 0, 1⟩, ⟨30, 1, .rwl, 0, 7, 0, 1⟩, ⟨12, 3, .rwl, 0, 7, 0, 7⟩, ⟨8, 3, .rwl, 0, 7, 0, 7⟩, ⟨0, 6, .rwl, 0, 7, 0, 0x3F⟩]⟩,
  ⟨0x104, 0, 1, 0, [⟨0, 13, .ro, 0, 23, 0, 0x1FFF⟩]⟩]

/-- Table 8 (RSV window registers (kind 0x11), per course) of spec/09_actions_and_rewrite.md; Table 2 (Detour routing
registers in the RSV window (kind 0x11), per course) of spec/10_engines.md. -/
def regs_rsv : List RegDef := [
  ⟨0x100, 0, 1, 0, [⟨0, 32, .rc, 0, 23, 0, 0xFFFFFFFF⟩]⟩,
  ⟨0x104, 0, 1, 0, [⟨0, 32, .rc, 0, 23, 0, 0xFFFFFFFF⟩]⟩,
  ⟨0x108, 0, 1, 0, [⟨0, 32, .rc, 0, 23, 0, 0xFFFFFFFF⟩]⟩,
  ⟨0x10C, 0, 1, 0, [⟨0, 12, .ro, 0, 23, 0, 0xFFF⟩]⟩,
  ⟨0x200, 4, 65, 0, [⟨0, 32, .rc, 0, 23, 0, 0xFFFFFFFF⟩]⟩,
  ⟨0x400, 0, 1, 0, [⟨20, 3, .rwl, 0, 7, 0, 7⟩, ⟨16, 3, .rwl, 1, 7, 1, 4⟩, ⟨0, 16, .rwl, 0, 7, 0, 0xFFFF⟩]⟩,
  ⟨0x404, 0, 1, 0, [⟨0, 16, .rwl, 0, 7, 0, 0xFFFF⟩]⟩,
  ⟨0x408, 0, 1, 0, [⟨0, 16, .rwl, 0x1000, 7, 0x26, 0xFFFF⟩]⟩,
  ⟨0x440, 4, 16, 0, [⟨0, 3, .rwl, 0, 7, 0, 7⟩]⟩,
  ⟨0x480, 0, 1, 0, [⟨0, 32, .rc, 0, 23, 0, 0xFFFFFFFF⟩]⟩]

/-- Table 9 (EGR window registers (kind 0x12), per course) of spec/09_actions_and_rewrite.md. -/
def regs_egr : List RegDef := [
  ⟨0x100, 4, 32, 0, [⟨31, 1, .rwl, 0, 7, 0, 1⟩, ⟨16, 15, .rwl, 0, 7, 0, 0x7FFF⟩, ⟨0, 4, .rwl, 0, 7, 0, 0xF⟩]⟩]

/-- Table 8 (EC window registers (kind 0x18)) of spec/10_engines.md. -/
def regs_ec : List RegDef := [
  ⟨0x100, 0, 1, 0, [⟨31, 1, .rw, 0, 7, 0, 1⟩, ⟨0, 15, .rw, 0, 7, 0, 0x7FFF⟩]⟩,
  ⟨0x104, 0, 1, 0, [⟨16, 13, .ro, 0x1000, 23, 0, 0x1FFF⟩, ⟨0, 9, .ro, 0, 23, 0, 0x1FF⟩]⟩,
  ⟨0x108, 0, 1, 0, [⟨0, 9, .ro, 0, 23, 0, 0x1FF⟩]⟩,
  ⟨0x110, 0, 1, 0, [⟨0, 32, .rc, 0, 23, 0, 0xFFFFFFFF⟩]⟩,
  ⟨0x114, 0, 1, 0, [⟨0, 32, .rc, 0, 23, 0, 0xFFFFFFFF⟩]⟩,
  ⟨0x118, 0, 1, 0, [⟨0, 32, .rc, 0, 23, 0, 0xFFFFFFFF⟩]⟩,
  ⟨0x11C, 0, 1, 0, [⟨0, 32, .rc, 0, 23, 0, 0xFFFFFFFF⟩]⟩,
  ⟨0x120, 0, 1, 0, [⟨0, 32, .rc, 0, 23, 0, 0xFFFFFFFF⟩]⟩,
  ⟨0x140, 8, 17, 0, [⟨31, 1, .rwl, 0, 7, 0, 1⟩, ⟨0, 17, .rwl, 0x800, 7, 0x40, 0x10000⟩]⟩,
  ⟨0x144, 8, 17, 0, [⟨0, 15, .rwl, 0, 7, 0, 0x7FFF⟩]⟩]

/-- Table 9 (CSH window registers (kind 0x19)) of spec/10_engines.md. -/
def regs_csh : List RegDef := [
  ⟨0x100, 4, 64, 0, [⟨0, 17, .rw, 0, 7, 0, 0x1FFFF⟩]⟩,
  ⟨0x200, 4, 64, 0, [⟨8, 5, .ro, 0, 23, 0, 0x1F⟩, ⟨0, 5, .ro, 0, 23, 0, 0x1F⟩]⟩,
  ⟨0x300, 4, 256, 0, [⟨31, 1, .ro, 0, 23, 0, 1⟩, ⟨0, 8, .ro, 0, 23, 0, 0xFF⟩]⟩,
  ⟨0x700, 8, 16, 0, [⟨0, 32, .ro, 0, 23, 0, 0xFFFFFFFF⟩]⟩,
  ⟨0x704, 8, 16, 0, [⟨0, 32, .ro, 0, 23, 0, 0xFFFFFFFF⟩]⟩]

/-- Table 10 (Engine window registers (kind 0x1A)) of spec/10_engines.md; Table 14 (Microcode registers in the engine window
(kind 0x1A)) of spec/11_microcode.md; Table 13 (Sampler registers in the engine window (kind 0x1A)) of
spec/16_observability.md. -/
def regs_eng : List RegDef := [
  ⟨0x100, 0, 1, 0, [⟨31, 1, .rw, 0, 7, 0, 1⟩, ⟨0, 12, .ro, 0, 23, 0, 0xFFF⟩]⟩,
  ⟨0x104, 0, 1, 0, [⟨0, 8, .rw, 0, 23, 0, 0xFF⟩]⟩,
  ⟨0x108, 0, 1, 0, [⟨24, 8, .ro, 0, 23, 0, 0xFF⟩, ⟨16, 8, .ro, 0, 23, 0, 0xFF⟩]⟩,
  ⟨0x110, 4, 8, 0, [⟨28, 4, .ro, 0, 23, 0, 0xF⟩, ⟨20, 8, .ro, 0, 23, 0, 0xFF⟩, ⟨0, 12, .ro, 0, 23, 0, 0xFFF⟩]⟩,
  ⟨0x140, 0, 1, 0, [⟨0, 32, .rc, 0, 23, 0, 0xFFFFFFFF⟩]⟩,
  ⟨0x180, 8, 4, 0, [⟨31, 1, .rw, 0, 23, 0, 1⟩, ⟨29, 2, .rw, 0, 23, 0, 2⟩, ⟨16, 8, .rw, 0, 23, 0, 0xFF⟩, ⟨0, 12, .rw, 0, 23, 0, 0xFFF⟩]⟩,
  ⟨0x184, 8, 4, 0, [⟨0, 32, .rc, 0, 23, 0, 0xFFFFFFFF⟩]⟩,
  ⟨0x200, 0, 1, 0, [⟨0, 32, .ro, 0, 7, 0, 0xFFFFFFFF⟩]⟩,
  ⟨0x204, 0, 1, 0, [⟨0, 32, .ro, 0, 7, 0, 0xFFFFFFFF⟩]⟩,
  ⟨0x208, 0, 1, 0, [⟨0, 32, .ro, 0, 7, 0, 0xFFFFFFFF⟩]⟩,
  ⟨0x20C, 0, 1, 0, [⟨0, 32, .ro, 0, 7, 0, 0xFFFFFFFF⟩]⟩,
  ⟨0x210, 0, 1, 0, [⟨31, 1, .ro, 0, 7, 0, 1⟩, ⟨0, 12, .ro, 0, 7, 0, 0xFFF⟩]⟩,
  ⟨0x214, 0, 1, 0, [⟨0, 32, .rc, 0, 7, 0, 0xFFFFFFFF⟩]⟩,
  ⟨0x300, 0, 1, 0, [⟨31, 1, .rw, 0, 23, 0, 1⟩, ⟨30, 1, .rw, 0, 23, 0, 1⟩, ⟨16, 8, .rw, 0xFF, 23, 0, 0xFF⟩, ⟨0, 16, .rw, 0x400, 23, 1, 0xFFFF⟩]⟩,
  ⟨0x304, 0, 1, 0, [⟨31, 1, .ro, 0, 23, 0, 1⟩, ⟨16, 12, .ro, 0, 23, 0, 0xFFF⟩, ⟨0, 13, .ro, 0, 23, 0, 0x1FFF⟩]⟩,
  ⟨0x308, 0, 1, 0, [⟨0, 12, .rw, 0, 23, 0, 0xFFF⟩]⟩,
  ⟨0x30C, 0, 1, 0, [⟨0, 32, .ro, 0, 23, 0, 0xFFFFFFFF⟩]⟩,
  ⟨0x310, 0, 1, 0, [⟨0, 32, .ro, 0, 23, 0, 0xFFFFFFFF⟩]⟩]

/-- Table 7 (BSN window registers (kind 0x1B)) of spec/12_basin.md. -/
def regs_bsn : List RegDef := [
  ⟨0x100, 0x10, 16, 0, [⟨31, 1, .rwl, 0, 7, 0, 1⟩, ⟨16, 10, .rwl, 0x40, 7, 0, 0x3FF⟩, ⟨0, 10, .rwl, 0xC0, 7, 1, 0x3FF⟩]⟩,
  ⟨0x104, 0x10, 16, 0, [⟨0, 10, .rwl, 0x50, 7, 0x24, 0x3E0⟩]⟩,
  ⟨0x200, 4, 256, 0, [⟨0, 24, .rwl, 0x40000, 7, 1, 0xFFFFFF⟩]⟩,
  ⟨0x600, 0, 1, 0, [⟨0, 8, .rw, 0, 7, 0, 0xFF⟩]⟩,
  ⟨0x604, 4, 8, 0x600, [⟨0, 29, .ro, 0, 7, 0, 0x1FFFFFFF⟩]⟩,
  ⟨0x624, 0, 1, 0x600, [⟨0, 29, .ro, 0, 7, 0, 0x1FFFFFFF⟩]⟩,
  ⟨0x640, 0, 1, 0, [⟨0, 7, .ro, 0x64, 7, 0, 0x7F⟩]⟩,
  ⟨0x644, 0, 1, 0, [⟨31, 1, .rwl, 0, 7, 0, 1⟩, ⟨16, 13, .rwl, 0x400, 7, 1, 0x1000⟩, ⟨0, 15, .rwl, 0, 7, 0, 0x7FFF⟩]⟩,
  ⟨0x648, 0, 1, 0, [⟨0, 32, .rc, 0, 7, 0, 0xFFFFFFFF⟩]⟩,
  ⟨0x64C, 0, 1, 0, [⟨0, 32, .rc, 0, 7, 0, 0xFFFFFFFF⟩]⟩,
  ⟨0x650, 0, 1, 0, [⟨31, 1, .rw, 0, 7, 0, 1⟩, ⟨16, 11, .rw, 0x80, 7, 0x40, 0x400⟩, ⟨0, 16, .rw, 0x400, 7, 1, 0xFFFF⟩]⟩,
  ⟨0x654, 0, 1, 0, [⟨0, 15, .rw, 0, 7, 0, 0x7FFF⟩]⟩,
  ⟨0x658, 0, 1, 0, [⟨0, 32, .rw, 0, 7, 0, 0xFFFFFFFF⟩]⟩,
  ⟨0x65C, 0, 1, 0, [⟨0, 32, .rc, 0, 7, 0, 0xFFFFFFFF⟩]⟩]

/-- Table 8 (BPM window registers (kind 0x1C)) of spec/12_basin.md. -/
def regs_bpm : List RegDef := [
  ⟨0x100, 0, 1, 0, [⟨0, 4, .rw, 0, 7, 0, 0xB⟩]⟩,
  ⟨0x104, 0, 1, 0x100, [⟨12, 20, .rwl, 0, 7, 0, 0xFFFFF⟩]⟩,
  ⟨0x108, 0, 1, 0x100, [⟨0, 4, .rwl, 0, 7, 0, 0xF⟩]⟩,
  ⟨0x10C, 0, 1, 0x100, [⟨0, 26, .rwl, 0, 7, 0, 0x2000000⟩]⟩,
  ⟨0x110, 0, 1, 0x100, [⟨0, 23, .rwl, 0, 7, 0, 0x400000⟩]⟩,
  ⟨0x114, 0, 1, 0x100, [⟨0, 20, .rwl, 0, 7, 0, 0xCCCCC⟩]⟩,
  ⟨0x118, 0, 1, 0x100, [⟨31, 1, .ro, 0, 7, 0, 1⟩, ⟨0, 29, .ro, 0, 7, 0, 0x1FFFFFFF⟩]⟩,
  ⟨0x140, 4, 3, 0, [⟨0, 29, .ro, 0, 7, 0, 0x1FFFFFFF⟩]⟩,
  ⟨0x200, 0x10, 10, 0, [⟨0, 29, .rwl, 0, 7, 0, 0x1FFFFFFF⟩]⟩,
  ⟨0x204, 0x10, 10, 0, [⟨0, 29, .rwl, 0, 7, 0, 0x1FFFFFFF⟩]⟩,
  ⟨0x208, 0x10, 10, 0, [⟨0, 29, .rwl, 0, 7, 0, 0x1FFFFFFF⟩]⟩,
  ⟨0x300, 0x10, 10, 0, [⟨0, 29, .ro, 0, 7, 0, 0x1FFFFFFF⟩]⟩,
  ⟨0x304, 0x10, 10, 0, [⟨0, 29, .ro, 0, 7, 0, 0x1FFFFFFF⟩]⟩,
  ⟨0x308, 0x10, 10, 0, [⟨0, 29, .ro, 0, 7, 0, 0x1FFFFFFF⟩]⟩,
  ⟨0x400, 0, 1, 0, [⟨0, 17, .ro, 0, 7, 0, 0x1FFFF⟩]⟩,
  ⟨0x404, 0, 1, 0, [⟨0, 32, .rc, 0, 7, 0, 0xFFFFFFFF⟩]⟩,
  ⟨0x408, 0, 1, 0, [⟨0, 32, .rc, 0, 7, 0, 0xFFFFFFFF⟩]⟩]

/-- Table 9 (Crosspoint window registers (kind 0x1D)) of spec/12_basin.md. -/
def regs_xp : List RegDef := [
  ⟨0x100, 0, 1, 0, [⟨16, 11, .ro, 0, 23, 0, 0x7FF⟩, ⟨0, 11, .ro, 0, 23, 0, 0x7FF⟩]⟩,
  ⟨0x104, 0, 1, 0, [⟨0, 11, .rc, 0, 23, 0, 0x7FF⟩]⟩,
  ⟨0x108, 0, 1, 0, [⟨0, 32, .rc, 0, 7, 0, 0xFFFFFFFF⟩]⟩,
  ⟨0x10C, 0, 1, 0, [⟨0, 11, .ro, 0, 7, 0, 0x7FF⟩]⟩]

/-- Table 2 (Queue profile registers in the TM group window (p = 0–63)) of spec/13_traffic_manager.md. -/
def regs_tmg : List RegDef := [
  ⟨0x100, 0x20, 64, 0, [⟨0, 19, .rwl, 0x186A0, 7, 0x1F4, 0x7A120⟩]⟩,
  ⟨0x104, 0x20, 64, 0, [⟨28, 4, .rwl, 0, 7, 0, 0xF⟩, ⟨27, 1, .rwl, 1, 7, 0, 1⟩, ⟨24, 3, .rwl, 0, 7, 0, 7⟩, ⟨16, 8, .rwl, 0, 7, 0, 0xFF⟩]⟩,
  ⟨0x108, 0x20, 64, 0, [⟨0, 24, .rwl, 0x10000, 7, 1, 0xFFFFFF⟩]⟩,
  ⟨0x10C, 0x20, 64, 0, [⟨0, 24, .rwl, 0x8000, 7, 1, 0xFFFFFF⟩]⟩,
  ⟨0x110, 0x20, 64, 0, [⟨0, 24, .rwl, 0x4000, 7, 1, 0xFFFFFF⟩]⟩]

/-- Table 7 (TMQ window registers (kind 0x25)) of spec/13_traffic_manager.md. -/
def regs_tmq : List RegDef := [
  ⟨0x100, 0, 1, 0, [⟨12, 20, .rwl, 0, 7, 0, 0xFFFFF⟩]⟩,
  ⟨0x104, 0, 1, 0, [⟨0, 32, .rwl, 0, 7, 0, 0xFFFFFFFF⟩]⟩,
  ⟨0x108, 0, 1, 0, [⟨0, 24, .rwl, 0, 7, 0, 0xFFFFFF⟩]⟩,
  ⟨0x10C, 0, 1, 0, [⟨0, 24, .ro, 0, 23, 0, 0xFFFFFF⟩]⟩,
  ⟨0x110, 0, 1, 0, [⟨0, 16, .ro, 0, 23, 0, 0xFFFF⟩]⟩,
  ⟨0x114, 0, 1, 0, [⟨31, 1, .rwl, 0, 7, 0, 1⟩, ⟨0, 15, .rwl, 0, 7, 0, 0x7FFF⟩]⟩,
  ⟨0x118, 0, 1, 0, [⟨0, 32, .rc, 0, 7, 0, 0xFFFFFFFF⟩]⟩,
  ⟨0x200, 0x10, 64, 0, [⟨31, 1, .rwl, 0, 7, 0, 1⟩, ⟨30, 1, .rwl, 0, 7, 0, 1⟩, ⟨29, 1, .rwl, 1, 7, 0, 1⟩]⟩,
  ⟨0x204, 0x10, 64, 0, [⟨0, 32, .rwl, 0, 7, 0, 0x5F5E1000⟩]⟩,
  ⟨0x208, 0x10, 64, 0, [⟨0, 25, .rwl, 0, 7, 0, 0x1000000⟩]⟩,
  ⟨0x20C, 0x10, 64, 0, [⟨0, 1, .ro, 0, 23, 0, 1⟩]⟩,
  ⟨0x600, 4, 9, 0, [⟨0, 32, .rc, 0, 23, 0, 0xFFFFFFFF⟩]⟩]

/-- Table 4 (FAB window registers (kind 0x09)) of spec/14_fabric_interface.md. -/
def regs_fab : List RegDef := [
  ⟨0x100, 0, 1, 0, [⟨0, 1, .rwl, 0, 3, 0, 1⟩]⟩,
  ⟨0x104, 0, 1, 0, [⟨0, 7, .rwl, 0, 3, 0, 0x7E⟩]⟩,
  ⟨0x108, 0, 1, 0, [⟨0, 16, .rwl, 0x7D0, 7, 0x64, 0xFFFF⟩]⟩,
  ⟨0x10C, 0, 1, 0, [⟨16, 16, .rwl, 0xFA0, 7, 0x3E8, 0xFFFF⟩]⟩,
  ⟨0x110, 0, 1, 0, [⟨16, 16, .rwl, 0x400, 7, 1, 0x4000⟩, ⟨0, 16, .rwl, 0x200, 7, 0, 0xFFFF⟩]⟩,
  ⟨0x114, 0, 1, 0, [⟨0, 15, .ro, 0, 23, 0, 0x7FFF⟩]⟩,
  ⟨0x118, 0, 1, 0, [⟨0, 32, .rc, 0, 23, 0, 0xFFFFFFFF⟩]⟩,
  ⟨0x11C, 0, 1, 0, [⟨0, 32, .rc, 0, 23, 0, 0xFFFFFFFF⟩]⟩,
  ⟨0x120, 0, 1, 0, [⟨0, 32, .rc, 0, 23, 0, 0xFFFFFFFF⟩]⟩,
  ⟨0x124, 0, 1, 0, [⟨0, 32, .rc, 0, 23, 0, 0xFFFFFFFF⟩]⟩,
  ⟨0x140, 4, 4, 0, [⟨0, 32, .ro, 0, 23, 0, 0xFFFFFFFF⟩]⟩,
  ⟨0x150, 4, 4, 0, [⟨0, 32, .ro, 0, 23, 0, 0xFFFFFFFF⟩]⟩,
  ⟨0x200, 4, 128, 0, [⟨31, 1, .rwl, 0, 7, 0, 1⟩, ⟨0, 7, .rwl, 0, 7, 0, 0x7E⟩]⟩,
  ⟨0x400, 4, 127, 0, [⟨0, 32, .rc, 0, 23, 0, 0xFFFFFFFF⟩]⟩]

/-- Table 3 (DRAM group window registers (UID 0x1100, kind 0x26)) of spec/15_dram_and_movers.md. -/
def regs_drm : List RegDef := [
  ⟨0x100, 0, 1, 0, [⟨16, 7, .rwl, 0, 7, 0, 0x40⟩, ⟨0, 12, .rwl, 0, 7, 0, 0xFFF⟩]⟩,
  ⟨0x104, 0, 1, 0, [⟨0, 32, .rc, 0, 7, 0, 0xFFFFFFFF⟩]⟩,
  ⟨0x200, 8, 16, 0, [⟨0, 28, .rwl, 0, 7, 0, 0xFFFFFFF⟩]⟩,
  ⟨0x204, 8, 16, 0, [⟨0, 20, .rwl, 0, 7, 0, 0xFFFFF⟩]⟩]

/-- Table 4 (DMC window registers (kind 0x27)) of spec/15_dram_and_movers.md. -/
def regs_dmc : List RegDef := [
  ⟨0x100, 0, 1, 0, [⟨24, 2, .ro, 0, 23, 0, 3⟩, ⟨23, 1, .ro, 0, 23, 0, 1⟩, ⟨0, 7, .ro, 0, 23, 0, 0x7F⟩]⟩,
  ⟨0x104, 0, 1, 0, [⟨31, 1, .rwl, 0, 7, 0, 1⟩, ⟨0, 16, .rwl, 0xC8, 7, 0xA, 0xFFFF⟩]⟩,
  ⟨0x108, 0, 1, 0, [⟨0, 6, .rwl, 0, 7, 0, 0x3F⟩]⟩,
  ⟨0x10C, 0, 1, 0, [⟨0, 16, .rwl, 0x3E8, 7, 0, 0xFFFF⟩]⟩,
  ⟨0x110, 0, 1, 0, [⟨16, 16, .rwl, 0x800, 7, 0x40, 0xFFFF⟩, ⟨0, 16, .rwl, 0x3E8, 7, 0x32, 0xFFFF⟩]⟩,
  ⟨0x114, 0, 1, 0, [⟨31, 1, .rwl, 0, 7, 0, 1⟩, ⟨0, 4, .rwl, 0, 7, 0, 0xA⟩]⟩,
  ⟨0x118, 0, 1, 0, [⟨0, 32, .rc, 0, 23, 0, 0xFFFFFFFF⟩]⟩,
  ⟨0x11C, 0, 1, 0, [⟨0, 32, .rc, 0, 23, 0, 0xFFFFFFFF⟩]⟩,
  ⟨0x120, 0, 1, 0, [⟨0, 32, .rc, 0, 23, 0, 0xFFFFFFFF⟩]⟩,
  ⟨0x124, 0, 1, 0, [⟨0, 32, .rc, 0, 23, 0, 0xFFFFFFFF⟩]⟩,
  ⟨0x128, 0, 1, 0, [⟨0, 32, .rc, 0, 23, 0, 0xFFFFFFFF⟩]⟩,
  ⟨0x134, 0, 1, 0, [⟨0, 32, .ro, 0, 23, 0, 0xFFFFFFFF⟩]⟩,
  ⟨0x138, 0, 1, 0, [⟨0, 4, .ro, 0, 23, 0, 0xF⟩]⟩,
  ⟨0x13C, 0, 1, 0, [⟨24, 8, .ro, 0, 23, 0, 0xFF⟩, ⟨0, 7, .ro, 0, 23, 0, 0x7F⟩]⟩,
  ⟨0x200, 0, 1, 0, [⟨31, 1, .w1s, 0, 23, 0, 1⟩, ⟨28, 3, .rw, 0, 23, 0, 4⟩, ⟨27, 1, .rw, 0, 23, 0, 1⟩, ⟨22, 5, .rw, 0, 23, 0, 0x1F⟩, ⟨4, 18, .rw, 0, 23, 0, 0x3FFFF⟩]⟩,
  ⟨0x204, 0, 1, 0, [⟨0, 16, .rw, 1, 23, 1, 0xFFFF⟩]⟩,
  ⟨0x208, 0, 1, 0, [⟨0, 32, .rw, 0, 23, 0, 0xFFFFFFFF⟩]⟩,
  ⟨0x20C, 0, 1, 0, [⟨0, 32, .rw, 0, 23, 0, 0xFFFFFFFF⟩]⟩,
  ⟨0x400, 4, 80, 0, [⟨0, 16, .ro, 0, 23, 0, 0xFFFF⟩]⟩]

/-- Table 8 (Mover window registers (kind 0x29)) of spec/15_dram_and_movers.md. -/
def regs_mv : List RegDef := [
  ⟨0x100, 0, 1, 0, [⟨0, 15, .rwl, 0, 7, 0, 0x7FFF⟩]⟩,
  ⟨0x104, 0, 1, 0, [⟨30, 2, .rwl, 0, 7, 0, 2⟩, ⟨16, 5, .rwl, 0, 7, 0, 0x1F⟩, ⟨0, 16, .rwl, 0, 7, 0, 0xFFFF⟩]⟩,
  ⟨0x108, 0, 1, 0, [⟨0, 16, .rwl, 0x3E8, 7, 1, 0xEA60⟩]⟩,
  ⟨0x10C, 0, 1, 0, [⟨31, 1, .ro, 0, 23, 0, 1⟩, ⟨30, 1, .ro, 0, 23, 0, 1⟩]⟩,
  ⟨0x110, 0, 1, 0, [⟨0, 32, .rc, 0, 23, 0, 0xFFFFFFFF⟩]⟩]

/-- Table 9 (Performance counter registers (k = 0 to NCTR − 1)) of spec/16_observability.md. -/
def regs_pmc : List RegDef := [
  ⟨0xE80, 0x10, 8, 0, [⟨31, 1, .rw, 0, 23, 0, 1⟩, ⟨29, 2, .rw, 0, 23, 0, 2⟩, ⟨28, 1, .rw, 0, 23, 0, 1⟩, ⟨27, 1, .w1c, 0, 23, 0, 1⟩, ⟨26, 1, .rw, 0, 23, 0, 1⟩, ⟨22, 4, .rw, 0, 23, 0, 0xF⟩, ⟨21, 1, .rw, 0, 23, 0, 1⟩, ⟨20, 1, .rw, 0, 23, 0, 1⟩, ⟨17, 3, .rw, 0, 23, 0, 7⟩, ⟨16, 1, .rw, 0, 23, 0, 1⟩, ⟨15, 1, .rw, 0, 23, 0, 1⟩, ⟨14, 1, .rw, 0, 23, 0, 1⟩, ⟨0, 12, .rw, 0, 23, 0, 0xFFF⟩]⟩,
  ⟨0xE84, 0x10, 8, 0, [⟨25, 7, .rw, 0, 23, 0, 0x7F⟩, ⟨0, 24, .rw, 0, 23, 0, 0xFFFFFF⟩]⟩,
  ⟨0xE88, 0x10, 8, 0, [⟨0, 32, .rw, 0, 23, 0, 0xFFFFFFFF⟩]⟩,
  ⟨0xE8C, 0x10, 8, 0, [⟨0, 16, .rw, 0, 23, 0, 0xFFFF⟩]⟩]

/-- Table 14 (TAL window registers (kind 0x06)) of spec/16_observability.md. -/
def regs_tal : List RegDef := [
  ⟨0x100, 0, 1, 0, [⟨31, 1, .rwl, 0, 7, 0, 1⟩, ⟨0, 15, .rwl, 0, 7, 0, 0x7FFF⟩]⟩,
  ⟨0x104, 0, 1, 0, [⟨0, 32, .rc, 0, 7, 0, 0xFFFFFFFF⟩]⟩,
  ⟨0x108, 0, 1, 0, [⟨31, 1, .rwl, 0, 7, 0, 1⟩, ⟨15, 16, .rwl, 0x1000, 7, 1, 0xFFFF⟩, ⟨0, 15, .rwl, 0, 7, 0, 0x7FFF⟩]⟩,
  ⟨0x10C, 0, 1, 0, [⟨0, 32, .rc, 0, 7, 0, 0xFFFFFFFF⟩]⟩,
  ⟨0x110, 4, 8, 0, [⟨0, 32, .rwl, 0xFFFFFFFF, 7, 0, 0xFFFFFFFF⟩]⟩,
  ⟨0x140, 0, 1, 0, [⟨16, 10, .rw, 0, 7, 0, 0x2EB⟩, ⟨0, 8, .rw, 0, 7, 0, 0xFF⟩]⟩,
  ⟨0x144, 0, 1, 0, [⟨0, 32, .ro, 0, 7, 0, 0xFFFFFFFF⟩]⟩,
  ⟨0x148, 0, 1, 0, [⟨0, 32, .ro, 0, 7, 0, 0xFFFFFFFF⟩]⟩,
  ⟨0x150, 0, 1, 0, [⟨12, 20, .rwl, 0, 7, 0, 0xFFFFF⟩]⟩,
  ⟨0x154, 0, 1, 0, [⟨0, 8, .rwl, 0, 7, 0, 0xFF⟩]⟩,
  ⟨0x158, 0, 1, 0, [⟨31, 1, .rwl, 0, 7, 0, 1⟩]⟩,
  ⟨0x15C, 0, 1, 0, [⟨0, 32, .rc, 0, 7, 0, 0xFFFFFFFF⟩]⟩,
  ⟨0x180, 0x10, 8, 0, [⟨0, 32, .rw, 0, 7, 0, 0xFFFFFFFF⟩]⟩,
  ⟨0x184, 0x10, 8, 0, [⟨0, 8, .rw, 0, 7, 0, 0xFF⟩]⟩,
  ⟨0x188, 0x10, 8, 0, [⟨0, 32, .rw, 0, 7, 0, 0xFFFFFFFF⟩]⟩,
  ⟨0x18C, 0x10, 8, 0, [⟨0, 8, .rw, 0, 7, 0, 0xFF⟩]⟩]

/-- Table 1 (Severity registers in the window of a unit with NSRC 16 (s = source 0–15)) of spec/17_faults_and_repair.md. -/
def regs_sev : List RegDef := [
  ⟨0xE00, 8, 16, 0, [⟨0, 3, .rw, 0, 7, 0, 4⟩]⟩,
  ⟨0xE04, 8, 16, 0, [⟨0, 32, .rc, 0, 23, 0, 0xFFFFFFFF⟩]⟩]

/-- Table 6 (FLT window registers (kind 0x05)) of spec/17_faults_and_repair.md. -/
def regs_flt : List RegDef := [
  ⟨0x100, 0, 1, 0, [⟨10, 1, .rw, 1, 7, 0, 1⟩, ⟨9, 1, .rw, 1, 7, 0, 1⟩, ⟨8, 1, .rw, 1, 7, 0, 1⟩, ⟨0, 3, .rw, 2, 7, 0, 4⟩]⟩,
  ⟨0x104, 0, 1, 0, [⟨31, 1, .w1c, 0, 1, 0, 1⟩, ⟨0, 1, .ro, 0, 7, 0, 1⟩]⟩,
  ⟨0x108, 0, 1, 0, [⟨31, 1, .w1c, 0, 1, 0, 1⟩, ⟨0, 6, .ro, 0, 1, 0, 0x3F⟩]⟩,
  ⟨0x10C, 0, 1, 0, [⟨0, 32, .rc, 0, 1, 0, 0xFFFFFFFF⟩]⟩,
  ⟨0x110, 0, 1, 0, [⟨0, 5, .rw, 0, 7, 0, 0x1F⟩]⟩,
  ⟨0x114, 4, 4, 0, [⟨0, 32, .ro, 0, 1, 0, 0xFFFFFFFF⟩]⟩,
  ⟨0x140, 0, 1, 0, [⟨0, 2, .wo, 0, 0, 1, 2⟩]⟩,
  ⟨0x144, 0, 1, 0, [⟨31, 1, .ro, 0, 7, 0, 1⟩, ⟨30, 1, .ro, 0, 7, 0, 1⟩, ⟨0, 4, .ro, 0, 7, 0, 0xF⟩]⟩,
  ⟨0x148, 0, 1, 0, [⟨0, 6, .rwl, 0, 7, 0, 0x3F⟩]⟩,
  ⟨0x400, 4, 256, 0, [⟨12, 3, .rwl, 0, 7, 0, 7⟩, ⟨0, 12, .rwl, 1, 7, 0, 0xFFF⟩]⟩]

/-- Table 8 (Check unit window registers (kind 0x2B)) of spec/17_faults_and_repair.md. -/
def regs_cu : List RegDef := [
  ⟨0x100, 0, 1, 0, [⟨31, 1, .rw, 0, 23, 0, 1⟩, ⟨30, 1, .rw, 0, 23, 0, 1⟩, ⟨29, 1, .rw, 0, 23, 0, 1⟩, ⟨28, 1, .rw, 0, 23, 0, 1⟩, ⟨16, 4, .rw, 0, 23, 0, 0xA⟩, ⟨0, 16, .rw, 0, 23, 0, 0xFFFF⟩]⟩,
  ⟨0x104, 0, 1, 0, [⟨3, 29, .rw, 0, 23, 0, 0x1FFFFFFF⟩]⟩,
  ⟨0x108, 0, 1, 0, [⟨0, 32, .rw, 0, 23, 0, 0xFFFFFFFF⟩]⟩,
  ⟨0x10C, 0, 1, 0, [⟨0, 32, .rw, 0, 23, 0, 0xFFFFFFFF⟩]⟩,
  ⟨0x110, 0, 1, 0, [⟨0, 32, .rw, 0, 23, 0, 0xFFFFFFFF⟩]⟩,
  ⟨0x114, 0, 1, 0, [⟨0, 32, .rw, 0, 23, 0, 0xFFFFFFFF⟩]⟩,
  ⟨0x118, 0, 1, 0, [⟨0, 32, .ro, 0, 23, 0, 0xFFFFFFFF⟩]⟩,
  ⟨0x11C, 0, 1, 0, [⟨0, 32, .ro, 0, 23, 0, 0xFFFFFFFF⟩]⟩,
  ⟨0x120, 0, 1, 0, [⟨31, 1, .ro, 0, 23, 0, 1⟩, ⟨30, 1, .ro, 0, 23, 0, 1⟩, ⟨29, 1, .ro, 0, 23, 0, 1⟩, ⟨28, 1, .ro, 0, 23, 0, 1⟩]⟩,
  ⟨0x124, 0, 1, 0, [⟨0, 32, .rc, 0, 23, 0, 0xFFFFFFFF⟩]⟩,
  ⟨0x128, 0, 1, 0, [⟨0, 32, .rc, 0, 23, 0, 0xFFFFFFFF⟩]⟩,
  ⟨0x140, 0, 1, 0, [⟨16, 16, .rw, 0x64, 23, 1, 0xFFFF⟩, ⟨0, 8, .rw, 0, 23, 0, 0xFF⟩]⟩,
  ⟨0x144, 0, 1, 0, [⟨0, 16, .ro, 0, 23, 0, 0xFFFF⟩]⟩,
  ⟨0x148, 0, 1, 0, [⟨0, 32, .rc, 0, 23, 0, 0xFFFFFFFF⟩]⟩,
  ⟨0x14C, 0, 1, 0, [⟨0, 32, .rc, 0, 23, 0, 0xFFFFFFFF⟩]⟩,
  ⟨0x150, 0, 1, 0, [⟨0, 32, .rc, 0, 23, 0, 0xFFFFFFFF⟩]⟩]

/-- Table 7 (PLN window registers (kind 0x02)) of spec/18_resets_power_time.md (part 1). -/
def regs_pln_0 : List RegDef := [
  ⟨0x100, 0, 1, 0, [⟨0, 32, .ro, 0, 1, 0, 0xFFFFFFFF⟩]⟩,
  ⟨0x104, 0, 1, 0, [⟨0, 32, .ro, 0, 1, 0, 0xFFFFFFFF⟩]⟩,
  ⟨0x108, 0, 1, 0, [⟨0, 16, .ro, 0, 1, 0, 0xFFFF⟩]⟩,
  ⟨0x10C, 0, 1, 0, [⟨0, 32, .rw, 0, 1, 0, 0xFFFFFFFF⟩]⟩,
  ⟨0x110, 0, 1, 0, [⟨0, 32, .rw, 0, 1, 0, 0xFFFFFFFF⟩]⟩,
  ⟨0x114, 0, 1, 0, [⟨31, 1, .w1s, 0, 1, 0, 1⟩, ⟨30, 1, .ro, 0, 1, 0, 1⟩]⟩,
  ⟨0x118, 0, 1, 0, [⟨0, 32, .rw, 0, 1, 0, 0xFFFFFFFF⟩]⟩,
  ⟨0x11C, 0, 1, 0, [⟨0, 32, .rw, 0, 1, 0, 0xFFFFFFFF⟩]⟩,
  ⟨0x120, 0, 1, 0, [⟨0, 14, .rwl, 0x64, 7, 0xA, 0x2710⟩]⟩,
  ⟨0x124, 0, 1, 0, [⟨0, 32, .ro, 0, 1, 0, 0xFFFFFFFF⟩]⟩,
  ⟨0x128, 0, 1, 0, [⟨0, 32, .ro, 0, 1, 0, 0xFFFFFFFF⟩]⟩,
  ⟨0x130, 0, 1, 0, [⟨24, 8, .ro, 0, 1, 0, 0xFF⟩, ⟨0, 16, .ro, 0, 1, 0, 0xFFFF⟩]⟩,
  ⟨0x134, 0, 1, 0, [⟨24, 4, .ro, 0, 7, 0, 0xF⟩, ⟨16, 4, .ro, 8, 7, 0, 0xF⟩, ⟨8, 4, .ro, 8, 7, 0, 0xF⟩, ⟨0, 4, .ro, 8, 7, 0, 0xF⟩]⟩,
  ⟨0x138, 0, 1, 0, [⟨0, 32, .ro, 0, 7, 0, 0xFFFFFFFF⟩]⟩,
  ⟨0x13C, 0, 1, 0, [⟨0, 32, .ro, 0, 7, 0, 0xFFFFFFFF⟩]⟩,
  ⟨0x140, 0, 1, 0, [⟨16, 10, .rwl, 0x21C, 7, 0xC8, 0x21C⟩, ⟨0, 9, .rwl, 0x1EF, 7, 0xC8, 0x1EF⟩]⟩,
  ⟨0x144, 0, 1, 0, [⟨31, 1, .ro, 0, 7, 0, 1⟩, ⟨30, 1, .ro, 0, 7, 0, 1⟩, ⟨0, 16, .ro, 0xC350, 7, 0, 0xFFFF⟩]⟩,
  ⟨0x150, 0, 1, 0, [⟨16, 10, .ro, 0, 1, 0, 0x3FF⟩, ⟨0, 10, .ro, 0x2E4, 0, 0, 0x3FF⟩]⟩,
  ⟨0x154, 0, 1, 0, [⟨0, 32, .rc, 0, 1, 0, 0xFFFFFFFF⟩]⟩,
  ⟨0x158, 0, 1, 0, [⟨0, 8, .w1c, 1, 1, 0, 0xFF⟩]⟩,
  ⟨0x180, 4, 6, 0, [⟨0, 32, .ro, 0, 1, 0, 0xFFFFFFFF⟩]⟩,
  ⟨0x198, 0, 1, 0, [⟨0, 32, .ro, 0, 1, 0, 0xFFFFFFFF⟩]⟩,
  ⟨0x19C, 0, 1, 0, [⟨0, 32, .ro, 0, 1, 0, 0xFFFFFFFF⟩]⟩,
  ⟨0x200, 0x10, 8, 0, [⟨0, 32, .rw, 0, 1, 0, 0xFFFFFFFF⟩]⟩,
  ⟨0x204, 0x10, 8, 0, [⟨0, 32, .rw, 0, 1, 0, 0xFFFFFFFF⟩]⟩]

/-- Table 7 (PLN window registers (kind 0x02)) of spec/18_resets_power_time.md (part 2). -/
def regs_pln_1 : List RegDef := [
  ⟨0x208, 0x10, 8, 0, [⟨0, 32, .rw, 0, 1, 0, 0xFFFFFFFF⟩]⟩,
  ⟨0x20C, 0x10, 8, 0, [⟨31, 1, .rw, 0, 1, 0, 1⟩, ⟨29, 2, .rw, 0, 1, 0, 2⟩, ⟨28, 1, .rw, 0, 1, 0, 1⟩, ⟨27, 1, .rw, 0, 1, 0, 1⟩, ⟨0, 20, .rw, 0, 1, 0, 0xF4240⟩]⟩,
  ⟨0x300, 0x10, 2, 0, [⟨0, 32, .ro, 0, 1, 0, 0xFFFFFFFF⟩]⟩,
  ⟨0x304, 0x10, 2, 0, [⟨0, 32, .ro, 0, 1, 0, 0xFFFFFFFF⟩]⟩,
  ⟨0x308, 0x10, 2, 0, [⟨31, 1, .rw, 0, 1, 0, 1⟩, ⟨30, 1, .rw, 0, 1, 0, 1⟩, ⟨29, 1, .rw, 0, 1, 0, 1⟩, ⟨0, 16, .ro, 0, 1, 0, 0xFFFF⟩]⟩,
  ⟨0x30C, 0x10, 2, 0, [⟨0, 32, .rc, 0, 1, 0, 0xFFFFFFFF⟩]⟩]

/-- The registers of Table 7 (PLN window registers (kind 0x02)) of spec/18_resets_power_time.md. -/
def regs_pln : List RegDef := regs_pln_0 ++ regs_pln_1

/-- Table 5 (BAR4 registers of PF0) of spec/19_security_and_mailboxes.md. -/
def regs_mb : List RegDef := [
  ⟨0, 0x10, 32, 0, [⟨0, 32, .rw, 0, 15, 0, 0xFFFFFFFF⟩]⟩,
  ⟨4, 0x10, 32, 0, [⟨0, 32, .ro, 0, 15, 0, 0xFFFFFFFF⟩]⟩,
  ⟨8, 0x10, 32, 0, [⟨31, 1, .ro, 0, 15, 0, 1⟩, ⟨30, 1, .w1c, 0, 15, 0, 1⟩, ⟨29, 1, .ro, 0, 15, 0, 1⟩]⟩,
  ⟨0xC, 0x10, 32, 0, [⟨0, 32, .rc, 0, 15, 0, 0xFFFFFFFF⟩]⟩,
  ⟨0x200, 4, 32, 0, [⟨31, 1, .rw, 0, 15, 0, 1⟩]⟩,
  ⟨0x300, 0, 1, 0, [⟨0, 20, .rw, 0x3E8, 15, 0xA, 0x186A0⟩]⟩,
  ⟨0x400, 4, 12, 0, [⟨0, 32, .ro, 0, 15, 0, 0xFFFFFFFF⟩]⟩,
  ⟨0x440, 4, 24, 0, [⟨0, 32, .rw, 0, 15, 0, 0xFFFFFFFF⟩]⟩,
  ⟨0x4C0, 0, 1, 0, [⟨31, 1, .w1s, 0, 15, 0, 1⟩, ⟨30, 1, .w1s, 0, 15, 0, 1⟩, ⟨0, 1, .rw, 0, 15, 0, 1⟩]⟩,
  ⟨0x4C4, 0, 1, 0, [⟨31, 1, .ro, 0, 15, 0, 1⟩, ⟨30, 1, .ro, 0, 15, 0, 1⟩, ⟨29, 1, .ro, 0, 15, 0, 1⟩, ⟨0, 8, .ro, 0, 15, 0, 0xFF⟩]⟩]

/-- Table 8 (Security registers in the WDN window (UID 0x0002)) of spec/19_security_and_mailboxes.md. -/
def regs_wdn : List RegDef := [
  ⟨0x100, 0, 1, 0, [⟨16, 2, .ro, 0, 0, 0, 3⟩, ⟨14, 2, .ro, 0, 0, 0, 3⟩, ⟨4, 4, .ro, 0, 0, 0, 0xF⟩, ⟨0, 4, .ro, 0, 0, 0, 0xF⟩]⟩,
  ⟨0x104, 0, 1, 0, [⟨0, 7, .ro, 0, 0, 0, 0x7F⟩]⟩,
  ⟨0x108, 0, 1, 0, [⟨0, 32, .ro, 0, 0, 0, 0xFFFFFFFF⟩]⟩,
  ⟨0x10C, 0, 1, 0, [⟨0, 32, .ro, 0, 0, 0, 0xFFFFFFFF⟩]⟩,
  ⟨0x110, 0, 1, 0, [⟨1, 1, .ro, 0, 7, 0, 1⟩, ⟨0, 1, .ro, 0, 7, 0, 1⟩]⟩,
  ⟨0x180, 4, 24, 0, [⟨0, 32, .ro, 0, 0, 0, 0xFFFFFFFF⟩]⟩]

/-- Table 5 (TWN window registers (kind 0x07)) of spec/20_twin.md. -/
def regs_twn : List RegDef := [
  ⟨0x100, 0, 1, 0, [⟨10, 1, .rwl, 0, 7, 0, 1⟩, ⟨9, 1, .rwl, 0, 7, 0, 1⟩, ⟨8, 1, .rwl, 0, 7, 0, 1⟩, ⟨0, 2, .rwl, 0, 7, 0, 2⟩]⟩,
  ⟨0x104, 0, 1, 0, [⟨3, 29, .rwl, 0, 7, 0, 0x1FFFFFFF⟩]⟩,
  ⟨0x108, 0, 1, 0, [⟨0, 8, .rwl, 0, 7, 0, 0xFF⟩]⟩,
  ⟨0x10C, 0, 1, 0, [⟨28, 4, .ro, 0, 7, 0, 0xF⟩, ⟨26, 2, .ro, 0, 7, 0, 3⟩, ⟨25, 1, .ro, 0, 7, 0, 1⟩, ⟨24, 1, .ro, 0, 7, 0, 1⟩, ⟨16, 8, .ro, 0, 7, 0, 0xFF⟩, ⟨15, 1, .ro, 0, 7, 0, 1⟩]⟩,
  ⟨0x110, 0, 1, 0, [⟨16, 16, .ro, 0, 7, 0, 0xFFFF⟩, ⟨2, 1, .ro, 0, 7, 0, 1⟩, ⟨0, 2, .ro, 0, 7, 0, 3⟩]⟩,
  ⟨0x114, 0, 1, 0, [⟨0, 3, .wo, 0, 0, 1, 4⟩]⟩,
  ⟨0x118, 0, 1, 0, [⟨0, 32, .rc, 0, 7, 0, 0xFFFFFFFF⟩]⟩,
  ⟨0x11C, 0, 1, 0, [⟨0, 32, .rc, 0, 7, 0, 0xFFFFFFFF⟩]⟩,
  ⟨0x120, 0, 1, 0, [⟨0, 32, .rc, 0, 7, 0, 0xFFFFFFFF⟩]⟩,
  ⟨0x124, 0, 1, 0, [⟨0, 32, .rc, 0, 7, 0, 0xFFFFFFFF⟩]⟩,
  ⟨0x128, 0, 1, 0, [⟨0, 32, .rc, 0, 7, 0, 0xFFFFFFFF⟩]⟩,
  ⟨0x12C, 0, 1, 0, [⟨0, 32, .rc, 0, 7, 0, 0xFFFFFFFF⟩]⟩,
  ⟨0x130, 0, 1, 0, [⟨0, 32, .ro, 0, 7, 0, 0xFFFFFFFF⟩]⟩]

namespace F

/-! Fields of Table 3 — Unit Control Block fields, spec/02_units_and_setup_space.md. -/
def UCB_ID_KIND : Fld := ⟨0, 0, 24, 8⟩
def UCB_ID_UID : Fld := ⟨0, 0, 0, 14⟩
def UCB_PARENT_ROOT : Fld := ⟨4, 0, 31, 1⟩
def UCB_PARENT_PARENT_UID : Fld := ⟨4, 0, 0, 14⟩
def UCB_CHILDREN_COUNT : Fld := ⟨8, 0, 16, 16⟩
def UCB_CHILDREN_NRANGE : Fld := ⟨8, 0, 0, 7⟩
def UCB_STATE_ISOLATED : Fld := ⟨0xC, 0, 16, 1⟩
def UCB_STATE_STATE : Fld := ⟨0xC, 0, 0, 3⟩
def UCB_CMD_TAG : Fld := ⟨0x10, 0, 8, 8⟩
def UCB_CMD_CMD : Fld := ⟨0x10, 0, 0, 3⟩
def UCB_CMD_STATUS_BUSY : Fld := ⟨0x14, 0, 31, 1⟩
def UCB_CMD_STATUS_FAILED_UID : Fld := ⟨0x14, 0, 16, 14⟩
def UCB_CMD_STATUS_TAG : Fld := ⟨0x14, 0, 8, 8⟩
def UCB_CMD_STATUS_RESULT : Fld := ⟨0x14, 0, 0, 8⟩
def UCB_FAULT_SUM_CHILD : Fld := ⟨0x18, 0, 31, 1⟩
def UCB_FAULT_SUM_SRC : Fld := ⟨0x18, 0, 0, 16⟩
def UCB_FAULT_MASK_MASK : Fld := ⟨0x1C, 0, 0, 16⟩
def UCB_SEVERITY_BASE_NSRC : Fld := ⟨0x20, 0, 16, 5⟩
def UCB_SEVERITY_BASE_OFFSET : Fld := ⟨0x20, 0, 0, 12⟩
def UCB_CLK_GATED : Fld := ⟨0x24, 0, 24, 1⟩
def UCB_CLK_ISLAND : Fld := ⟨0x24, 0, 16, 8⟩
def UCB_CLK_FREQ_MHZ : Fld := ⟨0x24, 0, 0, 16⟩
def UCB_TALLY_BASE_NCTR : Fld := ⟨0x28, 0, 28, 4⟩
def UCB_TALLY_BASE_BASE : Fld := ⟨0x28, 0, 0, 20⟩
def UCB_DRAIN_LIMIT_LIMIT_US : Fld := ⟨0x2C, 0, 0, 20⟩
def UCB_TEST_RESULT_DONE : Fld := ⟨0x30, 0, 31, 1⟩
def UCB_TEST_RESULT_PASS : Fld := ⟨0x30, 0, 30, 1⟩
def UCB_TEST_RESULT_CODE : Fld := ⟨0x30, 0, 0, 16⟩
def UCB_STATE_TIME_TIME_NS : Fld := ⟨0x34, 0, 0, 32⟩

/-! Fields of Table 11 — Device registers in the DEV window (UID 0x0000), spec/02_units_and_setup_space.md. -/
def DEV_SETUP_LOCK_LOCK : Fld := ⟨0x100, 0, 0, 1⟩
def DEV_CLAIM_HOLD_LIMIT_MS : Fld := ⟨0x104, 0, 0, 16⟩

/-! Fields of Table 5 — HIF ring, function and event registers, spec/03_host_rings.md. -/
def HIF_RING_SEL_RING : Fld := ⟨0x100, 0, 0, 15⟩
def RING_CFG_MODE : Fld := ⟨0x104, 0, 12, 1⟩
def RING_CFG_TYPE : Fld := ⟨0x104, 0, 0, 8⟩
def RING_SIZE_RING_LOG2 : Fld := ⟨0x108, 0, 0, 16⟩
def RING_CQ_CQ : Fld := ⟨0x10C, 0, 0, 15⟩
def RING_BASE_LO_ADDR : Fld := ⟨0x110, 0, 5, 27⟩
def RING_BASE_HI_ADDR : Fld := ⟨0x114, 0, 0, 32⟩
def RING_WB_LO_ADDR : Fld := ⟨0x118, 0, 3, 29⟩
def RING_WB_HI_ADDR : Fld := ⟨0x11C, 0, 0, 32⟩
def RING_INT_EN : Fld := ⟨0x120, 0, 31, 1⟩
def RING_INT_VECTOR : Fld := ⟨0x120, 0, 0, 8⟩
def RING_MOD_TIME_US : Fld := ⟨0x124, 0, 16, 16⟩
def RING_MOD_COUNT : Fld := ⟨0x124, 0, 0, 16⟩
def RING_STATUS_STATE : Fld := ⟨0x128, 0, 28, 4⟩
def RING_STATUS_REASON : Fld := ⟨0x128, 0, 24, 4⟩
def RING_STATUS_DEV_INDEX : Fld := ⟨0x128, 0, 0, 17⟩
def RING_LOST_COUNT : Fld := ⟨0x12C, 0, 0, 32⟩
def HIF_FN_SEL_MASTER : Fld := ⟨0x140, 0, 0, 7⟩
def HIF_FN_RINGS_COUNT : Fld := ⟨0x144, 0, 16, 16⟩
def HIF_FN_RINGS_BASE : Fld := ⟨0x144, 0, 0, 15⟩
def HIF_FN_CFG_INJECT : Fld := ⟨0x148, 0, 1, 1⟩
def HIF_FN_CFG_TABLE_WR : Fld := ⟨0x148, 0, 0, 1⟩
def HIF_FN_STATUS_VF_EN : Fld := ⟨0x14C, 0, 1, 1⟩
def HIF_FN_STATUS_FLR_ACTIVE : Fld := ⟨0x14C, 0, 0, 1⟩
def HIF_EVT_SEL_SOURCE : Fld := ⟨0x160, 0, 0, 12⟩
def HIF_EVT_ROUTE_EN : Fld := ⟨0x164, 0, 16, 1⟩
def HIF_EVT_ROUTE_DEFAULT : Fld := ⟨0x164, 0, 15, 1⟩
def HIF_EVT_ROUTE_RING : Fld := ⟨0x164, 0, 0, 15⟩
def HIF_EVT_LOST_COUNT : Fld := ⟨0x168, 0, 0, 32⟩
def HIF_LINK_SPLIT : Fld := ⟨0x16C, 0, 31, 1⟩
def HIF_LINK_WIDTH1 : Fld := ⟨0x16C, 0, 20, 5⟩
def HIF_LINK_GEN1 : Fld := ⟨0x16C, 0, 16, 4⟩
def HIF_LINK_WIDTH0 : Fld := ⟨0x16C, 0, 4, 5⟩
def HIF_LINK_GEN0 : Fld := ⟨0x16C, 0, 0, 4⟩

/-! Fields of Table 13 — Table command window (offsets within BAR2 of a PF), spec/03_host_rings.md. -/
def TCW_CMD_TAG : Fld := ⟨0xA000, 0, 24, 8⟩
def TCW_CMD_TABLE : Fld := ⟨0xA000, 0, 16, 8⟩
def TCW_CMD_GEN : Fld := ⟨0xA000, 0, 8, 2⟩
def TCW_CMD_OP : Fld := ⟨0xA000, 0, 0, 4⟩
def TCW_STATUS_BUSY : Fld := ⟨0xA004, 0, 31, 1⟩
def TCW_STATUS_TAG : Fld := ⟨0xA004, 0, 8, 8⟩
def TCW_STATUS_RESULT : Fld := ⟨0xA004, 0, 0, 8⟩
def TCW_KEY_KEY : Fld := ⟨0xA040, 4, 0, 32⟩
def TCW_DATA_DATA : Fld := ⟨0xA080, 4, 0, 32⟩
def TCW_RESULT_DATA : Fld := ⟨0xA0C0, 4, 0, 32⟩

/-! Fields of Table 2 — MAC window registers (kind 0x17), spec/04_ports.md. -/
def MAC_MODE_MODE : Fld := ⟨0x100, 0, 0, 3⟩
def PORT_CTL_ADMIN_UP : Fld := ⟨0x200, 0x40, 31, 1⟩
def PORT_CTL_FC_MODE : Fld := ⟨0x200, 0x40, 26, 2⟩
def PORT_CTL_FEC : Fld := ⟨0x200, 0x40, 24, 2⟩
def PORT_CTL_AN_EN : Fld := ⟨0x200, 0x40, 23, 1⟩
def PORT_CTL_MTU : Fld := ⟨0x200, 0x40, 0, 14⟩
def PORT_HOLD_HOLD_US : Fld := ⟨0x204, 0x40, 0, 14⟩
def PORT_DEBOUNCE_UP_MS : Fld := ⟨0x208, 0x40, 16, 16⟩
def PORT_DEBOUNCE_DOWN_US : Fld := ⟨0x208, 0x40, 0, 16⟩
def PORT_PFC_RX_EN : Fld := ⟨0x20C, 0x40, 16, 8⟩
def PORT_PFC_TX_EN : Fld := ⟨0x20C, 0x40, 8, 8⟩
def PORT_FC_THR_XOFF_CELLS : Fld := ⟨0x210, 0x40, 16, 16⟩
def PORT_FC_THR_XON_CELLS : Fld := ⟨0x210, 0x40, 0, 16⟩
def PORT_PFC_WD_WD_MS : Fld := ⟨0x214, 0x40, 0, 16⟩
def PORT_PTP_ADJ_RX_ADJ : Fld := ⟨0x218, 0x40, 16, 16⟩
def PORT_PTP_ADJ_TX_ADJ : Fld := ⟨0x218, 0x40, 0, 16⟩
def PORT_STATUS_LINK_STATE : Fld := ⟨0x21C, 0x40, 29, 3⟩
def PORT_STATUS_DOWN_REASON : Fld := ⟨0x21C, 0x40, 25, 4⟩
def PORT_STATUS_HELD : Fld := ⟨0x21C, 0x40, 24, 1⟩
def PORT_STATUS_RX_PAUSED : Fld := ⟨0x21C, 0x40, 16, 8⟩
def PORT_STATUS_TX_XOFF : Fld := ⟨0x21C, 0x40, 8, 8⟩
def PORT_FLAPS_COUNT : Fld := ⟨0x220, 0x40, 0, 32⟩
def PORT_CTR_LO : Fld := ⟨0x400, 8, 0, 32⟩
def PORT_CTR_HI : Fld := ⟨0x404, 8, 0, 32⟩

/-! Fields of Table 3 — Lane window registers (kind 0x16), spec/04_ports.md. -/
def LANE_STATUS_SIGNAL : Fld := ⟨0x100, 0, 31, 1⟩
def LANE_STATUS_CDR_LOCK : Fld := ⟨0x100, 0, 30, 1⟩
def LANE_STATUS_ADAPTED : Fld := ⟨0x100, 0, 29, 1⟩
def LANE_STATUS_RATE_10M : Fld := ⟨0x100, 0, 0, 14⟩
def LANE_ADAPT_FREEZE : Fld := ⟨0x104, 0, 1, 1⟩
def LANE_ADAPT_READAPT : Fld := ⟨0x104, 0, 0, 1⟩
def LANE_POL_TX_INV : Fld := ⟨0x108, 0, 1, 1⟩
def LANE_POL_RX_INV : Fld := ⟨0x108, 0, 0, 1⟩
def LANE_TEST_EN : Fld := ⟨0x10C, 0, 31, 1⟩
def LANE_TEST_PATTERN : Fld := ⟨0x10C, 0, 28, 3⟩
def LANE_TEST_SIGNAL : Fld := ⟨0x10C, 0, 26, 2⟩
def LANE_TEST_RATE_10M : Fld := ⟨0x10C, 0, 0, 14⟩
def LANE_PRBS_ERR_COUNT : Fld := ⟨0x110, 0, 0, 32⟩

/-! Fields of Table 8 — ADM window registers (kind 0x0E), spec/05_parsing.md. -/
def ADM_GEN_STATUS_GEN : Fld := ⟨0x100, 0, 0, 1⟩
def ADM_PORT_CFG_CLASS : Fld := ⟨0x200, 4, 0, 4⟩
def ADM_CLASS_CFG_DEFAULT_PROFILE : Fld := ⟨0x300, 4, 16, 6⟩
def ADM_CLASS_CFG_DEADLINE_US : Fld := ⟨0x300, 4, 0, 9⟩
def ADM_SLOW_CFG_ACTION : Fld := ⟨0x380, 4, 0, 2⟩
def ADM_MAL_CTR_LO : Fld := ⟨0x400, 8, 0, 32⟩
def ADM_MAL_CTR_HI : Fld := ⟨0x404, 8, 0, 32⟩
def ADM_SLOW_CTR_LO : Fld := ⟨0x500, 8, 0, 32⟩
def ADM_SLOW_CTR_HI : Fld := ⟨0x504, 8, 0, 32⟩

/-! Fields of Table 3 — Table group window registers, spec/06_lookup_tables.md. -/
def TBL_SEL_TABLE : Fld := ⟨0x100, 0, 0, 8⟩
def TBL_SHADOW_LO_ADDR : Fld := ⟨0x104, 0, 12, 20⟩
def TBL_SHADOW_HI_ADDR : Fld := ⟨0x108, 0, 0, 32⟩
def TBL_CMP_CFG_EN : Fld := ⟨0x10C, 0, 31, 1⟩
def TBL_CMP_CFG_SLICE_LOG2 : Fld := ⟨0x10C, 0, 0, 4⟩
def TBL_CMP_STATUS_POS : Fld := ⟨0x110, 0, 0, 24⟩
def TBL_CMP_MISMATCH_COUNT : Fld := ⟨0x114, 0, 0, 32⟩
def TBL_CMP_ABANDON_COUNT : Fld := ⟨0x118, 0, 0, 32⟩
def EM_CFG_WIDE_AREAS : Fld := ⟨0x120, 0, 0, 4⟩
def EM_STATUS_REHASH_BUSY : Fld := ⟨0x124, 0, 31, 1⟩
def EM_STATUS_REHASH_AREA : Fld := ⟨0x124, 0, 0, 4⟩
def EM_STASH_USED : Fld := ⟨0x128, 0, 0, 9⟩
def EM_SEG_AREA_B : Fld := ⟨0x140, 8, 16, 4⟩
def EM_SEG_AREA_A : Fld := ⟨0x140, 8, 0, 4⟩
def LKP_KEYDEF_A_SEG0_OFF : Fld := ⟨0x200, 8, 24, 8⟩
def LKP_KEYDEF_A_SEG0_LEN : Fld := ⟨0x200, 8, 19, 5⟩
def LKP_KEYDEF_A_SEG1_OFF : Fld := ⟨0x200, 8, 8, 8⟩
def LKP_KEYDEF_A_SEG1_LEN : Fld := ⟨0x200, 8, 3, 5⟩
def LKP_KEYDEF_A_WIDE : Fld := ⟨0x200, 8, 0, 1⟩
def LKP_KEYDEF_B_SEG2_OFF : Fld := ⟨0x204, 8, 24, 8⟩
def LKP_KEYDEF_B_SEG2_LEN : Fld := ⟨0x204, 8, 19, 5⟩
def LKP_KEYDEF_B_SEG3_OFF : Fld := ⟨0x204, 8, 8, 8⟩
def LKP_KEYDEF_B_SEG3_LEN : Fld := ⟨0x204, 8, 3, 5⟩
def LKP_SET_A_EM0_EN : Fld := ⟨0x400, 8, 31, 1⟩
def LKP_SET_A_EM0_TYPE : Fld := ⟨0x400, 8, 25, 6⟩
def LKP_SET_A_EM1_EN : Fld := ⟨0x400, 8, 24, 1⟩
def LKP_SET_A_EM1_TYPE : Fld := ⟨0x400, 8, 18, 6⟩
def LKP_SET_A_LPM_AF : Fld := ⟨0x400, 8, 16, 2⟩
def LKP_SET_A_LPM_ADDR_OFF : Fld := ⟨0x400, 8, 8, 8⟩
def LKP_SET_A_LRN_EN : Fld := ⟨0x400, 8, 7, 1⟩
def LKP_SET_B_VRF_FROM_KEY : Fld := ⟨0x404, 8, 31, 1⟩
def LKP_SET_B_VRF_OFF : Fld := ⟨0x404, 8, 16, 8⟩
def LKP_SET_B_VRF : Fld := ⟨0x404, 8, 0, 12⟩
def LKP_HASH_MASK0_BYTES : Fld := ⟨0x600, 0x20, 0, 32⟩
def LKP_HASH_MASK1_BYTES : Fld := ⟨0x604, 0x20, 0, 32⟩
def LKP_HASH_MASK2_BYTES : Fld := ⟨0x608, 0x20, 0, 32⟩
def LKP_HASH_MASK3_BYTES : Fld := ⟨0x60C, 0x20, 0, 32⟩
def LKP_HASH_MASK4_BYTES : Fld := ⟨0x610, 0x20, 0, 32⟩
def LKP_HASH_SEED_SEED : Fld := ⟨0x614, 0x20, 0, 32⟩

/-! Fields of Table 10 — LRN window registers (kind 0x13), spec/06_lookup_tables.md. -/
def LRN_CFG_EN : Fld := ⟨0x100, 0, 31, 1⟩
def LRN_CFG_MOVE_EN : Fld := ⟨0x100, 0, 30, 1⟩
def LRN_CFG_LIMIT : Fld := ⟨0x100, 0, 0, 16⟩
def LRN_KEY_DMAC_OFF : Fld := ⟨0x104, 0, 24, 8⟩
def LRN_KEY_SMAC_OFF : Fld := ⟨0x104, 0, 16, 8⟩
def LRN_KEY_FID_OFF : Fld := ⟨0x104, 0, 8, 8⟩
def LRN_RING_RING : Fld := ⟨0x108, 0, 0, 15⟩
def LRN_USED_COUNT : Fld := ⟨0x10C, 0, 0, 17⟩
def LRN_NEW_COUNT : Fld := ⟨0x110, 0, 0, 32⟩
def LRN_MOVE_COUNT : Fld := ⟨0x114, 0, 0, 32⟩
def LRN_FULL_COUNT : Fld := ⟨0x118, 0, 0, 32⟩
def LRN_LIMITED_COUNT : Fld := ⟨0x11C, 0, 0, 32⟩

/-! Fields of Table 5 — Generation registers in the table group window (UID 0x0C00), spec/07_generations.md. -/
def GEN_STATUS_COMMIT_SEQ : Fld := ⟨0x800, 0, 16, 16⟩
def GEN_STATUS_STATE : Fld := ⟨0x800, 0, 4, 3⟩
def GEN_STATUS_ACTIVE : Fld := ⟨0x800, 0, 0, 1⟩
def GEN_INFLIGHT_A_COUNT : Fld := ⟨0x804, 0, 0, 24⟩
def GEN_INFLIGHT_B_COUNT : Fld := ⟨0x808, 0, 0, 24⟩
def GEN_SWITCH_LO_TIME : Fld := ⟨0x80C, 0, 0, 32⟩
def GEN_SWITCH_HI_TIME : Fld := ⟨0x810, 0, 0, 32⟩
def GEN_RETIRE_BY_HORIZON : Fld := ⟨0x814, 0, 31, 1⟩
def GEN_RETIRE_ORPHANS : Fld := ⟨0x814, 0, 0, 24⟩
def GEN_STAGED_SEL_TABLE : Fld := ⟨0x818, 0, 0, 8⟩
def GEN_STAGED_UNITS : Fld := ⟨0x81C, 0, 0, 24⟩
def GEN_STAGED_LIMIT_UNITS : Fld := ⟨0x820, 0, 0, 24⟩
def FENCE_STATUS_OUTSTANDING : Fld := ⟨0x824, 0, 0, 7⟩

/-! Fields of Table 3 — Sieve registers in the table group window (UID 0x0C00), spec/08_classifier_and_cam.md. -/
def SIV_KEYDEF_A_SEG0_OFF : Fld := ⟨0x900, 8, 24, 8⟩
def SIV_KEYDEF_A_SEG0_LEN : Fld := ⟨0x900, 8, 19, 5⟩
def SIV_KEYDEF_A_SEG1_OFF : Fld := ⟨0x900, 8, 8, 8⟩
def SIV_KEYDEF_A_SEG1_LEN : Fld := ⟨0x900, 8, 3, 5⟩
def SIV_KEYDEF_B_SEG2_OFF : Fld := ⟨0x904, 8, 24, 8⟩
def SIV_KEYDEF_B_SEG2_LEN : Fld := ⟨0x904, 8, 19, 5⟩
def SIV_KEYDEF_B_SEG3_OFF : Fld := ⟨0x904, 8, 8, 8⟩
def SIV_KEYDEF_B_SEG3_LEN : Fld := ⟨0x904, 8, 3, 5⟩
def SIV_SET_EN : Fld := ⟨0x980, 4, 31, 1⟩
def SIV_SET_KEYDEF : Fld := ⟨0x980, 4, 0, 4⟩
def SIV_GRP_SEL_GROUP : Fld := ⟨0xAC0, 0, 0, 6⟩
def SIV_GRP_CFG_EN : Fld := ⟨0xAC4, 0, 31, 1⟩
def SIV_GRP_CFG_STAGE : Fld := ⟨0xAC4, 0, 30, 1⟩
def SIV_GRP_CFG_KEYDEF : Fld := ⟨0xAC4, 0, 0, 4⟩
def SIV_GRP_MASK_BITS : Fld := ⟨0xAC8, 4, 0, 32⟩
def SIV_GRP_RULES_COUNT : Fld := ⟨0xAF0, 0, 0, 19⟩
def SIV_CFG_EGRESS_COUNT : Fld := ⟨0xB00, 0, 0, 19⟩
def SIV_INDEX_USED_COUNT : Fld := ⟨0xB04, 0, 0, 19⟩
def SIV_NOROOM_COUNT : Fld := ⟨0xB08, 0, 0, 32⟩
def SIV_SHADOW_LO_ADDR : Fld := ⟨0xB10, 0, 12, 20⟩
def SIV_SHADOW_HI_ADDR : Fld := ⟨0xB14, 0, 0, 32⟩
def SIV_CMP_CFG_EN : Fld := ⟨0xB18, 0, 31, 1⟩
def SIV_CMP_CFG_SLICE_LOG2 : Fld := ⟨0xB18, 0, 0, 4⟩
def SIV_CMP_STATUS_POS : Fld := ⟨0xB1C, 0, 0, 18⟩
def SIV_CMP_MISMATCH_COUNT : Fld := ⟨0xB20, 0, 0, 32⟩
def SIV_CMP_ABANDON_COUNT : Fld := ⟨0xB24, 0, 0, 32⟩

/-! Fields of Table 4 — SIV window registers (kind 0x0F), per course, spec/08_classifier_and_cam.md. -/
def SIV_ING_MATCH_COUNT : Fld := ⟨0x100, 0, 0, 32⟩
def SIV_ING_MISS_COUNT : Fld := ⟨0x104, 0, 0, 32⟩
def SIV_EGR_MATCH_COUNT : Fld := ⟨0x108, 0, 0, 32⟩
def SIV_EGR_MISS_COUNT : Fld := ⟨0x10C, 0, 0, 32⟩

/-! Fields of Table 10 — CAM group window registers (UID 0x0E80, kind 0x21), spec/08_classifier_and_cam.md. -/
def CAM_TBL_SEL_TABLE : Fld := ⟨0x100, 0, 0, 3⟩
def CAM_TBL_CFG_EN : Fld := ⟨0x104, 0, 31, 1⟩
def CAM_TBL_CFG_WIDTH_LOG2 : Fld := ⟨0x104, 0, 8, 2⟩
def CAM_TBL_CFG_REPLICAS_LOG2 : Fld := ⟨0x104, 0, 4, 2⟩
def CAM_TBL_CFG_SKIP_ACTION : Fld := ⟨0x104, 0, 0, 1⟩
def CAM_TBL_STATUS_DEGRADED : Fld := ⟨0x108, 0, 31, 1⟩
def CAM_TBL_STATUS_LIVE : Fld := ⟨0x108, 0, 0, 4⟩
def CAM_TBL_USED_COUNT : Fld := ⟨0x10C, 0, 0, 19⟩
def CAM_TBL_SKIP_COUNT : Fld := ⟨0x110, 0, 0, 32⟩
def CAM_TBL_VERIFY_FAIL_COUNT : Fld := ⟨0x114, 0, 0, 32⟩
def CAM_TBL_REPAIR_COUNT : Fld := ⟨0x118, 0, 0, 32⟩
def CAM_RATE_DIV_LOG2 : Fld := ⟨0x120, 0, 8, 4⟩
def CAM_RATE_GOV_LOG2 : Fld := ⟨0x120, 0, 4, 4⟩
def CAM_RATE_THERM_LOG2 : Fld := ⟨0x120, 0, 0, 4⟩
def CAM_COPY_LO_ADDR : Fld := ⟨0x124, 0, 12, 20⟩
def CAM_COPY_HI_ADDR : Fld := ⟨0x128, 0, 0, 32⟩
def CAM_SCRUB_CFG_EN : Fld := ⟨0x12C, 0, 31, 1⟩
def CAM_SCRUB_CFG_SLICE_LOG2 : Fld := ⟨0x12C, 0, 0, 4⟩
def CAM_SCRUB_STATUS_POS : Fld := ⟨0x130, 0, 0, 18⟩
def CAM_SCRUB_ABANDON_COUNT : Fld := ⟨0x134, 0, 0, 32⟩

/-! Fields of Table 11 — CAM bank window registers (kind 0x23), spec/08_classifier_and_cam.md. -/
def CAM_BANK_CFG_EN : Fld := ⟨0x100, 0, 31, 1⟩
def CAM_BANK_CFG_VERIFY : Fld := ⟨0x100, 0, 30, 1⟩
def CAM_BANK_CFG_TABLE : Fld := ⟨0x100, 0, 12, 3⟩
def CAM_BANK_CFG_REPLICA : Fld := ⟨0x100, 0, 8, 3⟩
def CAM_BANK_CFG_POSITION : Fld := ⟨0x100, 0, 0, 6⟩
def CAM_BANK_POISONED_COUNT : Fld := ⟨0x104, 0, 0, 13⟩

/-! Fields of Table 12 — CAM search set in the table group window (UID 0x0C00), spec/08_classifier_and_cam.md. -/
def LKP_CAM_SET_EN : Fld := ⟨0x700, 4, 31, 1⟩
def LKP_CAM_SET_TABLE : Fld := ⟨0x700, 4, 12, 3⟩
def LKP_CAM_SET_KEY_TYPE : Fld := ⟨0x700, 4, 0, 6⟩

/-! Fields of Table 7 — Resolve registers in the table group window (UID 0x0C00), spec/09_actions_and_rewrite.md. -/
def RSV_LRN_NH_BASE_BASE : Fld := ⟨0xB40, 0, 0, 20⟩
def RSV_TTL_CFG_PUNT : Fld := ⟨0xB44, 0, 31, 1⟩
def RSV_TTL_CFG_RING : Fld := ⟨0xB44, 0, 0, 15⟩
def RSV_SET_A_TC_SRC : Fld := ⟨0xC00, 8, 30, 2⟩
def RSV_SET_A_TC : Fld := ⟨0xC00, 8, 27, 3⟩
def RSV_SET_A_MISS_RESULT : Fld := ⟨0xC00, 8, 0, 24⟩
def RSV_SET_B_ORDER : Fld := ⟨0xC04, 8, 0, 18⟩

/-! Fields of Table 8 — RSV window registers (kind 0x11), per course, spec/09_actions_and_rewrite.md. -/
def RSV_MC_COPIES_COUNT : Fld := ⟨0x100, 0, 0, 32⟩
def RSV_MC_PRUNED_COUNT : Fld := ⟨0x104, 0, 0, 32⟩
def RSV_MC_NONE_COUNT : Fld := ⟨0x108, 0, 0, 32⟩
def RSV_RECIRC_DEPTH_COUNT : Fld := ⟨0x10C, 0, 0, 12⟩
def RSV_MC_PARTIAL_COUNT : Fld := ⟨0x200, 4, 0, 32⟩

/-! Fields of Table 9 — EGR window registers (kind 0x12), per course, spec/09_actions_and_rewrite.md. -/
def EGR_PORT_CFG_EACT_EN : Fld := ⟨0x100, 4, 31, 1⟩
def EGR_PORT_CFG_EACT : Fld := ⟨0x100, 4, 16, 15⟩
def EGR_PORT_CFG_EPROF : Fld := ⟨0x100, 4, 0, 4⟩

/-! Fields of Table 2 — Detour routing registers in the RSV window (kind 0x11), per course, spec/10_engines.md. -/
def RSV_ENG_HOME_HPROF : Fld := ⟨0x400, 0, 20, 3⟩
def RSV_ENG_HOME_COUNT : Fld := ⟨0x400, 0, 16, 3⟩
def RSV_ENG_HOME_HOMES : Fld := ⟨0x400, 0, 0, 16⟩
def RSV_ENG_OVFL_MASK : Fld := ⟨0x404, 0, 0, 16⟩
def RSV_ENG_SPILL_CELLS : Fld := ⟨0x408, 0, 0, 16⟩
def RSV_ENG_CLASS_PRIO : Fld := ⟨0x440, 4, 0, 3⟩
def RSV_NO_ENGINE_COUNT : Fld := ⟨0x480, 0, 0, 32⟩

/-! Fields of Table 8 — EC window registers (kind 0x18), spec/10_engines.md. -/
def EC_DEBUG_RING_EN : Fld := ⟨0x100, 0, 31, 1⟩
def EC_DEBUG_RING_RING : Fld := ⟨0x100, 0, 0, 15⟩
def EC_STATUS_FREE_CELLS : Fld := ⟨0x104, 0, 16, 13⟩
def EC_STATUS_QUEUED : Fld := ⟨0x104, 0, 0, 9⟩
def EC_OUTSTANDING_COUNT : Fld := ⟨0x108, 0, 0, 9⟩
def EC_CTR_DEADLINE : Fld := ⟨0x110, 0, 0, 32⟩
def EC_CTR_BUDGET : Fld := ⟨0x114, 0, 0, 32⟩
def EC_CTR_STALL : Fld := ⟨0x118, 0, 0, 32⟩
def EC_CTR_FAULT : Fld := ⟨0x11C, 0, 0, 32⟩
def EC_CTR_INVALID : Fld := ⟨0x120, 0, 0, 32⟩
def EC_JOB_CFG_A_PUNT : Fld := ⟨0x140, 8, 31, 1⟩
def EC_JOB_CFG_A_BUDGET : Fld := ⟨0x140, 8, 0, 17⟩
def EC_JOB_CFG_B_RING : Fld := ⟨0x144, 8, 0, 15⟩

/-! Fields of Table 9 — CSH window registers (kind 0x19), spec/10_engines.md. -/
def CSH_CHAN_CFG_WRITERS : Fld := ⟨0x100, 4, 0, 17⟩
def CSH_CHAN_STATUS_COMMITTED : Fld := ⟨0x200, 4, 8, 5⟩
def CSH_CHAN_STATUS_RESERVED : Fld := ⟨0x200, 4, 0, 5⟩
def CSH_LOCK_HELD : Fld := ⟨0x300, 4, 31, 1⟩
def CSH_LOCK_OWNER : Fld := ⟨0x300, 4, 0, 8⟩
def CSH_S_LO : Fld := ⟨0x700, 8, 0, 32⟩
def CSH_S_HI : Fld := ⟨0x704, 8, 0, 32⟩

/-! Fields of Table 10 — Engine window registers (kind 0x1A), spec/10_engines.md. -/
def ENG_CFG_STALL_HALT : Fld := ⟨0x100, 0, 31, 1⟩
def ENG_CFG_ENTRY : Fld := ⟨0x100, 0, 0, 12⟩
def ENG_HIGH_MASK : Fld := ⟨0x104, 0, 0, 8⟩
def ENG_STATUS_JOB : Fld := ⟨0x108, 0, 24, 8⟩
def ENG_STATUS_HALTED : Fld := ⟨0x108, 0, 16, 8⟩
def ENG_THREAD_STATE : Fld := ⟨0x110, 4, 28, 4⟩
def ENG_THREAD_WAIT_OBJ : Fld := ⟨0x110, 4, 20, 8⟩
def ENG_THREAD_PC : Fld := ⟨0x110, 4, 0, 12⟩
def ENG_STALLS_COUNT : Fld := ⟨0x140, 0, 0, 32⟩
def ENG_BRK_EN : Fld := ⟨0x180, 8, 31, 1⟩
def ENG_BRK_ACTION : Fld := ⟨0x180, 8, 29, 2⟩
def ENG_BRK_THREADS : Fld := ⟨0x180, 8, 16, 8⟩
def ENG_BRK_ADDR : Fld := ⟨0x180, 8, 0, 12⟩
def ENG_BRK_HITS_COUNT : Fld := ⟨0x184, 8, 0, 32⟩

/-! Fields of Table 14 — Microcode registers in the engine window (kind 0x1A), spec/11_microcode.md. -/
def ENG_UCODE_ID_LO_ID : Fld := ⟨0x200, 0, 0, 32⟩
def ENG_UCODE_ID_HI_ID : Fld := ⟨0x204, 0, 0, 32⟩
def ENG_UCODE_CRC_LO_CRC : Fld := ⟨0x208, 0, 0, 32⟩
def ENG_UCODE_CRC_HI_CRC : Fld := ⟨0x20C, 0, 0, 32⟩
def ENG_UCODE_ENTRY_LOADED : Fld := ⟨0x210, 0, 31, 1⟩
def ENG_UCODE_ENTRY_ENTRY : Fld := ⟨0x210, 0, 0, 12⟩
def ENG_CS_CORRECTED_COUNT : Fld := ⟨0x214, 0, 0, 32⟩

/-! Fields of Table 7 — BSN window registers (kind 0x1B), spec/12_basin.md. -/
def BSN_VC_CFG_VENT_EN : Fld := ⟨0x100, 0x10, 31, 1⟩
def BSN_VC_CFG_LOW_CELLS : Fld := ⟨0x100, 0x10, 16, 10⟩
def BSN_VC_CFG_HIGH_CELLS : Fld := ⟨0x100, 0x10, 0, 10⟩
def BSN_VC_RET_AHEAD_CELLS : Fld := ⟨0x104, 0x10, 0, 10⟩
def BSN_ING_LIMIT_LIMIT_CELLS : Fld := ⟨0x200, 4, 0, 24⟩
def BSN_OCC_SEL_PORT : Fld := ⟨0x600, 0, 0, 8⟩
def BSN_OCC_PRIO_CELLS : Fld := ⟨0x604, 4, 0, 29⟩
def BSN_OCC_ALL_CELLS : Fld := ⟨0x624, 0, 0, 29⟩
def BSN_VENT_GOV_PCT : Fld := ⟨0x640, 0, 0, 7⟩
def BSN_CAPTURE_CFG_EN : Fld := ⟨0x644, 0, 31, 1⟩
def BSN_CAPTURE_CFG_LIMIT : Fld := ⟨0x644, 0, 16, 13⟩
def BSN_CAPTURE_CFG_RING : Fld := ⟨0x644, 0, 0, 15⟩
def BSN_CAPTURE_LOST_COUNT : Fld := ⟨0x648, 0, 0, 32⟩
def BSN_CAPTURE_ABANDON_COUNT : Fld := ⟨0x64C, 0, 0, 32⟩
def BSN_SAMPLE_CFG_EN : Fld := ⟨0x650, 0, 31, 1⟩
def BSN_SAMPLE_CFG_SNAP_LEN : Fld := ⟨0x650, 0, 16, 11⟩
def BSN_SAMPLE_CFG_N : Fld := ⟨0x650, 0, 0, 16⟩
def BSN_SAMPLE_RING_RING : Fld := ⟨0x654, 0, 0, 15⟩
def BSN_SAMPLE_MASK_COLS : Fld := ⟨0x658, 0, 0, 32⟩
def BSN_SAMPLE_LOST_COUNT : Fld := ⟨0x65C, 0, 0, 32⟩

/-! Fields of Table 8 — BPM window registers (kind 0x1C), spec/12_basin.md. -/
def BPM_CH_SEL_CH : Fld := ⟨0x100, 0, 0, 4⟩
def BPM_CH_BASE_LO_ADDR : Fld := ⟨0x104, 0, 12, 20⟩
def BPM_CH_BASE_HI_ADDR : Fld := ⟨0x108, 0, 0, 4⟩
def BPM_CH_POOL0_BLOCKS : Fld := ⟨0x10C, 0, 0, 26⟩
def BPM_CH_POOL1_BLOCKS : Fld := ⟨0x110, 0, 0, 23⟩
def BPM_CH_POOL2_BLOCKS : Fld := ⟨0x114, 0, 0, 20⟩
def BPM_CH_STATUS_ONLINE : Fld := ⟨0x118, 0, 31, 1⟩
def BPM_CH_STATUS_USED : Fld := ⟨0x118, 0, 0, 29⟩
def BPM_POOL_FREE_BLOCKS : Fld := ⟨0x140, 4, 0, 29⟩
def BPM_QUOTA0_BLOCKS : Fld := ⟨0x200, 0x10, 0, 29⟩
def BPM_QUOTA1_BLOCKS : Fld := ⟨0x204, 0x10, 0, 29⟩
def BPM_QUOTA2_BLOCKS : Fld := ⟨0x208, 0x10, 0, 29⟩
def BPM_USED0_BLOCKS : Fld := ⟨0x300, 0x10, 0, 29⟩
def BPM_USED1_BLOCKS : Fld := ⟨0x304, 0x10, 0, 29⟩
def BPM_USED2_BLOCKS : Fld := ⟨0x308, 0x10, 0, 29⟩
def BPM_REF_USED_COUNT : Fld := ⟨0x400, 0, 0, 17⟩
def BPM_RELOCATED_COUNT : Fld := ⟨0x404, 0, 0, 32⟩
def BPM_LOST_COUNT : Fld := ⟨0x408, 0, 0, 32⟩

/-! Fields of Table 9 — Crosspoint window registers (kind 0x1D), spec/12_basin.md. -/
def XP_STATUS_PACKETS : Fld := ⟨0x100, 0, 16, 11⟩
def XP_STATUS_USED_CELLS : Fld := ⟨0x100, 0, 0, 11⟩
def XP_HWM_CELLS : Fld := ⟨0x104, 0, 0, 11⟩
def XP_BYPASS_COUNT : Fld := ⟨0x108, 0, 0, 32⟩
def XP_SIZE_CELLS : Fld := ⟨0x10C, 0, 0, 11⟩

/-! Fields of Table 2 — Queue profile registers in the TM group window (p = 0–63), spec/13_traffic_manager.md. -/
def TM_PROF_AGE_AGE_US : Fld := ⟨0x100, 0x20, 0, 19⟩
def TM_PROF_CFG_VENT_CLASS : Fld := ⟨0x104, 0x20, 28, 4⟩
def TM_PROF_CFG_TELEM_EN : Fld := ⟨0x104, 0x20, 27, 1⟩
def TM_PROF_CFG_PFC_PRIO : Fld := ⟨0x104, 0x20, 24, 3⟩
def TM_PROF_CFG_LEN_ADJ : Fld := ⟨0x104, 0x20, 16, 8⟩
def TM_PROF_LIM_G_CELLS : Fld := ⟨0x108, 0x20, 0, 24⟩
def TM_PROF_LIM_Y_CELLS : Fld := ⟨0x10C, 0x20, 0, 24⟩
def TM_PROF_LIM_R_CELLS : Fld := ⟨0x110, 0x20, 0, 24⟩

/-! Fields of Table 7 — TMQ window registers (kind 0x25), spec/13_traffic_manager.md. -/
def TMQ_PAGE_BASE_LO_ADDR : Fld := ⟨0x100, 0, 12, 20⟩
def TMQ_PAGE_BASE_HI_ADDR : Fld := ⟨0x104, 0, 0, 32⟩
def TMQ_PAGE_COUNT_PAGES : Fld := ⟨0x108, 0, 0, 24⟩
def TMQ_PAGE_USED_PAGES : Fld := ⟨0x10C, 0, 0, 24⟩
def TMQ_ENTRY_USED_COUNT : Fld := ⟨0x110, 0, 0, 16⟩
def TMQ_TELEM_CFG_EN : Fld := ⟨0x114, 0, 31, 1⟩
def TMQ_TELEM_CFG_RING : Fld := ⟨0x114, 0, 0, 15⟩
def TMQ_TELEM_ABANDON_COUNT : Fld := ⟨0x118, 0, 0, 32⟩
def TMQ_PORT_CFG_SHAPE_EN : Fld := ⟨0x200, 0x10, 31, 1⟩
def TMQ_PORT_CFG_RESET_FILL : Fld := ⟨0x200, 0x10, 30, 1⟩
def TMQ_PORT_CFG_L1 : Fld := ⟨0x200, 0x10, 29, 1⟩
def TMQ_PORT_RATE_RATE_KBPS : Fld := ⟨0x204, 0x10, 0, 32⟩
def TMQ_PORT_BURST_BYTES : Fld := ⟨0x208, 0x10, 0, 25⟩
def TMQ_PORT_STATUS_FLUSHING : Fld := ⟨0x20C, 0x10, 0, 1⟩
def TMQ_DROP_CTR_COUNT : Fld := ⟨0x600, 4, 0, 32⟩

/-! Fields of Table 4 — FAB window registers (kind 0x09), spec/14_fabric_interface.md. -/
def FAB_MODE_LINECARD : Fld := ⟨0x100, 0, 0, 1⟩
def FAB_ID_DEV_ID : Fld := ⟨0x104, 0, 0, 7⟩
def FAB_REORDER_WAIT_NS : Fld := ⟨0x108, 0, 0, 16⟩
def FAB_FC_HOLD_NS : Fld := ⟨0x10C, 0, 16, 16⟩
def FAB_RX_THR_XOFF_CELLS : Fld := ⟨0x110, 0, 16, 16⟩
def FAB_RX_THR_XON_CELLS : Fld := ⟨0x110, 0, 0, 16⟩
def FAB_RX_USED_CELLS : Fld := ⟨0x114, 0, 0, 15⟩
def FAB_RX_HDR_ERR : Fld := ⟨0x118, 0, 0, 32⟩
def FAB_RX_MISROUTE : Fld := ⟨0x11C, 0, 0, 32⟩
def FAB_RX_STALE : Fld := ⟨0x120, 0, 0, 32⟩
def FAB_RX_LOST_CELLS : Fld := ⟨0x124, 0, 0, 32⟩
def FAB_LANE_UP_MAP : Fld := ⟨0x140, 4, 0, 32⟩
def FAB_XOFF_MAP : Fld := ⟨0x150, 4, 0, 32⟩
def FAB_FP_CFG_EN : Fld := ⟨0x200, 4, 31, 1⟩
def FAB_FP_CFG_DEV : Fld := ⟨0x200, 4, 0, 7⟩
def FAB_SRC_DROP_COUNT : Fld := ⟨0x400, 4, 0, 32⟩

/-! Fields of Table 3 — DRAM group window registers (UID 0x1100, kind 0x26), spec/15_dram_and_movers.md. -/
def DRM_ILV_CFG_SIZE_GIB : Fld := ⟨0x100, 0, 16, 7⟩
def DRM_ILV_CFG_MASK : Fld := ⟨0x100, 0, 0, 12⟩
def DRM_OFF_ACCESS_COUNT : Fld := ⟨0x104, 0, 0, 32⟩
def DRM_ECWIN_BASE_ADDR : Fld := ⟨0x200, 8, 0, 28⟩
def DRM_ECWIN_SIZE_PAGES : Fld := ⟨0x204, 8, 0, 20⟩

/-! Fields of Table 4 — DMC window registers (kind 0x27), spec/15_dram_and_movers.md. -/
def DMC_CFG_RANKS : Fld := ⟨0x100, 0, 24, 2⟩
def DMC_CFG_WIDTH : Fld := ⟨0x100, 0, 23, 1⟩
def DMC_CFG_CAP_GIB : Fld := ⟨0x100, 0, 0, 7⟩
def DMC_POLICY_MODE : Fld := ⟨0x104, 0, 31, 1⟩
def DMC_POLICY_OPEN_NS : Fld := ⟨0x104, 0, 0, 16⟩
def DMC_ILV_BASE_BASE_GIB : Fld := ⟨0x108, 0, 0, 6⟩
def DMC_PD_IDLE_NS : Fld := ⟨0x10C, 0, 0, 16⟩
def DMC_RH_THR_ACT : Fld := ⟨0x110, 0, 16, 16⟩
def DMC_RH_THROTTLE_NS : Fld := ⟨0x110, 0, 0, 16⟩
def DMC_SCRUB_EN : Fld := ⟨0x114, 0, 31, 1⟩
def DMC_SCRUB_SLICE_LOG2 : Fld := ⟨0x114, 0, 0, 4⟩
def DMC_ECC_CORR : Fld := ⟨0x118, 0, 0, 32⟩
def DMC_ECC_UNCORR : Fld := ⟨0x11C, 0, 0, 32⟩
def DMC_RH_EVENTS : Fld := ⟨0x120, 0, 0, 32⟩
def DMC_RFM : Fld := ⟨0x124, 0, 0, 32⟩
def DMC_SCRUB_ABANDON : Fld := ⟨0x128, 0, 0, 32⟩
def DMC_ERR_ADDR_LO_ADDR : Fld := ⟨0x134, 0, 0, 32⟩
def DMC_ERR_ADDR_HI_ADDR : Fld := ⟨0x138, 0, 0, 4⟩
def DMC_TRAIN_STATUS_STEP : Fld := ⟨0x13C, 0, 24, 8⟩
def DMC_TRAIN_STATUS_LANE : Fld := ⟨0x13C, 0, 0, 7⟩
def DMC_TRN_CTL_GO : Fld := ⟨0x200, 0, 31, 1⟩
def DMC_TRN_CTL_PATTERN : Fld := ⟨0x200, 0, 28, 3⟩
def DMC_TRN_CTL_RANK : Fld := ⟨0x200, 0, 27, 1⟩
def DMC_TRN_CTL_BANK : Fld := ⟨0x200, 0, 22, 5⟩
def DMC_TRN_CTL_ROW : Fld := ⟨0x200, 0, 4, 18⟩
def DMC_TRN_COUNT_BURSTS : Fld := ⟨0x204, 0, 0, 16⟩
def DMC_TRN_USER_LO : Fld := ⟨0x208, 0, 0, 32⟩
def DMC_TRN_USER_HI : Fld := ⟨0x20C, 0, 0, 32⟩
def DMC_TRN_ERR_COUNT : Fld := ⟨0x400, 4, 0, 16⟩

/-! Fields of Table 8 — Mover window registers (kind 0x29), spec/15_dram_and_movers.md. -/
def MV_CFG_RING : Fld := ⟨0x100, 0, 0, 15⟩
def MV_TRIG_MODE : Fld := ⟨0x104, 0, 30, 2⟩
def MV_TRIG_SRC : Fld := ⟨0x104, 0, 16, 5⟩
def MV_TRIG_PERIOD : Fld := ⟨0x104, 0, 0, 16⟩
def MV_GATE_LIMIT_MS : Fld := ⟨0x108, 0, 0, 16⟩
def MV_STATUS_PENDING : Fld := ⟨0x10C, 0, 31, 1⟩
def MV_STATUS_GATED : Fld := ⟨0x10C, 0, 30, 1⟩
def MV_TRIG_MISSED_COUNT : Fld := ⟨0x110, 0, 0, 32⟩

/-! Fields of Table 9 — Performance counter registers (k = 0 to NCTR − 1), spec/16_observability.md. -/
def PMC_CTL_EN : Fld := ⟨0xE80, 0x10, 31, 1⟩
def PMC_CTL_MODE : Fld := ⟨0xE80, 0x10, 29, 2⟩
def PMC_CTL_CHAIN : Fld := ⟨0xE80, 0x10, 28, 1⟩
def PMC_CTL_OVF : Fld := ⟨0xE80, 0x10, 27, 1⟩
def PMC_CTL_OVF_EVT : Fld := ⟨0xE80, 0x10, 26, 1⟩
def PMC_CTL_CLASS : Fld := ⟨0xE80, 0x10, 22, 4⟩
def PMC_CTL_CLASS_EN : Fld := ⟨0xE80, 0x10, 21, 1⟩
def PMC_CTL_RANGE_EN : Fld := ⟨0xE80, 0x10, 20, 1⟩
def PMC_CTL_RANGE : Fld := ⟨0xE80, 0x10, 17, 3⟩
def PMC_CTL_PRIV_EN : Fld := ⟨0xE80, 0x10, 16, 1⟩
def PMC_CTL_PRIV : Fld := ⟨0xE80, 0x10, 15, 1⟩
def PMC_CTL_MASTER_EN : Fld := ⟨0xE80, 0x10, 14, 1⟩
def PMC_CTL_EVENT : Fld := ⟨0xE80, 0x10, 0, 12⟩
def PMC_ARG_MASTER : Fld := ⟨0xE84, 0x10, 25, 7⟩
def PMC_ARG_THRESH : Fld := ⟨0xE84, 0x10, 0, 24⟩
def PMC_VAL_LO_VALUE : Fld := ⟨0xE88, 0x10, 0, 32⟩
def PMC_VAL_HI_VALUE : Fld := ⟨0xE8C, 0x10, 0, 16⟩

/-! Fields of Table 13 — Sampler registers in the engine window (kind 0x1A), spec/16_observability.md. -/
def ENG_SAMP_CFG_EN : Fld := ⟨0x300, 0, 31, 1⟩
def ENG_SAMP_CFG_WRAP : Fld := ⟨0x300, 0, 30, 1⟩
def ENG_SAMP_CFG_THREADS : Fld := ⟨0x300, 0, 16, 8⟩
def ENG_SAMP_CFG_INTERVAL : Fld := ⟨0x300, 0, 0, 16⟩
def ENG_SAMP_STATUS_FULL : Fld := ⟨0x304, 0, 31, 1⟩
def ENG_SAMP_STATUS_NEXT : Fld := ⟨0x304, 0, 16, 12⟩
def ENG_SAMP_STATUS_COUNT : Fld := ⟨0x304, 0, 0, 13⟩
def ENG_SAMP_IDX_INDEX : Fld := ⟨0x308, 0, 0, 12⟩
def ENG_SAMP_DATA_LO_DATA : Fld := ⟨0x30C, 0, 0, 32⟩
def ENG_SAMP_DATA_HI_DATA : Fld := ⟨0x310, 0, 0, 32⟩

/-! Fields of Table 14 — TAL window registers (kind 0x06), spec/16_observability.md. -/
def TAL_CFG_EN : Fld := ⟨0x100, 0, 31, 1⟩
def TAL_CFG_RING : Fld := ⟨0x100, 0, 0, 15⟩
def TAL_ABANDON_COUNT : Fld := ⟨0x104, 0, 0, 32⟩
def TAL_CINDER_CFG_EN : Fld := ⟨0x108, 0, 31, 1⟩
def TAL_CINDER_CFG_LIMIT : Fld := ⟨0x108, 0, 15, 16⟩
def TAL_CINDER_CFG_RING : Fld := ⟨0x108, 0, 0, 15⟩
def TAL_CINDER_SUPPRESSED_COUNT : Fld := ⟨0x10C, 0, 0, 32⟩
def TAL_CINDER_MASK_CODES : Fld := ⟨0x110, 4, 0, 32⟩
def TAL_DROP_SEL_SCOPE : Fld := ⟨0x140, 0, 16, 10⟩
def TAL_DROP_SEL_CODE : Fld := ⟨0x140, 0, 0, 8⟩
def TAL_DROP_VAL_LO_VALUE : Fld := ⟨0x144, 0, 0, 32⟩
def TAL_DROP_VAL_HI_VALUE : Fld := ⟨0x148, 0, 0, 32⟩
def TAL_FLOW_BASE_LO_ADDR : Fld := ⟨0x150, 0, 12, 20⟩
def TAL_FLOW_BASE_HI_ADDR : Fld := ⟨0x154, 0, 0, 8⟩
def TAL_FLOW_CFG_EN : Fld := ⟨0x158, 0, 31, 1⟩
def TAL_FLOW_LOST_COUNT : Fld := ⟨0x15C, 0, 0, 32⟩
def TAL_RANGE_BASE_LO_ADDR : Fld := ⟨0x180, 0x10, 0, 32⟩
def TAL_RANGE_BASE_HI_ADDR : Fld := ⟨0x184, 0x10, 0, 8⟩
def TAL_RANGE_LIMIT_LO_ADDR : Fld := ⟨0x188, 0x10, 0, 32⟩
def TAL_RANGE_LIMIT_HI_ADDR : Fld := ⟨0x18C, 0x10, 0, 8⟩

/-! Fields of Table 1 — Severity registers in the window of a unit with NSRC 16 (s = source 0–15), spec/17_faults_and_repair.md. -/
def FLT_SEV_SEVERITY : Fld := ⟨0xE00, 8, 0, 3⟩
def FLT_SRC_COUNT_COUNT : Fld := ⟨0xE04, 8, 0, 32⟩

/-! Fields of Table 6 — FLT window registers (kind 0x05), spec/17_faults_and_repair.md. -/
def FLT_CFG_AUTO_CAM : Fld := ⟨0x100, 0, 10, 1⟩
def FLT_CFG_AUTO_TABLE : Fld := ⟨0x100, 0, 9, 1⟩
def FLT_CFG_AUTO_ENGINE : Fld := ⟨0x100, 0, 8, 1⟩
def FLT_CFG_PIN_LEVEL : Fld := ⟨0x100, 0, 0, 3⟩
def FLT_STATUS_FATAL_SEEN : Fld := ⟨0x104, 0, 31, 1⟩
def FLT_STATUS_FAULT_PIN : Fld := ⟨0x104, 0, 0, 1⟩
def FLT_HIST_STATUS_FROZEN : Fld := ⟨0x108, 0, 31, 1⟩
def FLT_HIST_STATUS_COUNT : Fld := ⟨0x108, 0, 0, 6⟩
def FLT_HIST_LOST_COUNT : Fld := ⟨0x10C, 0, 0, 32⟩
def FLT_HIST_SEL_INDEX : Fld := ⟨0x110, 0, 0, 5⟩
def FLT_HIST_DATA_DATA : Fld := ⟨0x114, 4, 0, 32⟩
def FOOT_CMD_CMD : Fld := ⟨0x140, 0, 0, 2⟩
def FOOT_STATUS_ACTIVE : Fld := ⟨0x144, 0, 31, 1⟩
def FOOT_STATUS_EXIT_PENDING : Fld := ⟨0x144, 0, 30, 1⟩
def FOOT_STATUS_CAUSE : Fld := ⟨0x144, 0, 0, 4⟩
def FOOT_CFG_KEY_TYPE : Fld := ⟨0x148, 0, 0, 6⟩
def FOOT_PORT_CFG_PCP : Fld := ⟨0x400, 4, 12, 3⟩
def FOOT_PORT_CFG_PVID : Fld := ⟨0x400, 4, 0, 12⟩

/-! Fields of Table 8 — Check unit window registers (kind 0x2B), spec/17_faults_and_repair.md. -/
def CU_CFG_EN : Fld := ⟨0x100, 0, 31, 1⟩
def CU_CFG_MODE : Fld := ⟨0x100, 0, 30, 1⟩
def CU_CFG_ALG : Fld := ⟨0x100, 0, 29, 1⟩
def CU_CFG_SPACE : Fld := ⟨0x100, 0, 28, 1⟩
def CU_CFG_SLICE_LOG2 : Fld := ⟨0x100, 0, 16, 4⟩
def CU_CFG_PERIODS : Fld := ⟨0x100, 0, 0, 16⟩
def CU_ADDR_LO_ADDR : Fld := ⟨0x104, 0, 3, 29⟩
def CU_ADDR_HI_ADDR : Fld := ⟨0x108, 0, 0, 32⟩
def CU_LEN_WORDS : Fld := ⟨0x10C, 0, 0, 32⟩
def CU_EXPECT_LO : Fld := ⟨0x110, 0, 0, 32⟩
def CU_EXPECT_HI : Fld := ⟨0x114, 0, 0, 32⟩
def CU_RESULT_LO : Fld := ⟨0x118, 0, 0, 32⟩
def CU_RESULT_HI : Fld := ⟨0x11C, 0, 0, 32⟩
def CU_STATUS_BUSY : Fld := ⟨0x120, 0, 31, 1⟩
def CU_STATUS_DONE : Fld := ⟨0x120, 0, 30, 1⟩
def CU_STATUS_MATCH : Fld := ⟨0x120, 0, 29, 1⟩
def CU_STATUS_ERROR : Fld := ⟨0x120, 0, 28, 1⟩
def CU_MISMATCH : Fld := ⟨0x124, 0, 0, 32⟩
def CU_ABANDON : Fld := ⟨0x128, 0, 0, 32⟩
def CU_ALIVE_CFG_TIMEOUT_US : Fld := ⟨0x140, 0, 16, 16⟩
def CU_ALIVE_CFG_STREAM : Fld := ⟨0x140, 0, 0, 8⟩
def CU_ALIVE_LAST_COUNT : Fld := ⟨0x144, 0, 0, 16⟩
def CU_ALIVE_REPEAT : Fld := ⟨0x148, 0, 0, 32⟩
def CU_ALIVE_MISSING : Fld := ⟨0x14C, 0, 0, 32⟩
def CU_ALIVE_STALE : Fld := ⟨0x150, 0, 0, 32⟩

/-! Fields of Table 7 — PLN window registers (kind 0x02), spec/18_resets_power_time.md. -/
def PLN_TIME_LO_NS : Fld := ⟨0x100, 0, 0, 32⟩
def PLN_TIME_HI_NS : Fld := ⟨0x104, 0, 0, 32⟩
def PLN_TIME_FRAC_FRAC : Fld := ⟨0x108, 0, 0, 16⟩
def PLN_TSET_LO : Fld := ⟨0x10C, 0, 0, 32⟩
def PLN_TSET_HI : Fld := ⟨0x110, 0, 0, 32⟩
def PLN_TIME_CTL_SET : Fld := ⟨0x114, 0, 31, 1⟩
def PLN_TIME_CTL_DONE : Fld := ⟨0x114, 0, 30, 1⟩
def PLN_FREQ_PPB : Fld := ⟨0x118, 0, 0, 32⟩
def PLN_SLEW_NS : Fld := ⟨0x11C, 0, 0, 32⟩
def PLN_WP_CFG_PERIOD_US : Fld := ⟨0x120, 0, 0, 14⟩
def PLN_WP_NUM_LO : Fld := ⟨0x124, 0, 0, 32⟩
def PLN_WP_NUM_HI : Fld := ⟨0x128, 0, 0, 32⟩
def PLN_THERM_SENSOR : Fld := ⟨0x130, 0, 24, 8⟩
def PLN_THERM_TJ : Fld := ⟨0x130, 0, 0, 16⟩
def PLN_TRIM_GOV_LEVEL : Fld := ⟨0x134, 0, 24, 4⟩
def PLN_TRIM_THERM_ISSUE_8THS : Fld := ⟨0x134, 0, 16, 4⟩
def PLN_TRIM_GOV_ISSUE_8THS : Fld := ⟨0x134, 0, 8, 4⟩
def PLN_TRIM_ISSUE_8THS : Fld := ⟨0x134, 0, 0, 4⟩
def PLN_POWER_MW : Fld := ⟨0x138, 0, 0, 32⟩
def PLN_POWER_AVG_MW : Fld := ⟨0x13C, 0, 0, 32⟩
def PLN_GOV_CFG_PEAK_W : Fld := ⟨0x140, 0, 16, 10⟩
def PLN_GOV_CFG_LIMIT_W : Fld := ⟨0x140, 0, 0, 9⟩
def PLN_GOV_STATUS_SATURATED : Fld := ⟨0x144, 0, 31, 1⟩
def PLN_GOV_STATUS_SPENT : Fld := ⟨0x144, 0, 30, 1⟩
def PLN_GOV_STATUS_ALLOW_US : Fld := ⟨0x144, 0, 0, 16⟩
def PLN_SUPPLY_VDD_MV : Fld := ⟨0x150, 0, 16, 10⟩
def PLN_SUPPLY_TARGET_MV : Fld := ⟨0x150, 0, 0, 10⟩
def PLN_SUPPLY_WARNS_COUNT : Fld := ⟨0x154, 0, 0, 32⟩
def PLN_RESET_CAUSE_CAUSE : Fld := ⟨0x158, 0, 0, 8⟩
def PLN_WEAR_SECONDS : Fld := ⟨0x180, 4, 0, 32⟩
def PLN_WEAR_TRIPS : Fld := ⟨0x198, 0, 0, 32⟩
def PLN_WEAR_BROWNOUTS : Fld := ⟨0x19C, 0, 0, 32⟩
def PLN_CMP_LO_TIME : Fld := ⟨0x200, 0x10, 0, 32⟩
def PLN_CMP_HI_TIME : Fld := ⟨0x204, 0x10, 0, 32⟩
def PLN_CMP_PERIOD_NS : Fld := ⟨0x208, 0x10, 0, 32⟩
def PLN_CMP_CTL_EN : Fld := ⟨0x20C, 0x10, 31, 1⟩
def PLN_CMP_CTL_OUT : Fld := ⟨0x20C, 0x10, 29, 2⟩
def PLN_CMP_CTL_EVT : Fld := ⟨0x20C, 0x10, 28, 1⟩
def PLN_CMP_CTL_WAKE : Fld := ⟨0x20C, 0x10, 27, 1⟩
def PLN_CMP_CTL_WIDTH_US : Fld := ⟨0x20C, 0x10, 0, 20⟩
def PLN_CAP_LO_NS : Fld := ⟨0x300, 0x10, 0, 32⟩
def PLN_CAP_HI_NS : Fld := ⟨0x304, 0x10, 0, 32⟩
def PLN_CAP_CTL_EN : Fld := ⟨0x308, 0x10, 31, 1⟩
def PLN_CAP_CTL_EDGE : Fld := ⟨0x308, 0x10, 30, 1⟩
def PLN_CAP_CTL_EVT : Fld := ⟨0x308, 0x10, 29, 1⟩
def PLN_CAP_CTL_FRAC : Fld := ⟨0x308, 0x10, 0, 16⟩
def PLN_CAP_COUNT_COUNT : Fld := ⟨0x30C, 0x10, 0, 32⟩

/-! Fields of Table 8 — Power registers in the DEV window (UID 0x0000), spec/18_resets_power_time.md. -/
def DEV_SOFT_RESET_KEY : Fld := ⟨0x108, 0, 16, 16⟩
def DEV_POWER_CMD_CMD : Fld := ⟨0x10C, 0, 0, 2⟩
def DEV_POWER_STATUS_BUSY : Fld := ⟨0x110, 0, 31, 1⟩
def DEV_POWER_STATUS_STATE : Fld := ⟨0x110, 0, 0, 3⟩
def DEV_DRAIN_TIMEOUT_US : Fld := ⟨0x114, 0, 0, 14⟩
def DEV_DRAIN_FORCED_COUNT : Fld := ⟨0x118, 0, 0, 32⟩

/-! Fields of Table 5 — BAR4 registers of PF0, spec/19_security_and_mailboxes.md. -/
def MB_OUT_DATA : Fld := ⟨0, 0x10, 0, 32⟩
def MB_IN_DATA : Fld := ⟨4, 0x10, 0, 32⟩
def MB_STATUS_OUT_FULL : Fld := ⟨8, 0x10, 31, 1⟩
def MB_STATUS_IN_FULL : Fld := ⟨8, 0x10, 30, 1⟩
def MB_STATUS_CROSSED : Fld := ⟨8, 0x10, 29, 1⟩
def MB_DROPPED_COUNT : Fld := ⟨0xC, 0x10, 0, 32⟩
def MB_CFG_NOTIFY : Fld := ⟨0x200, 4, 31, 1⟩
def MB_CROSS_TIME_US : Fld := ⟨0x300, 0, 0, 20⟩
def MB_CHAL_DATA : Fld := ⟨0x400, 4, 0, 32⟩
def MB_AUTH_SIG_DATA : Fld := ⟨0x440, 4, 0, 32⟩
def MB_AUTH_CTL_GO : Fld := ⟨0x4C0, 0, 31, 1⟩
def MB_AUTH_CTL_CLOSE : Fld := ⟨0x4C0, 0, 30, 1⟩
def MB_AUTH_CTL_OP_SLOT : Fld := ⟨0x4C0, 0, 0, 1⟩
def MB_AUTH_STATUS_OPEN : Fld := ⟨0x4C4, 0, 31, 1⟩
def MB_AUTH_STATUS_BUSY : Fld := ⟨0x4C4, 0, 30, 1⟩
def MB_AUTH_STATUS_LOCKOUT : Fld := ⟨0x4C4, 0, 29, 1⟩
def MB_AUTH_STATUS_FAILS : Fld := ⟨0x4C4, 0, 0, 8⟩

/-! Fields of Table 8 — Security registers in the WDN window (UID 0x0002), spec/19_security_and_mailboxes.md. -/
def SEC_KEYS_OP_PRESENT : Fld := ⟨0x100, 0, 16, 2⟩
def SEC_KEYS_OP_REVOKED : Fld := ⟨0x100, 0, 14, 2⟩
def SEC_KEYS_REVOKED : Fld := ⟨0x100, 0, 4, 4⟩
def SEC_KEYS_PRESENT : Fld := ⟨0x100, 0, 0, 4⟩
def SEC_ARB_COUNT : Fld := ⟨0x104, 0, 0, 7⟩
def SEC_DEVICE_ID_LO : Fld := ⟨0x108, 0, 0, 32⟩
def SEC_DEVICE_ID_HI : Fld := ⟨0x10C, 0, 0, 32⟩
def WDN_FW_STATUS_RECOVERY : Fld := ⟨0x110, 0, 1, 1⟩
def WDN_FW_STATUS_SLOT : Fld := ⟨0x110, 0, 0, 1⟩
def SEC_ID_PUB_DATA : Fld := ⟨0x180, 4, 0, 32⟩

/-! Fields of Table 5 — TWN window registers (kind 0x07), spec/20_twin.md. -/
def TWN_CFG_FOOT_YIELD : Fld := ⟨0x100, 0, 10, 1⟩
def TWN_CFG_SNAP_EN : Fld := ⟨0x100, 0, 9, 1⟩
def TWN_CFG_LEAD_PREF : Fld := ⟨0x100, 0, 8, 1⟩
def TWN_CFG_MODE : Fld := ⟨0x100, 0, 0, 2⟩
def TWN_SNAP_BASE_LO_ADDR : Fld := ⟨0x104, 0, 3, 29⟩
def TWN_SNAP_BASE_HI_ADDR : Fld := ⟨0x108, 0, 0, 8⟩
def TWN_STATUS_STATE : Fld := ⟨0x10C, 0, 28, 4⟩
def TWN_STATUS_ROLE : Fld := ⟨0x10C, 0, 26, 2⟩
def TWN_STATUS_HOLD_IN : Fld := ⟨0x10C, 0, 25, 1⟩
def TWN_STATUS_HOLD_OUT : Fld := ⟨0x10C, 0, 24, 1⟩
def TWN_STATUS_LANES_UP : Fld := ⟨0x10C, 0, 16, 8⟩
def TWN_STATUS_TWIN_ID : Fld := ⟨0x10C, 0, 15, 1⟩
def TWN_PEER_PEER_SEQ : Fld := ⟨0x110, 0, 16, 16⟩
def TWN_PEER_FOOTING : Fld := ⟨0x110, 0, 2, 1⟩
def TWN_PEER_ROLE : Fld := ⟨0x110, 0, 0, 2⟩
def TWN_CMD_CMD : Fld := ⟨0x114, 0, 0, 3⟩
def TWN_CRC_ERR : Fld := ⟨0x118, 0, 0, 32⟩
def TWN_RETRANS : Fld := ⟨0x11C, 0, 0, 32⟩
def TWN_HB_MISSED : Fld := ⟨0x120, 0, 0, 32⟩
def TWN_TAKEOVERS : Fld := ⟨0x124, 0, 0, 32⟩
def TWN_SNAP_ABANDON : Fld := ⟨0x128, 0, 0, 32⟩
def TWN_STBY_RX : Fld := ⟨0x12C, 0, 0, 32⟩
def TWN_SNAP_STATUS_PERIOD : Fld := ⟨0x130, 0, 0, 32⟩

end F
end Sys2Proof.Machine
end

