-- ==== Sys2Proof/Machine/State.lean ====
section
/-!
DEFINITION. The state of the RZL-2560 as plain data (log entry 3 says how the register file is laid out, log entry 4
how plinth time is held). Registers of every window live in ONE sparse file, `regs`; what the spec gives the device
beside its registers (queues, buffers, tables, packets held, timers that run) stands in the structures below. Three
kinds of field are the model's own and no state of the spec: `pending`, the commands that wait; `out`, what the device
has sent to the outside; and `draws`, the number of free values drawn (log entry 1).
-/
namespace Sys2Proof.Machine

/-- The plinth's timekeeping (R405, R406, R410): `now` is plinth time in 1/65,536 ns, `acc` the part of a tick below
that unit in 10^-9 of it, `slew` the unabsorbed remainder of PLN_SLEW in 1/65,536,000 ns, `nextWp` the time of the next
work-period boundary, `wpNum` the boundaries since power-on, `running` whether the clock counts (PLN_XTAL present). `core` is
the time of the islands' own clocks in 1/65,536 ns, which PLN_FREQ, PLN_SLEW and a SET do not move (R6, log entry 97), and
`counted` the island time up to which the counters that run with time have counted. -/
structure Clk where
  now : Nat := 0
  acc : Nat := 0
  slew : Int := 0
  core : Nat := 0
  counted : Nat := 0
  nextWp : Nat := 6553600000
  wpNum : Nat := 0
  running : Bool := true
  deriving DecidableEq, Repr

/-- `d` of 1/65,536 ns pass, in plinth time and in island time. -/
def Clk.pass (c : Clk) (d : Nat) : Clk := { c with now := c.now + d, core := c.core + d }

/-- What leaves the device: writes to host memory, interrupts, frames, answers to reads, pins, messages. -/
inductive Out where
  /-- A function's write of bytes to host memory at an address (R70). -/
  | hostWrite (master addr : Nat) (data : List Byte)
  /-- A write of punted data with Relaxed Ordering set (R60). -/
  | hostWriteRelaxed (master addr : Nat) (data : List Byte)
  /-- A function's read request for bytes of host memory (R60). -/
  | hostRead (master addr len : Nat)
  /-- An event raised to the warden, as its record (R63). -/
  | warden (data : List Byte)
  /-- MSI-X vector `vec` of a function, by master number (R86). -/
  | msix (master vec : Nat)
  /-- A frame begun on an Ethernet port, FCS included, `bad` where it ends errored. -/
  | frame (port : Nat) (data : List Byte) (bad : Bool)
  /-- A PAUSE (`prio` 8) or PFC frame with its quanta (R107). -/
  | pause (port prio quanta : Nat)
  /-- A MAC starts (`on`) or stops transmitting remote fault ordered sets (R100). -/
  | remoteFault (port : Nat) (on : Bool)
  /-- A read's answer. -/
  | data (value : Nat)
  /-- Completer Abort to an access (R391, R397). -/
  | abort
  /-- A pin's level. -/
  | pin (name : Nat) (level : Bool)
  /-- A fabric cell on a fabric lane (chapter 14). -/
  | cell (lane : Nat) (data : List Byte)
  /-- A twin-link message (chapter 20). -/
  | twin (data : List Byte)
  /-- SMBus answer bytes (chapter 21). -/
  | smb (data : List Byte)
  /-- The device acknowledges an SMBus write, or refuses to (R454). -/
  | smbAck (ok : Bool)
  /-- TAP output (chapter 21). -/
  | tap (value : Nat)
  /-- What drives the pins from now on: 0 the device's own logic, 1 the boundary cells with these values (EXTEST, CLAMP), 2
  nothing (HIGHZ; R456). -/
  | boundary (drive cells : Nat)
  /-- An SPDM answer over DOE (R423). -/
  | doe (data : List Byte)
  deriving DecidableEq, Repr

/-- A completion before its ring and phase are filled in (Table 9 of chapter 3); `extra` holds reply words 0x10–0x38 of
a TABLE_REPLY ring. -/
structure Comp where
  status : Nat
  len : Nat
  info : Nat
  extra : List Byte
  deriving DecidableEq, Repr

/-- A descriptor an SQ holds between its read and its completion (Table 7 of chapter 3): its four words, its index, the
host address it was read from, its place in the order in which the device has read descriptors of any ring (R164, R264),
whether its opcode has begun, since when it waits for the OPEN state (R164), and its completion once known. -/
structure Desc where
  w0 : Nat
  w1 : Nat
  w2 : Nat
  w3 : Nat
  idx : Nat
  seq : Nat := 0
  begun : Bool := false
  wait : Option Nat := none
  comp : Option Comp := none
  deriving DecidableEq, Repr

/-- What a ring context holds beside its registers: `host` is the host's index (PI of an SQ, CI of a CQ or RQ), `armed`,
`pend` and `pendAt` the interrupt moderation of R86, `vec` and `time` RING_INT.VECTOR and RING_MOD.TIME_US as they stood
when the last entry became pending (R71), `sinceWb` the descriptors read since the last write-back, `descs` the descriptors
in the device in ring order, the chain position of R85, the waits of R83 and the tCQW timer, whether EVT_RING_OVERFLOW has
been raised this period (R84), whether an FLR has stopped the ring, RING_LOG2 as it was when the ring was enabled, which
holds until it is Disabled, and, in a context numbered 32,768 and above, the type of the ring whose commands it keeps: what
an FLR finds read and not done on ring `r` goes on in context `r` + 32,768, whose completions are never written (R90). -/
structure Ring where
  log : Nat := 0
  typ : Nat := 0
  host : Nat := 0
  armed : Bool := false
  pend : Nat := 0
  pendAt : Nat := 0
  vec : Nat := 0
  time : Nat := 0
  sinceWb : Nat := 0
  descs : List Desc := []
  next : Nat := 0
  tail : Nat := 0
  endSeen : Bool := false
  reread : Option Nat := none
  fullAt : Option Nat := none
  flushAt : Option Nat := none
  overflowed : Bool := false
  flr : Bool := false
  deriving DecidableEq, Repr

/-- An entry of the held record stream: a record for a ring of a type, an event for a function's default event ring, or the
marker of a FENCE of a ring with its EVT_FENCE, stamped T_F, for the issuing function (R355, R357). -/
inductive Held where
  | record (ring typ : Nat) (data : List Byte)
  | event (master : Nat) (data : List Byte)
  | fence (ring master : Nat) (data : List Byte)
  deriving DecidableEq, Repr

/-- A CFG_WRITE descriptor whose entries wait for a boundary (R82): its ring and descriptor index, whether its completion
can still be written, its operand. -/
structure CfgSet where
  ring : Nat
  idx : Nat
  live : Bool
  data : List Byte
  deriving DecidableEq, Repr

/-- A function's PCI Express configuration space as far as R60 gives it state: Max Payload Size is 128·2^`mps` bytes and Max
Read Request Size 128·2^`mrrs`; whether Relaxed Ordering and 10-bit tags are enabled, and ECRC generation and check; AER's
uncorrectable status, mask and severity and its correctable status and mask. Reset values are those of PCI Express (PRESUMED,
log entry 70). -/
structure Pci where
  mps : Nat := 0
  mrrs : Nat := 2
  relaxed : Bool := true
  tag10 : Bool := false
  ecrcGen : Bool := false
  ecrcCheck : Bool := false
  uncStatus : Nat := 0
  uncMask : Nat := 0x400000
  uncSev : Nat := 0x462030
  corStatus : Nat := 0
  corMask : Nat := 0xE000
  deriving DecidableEq, Repr

/-- The host interface beside its registers: ring contexts, the event backlog, records held by a FENCE, functions in an FLR
with its start, per table command window the start of its command and since when it waits (windows 4–7 keep what an FLR of
PF0–PF3 found accepted and not done, R90), configuration writes that wait, descriptors read so far, configuration space by
master number. -/
structure Hif where
  rings : KMap Ring := []
  reads : Nat := 0
  pci : KMap Pci := []
  cfg : List CfgSet := []
  backlog : List (List Byte) := []
  held : List Held := []
  flr : List (Nat × Nat) := []
  tcwAt : KMap (Option Nat) := []
  tcwWait : KMap (Option Nat) := []
  deriving DecidableEq, Repr

/-- A held claim: owner and time of the grant (R56–R59). -/
structure Claim where
  owner : Nat
  since : Nat
  deriving DecidableEq, Repr

/-- One group on the path of a running unit command (R50): the group, the children still to go, the deepest unit that
failed, when its part began, and whether it has passed the command to a child (R247). -/
structure UFrame where
  uid : Nat
  todo : List Nat
  failed : Option Nat
  since : Nat := 0
  passed : Bool := false
  deriving DecidableEq, Repr

/-- A running unit command: the unit addressed, command and tag, the groups being worked through (innermost first), the
leaf whose own part runs, when it began, and the result of the child that has just ended. -/
structure URun where
  top : Nat
  cmd : Nat
  tag : Nat
  stack : List UFrame
  leaf : Option Nat
  since : Nat
  ended : Option (Nat × Nat)
  deriving DecidableEq, Repr

/-- A history record (Table 5 of chapter 17). -/
structure Hist where
  time : Nat
  uid : Nat
  src : Nat
  sev : Nat
  action : Nat
  detail : Nat
  deriving DecidableEq, Repr

/-- A check unit beside its registers (R384, R385): words scanned, the CRC so far, the boundary count at the last start,
whether a scan has started since EN, whether a message has set LAST, the time of the last message or timeout, the boundary
count + 1 of the last slice. -/
structure CuRun where
  pos : Nat := 0
  crc : Nat := 0
  startWp : Nat := 0
  started : Bool := false
  seen : Bool := false
  msgAt : Nat := 0
  slicedAt : Nat := 0
  deriving DecidableEq, Repr

/-- Fault collector and repair state beside the registers: running unit commands, history, substitutions in progress
(bank, spare), banks that have been replaced (bank, its spare), footing preparation, the repair map (the spare row, from 1, by
unit, array and row; R377), rows of a CAM bank emptied by its reset (bank, address), poisoned rows of VERIFY banks (bank,
address, unit), key units of a bank without VERIFY (4,096 · bank + unit) that hold another value than their entry, or, of a free
slot, than the copy (R191), words a substitution wrote as uncorrectable (bank, table, slot; R375), check units, crossing discard
counts by unit (R31). -/
structure Flt where
  runs : List URun := []
  hist : List Hist := []
  subst : List (Nat × Nat) := []
  swapped : List (Nat × Nat) := []
  ready : Bool := false
  repairs : KMap Nat := []
  blank : List (Nat × Nat) := []
  poison : List (Nat × Nat × Nat) := []
  rowKeys : KMap (Option Nat) := []
  badWords : List (Nat × Nat × Nat) := []
  cus : KMap CuRun := []
  crossed : KMap Nat := []
  deriving DecidableEq, Repr

/-- Power, temperature and supply state beside the registers (R393–R404, R445, R447, R452). `mode` is the device's
condition: 0 running, 1 a chip-class reset held, 2 a device soft reset held, 3 Plinth-only. `resetAt` and `resetBy` are the
end and the cause bits of the last reset; `drainAt` the start of a drain toward Banked or Plinth-only; `wasUp` the FWD units
that were Ready, Active or Draining at entry to Banked and `wasRet` those Retired; `fwdOff` FWD has no power; `govAt` and
`thermAt` the times of the last governor and sensor samples; `allow` and `spent` the governor's allowance in half µs and its
flag, `stepAt` the time of its last step, `samples` the power samples of the last 10 ms; `hot120` and `hot125` consecutive
samples at or above those temperatures, `warned` and `thermFoot` the warning of Table 4 and the standing footing cause of
chapter 18; `outUntil` the end of the pulse by PPS_OUT pin. `railTries` failed power-up attempts, `coreEn` CORE_PWR_EN,
`coreOffAt` when it was last driven low by a rail timeout; `smbAddr` the sampled SMBus straps, `smbSel` HIST_SEL, `alertOn`
SMB_ALERT_N driven low and `alertAns` the Alert Response Address answered since; `tapIr` the TAP instruction (0 BYPASS, 1
IDCODE, 2 SAMPLE/PRELOAD, 3 EXTEST, 4 CLAMP, 5 HIGHZ, 6 EXTEST_PULSE, 7 EXTEST_TRAIN) and `tapCells` the boundary cells'
latched values, bit k of cell k. `lowRails` holds the rails last seen below their levels (bit 0 VDDA_SER, 1 VDDH_SER, 2 VDDQ_DDR,
3 VDD_IO, 4 VDD_CORE; R445), `enAt` when CORE_PWR_EN rose, while the wait for every rail runs (R452), `coreClkLost` that
CORE_REFCLK is lost (R447), `coreLow` that VDD_CORE has fallen below 95 % of target and `coreOkAt` when it last rose above it
again (Table 1 of chapter 18), `dmcDrainAt` when the DMCs began to finish what they hold before self-refresh in footing mode
(R396). -/
structure Pwr where
  mode : Nat := 0
  resetAt : Nat := 0
  resetBy : Nat := 0
  drainAt : Option Nat := none
  wasUp : List Nat := []
  wasRet : List Nat := []
  fwdOff : Bool := false
  govAt : Nat := 0
  thermAt : Nat := 0
  allow : Nat := 100000
  spent : Bool := false
  stepAt : Nat := 0
  samples : List Nat := []
  hot120 : Nat := 0
  hot125 : Nat := 0
  warned : Bool := false
  thermFoot : Bool := false
  wdnLost : Bool := false
  supplyWarn : Bool := false
  railTries : Nat := 0
  coreEn : Bool := true
  coreOffAt : Nat := 0
  outUntil : KMap Nat := []
  smbAddr : Nat := 0
  smbSel : Nat := 0
  alertOn : Bool := false
  alertAns : Bool := false
  tapIr : Nat := 1
  tapCells : Nat := 0
  lowRails : Nat := 0
  enAt : Option Nat := none
  coreClkLost : Bool := false
  coreLow : Bool := false
  coreOkAt : Nat := 0
  dmcDrainAt : Option Nat := none
  deriving DecidableEq, Repr

/-- The admission record (Table 1 of chapter 5), without FRAME_LEN, which the frame gives; and the course that admitted the
packet (R215, R226). -/
structure Adm where
  admitAt : Nat := 0
  rxTs : Nat := 0
  deadline : Nat := 0
  gen : Nat := 0
  pass : Nat := 0
  host : Bool := false
  port : Nat := 0
  cls : Nat := 0
  profile : Nat := 0
  slow : Bool := false
  slowClass : Nat := 0
  mal : Bool := false
  malReason : Nat := 0
  bos : Nat := 0
  l3Off : Nat := 0
  l4Off : Nat := 0
  course : Nat := 0
  deriving DecidableEq, Repr

/-- A result slot: hit, SKIPPED, RESULT, the entry's index, slot or address, and the slot's further word (META of a wide
EM entry, PORT of a learned entry, DETOUR of a sieve rule). -/
structure Slot where
  hit : Bool := false
  skipped : Bool := false
  result : Nat := 0
  index : Nat := 0
  extra : Nat := 0
  deriving DecidableEq, Repr

/-- A packet with the forwarding metadata of R201: words 0x08–0x20 of the applied action as R196 composes them. -/
structure Pkt where
  frame : List Byte := []
  adm : Adm := {}
  kv : List Byte := []
  slots : List Slot := []
  l3Kind : Nat := 0
  tc : Nat := 0
  color : Nat := 0
  edits : Nat := 0
  lse01 : Nat := 0
  lse23 : Nat := 0
  ptp : Nat := 0
  markDei : Bool := false
  fabric : Bool := false
  counted : Bool := true
  foot : Bool := false
  mc : Option Nat := none
  deriving DecidableEq, Repr

/-- A copy's own part (R269): queue, next hop and its enable, egress action, egress meter; toward an internal port the
SOURCE and USER of the job it becomes, or the ring and REASON of a punt (R199, R221, R226). -/
structure Copy where
  queue : Nat
  src : Nat := 0
  punt : Option Nat := none
  reason : Nat := 0
  user : Nat := 0
  nhEn : Bool := true
  nh : Nat := 0
  eactEn : Bool := false
  eact : Nat := 0
  emEn : Bool := false
  em : Nat := 0
  deriving DecidableEq, Repr

/-- Where a packet goes at hand-off: a detour, a punt to a ring with a REASON (R141, R199), one copy to a queue, or the
members of the replication list whose head was read (`foot` in the footing pass, R382). -/
inductive Fate where
  | detour
  | punt (ring reason : Nat)
  | queue (c : Copy)
  | list (head : Nat) (foot : Bool)
  deriving DecidableEq, Repr

/-- A packet that waits for the hand-off stage: its fate, the key it would learn (R144), CAPTURE and the flow counter of its
ingress record, and its egress meter. -/
structure Hand where
  pkt : Pkt
  fate : Fate
  learn : Option Nat := none
  capture : Bool := false
  fctr : Option Nat := none
  em : Option Nat := none
  member : Nat × Nat := (0, 0)
  deriving DecidableEq, Repr

/-- A frame in a port block's receive buffer: port, bytes without FCS, receive stamp and time of arrival in
1/65,536 ns. -/
structure RxFrame where
  port : Nat
  frame : List Byte
  stamp : Nat
  at_ : Nat
  deriving DecidableEq, Repr

/-- A frame a course has been given by the host (R78) or a recirculation (R217, with its profile). -/
structure Recirc where
  pkt : Pkt
  profile : Nat
  cluster : Nat := 0
  deriving DecidableEq, Repr

/-- A frame the host injects into a course that has been read and not yet admitted (R78): its descriptor's ring and index, LEN
and the padded frame. -/
structure Inject where
  ring : Nat
  idx : Nat
  len : Nat
  frame : List Byte
  deriving DecidableEq, Repr

/-- A course beside its registers: injected frames that wait, headers that wait for hand-off, the recirculation queue,
the CAM-skip mark of the next header, learn records written this period, port blocks held in a hand-back with their
start (R379), and for each such block the headers outstanding in the partner. -/
structure Course where
  inject : List Inject := []
  hand : List Hand := []
  recirc : List Recirc := []
  camSkip : Bool := false
  learned : Nat := 0
  heldAt : Option Nat := none
  heldBlocks : List Nat := []
  deriving DecidableEq, Repr

/-- A port beside its registers: time of the last down declaration and of the last change of link state, whether it was
declared up since ADMIN_UP, whether its hold is over, the reason of its fault, the end and the start of the pause from the
partner and the end of its being ignored per priority (8 for PAUSE), the time XOFF was last sent, the entries a running
flush has dropped; the PAUSE and PFC frames (class, quanta) that wait for the frame in transmission (R107); whether the PCS
is aligned (R469); whether the MAC transmits remote fault ordered sets (R100); and in slot 0 the start of a re-adaptation
by lane of the block. -/
structure Port where
  tDown : Nat := 0
  since : Nat := 0
  wasUp : Bool := false
  past : Bool := true
  faultReason : Nat := 0
  pauseTill : KMap Nat := []
  pauseAt : KMap Nat := []
  ignoreTill : KMap Nat := []
  xoffAt : KMap Nat := []
  flush : Option Nat := none
  fcWait : List (Nat × Nat) := []
  aligned : Bool := false
  rfTx : Bool := false
  adaptAt : KMap Nat := []
  deriving DecidableEq, Repr

/-- A stored instance (R268) and its path through the vent: `place` 0 in its crosspoint, 1 waiting in XP(row,33) with
`left` cells not yet taken by the BPM, 2 its vent write running since `at_`, 3 in its DRAM block, 4 its block freed. An
instance whose channel was lost keeps no block number (`block` 2^32). `ref`
counts the copies held, `blkRef` those of them not yet fetched from the block. -/
structure Inst where
  id : Nat
  row : Nat
  col : Nat
  cells : Nat
  ref : Nat
  place : Nat
  left : Nat
  at_ : Nat
  ch : Nat
  pool : Nat
  block : Nat
  req : Nat
  refCtr : Bool
  blkRef : Nat
  lost : Bool
  pkt : Pkt
  deriving DecidableEq, Repr

/-- A queue entry (R294): its instance, its copy and the copy's colour (R205), whether its block is being fetched (since
when) or has been returned into XP(33, j), whether those cells were discarded with it (`gone`, R283), its entry page if it
is not on chip, since when that page is being read (R296), and whether its write into the page was discarded (R331). -/
structure QEnt where
  inst : Nat
  copy : Copy
  cells : Nat
  row : Nat
  enq : Nat
  admitAt : Nat
  fetch : Option Nat := none
  back : Bool := false
  gone : Bool := false
  color : Nat := 0
  page : Option Nat := none
  pageAt : Option Nat := none
  unwritten : Bool := false
  deriving DecidableEq, Repr

/-- A copy dequeued for the egress pass of a port's course. -/
structure EgItem where
  port : Nat
  ent : QEnt
  col : Nat
  deriving DecidableEq, Repr

/-- A copy the MAC holds after its egress pass (R208): the frame as it leaves, FCS included, and whether its transmission
goes on although the port may start no frame (R99, R105). -/
structure TxItem where
  port : Nat
  queue : Nat
  pkt : Pkt
  data : List Byte
  started : Bool := false
  deriving DecidableEq, Repr

/-- Scheduling state of a queue, node or port (R298–R301): start tag, activity, whether it was eligible when last
looked at, virtual time of each band, credit in 1/1,024 byte and the time of its last update. -/
structure TmNode where
  tag : Nat := 0
  active : Bool := false
  elig : Bool := true
  vt : KMap Nat := []
  credit : Int := 0
  last : Nat := 0
  deriving DecidableEq, Repr

/-- Queue telemetry of the running period (R307). -/
structure QTel where
  dmin : Nat := 0
  dmax : Nat := 0
  lmin : Option Nat := none
  lmax : Nat := 0
  enq : Nat := 0
  sent : Nat := 0
  drop : Nat := 0
  deriving DecidableEq, Repr

/-- Meter tokens, in `byteTok`-ths of a byte, and the plinth time of the last update, in 1/65,536 ns (R203, R204). -/
structure MeterSt where
  tc : Nat := 0
  te : Nat := 0
  last : Nat := 0
  deriving DecidableEq, Repr

/-- Delivery account of a replicated packet (R215): the course that admitted it, its ingress port, copies not yet done,
delivered and dropped. -/
structure Mc where
  course : Nat
  port : Nat
  left : Nat
  sent : Nat
  dropped : Nat
  deriving DecidableEq, Repr

/-- A deep-buffer block in use: channel, pool, number and requester (R273). -/
structure Blk where
  ch : Nat
  pool : Nat
  num : Nat
  req : Nat
  deriving DecidableEq, Repr

/-! ### Engine clusters (chapter 10) -/

/-- A packet in a cluster's packet buffer: SOURCE, COURSE, PRIO, SLOW_CLASS and USER of its job record, its cells, its
window's bytes, the PUNT_BUF ring of a punt. -/
structure Job where
  src : Nat
  course : Nat
  prio : Nat
  slow : Nat
  user : Nat
  cells : Nat
  handle : Nat
  win : List Byte
  punt : Option Nat
  pkt : Pkt
  deriving DecidableEq, Repr

/-- An outstanding job (R225): JOB_SEQ, the thread that holds it (8·engine + thread) until it ends, and its ending's four
words once written. -/
structure OutJob where
  seq : Nat
  thread : Option Nat
  ending : Option (List Nat)
  act : Nat
  ring : Nat
  job : Job
  deriving DecidableEq, Repr

/-- A cluster's router: queued jobs in arrival order, outstanding jobs in dispatch order, the next JOB_SEQ, whether it
has left service by a command of its own (R221), threads waiting on their job port in the order they began to wait. -/
structure Cluster where
  queued : List Job := []
  outst : List OutJob := []
  seq : Nat := 0
  closed : Bool := false
  waiting : List Nat := []
  deriving DecidableEq, Repr

/-- A channel (R232): reservations in order, by thread; committed messages; waiting readers in order. -/
structure Chan where
  reserved : List Nat := []
  msgs : List (List DWord) := []
  waiting : List Nat := []
  deriving DecidableEq, Repr

/-- A lock register (R234): its owner and the waiters in order. -/
structure LockSt where
  owner : Option Nat := none
  waiting : List Nat := []
  deriving DecidableEq, Repr

/-- A memory operation in flight (R259): destination register code, value, space (0 local, 1 packet, 2 DRAM, 3 s register, 4
lookup), time of issue, whether it is a store, whether an uncorrectable word comes back (R258), and the DRAM channel it
reads. An UNLOCK that waits for earlier stores stands among them with space 5 and its lock in `reg`; it is not one of the 8
operations of R259. -/
structure MemOp where
  reg : Nat
  value : DWord
  space : Nat
  since : Nat
  store : Bool := false
  bad : Bool := false
  chan : Option Nat := none
  deriving DecidableEq, Repr

/-- One write of an s register: its thread (8·engine + thread), whether it adds (SADD), its operand. -/
structure SWrite where
  tid : Nat
  add : Bool
  v : DWord
  deriving DecidableEq, Repr

/-- The writes of an s register in one EC cycle, by rising engine and thread, and its value before them (R256). -/
structure SWrites where
  cyc : Nat := 0
  base : DWord := 0
  writes : List SWrite := []
  deriving DecidableEq, Repr

/-- An open engine sample (R364). -/
structure Sample where
  time : Nat
  cyc : Nat
  addr : Nat
  job : Bool
  deriving DecidableEq, Repr

/-- A thread (R229–R243, R253, R255): STATE, next address, start address, g0–g31, condition bits c0–c47, return stack,
operations in flight, the job held (JOB_SEQ), budget left in EC cycles at `budgetAt` (island time, 1/65,536 ns), what it waits for
(`waitSt` 2 a job, 3 a channel, 4 a lock, 0 nothing) and since when, the register a wait fills, the first EC cycle it may issue in, whether it may pass the breakpoint it stands
at, microwords left of a STEP, the open sample; and of the microword being issued, whether its ALU and memory slots have been
performed, the condition bits before it, its ALU result, the registers it reads as they stood before it (R257), and whether
its correction has been reported (R262). -/
structure Thread where
  st : Nat := 0
  pc : Nat := 0
  start : Nat := 0
  g : KMap DWord := []
  cond : Nat := 0
  stack : List Nat := []
  mem : List MemOp := []
  job : Option Nat := none
  budget : Nat := 0
  budgetAt : Nat := 0
  waitSt : Nat := 0
  waitObj : Nat := 0
  waitAt : Nat := 0
  waitReg : Nat := 0
  elig : Nat := 0
  skipBrk : Bool := false
  stepLeft : Option Nat := none
  sample : Option Sample := none
  aluDone : Bool := false
  memDone : Bool := false
  snap : Nat := 0
  aluRes : DWord := 0
  ops : List (Nat × DWord) := []
  csTold : Bool := false
  deriving DecidableEq, Repr

/-- An engine beside its registers: EC cycle of its last issue, last High and Normal threads to issue, the thread whose
microword is being issued, control-store addresses reported this period (R262), issues counted toward a sample, the
sampler buffer, the EC cycles of its last 8 issues, latest first (R402), and when its present stall began (R239). -/
structure Engine where
  cyc : Nat := 0
  lastHigh : Nat := 7
  lastNormal : Nat := 7
  issuing : Option Nat := none
  csTold : List Nat := []
  sampCount : Nat := 0
  samples : KMap DWord := []
  recent : List Nat := []
  stallFrom : Nat := 0
  deriving DecidableEq, Repr

/-- A microcode load being written (R264): its ring and descriptor, the engines named, payload identifier, CRC, entry and
the constructed store. -/
structure ULoad where
  ring : Nat
  idx : Nat
  engines : List Nat
  id : Nat
  crc : Nat
  entry : Nat
  store : KMap Nat
  deriving DecidableEq, Repr

/-- The engine clusters: clusters by number, channels by 64·cluster + channel, locks by 256·cluster + lock, engines by
32·cluster + engine, threads by 8·(32·cluster + engine) + thread, local memory by 2^18·engine + offset, control stores by
4096·engine + address; the last access of a channel, lock or s register, as 256·cycle + engine and thread, by
512·cluster + object (R233, R234, R256). -/
structure Engines where
  clusters : KMap Cluster := []
  chans : KMap Chan := []
  locks : KMap LockSt := []
  engines : KMap Engine := []
  threads : KMap Thread := []
  sregs : KMap SWrites := []
  shared : KMap Nat := []
  lmem : KMap Byte := []
  cs : KMap Nat := []
  load : Option ULoad := none
  deriving DecidableEq, Repr

/-- A punt on its way to a PUNT_BUF ring (R80): ring, REASON, USER, packet, the cluster cells it holds, and
whether it is a header sample (R288). -/
structure PuntPkt where
  ring : Nat
  reason : Nat
  user : Nat
  pkt : Pkt
  cluster : Option Nat
  cells : Nat
  sample : Bool := false
  deriving DecidableEq, Repr

/-- A report the fault collector has yet to react to (R368): unit, source, detail. -/
structure Report where
  uid : Nat
  src : Nat
  detail : Nat
  deriving DecidableEq, Repr

/-! ### DRAM and movers (chapter 15) -/

/-- A DRAM bank: its open row, the last row it opened, the 2-bit predictor of R334, the time of its last access, its rolling
activation count (R336), activations since its last REF or RFM by source (R337), the throttled source and since when it
waits for its next activation (1/65,536 ns). -/
structure Bank where
  row : Option Nat := none
  last : Option Nat := none
  pred : Nat := 1
  at_ : Nat := 0
  raa : Nat := 0
  acts : KMap Nat := []
  throttled : Option Nat := none
  thrAt : Nat := 0
  deriving DecidableEq, Repr

/-- A mover's descriptor in progress (R344–R347): ring descriptor index, opcode, DRAM or host destination, length, the
bytes to compare at read-back, the status it will end with; for a GATE, since when it waits. -/
structure MvRun where
  idx : Nat
  op : Nat
  host : Nat
  dst : Nat
  len : Nat
  tail : List Byte
  status : Nat
  since : Nat
  deriving DecidableEq, Repr

/-- External memory beside its registers: bytes by channel · 2^36 + channel-local address; banks by 64·channel + 32·rank +
bank; ranks in power-down and in self-refresh by 2·channel + rank; channels that run at 4,800 MT/s (diagnostics, R459);
scrub addresses, and the period (count + 1) of a channel's last slice (R339); channels told of this period (R331); movers'
current descriptors. A byte not written since its contents were lost is unlisted; `lost` names the rows (by bank · 2^18 +
row) that lost their contents, with the number of the free value drawn plus 1 (R341). -/
structure Dram where
  bytes : KMap (Option Byte) := []
  lost : KMap Nat := []
  banks : KMap Bank := []
  down : List Nat := []
  selfRef : List Nat := []
  slow : List Nat := []
  scrub : KMap Nat := []
  scrubAt : KMap Nat := []
  told : List Nat := []
  mv : KMap (Option MvRun) := []
  deriving DecidableEq, Repr

/-! ### Fabric interface (chapter 14) -/

/-- A cell on a lane: its bytes, when its last byte has left, the copies it completes, and whether it goes ahead of cells that
wait (R324). -/
structure LaneCell where
  data : List Byte
  doneAt : Nat
  ends : List Pkt
  ahead : Bool := false
  deriving DecidableEq, Repr

/-- An outgoing flow: next SEQ, whether a cell has been sent since FAB left Reset, stream bytes not yet in a cell, and
for each packet with bytes left the stream offset of its header (none once sent), of its end, and its copy. -/
structure FlowOut where
  seq : Nat := 0
  begun : Bool := false
  bytes : List Byte := []
  starts : List Nat := []
  ends : List (Nat × Pkt) := []
  deriving DecidableEq, Repr

/-- A received cell held in the reorder buffer: SEQ, FIRST_OFF, payload, time of arrival. -/
structure RxCell where
  seq : Nat
  first : Nat
  data : List Byte
  at_ : Nat
  deriving DecidableEq, Repr

/-- An incoming flow: whether a SYNC cell has come, E, held cells, SEQ and FIRST_OFF of cells discarded for a full buffer,
stream bytes of the packet in progress, whether parsing is under way, the time of the last FC cell sent while its count is
high. -/
structure FlowIn where
  synced : Bool := false
  exp : Nat := 0
  held : List RxCell := []
  overrun : List (Nat × Nat) := []
  buf : List Byte := []
  parsing : Bool := false
  fcAt : Option Nat := none
  deriving DecidableEq, Repr

/-- The fabric interface beside its registers: lane queues, flows by device, XOFF expiry by device, whether FAB_MODE has been
written since the last chip reset (R311). -/
structure Fab where
  lanes : KMap (List LaneCell) := []
  flowsOut : KMap FlowOut := []
  flowsIn : KMap FlowIn := []
  xoffTill : KMap Nat := []
  modeSet : Bool := false
  deriving DecidableEq, Repr

/-! ### Twin (chapter 20) -/

/-- A twin message kept until acknowledged (R431), with the number of its resends; of a message received that has not
taken effect, `resent` is the lead's status of the command it carries (R434). -/
structure TwinMsg where
  seq : Nat
  type : Nat
  body : List Byte
  resent : Nat
  deriving DecidableEq, Repr

/-- The twin beside its registers: lane queues; what a resynchronisation still has to send, as (TYPE, body); messages kept,
next SEQ, next message ALIVE and heartbeat ALIVE, time of the last advance of ACK; highest SEQ received in order, messages
received that have not taken effect and whether a NAK has been sent for the gap; since when the first of them waits under
R164; time of the last heartbeat received; the back-off window's start and whether TWIN_HOLD has read low in it; whether a
RELEASE or a command started it; a COMMIT_OK awaiting its GO, and whether the GO has come; divergence; whether the port
lanes are squelched; when the last HELLO was sent; SNAPSHOT bodies not yet sent; when a twin lane's re-adaptation began, by
lane (R98). -/
structure Twin where
  lanes : KMap (List LaneCell) := []
  todo : List (Nat × List Byte) := []
  store : List TwinMsg := []
  next : Nat := 1
  alive : Nat := 0
  hbAlive : Nat := 0
  ackAt : Nat := 0
  got : Nat := 0
  held : List TwinMsg := []
  nakked : Bool := false
  lastHb : Nat := 0
  window : Option Nat := none
  low : Bool := false
  released : Bool := false
  okSent : Option Nat := none
  goAt : Bool := false
  waitAt : Option Nat := none
  diverged : Bool := false
  squelched : Bool := false
  helloAt : Nat := 0
  snap : List (List Byte) := []
  adaptAt : KMap Nat := []
  deriving DecidableEq, Repr

/-- Basin, buffer pool manager and traffic manager beside their registers and tables: stored instances by number and the
next number; ingress occupancy in cells by 16·port + priority (8 all, R271); VENT states by 2^18·row + queue (R272), the
bypass meters, blocks in use and the last channel taken per pool (R273, R279), the row whose cell was vented last, when the
next vent write may begin (R285); the queues; scheduling state by node, the last port picked by 16·quadrant + class,
telemetry (R298–R307), entry pages in use by quadrant; copies in their egress pass, frames the MACs hold, copies on their
way to the cluster routers; delivery accounts and the next number (R215); capture records of this period, those of the last
one not yet written, and their count (R287); header-sample counters and sequence numbers by column and 64 + column (R288);
the queue of the last return fetch by column (R276); fetches past tDTO whose block stays held (R277). -/
structure Basin where
  insts : KMap (Option Inst) := []
  nextId : Nat := 0
  occ : KMap Nat := []
  vent : KMap Bool := []
  bypass : KMap MeterSt := []
  blocks : List Blk := []
  chan : KMap Nat := []
  ventRow : Nat := 0
  queues : KMap (List QEnt) := []
  tags : KMap TmNode := []
  lastPort : KMap Nat := []
  tel : KMap QTel := []
  pages : List (Nat × Nat) := []
  egress : List EgItem := []
  sending : List TxItem := []
  router : KMap (List QEnt) := []
  mcs : KMap (Option Mc) := []
  nextMc : Nat := 0
  capture : List (List Byte) := []
  captureOut : List (List Byte) := []
  captured : Nat := 0
  samples : KMap Nat := []
  retLast : KMap Nat := []
  limbo : List (Nat × Blk) := []
  ventAt : Nat := 0
  deriving DecidableEq, Repr

/-- An outstanding egress fence (R172): its ring, descriptor index, T_f in ns, A_max in ns. -/
structure FenceSt where
  ring : Nat
  idx : Nat
  tf : Nat
  amax : Nat
  deriving DecidableEq, Repr

/-- A flow-counter delta (R363): cache, counter, packets, bytes, and when its write-back was issued. -/
structure FlowDelta where
  cache : Nat
  ctr : Nat
  pkts : Nat
  bytes : Nat
  at_ : Nat
  deriving DecidableEq, Repr

/-- Generation state beside GEN_STATUS (R163–R170): the commit accepted (source ring, window or twin) and when, whether
a COMMIT waits for running commands, the largest DEADLINE_NS counted per generation, the last retirement of each
generation, the horizon, the time the state last entered OPEN, the rehash that runs or is staged (segment, seed word,
still running) with the segment's former area, outstanding fences, the seeds of a segment by 2·segment + generation where
they are not those of reset, the period (boundary count + 1) in which commands last wrote an entry (R156), and the period of
a table's last compared slice; and the words of search indexes being rebuilt, as (table, slot) (R154, R177). -/
structure Gen where
  commit : Option (Nat × Nat) := none
  commitHead : Option Nat := none
  alone : Bool := false
  twinOk : Bool := false
  twinOkAt : Nat := 0
  abort : Option Nat := none
  maxDeadline : KMap Nat := []
  retired : KMap Nat := []
  horizon : Nat := 0
  openAt : Nat := 0
  rehash : Option (Nat × Nat × Bool) := none
  rehashOld : Option Nat := none
  fences : List FenceSt := []
  seeds : KMap (Option (Nat × Nat)) := []
  wrote : KMap Nat := []
  cmpAt : KMap Nat := []
  nodes : List (Nat × Nat) := []
  deriving DecidableEq, Repr

/-- Tally collection beside its registers: previous samples, records to write this period, cinder records produced, flow
deltas (cache, counter, packets, bytes), write-backs under way, the periods whose KIND 2 record is due with their
boundaries, telemetry records by quadrant, and whether every non-zero counter is due. -/
structure Tally where
  prev : KMap DWord := []
  runs : List (Nat × List Nat) := []
  endDue : Bool := false
  written : Nat := 0
  period : Nat := 0
  periodAt : Nat := 0
  cinders : Nat := 0
  flows : List FlowDelta := []
  flowOut : List FlowDelta := []
  flowSyncs : List (Nat × Nat) := []
  telem : KMap (List (List Byte)) := []
  firstAll : Bool := true
  deriving DecidableEq, Repr

/-- A WARDEN_SWITCH under way (R421): ring, descriptor index, start. -/
structure SwRun where
  ring : Nat
  idx : Nat
  at_ : Nat
  deriving DecidableEq, Repr

/-- A configuration image being applied (R419): the CONFIG_IMAGE descriptor (ring, index), none for the boot image; the
payload, the next part. -/
structure ImgRun where
  src : Option (Nat × Nat)
  payload : List Byte
  part : Nat
  deriving DecidableEq, Repr

/-- A mailbox request being read (R428): OPCODE, its LEN, words read. -/
structure MbReq where
  op : Nat
  len : Nat
  words : List Nat
  deriving DecidableEq, Repr

/-- An SPDM connection (R423): requests of the connection set-up answered so far (0–3), and the transcripts that set-up,
the certificate requests and the measurement requests leave. -/
structure SpdmConn where
  step : Nat := 0
  a : List Byte := []
  b : List Byte := []
  l : List Byte := []
  deriving DecidableEq, Repr

/-- A fuse update being blown (R417): its descriptor's ring, index and length, the operator slot and the key it enrols, the vendor
and operator slots it revokes, the new count. -/
structure FuseRun where
  ring : Nat
  idx : Nat
  len : Nat
  enrol : Option (Nat × List Byte)
  revoke : Nat
  opRevoke : Nat
  count : Nat
  deriving DecidableEq, Repr

/-- Fuses, firmware and the secure session (spec/19_security_and_mailboxes.md): vendor and operator public keys by slot (none
programmed reads empty), measurement registers, images of the flash slots and of the boot configuration, the boot pointer,
a switch under way and the switches made, a configuration image being applied, challenges and signatures made, consecutive
failures and the end of a lockout; per channel since when both FULL flags are set (0 not), the
host's last ALIVE plus 1 (0 none), the ALIVE the warden's next message carries, the request being read, reply words not
yet written, words left of the inbound message being written; SPDM connections by PF; a fuse update being blown; the
EVT_SECURE_CLOSE that waits for the end of a reset. -/
structure Sec where
  vendorPub : KMap (List Byte) := []
  opPub : KMap (List Byte) := []
  meas : KMap (List Byte) := []
  slotImg : KMap (List Byte) := []
  bootCfg : List Byte := []
  bootPtr : Nat := 0
  switching : Option SwRun := none
  switches : Nat := 0
  image : Option ImgRun := none
  signs : Nat := 0
  failRun : Nat := 0
  lockTill : Nat := 0
  bothAt : KMap Nat := []
  hostAlive : KMap Nat := []
  aliveIn : KMap Nat := []
  req : KMap (Option MbReq) := []
  replyQ : KMap (List Nat) := []
  inLeft : KMap Nat := []
  spdm : KMap SpdmConn := []
  fusing : Option FuseRun := none
  closed : List Byte := []
  deriving DecidableEq, Repr

/-- A fault that ends a run. The model raises none: every condition the spec names has an effect there. -/
inductive Fault where
  /-- Raised by no command; kept so that the type has a value. Safe: it only ever stops a run. -/
  | none_
  deriving DecidableEq, Repr

/-- A refusal of a command. -/
inductive Refusal where
  /-- A command whose meaning has not been written; raised by Dispatch.lean only. Safe: the run stops. -/
  | notModelled (mnemonic : String)
  deriving DecidableEq, Repr

/-- The whole device. Registers lie in `regs` (key: select · 2^26 + UID · 4096 + offset; the table command windows,
MSI-X tables and BAR4 above 2^44), counters of 64 bits in `ctrs` by tally index (R361), latched upper halves in
`latch` by register key, table entries in `tbl` (key: table ID · 2^32 + generation image · 2^31 + index). -/
structure State where
  clk : Clk := {}
  regs : KMap Word := []
  ctrs : KMap DWord := []
  latch : KMap Word := []
  claims : KMap (Option Claim) := []
  hif : Hif := {}
  flt : Flt := {}
  pwr : Pwr := {}
  ports : KMap Port := []
  rx : KMap (List RxFrame) := []
  courses : KMap Course := []
  tbl : KMap Nat := []
  meters : KMap MeterSt := []
  gen : Gen := {}
  bas : Basin := {}
  eng : Engines := {}
  punts : List PuntPkt := []
  reports : List Report := []
  tal : Tally := {}
  dram : Dram := {}
  fab : Fab := {}
  twin : Twin := {}
  sec : Sec := {}
  out : List Out := []
  draws : Nat := 0
  pending : List Instr := []
  deriving DecidableEq, Repr

/-- The machine right after power-on reset (R389): every register reads its reset value, memories read zero, plinth time
is 0, no command waits. Fuses are unprogrammed, flash slots empty and straps low (DESIGN CHOICE, log entry 61). -/
def State.reset : State := {}

/-- What a command's meaning answers. -/
abbrev Result := Host.Outcome State Fault Refusal

end Sys2Proof.Machine
end

