-- ==== Sys2Proof/Machine/Tree.lean ====
section
/-!
DEFINITION. The unit tree: which UIDs exist, the kind, parent, children and island of each (Tables 4, 5 and 9 of
spec/02_units_and_setup_space.md and Table 9 of spec/01_architecture.md), and what the spec fixes per kind: fault
sources and their default severities (Table 2 of spec/17_faults_and_repair.md), performance counters (R358).
-/
namespace Sys2Proof.Machine

/-- Unit kinds (Table 4 of spec/02_units_and_setup_space.md). -/
inductive Kind where
  | dev | pln | wdn | hif | flt | tal | twn | twinLane | fab | engGroup | courseGroup | coursePair | course
  | adm | siv | lkp | rsv | egr | lrn | portGroup | portBlock | lane | mac | cluster | csh | engine | bsn | bpm
  | crosspoint | tableGroup | tbg | tableBank | camGroup | cbg | camBank | tmGroup | tmq | dramGroup | dmc
  | moverGroup | mover | checkGroup | checkUnit
  deriving DecidableEq, Repr

/-- UCB_ID.KIND of a kind. -/
def Kind.code : Kind → Nat
  | .dev => 0x01 | .pln => 0x02 | .wdn => 0x03 | .hif => 0x04 | .flt => 0x05 | .tal => 0x06 | .twn => 0x07
  | .twinLane => 0x08 | .fab => 0x09 | .engGroup => 0x0A | .courseGroup => 0x0B | .coursePair => 0x0C
  | .course => 0x0D | .adm => 0x0E | .siv => 0x0F | .lkp => 0x10 | .rsv => 0x11 | .egr => 0x12 | .lrn => 0x13
  | .portGroup => 0x14 | .portBlock => 0x15 | .lane => 0x16 | .mac => 0x17 | .cluster => 0x18 | .csh => 0x19
  | .engine => 0x1A | .bsn => 0x1B | .bpm => 0x1C | .crosspoint => 0x1D | .tableGroup => 0x1E | .tbg => 0x1F
  | .tableBank => 0x20 | .camGroup => 0x21 | .cbg => 0x22 | .camBank => 0x23 | .tmGroup => 0x24 | .tmq => 0x25
  | .dramGroup => 0x26 | .dmc => 0x27 | .moverGroup => 0x28 | .mover => 0x29 | .checkGroup => 0x2A
  | .checkUnit => 0x2B

/-! UIDs of units by number (R33). -/
def uDEV : Nat := 0x0000
def uPLN : Nat := 0x0001
def uWDN : Nat := 0x0002
def uHIF : Nat := 0x0003
def uFLT : Nat := 0x0004
def uTAL : Nat := 0x0005
def uTWN : Nat := 0x0008
def uFAB : Nat := 0x0009
def uBSN : Nat := 0x0800
def uBPM : Nat := 0x0801
def uTG : Nat := 0x0C00
def uCAMG : Nat := 0x0E80
def uTMG : Nat := 0x1000
def uDRM : Nat := 0x1100
def uTwinLane (l : Nat) : Nat := 0x10 + l
def uCRS (n : Nat) : Nat := 0x50 + 8 * n
def uADM (n : Nat) : Nat := uCRS n + 1
def uSIV (n : Nat) : Nat := uCRS n + 2
def uLKP (n : Nat) : Nat := uCRS n + 3
def uRSV (n : Nat) : Nat := uCRS n + 4
def uEGR (n : Nat) : Nat := uCRS n + 5
def uLRN (n : Nat) : Nat := uCRS n + 6
def uPB (p : Nat) : Nat := 0x200 + 0x10 * p
def uLane (p l : Nat) : Nat := uPB p + 1 + l
def uMAC (p : Nat) : Nat := uPB p + 9
def uEC (c : Nat) : Nat := 0x400 + 0x40 * c
def uCSH (c : Nat) : Nat := uEC c + 1
def uENG (c e : Nat) : Nat := uEC c + 0x10 + e
def uXP (i j : Nat) : Nat := 0x2000 + 0x40 * i + j
def uTB (g b : Nat) : Nat := 0xC20 + 0x20 * g + 1 + b
def uCB (h b : Nat) : Nat := 0xEA0 + 0x20 * h + 1 + b
def uTMQ (q : Nat) : Nat := 0x1001 + q
def uDMC (d : Nat) : Nat := 0x1101 + d
def uMV (m : Nat) : Nat := 0x1201 + m
def uCU (u : Nat) : Nat := 0x1301 + u

/-- The kind of the unit a UID names; none where Table 9 assigns no unit (R33, R34). -/
def kindOf (u : Nat) : Option Kind :=
  if u < 0x10 then
    match u with
    | 0 => some .dev | 1 => some .pln | 2 => some .wdn | 3 => some .hif | 4 => some .flt | 5 => some .tal
    | 8 => some .twn | 9 => some .fab | _ => none
  else if u < 0x18 then some .twinLane
  else if u = 0x20 then some .engGroup
  else if u = 0x40 then some .courseGroup
  else if u < 0x41 then none
  else if u < 0x45 then some .coursePair
  else if u < 0x50 then none
  else if u < 0x90 then
    match u % 8 with
    | 0 => some .course | 1 => some .adm | 2 => some .siv | 3 => some .lkp | 4 => some .rsv | 5 => some .egr
    | 6 => some .lrn | _ => none
  else if u = 0x100 then some .portGroup
  else if u < 0x200 then none
  else if u < 0x400 then
    (if u % 16 = 0 then some .portBlock else if u % 16 < 9 then some .lane else if u % 16 = 9 then some .mac else none)
  else if u < 0x800 then
    (if u % 64 = 0 then some .cluster else if u % 64 = 1 then some .csh
     else if 0x10 ≤ u % 64 ∧ u % 64 ≤ 0x20 then some .engine else none)
  else if u = 0x800 then some .bsn
  else if u = 0x801 then some .bpm
  else if u = 0xC00 then some .tableGroup
  else if u < 0xC20 then none
  else if u < 0xDA0 then
    (if (u - 0xC20) % 32 = 0 then some .tbg else if (u - 0xC20) % 32 ≤ 0x11 then some .tableBank else none)
  else if u = 0xE80 then some .camGroup
  else if u < 0xEA0 then none
  else if u < 0xF20 then
    (if (u - 0xEA0) % 32 = 0 then some .cbg else if (u - 0xEA0) % 32 ≤ 0x11 then some .camBank else none)
  else if u = 0x1000 then some .tmGroup
  else if u < 0x1001 then none
  else if u < 0x1005 then some .tmq
  else if u = 0x1100 then some .dramGroup
  else if u < 0x1101 then none
  else if u < 0x110D then some .dmc
  else if u = 0x1200 then some .moverGroup
  else if u < 0x1201 then none
  else if u < 0x1221 then some .mover
  else if u = 0x1300 then some .checkGroup
  else if u < 0x1301 then none
  else if u < 0x1341 then some .checkUnit
  else if u < 0x2000 then none
  else if u < 0x2880 ∧ u % 64 < 34 then some .crosspoint
  else none

/-- UCB_PARENT.PARENT_UID (R33); 0 in DEV. -/
def parentOf (u : Nat) : Nat :=
  match kindOf u with
  | some .twinLane => uTWN
  | some .coursePair => 0x40
  | some .course => 0x41 + (u - 0x50) / 16
  | some .adm | some .siv | some .lkp | some .rsv | some .egr | some .lrn => u - u % 8
  | some .portBlock => 0x100
  | some .lane | some .mac => u - u % 16
  | some .cluster => 0x20
  | some .csh | some .engine => u - u % 64
  | some .bpm | some .crosspoint => uBSN
  | some .tbg | some .camGroup => uTG
  | some .tableBank => u - (u - 0xC20) % 32
  | some .cbg => uCAMG
  | some .camBank => u - (u - 0xEA0) % 32
  | some .tmq => uTMG
  | some .dmc => uDRM
  | some .mover => 0x1200
  | some .checkUnit => 0x1300
  | _ => uDEV

/-- The child range list of a unit (R43) as (FIRST, STRIDE, COUNT), in ascending order of FIRST. Which runs of a
group's children share an entry the spec gives only for BSN; elsewhere each run of equal stride is one entry
(DESIGN CHOICE, log entry 12). -/
def childRanges (u : Nat) : List (Nat × Nat × Nat) :=
  match kindOf u with
  | some .dev => [(1, 1, 5), (8, 1, 2), (0x20, 1, 1), (0x40, 1, 1), (0x100, 1, 1), (0x800, 1, 1), (0xC00, 1, 1),
      (0x1000, 1, 1), (0x1100, 1, 1), (0x1200, 1, 1), (0x1300, 1, 1)]
  | some .twn => [(0x10, 1, 8)]
  | some .engGroup => [(0x400, 0x40, 16)]
  | some .courseGroup => [(0x41, 1, 4)]
  | some .coursePair => [(0x50 + 16 * (u - 0x41), 8, 2)]
  | some .course => [(u + 1, 1, 6)]
  | some .portGroup => [(0x200, 0x10, 32)]
  | some .portBlock => [(u + 1, 1, 9)]
  | some .cluster => [(u + 1, 1, 1), (u + 0x10, 1, 17)]
  | some .bsn => (uBPM, 1, 1) :: (List.range 34).map fun i => (0x2000 + 0x40 * i, 1, 34)
  | some .tableGroup => [(0xC20, 0x20, 12), (uCAMG, 1, 1)]
  | some .tbg => [(u + 1, 1, 17)]
  | some .camGroup => [(0xEA0, 0x20, 4)]
  | some .cbg => [(u + 1, 1, 17)]
  | some .tmGroup => [(0x1001, 1, 4)]
  | some .dramGroup => [(0x1101, 1, 12)]
  | some .moverGroup => [(0x1201, 1, 32)]
  | some .checkGroup => [(0x1301, 1, 64)]
  | _ => []

/-- The children of a unit in ascending UID order. -/
def children (u : Nat) : List Nat :=
  (childRanges u).flatMap fun r => (List.range r.2.2).map fun k => r.1 + r.2.1 * k

/-- A group is a unit with children. -/
def isGroup (u : Nat) : Bool := !(childRanges u).isEmpty

/-- The order in which a group passes DRAIN to its children (R35, Table 10 of spec/01_architecture.md). -/
def drainOrder (u : Nat) : List Nat :=
  match kindOf u with
  | some .dev => [0x100, uTMG, uBSN, 0x20, 0x40] ++
      (children uDEV).filter fun c => !([0x100, uTMG, uBSN, 0x20, 0x40].contains c)
  | some .course => [u + 5, u + 4, u + 3, u + 2, u + 1, u + 6]
  | some .portBlock => (u + 9) :: (List.range 8).map fun l => u + 1 + l
  | some .cluster => ((List.range 17).map fun e => u + 0x10 + e) ++ [u + 1]
  | some .bsn => (children uBSN).drop 1 ++ [uBPM]
  | _ => children u

/-- Whether `a` is an ancestor of `u` (the tree is at most five deep). -/
def isAncestor (a u : Nat) : Bool :=
  let p1 := parentOf u
  let p2 := parentOf p1
  let p3 := parentOf p2
  let p4 := parentOf p3
  u ≠ uDEV && (p1 == a || p2 == a || p3 == a || p4 == a)

/-- UCB_CLK.ISLAND (Table 5 of spec/02_units_and_setup_space.md). -/
def islandOf (u : Nat) : Nat :=
  match kindOf u with
  | some .pln => 0
  | some .hif => 2
  | some .bsn | some .bpm | some .tableBank | some .camBank | some .crosspoint => 3
  | some .course | some .adm | some .siv | some .lkp | some .rsv | some .egr | some .lrn => 4 + (u - 0x50) / 8
  | some .coursePair => 4 + 2 * (u - 0x41)
  | some .cluster | some .csh | some .engine => 12 + (u - 0x400) / 64
  | some .tmq => 28 + (u - 0x1001)
  | some .dmc => 32 + (u - 0x1101)
  | some .portBlock | some .lane | some .mac => 44 + (u - 0x200) / 16
  | some .twn | some .twinLane => 76
  | some .fab => 77
  | _ => 1

/-- UCB_SEVERITY_BASE.NSRC (R366). -/
def nsrc (u : Nat) : Nat :=
  match kindOf u with
  | none => 0
  | some .bsn | some .cluster | some .tableGroup => 16
  | some _ => if isGroup u then 0 else 16

/-- UCB_TALLY_BASE.NCTR (R358). -/
def nctr (u : Nat) : Nat :=
  match kindOf u with
  | none => 0
  | some .bsn | some .cluster | some .tableGroup => 8
  | some .lane | some .twinLane | some .crosspoint | some .tableBank | some .camBank => 0
  | some _ => if isGroup u then 0 else 8

/-- A unit's position among the units with NCTR 8, counted in ascending UID order (R358). -/
def tallyPos (u : Nat) : Nat :=
  match kindOf u with
  | some .pln | some .wdn | some .hif | some .flt | some .tal => u - 1
  | some .fab => 5
  | some .adm | some .siv | some .lkp | some .rsv | some .egr | some .lrn => 6 + 6 * ((u - 0x50) / 8) + u % 8 - 1
  | some .mac => 54 + (u - 0x200) / 16
  | some .cluster => 86 + 19 * ((u - 0x400) / 64)
  | some .csh => 87 + 19 * ((u - 0x400) / 64)
  | some .engine => 88 + 19 * ((u - 0x400) / 64) + (u % 64 - 16)
  | some .bsn => 390
  | some .bpm => 391
  | some .tableGroup => 392
  | some .tmq => 393 + (u - 0x1001)
  | some .dmc => 397 + (u - 0x1101)
  | some .mover => 409 + (u - 0x1201)
  | some .checkUnit => 441 + (u - 0x1301)
  | _ => 0

/-- Tally index of performance counter `k` of a unit (Table 11 of spec/16_observability.md). -/
def perfIndex (u k : Nat) : Nat := 8 * tallyPos u + k

/-- Units of the five kinds that refuse every command and may not take severity 2 (R47, R367). -/
def isCoreKind : Kind → Bool
  | .pln | .wdn | .hif | .flt | .tal => true
  | _ => false

/-- Default severity and floor of a fault source; none where the source is unused (Table 2 of
spec/17_faults_and_repair.md). -/
def srcDefault (k : Kind) (src : Nat) : Option (Nat × Nat) :=
  match k, src with
  | .pln, 14 | .pln, 15 | .wdn, 14 | .wdn, 15 | .hif, 14 | .hif, 15 | .flt, 14 | .flt, 15 | .tal, 14 | .tal, 15
  | .bsn, 14 | .bsn, 15 | .tableGroup, 14 | .tableGroup, 15 => some (3, 0)
  | _, 14 | _, 15 => some (2, 0)
  | .tableBank, 0 => some (1, 0)
  | .tableBank, 1 => some (2, 0)
  | .tableBank, _ => none
  | .camBank, 0 => some (1, 0)
  | .camBank, 1 => some (2, 0)
  | .camBank, 2 => some (1, 0)
  | .camBank, 3 => some (2, 0)
  | .camBank, _ => none
  | .engine, 0 => some (1, 0)
  | .engine, 1 => some (1, 0)
  | .engine, 2 => some (2, 0)
  | .engine, _ => none
  | .crosspoint, 0 => some (1, 0)
  | .crosspoint, 1 => some (1, 0)
  | .crosspoint, 2 => some (2, 0)
  | .crosspoint, _ => none
  | .dmc, 0 => some (1, 0)
  | .dmc, 1 => some (1, 0)
  | .dmc, 2 => some (1, 0)
  | .dmc, 3 => some (1, 0)
  | .dmc, 4 => some (2, 0)
  | .dmc, _ => none
  | .lrn, 0 => some (1, 0)
  | .lrn, 1 => some (1, 0)
  | .lrn, _ => none
  | .lane, 0 | .twinLane, 0 => some (1, 0)
  | .lane, _ | .twinLane, _ => none
  | .checkUnit, 0 => some (1, 0)
  | .checkUnit, 1 => some (1, 0)
  | .checkUnit, _ => none
  | .pln, 0 => some (3, 3)
  | .pln, 1 => some (3, 3)
  | .pln, 2 => some (4, 4)
  | .pln, 3 => some (1, 0)
  | .pln, 4 => some (4, 4)
  | .pln, _ => none
  | .wdn, 0 => some (1, 0)
  | .wdn, 1 => some (3, 0)
  | .wdn, _ => none
  | .hif, 1 | .flt, 1 | .tal, 1 | .bsn, 1 | .tableGroup, 1 => some (3, 0)
  | _, 0 => some (1, 0)
  | _, 1 => some (2, 0)
  | _, _ => none

/-- Cells of crosspoint XP(i, j) (R27). -/
def xpSize (i j : Nat) : Nat :=
  if i < 32 ∧ j < 32 then 384 else if i < 32 ∨ j < 32 then 992 else 1024

end Sys2Proof.Machine
end

