-- ==== Sys2Proof/Machine/Regs.lean ====
section
/-!
DEFINITION. The register file: which registers a window has (R39–R44), what each reads as after reset (R11), and the
reading and writing of registers, fields and counters. A register that nothing has written reads its reset value; the
file lists only registers that differ from it.
-/
namespace Sys2Proof.Machine

/-! ### Changing one part of the state -/

/-- Change the plinth clock. -/
def State.modClk (s : State) (f : Clk → Clk) : State := { s with clk := f s.clk }

/-- Change the host interface. -/
def State.modHif (s : State) (f : Hif → Hif) : State := { s with hif := f s.hif }

/-- Change the fault collector. -/
def State.modFlt (s : State) (f : Flt → Flt) : State := { s with flt := f s.flt }

/-- Change power and pins. -/
def State.modPwr (s : State) (f : Pwr → Pwr) : State := { s with pwr := f s.pwr }

/-- Change the generations. -/
def State.modGen (s : State) (f : Gen → Gen) : State := { s with gen := f s.gen }

/-- Change the basin. -/
def State.modBas (s : State) (f : Basin → Basin) : State := { s with bas := f s.bas }

/-- Change the engines. -/
def State.modEng (s : State) (f : Engines → Engines) : State := { s with eng := f s.eng }

/-- Change the DRAM. -/
def State.modDram (s : State) (f : Dram → Dram) : State := { s with dram := f s.dram }

/-- Change the fabric interface. -/
def State.modFab (s : State) (f : Fab → Fab) : State := { s with fab := f s.fab }

/-- Change the twin link. -/
def State.modTwin (s : State) (f : Twin → Twin) : State := { s with twin := f s.twin }

/-- Change the tally collector. -/
def State.modTal (s : State) (f : Tally → Tally) : State := { s with tal := f s.tal }

/-- Change the security part. -/
def State.modSec (s : State) (f : Sec → Sec) : State := { s with sec := f s.sec }

/-- Replace the punts that wait for their host ring. -/
def State.setPunts (s : State) (l : List PuntPkt) : State := { s with punts := l }

/-! ### Registers -/

/-- Pseudo-UID of the table command window of PF `p`, of the MSI-X pages of a function by master number, and of BAR4:
their registers share the file with BAR0's 2^14 windows and lie above them (log entry 3). -/
def uTCW (p : Nat) : Nat := 2 ^ 32 + 16 * p
def uMSIX (m : Nat) : Nat := 2 ^ 33 + 16 * m
def uBAR4 : Nat := 2 ^ 34

/-- Key of a register in the file. -/
def regKey (u sel off : Nat) : Nat := sel * 2 ^ 26 + u * 4096 + off

/-- The kind's own registers (offsets 0x100–0xDFF). -/
def kindRegs : Kind → List RegDef
  | .dev => regs_dev | .pln => regs_pln | .wdn => regs_wdn | .hif => regs_hif | .flt => regs_flt | .tal => regs_tal
  | .twn => regs_twn | .lane | .twinLane => regs_lane | .fab => regs_fab | .adm => regs_adm | .siv => regs_siv
  | .rsv => regs_rsv | .egr => regs_egr | .lrn => regs_lrn | .mac => regs_mac | .cluster => regs_ec | .csh => regs_csh
  | .engine => regs_eng | .bsn => regs_bsn | .bpm => regs_bpm | .crosspoint => regs_xp | .tableGroup => regs_tgp
  | .camGroup => regs_camg | .camBank => regs_camb | .tmGroup => regs_tmg | .tmq => regs_tmq | .dramGroup => regs_drm
  | .dmc => regs_dmc | .mover => regs_mv | .checkUnit => regs_cu
  | _ => []

/-- Every register of a window. -/
def windowRegs (u : Nat) : List RegDef :=
  if u = uBAR4 then regs_mb
  else if 2 ^ 32 ≤ u then (if u < 2 ^ 32 + 64 then regs_tcw else [])
  else match kindOf u with
    | none => []
    | some k => regs_ucb ++ kindRegs k ++ (if nsrc u = 16 then regs_sev else []) ++ (if nctr u = 8 then regs_pmc else [])

/-- The register at an offset of a window. -/
def regDefAt (u off : Nat) : Option RegDef :=
  (windowRegs u).find? fun d =>
    if d.stride = 0 then d.off == off
    else decide (d.off ≤ off) && decide ((off - d.off) % d.stride = 0) && decide ((off - d.off) / d.stride < d.count)

/-- Reset word of a register by its table. -/
def fieldsReset (d : RegDef) : Nat := d.fields.foldl (fun a f => setBitsOf a f.lo f.w f.reset) 0

/-- UCB_STATE.STATE after a reset (Table 9 of chapter 2); groups derive theirs. -/
def stateReset (u : Nat) : Nat :=
  match kindOf u with
  | some k => if isCoreKind k then 4 else 0
  | none => 0

/-- UCB_DRAIN_LIMIT after a reset (Table 9 of chapter 2). -/
def drainReset (u : Nat) : Nat := if kindOf u = some .tmq then 600000 else 1000

/-- RSV_ENG_HOME after a reset (R222): the home clusters of CRS`n`, two in exchange mode. -/
def homeReset (n : Nat) : Nat := 2 * 2 ^ 16 + (2 * n + (2 * n + 1) * 16)

/-- GEN_STAGED_LIMIT of a table (Table 3 of chapter 7). -/
def stagedLimit (t : Nat) : Nat :=
  if t = 0x01 then 32 else if t = 0x02 then 8 else if t = 0x10 then 524288 else if t = 0x12 ∨ t = 0x13 then 1572864
  else if t = 0x30 then 32768 else if 0x38 ≤ t ∧ t ≤ 0x3F then 32768 else if t = 0x40 then 16384 else 0

/-- What a register reads as after reset, by its select value, window and offset. PLN_SUPPLY.TARGET_MV is a fuse value without
a nominal in the spec: 740 mV (DESIGN CHOICE, log entry 60). Other fuse and strap fields read 0 (log entry 61). -/
def regReset (sel u off : Nat) : Nat :=
  if 2 ^ 33 ≤ u ∧ u < uBAR4 then (if off % 16 = 12 ∧ off < 0x9000 then 1 else 0)
  else if u < 2 ^ 32 ∧ off = 0x0C then stateReset u
  else if u < 2 ^ 32 ∧ off = 0x2C then drainReset u
  else if kindOf u = some .rsv ∧ off = 0x400 then homeReset ((u - 0x50) / 8)
  else if u = uTG ∧ 0x140 ≤ off ∧ off < 0x180 ∧ off % 8 = 0 then (off - 0x140) / 8 * 65537
  else if u = uTG ∧ off = 0x820 then stagedLimit sel
  else if u = uPLN ∧ off = 0x150 then 740
  else if nsrc u = 16 ∧ 0xE00 ≤ off ∧ off < 0xE80 ∧ off % 8 = 0 ∧ u < 2 ^ 32 then
    (match kindOf u with
     | some k => (match srcDefault k ((off - 0xE00) / 8) with | some d => d.1 | none => 0)
     | none => 0)
  else match regDefAt u off with
    | some d => fieldsReset d
    | none => 0

/-- Select value and window of a register key. -/
def keySel (k : Nat) : Nat := if k < 2 ^ 44 then k / 2 ^ 26 else 0
def keyUid (k : Nat) : Nat := if k < 2 ^ 44 then k / 4096 % 2 ^ 14 else
  if k / 4096 < 2 ^ 33 then 2 ^ 32 + (k / 4096 - 2 ^ 32) / 16 * 16
  else if k / 4096 < uBAR4 then 2 ^ 33 + (k / 4096 - 2 ^ 33) / 16 * 16 else uBAR4
def keyOff (k : Nat) : Nat := k - keySel k * 2 ^ 26 - keyUid k * 4096

/-- The register file's default: the reset value. -/
def regDflt (k : Nat) : Word := BitVec.ofNat 32 (regReset (keySel k) (keyUid k) (keyOff k))

/-- The register at a key. -/
def State.rd (s : State) (k : Nat) : Word := s.regs.get regDflt k

/-- Write the register at a key. -/
def State.wr (s : State) (k : Nat) (w : Word) : State := { s with regs := s.regs.put regDflt k w }

/-- A field of an indirect register, under select value `sel`. -/
def State.getFS (s : State) (u sel : Nat) (f : Fld) : Nat := bitsOf (s.rd (regKey u sel f.off)).toNat f.lo f.w

/-- Set a field of an indirect register. -/
def State.setFS (s : State) (u sel : Nat) (f : Fld) (v : Nat) : State :=
  s.wr (regKey u sel f.off) (BitVec.ofNat 32 (setBitsOf (s.rd (regKey u sel f.off)).toNat f.lo f.w v))

/-- A field of a unit's register. -/
def State.getF (s : State) (u : Nat) (f : Fld) : Nat := s.getFS u 0 f

/-- Set a field of a unit's register. -/
def State.setF (s : State) (u : Nat) (f : Fld) (v : Nat) : State := s.setFS u 0 f v

/-- Whether a one-bit field is 1. -/
def State.bit (s : State) (u : Nat) (f : Fld) : Bool := s.getF u f == 1

/-- Add to a counting field, modulo its width. -/
def State.addFS (s : State) (u sel : Nat) (f : Fld) (n : Nat) : State := s.setFS u sel f (s.getFS u sel f + n)

/-- Add to a counting field. -/
def State.addF (s : State) (u : Nat) (f : Fld) (n : Nat) : State := s.addFS u 0 f n

/-- A 64-bit counter by tally index. -/
def State.ctr (s : State) (i : Nat) : DWord := s.ctrs.get (fun _ => 0) i

/-- Add to a 64-bit counter, which wraps (R110, R350). -/
def State.addCtr (s : State) (i n : Nat) : State :=
  { s with ctrs := s.ctrs.put (fun _ => 0) i (s.ctr i + BitVec.ofNat 64 n) }

/-- Add to port counter `k` of port `p` (Table 9 of chapter 4). -/
def State.portCtr (s : State) (p k n : Nat) : State := s.addCtr (0x10000 + 40 * p + k) n

/-- Plinth time in whole ns (R6). -/
def State.ns (s : State) : Nat := s.clk.now / 65536

/-- The fraction of plinth time, 1/65,536 ns. -/
def State.frac (s : State) : Nat := s.clk.now % 65536

/-- Bring plinth time to `t` ns if it has not been reached; it never decreases (R405, log entry 5). -/
def State.reach (s : State) (t : Nat) : State :=
  if s.clk.now < t * 65536 then (s.modClk fun c => c.pass (t * 65536 - c.now)) else s

/-- Bring plinth time to `t`, in 1/65,536 ns. -/
def State.reachRaw (s : State) (t : Nat) : State :=
  if s.clk.now < t then (s.modClk fun c => c.pass (t - c.now)) else s

/-- Bring the island time to `t`, in 1/65,536 ns (R6). -/
def State.reachCore (s : State) (t : Nat) : State :=
  if s.clk.core < t then (s.modClk fun c => c.pass (t - c.core)) else s

/-- Draw a free value (log entry 1). -/
def State.draw (s : State) : Nat × State := (Config.freeValue s.draws, { s with draws := s.draws + 1 })

/-- Send something to the outside. -/
def State.send (s : State) (o : Out) : State := { s with out := s.out ++ [o] }

/-- Apply an update over a list, in order. -/
def State.each {α : Type} (s : State) (l : List α) (f : State → α → State) : State := l.foldl f s

/-- Apply an update if a condition holds. -/
def State.when (s : State) (b : Bool) (f : State → State) : State := if b then f s else s

end Sys2Proof.Machine
end

