-- ==== Sys2Proof/Machine/Ops.lean ====
section
/-!
DEFINITION. The named operations every command uses: records, events, interrupts and completions toward the host
(chapter spec/03_host_rings.md, chapter spec/16_observability.md), drops and their cinder records, unit states.
-/
namespace Sys2Proof.Machine

/-- `pwr.mode`: 0 running, 1 a chip-class reset held, 2 a device soft reset held, 3 Plinth-only. -/
def State.running (s : State) : Bool := s.pwr.mode == 0

/-- What drives the pins under a TAP instruction: 0 the device's logic, 1 the boundary cells, 2 nothing (R456). -/
def tapDrive (ir : Nat) : Nat := if ir = 5 then 2 else if 3 ≤ ir then 1 else 0

/-- An output pin's level, unless a TAP instruction has taken the pins (R456). -/
def State.drivePin (s : State) (pin : Nat) (level : Bool) : State :=
  if tapDrive s.pwr.tapIr = 0 then s.send (.pin pin level) else s

/-! ### Rings -/

/-- Functions by master number (R57). -/
def masters : List Nat := [1, 2, 3, 4] ++ (List.range 60).map fun n => 16 + n

/-- A PF's number. -/
def isPF (m : Nat) : Bool := 1 ≤ m && m ≤ 4

/-- MSI-X Table Size of a function (Table 2 of chapter 3). -/
def tableSize (m : Nat) : Nat := if isPF m then 256 else 16

/-- Classes of ring types (Table 4 of chapter 3): 1 SQ, 2 CQ, 3 RQ, 0 out of range. -/
def ringClass (t : Nat) : Nat :=
  if [0x01, 0x02, 0x03, 0x04, 0x05, 0x06].contains t then 1
  else if t = 0x08 then 2
  else if 0x10 ≤ t ∧ t ≤ 0x17 then 3 else 0

/-- Entry size of a ring type. -/
def entrySize (t : Nat) : Nat :=
  if ringClass t = 1 then 32 else if t = 0x08 then 16
  else if t = 0x17 then 256 else if t = 0x10 ∨ t = 0x11 ∨ t = 0x12 then 32 else 64

/-- A ring context. -/
def State.ring (s : State) (r : Nat) : Ring := s.hif.rings.get (fun _ => {}) r

/-- Replace a ring context. -/
def State.setRing (s : State) (r : Nat) (x : Ring) : State :=
  s.modHif fun h => { h with rings := s.hif.rings.put (fun _ => {}) r x }

def State.ringType (s : State) (r : Nat) : Nat := s.getFS uHIF r F.RING_CFG_TYPE
def State.ringLog (s : State) (r : Nat) : Nat := s.getFS uHIF r F.RING_SIZE_RING_LOG2
def State.ringState (s : State) (r : Nat) : Nat := s.getFS uHIF r F.RING_STATUS_STATE
def State.ringIndex (s : State) (r : Nat) : Nat := s.getFS uHIF r F.RING_STATUS_DEV_INDEX

/-- A 64-bit address held in a LO and a HI register of a ring. -/
def State.ringAddr (s : State) (r : Nat) (lo hi : Fld) : Nat :=
  s.getFS uHIF r lo * 2 ^ lo.lo + s.getFS uHIF r hi * 2 ^ 32

/-- Whether a ring lies in a function's HIF_FN_RINGS range. -/
def State.ownsRing (s : State) (m r : Nat) : Bool :=
  let b := s.getFS uHIF m F.HIF_FN_RINGS_BASE
  decide (b ≤ r) && decide (r < b + s.getFS uHIF m F.HIF_FN_RINGS_COUNT)

/-- The function that owns a ring. -/
def State.ringOwner (s : State) (r : Nat) : Option Nat := masters.find? fun m => s.ownsRing m r

/-- A function is enabled: always in a PF, by VF Enable in a VF (R461). -/
def State.fnEnabled (s : State) (m : Nat) : Bool := isPF m || s.getFS uHIF m F.HIF_FN_STATUS_VF_EN == 1

/-- The function may be written to: enabled and with no FLR in progress (R89, R461). -/
def State.fnLive (s : State) (m : Nat) : Bool := s.fnEnabled m && s.getFS uHIF m F.HIF_FN_STATUS_FLR_ACTIVE == 0

/-- A ring is enabled and of a type, and its function can be written to. -/
def State.ringUp (s : State) (r t : Nat) : Bool :=
  s.ringLog r != 0 && s.ringType r == t && s.ringState r != 0 && s.ringState r != 4 &&
  (match s.ringOwner r with | some m => s.fnLive m | none => false)

/-- Entries held between the device's PI and the host's CI. -/
def State.ringHeld (s : State) (r : Nat) : Nat :=
  (s.ringIndex r + 2 ^ (s.ringLog r + 1) - (s.ring r).host) % 2 ^ (s.ringLog r + 1)

/-- A CQ or RQ has no free entry (R68). -/
def State.ringFull (s : State) (r : Nat) : Bool := s.ringHeld r == 2 ^ s.ringLog r

/-! ### PCI Express configuration space (R60) -/

/-- The PF of a function's master number. -/
def pfOf (m : Nat) : Nat := if isPF m then m else 1 + (m - 16) / 15

def State.pci (s : State) (m : Nat) : Pci := s.hif.pci.get (fun _ => {}) m
def State.setPci (s : State) (m : Nat) (x : Pci) : State :=
  s.modHif fun h => { h with pci := s.hif.pci.put (fun _ => {}) m x }

/-- Max Payload Size of a function in bytes: a VF's is its PF's. -/
def State.maxPayload (s : State) (m : Nat) : Nat := 128 * 2 ^ (s.pci (pfOf m)).mps

/-- A write of punted data to host memory: Relaxed Ordering where the function's PF has it enabled (R60). -/
def State.sendPunt (s : State) (m a : Nat) (d : List Byte) : State :=
  s.send (if (s.pci (pfOf m)).relaxed then .hostWriteRelaxed m a d else .hostWrite m a d)

/-- R70: function `m`'s writes of an entry at an address: one TLP where it fits in `n` bytes, else bytes 0x00–0x1F last. -/
def entryWrites (m n a : Nat) (d : List Byte) : List Out :=
  if d.length ≤ n then [.hostWrite m a d]
  else ((List.range ((d.length - 32 + n - 1) / n)).map fun i => .hostWrite m (a + 32 + n * i) (((d.drop 32).drop (n * i)).take n)) ++
    [.hostWrite m a (d.take 32)]

/-- The read requests for `n` bytes at an address: none crosses a multiple of the request size `q` (R60; log entry 70). -/
def readRequests (m q a n : Nat) : List Out :=
  (List.range ((a + n + q - 1) / q - a / q)).map fun i =>
    let lo := max a ((a / q + i) * q)
    .hostRead m lo (min (a + n) ((a / q + i + 1) * q) - lo)

/-- A function reads host memory, in requests of at most its Max Read Request Size (R60). -/
def State.hostRead (s : State) (m a n : Nat) : State :=
  (readRequests m (128 * 2 ^ (s.pci (pfOf m)).mrrs) a n).foldl State.send s

/-- Completer Abort to an access of a function (R391, R397), which AER records as a Completer Abort (log entry 70). -/
def State.abortTo (s : State) (m : Nat) : State :=
  let s := s.when (masters.contains m) fun s =>
    s.setPci (pfOf m) { s.pci (pfOf m) with uncStatus := setBitsOf (s.pci (pfOf m)).uncStatus 15 1 1 }
  s.send .abort

/-- R75: the write-back word of a ring. -/
def State.writeBack (s : State) (r : Nat) : State :=
  let sq := ringClass (s.ringType r) == 1
  let w := s.ringIndex r + (if sq then 0 else s.getFS uHIF r F.RING_LOST_COUNT * 2 ^ 32)
  (s.send (.hostWrite ((s.ringOwner r).getD 0) (s.ringAddr r F.RING_WB_LO_ADDR F.RING_WB_HI_ADDR) (leBytes w 8))).setRing r
    { s.ring r with sinceWb := 0 }

/-- R86: send vector `v` of function `m`, or set its Pending Bit while it is masked. -/
def State.sendMsix (s : State) (m v : Nat) : State :=
  if (s.rd (regKey (uMSIX m) 0 (0x1000 + 16 * v + 12))).toNat % 2 = 1 then
    let k := regKey (uMSIX m) 0 (0x9000 + v / 32 * 4)
    s.wr k (BitVec.ofNat 32 (setBitsOf (s.rd k).toNat (v % 32) 1 1))
  else s.send (.msix m v)

/-- R86: the ring sends its vector `v` and disarms, and its index is written back (R75). -/
def State.ringInterrupt (s : State) (r v : Nat) : State :=
  match s.ringOwner r with
  | none => s
  | some m => ((s.sendMsix m v).setRing r { s.ring r with armed := false, pend := 0 }).writeBack r

/-- R86: one more entry is pending, under RING_INT and RING_MOD as they stand now (R71). -/
def State.ringPending (s : State) (r : Nat) : State :=
  let x := s.ring r
  let v := s.getFS uHIF r F.RING_INT_VECTOR
  if s.getFS uHIF r F.RING_INT_EN == 1 && x.armed then
    let s := s.setRing r { x with
      pend := x.pend + 1, pendAt := if x.pend = 0 then s.ns else x.pendAt, vec := v, time := s.getFS uHIF r F.RING_MOD_TIME_US }
    if x.pend + 1 ≥ s.getFS uHIF r F.RING_MOD_COUNT then s.ringInterrupt r v else s
  else s

/-- Set PHASE (bit 63 of the first word). -/
def withPhase (ph : Nat) (d : List Byte) : List Byte :=
  d.modify 7 fun b => BitVec.ofNat 8 (setBitsOf b.toNat 7 1 ph)

/-- Write an entry at the producer index of a CQ or RQ that has room: PHASE (R69), the index, the interrupt and the
write-back of a full ring (R75, R86). -/
def State.putEntry (s : State) (r : Nat) (d : List Byte) : State :=
  let n := s.ringLog r
  let pi := s.ringIndex r
  let base := s.ringAddr r F.RING_BASE_LO_ADDR F.RING_BASE_HI_ADDR
  let m := (s.ringOwner r).getD 1
  let ws := entryWrites m (s.maxPayload m) (base + pi % 2 ^ n * entrySize (s.ringType r))
    (withPhase (1 - pi / 2 ^ n % 2) d)
  let s := ws.foldl State.send s
  let s := s.setFS uHIF r F.RING_STATUS_DEV_INDEX ((pi + 1) % 2 ^ (n + 1))
  let s := s.ringPending r
  if s.ringFull r then s.writeBack r else s

/-- Words of a record or descriptor as bytes (R5). -/
def wordsBytes (ws : List Nat) : List Byte := ws.flatMap fun w => leBytes w 8

/-- A function's default event ring (R87). -/
def State.defaultRing (s : State) (m : Nat) : Option Nat :=
  let r := s.getFS uHIF m F.HIF_FN_RINGS_BASE
  if s.getFS uHIF m F.HIF_FN_RINGS_COUNT ≠ 0 ∧ s.ringUp r 0x10 then some r else none

/-- An event record (Table 5 of chapter 16). -/
def State.eventRec (s : State) (code source uid arg0 arg1 : Nat) : List Byte :=
  wordsBytes [code * 2 ^ 48 + source * 2 ^ 36 + uid * 2 ^ 22 + s.frac, s.ns, arg0, arg1]

/-- Count an event as lost (R87). -/
def State.evtLost (s : State) : State := s.addF uHIF F.HIF_EVT_LOST_COUNT 1

/-- R87: an event waits for PF0's default event ring in the backlog of 256. -/
def State.backlogEvent (s : State) (d : List Byte) : State :=
  if s.hif.backlog.length < 256 then (s.modHif fun h => { h with backlog := s.hif.backlog ++ [d] }) else s.evtLost

/-- Put an entry behind the FENCEs that are outstanding (R357). -/
def State.hold (s : State) (x : Held) : State := s.modHif fun h => { h with held := s.hif.held ++ [x] }

/-- An overflow event `e` on function `m`'s default event ring: behind a FENCE that is outstanding (R357); a full ring only
counts. -/
def State.overflowTell (s : State) (m : Nat) (e : List Byte) : State :=
  if !s.hif.held.isEmpty then s.hold (.event m e)
  else match s.defaultRing m with
    | some d => if s.ringFull d then s.addFS uHIF d F.RING_LOST_COUNT 1 else s.putEntry d e
    | none => if m = 1 then s.backlogEvent e else s.evtLost

/-- Where a full ring's overflow is told: the owner's default event ring, once per ring per work period (R84, R87). -/
def State.overflowEvent (s : State) (r : Nat) : State :=
  match s.ringOwner r with
  | none => s
  | some m =>
    if s.defaultRing m = some r ∨ (s.ring r).overflowed then s
    else (s.setRing r { s.ring r with overflowed := true }).overflowTell m
      (s.eventRec 0x06 0xFFF uHIF r (s.getFS uHIF r F.RING_LOST_COUNT))

/-- R84: a record finds its ring full. The overflow event goes to the owner's default event ring, at most once per ring
per work period; an overflowing default event ring only counts. -/
def State.ringOverflow (s : State) (r : Nat) : State := (s.addFS uHIF r F.RING_LOST_COUNT 1).overflowEvent r

/-- Write a record to a ring that must be an enabled RQ of type `t`; otherwise it is discarded and counted (R84). -/
def State.recordNow (s : State) (r t : Nat) (d : List Byte) : State :=
  if !s.ringUp r t then s.addFS uHIF r F.RING_LOST_COUNT 1
  else if s.ringFull r then s.ringOverflow r
  else s.putEntry r d

/-- A record toward a CINDER ring: while a FENCE is outstanding, records after it wait behind it (R357). -/
def State.record (s : State) (r t : Nat) (d : List Byte) : State :=
  if t = 0x11 ∧ !s.hif.held.isEmpty then s.hold (.record r t d) else s.recordNow r t d

/-- R87: an event is delivered to a ring, which must be an enabled EVENT ring then. One of a VF with VF_EN 0, which is not its
default event ring, loses it as an event too (DESIGN CHOICE, log entry 94: R461 has a count for a record and one for an event). -/
def State.eventTo (s : State) (r : Nat) (d : List Byte) : State := if s.ringUp r 0x10 then s.recordNow r 0x10 d else s.evtLost

/-- R87: an event is delivered to a function's default event ring; PF0's wait in a backlog of 256 while that ring is off. -/
def State.defaultTo (s : State) (m : Nat) (d : List Byte) : State :=
  match s.defaultRing m with
  | some r => s.recordNow r 0x10 d
  | none => if m = 1 then s.backlogEvent d else s.evtLost

/-- An event for a function's default event ring, behind a FENCE that is outstanding (R87, R357). -/
def State.eventDefault (s : State) (m : Nat) (d : List Byte) : State :=
  if !s.hif.held.isEmpty then s.hold (.event m d) else s.defaultTo m d

/-- An event about a function, on its default event ring (R87). -/
def State.eventFn (s : State) (m code uid arg0 arg1 : Nat) : State :=
  if !s.running then s else s.eventDefault m (s.eventRec code 0xFFF uid arg0 arg1)

/-- R87, R354: an event from a source, as HIF_EVT_ROUTE of that source sends it. -/
def State.event (s : State) (code source uid arg0 arg1 : Nat) : State :=
  let d := s.eventRec code source uid arg0 arg1
  if !s.running then s
  else if s.getFS uHIF source F.HIF_EVT_ROUTE_EN = 0 then s.evtLost
  else if s.getFS uHIF source F.HIF_EVT_ROUTE_DEFAULT = 1 then s.eventDefault 1 d
  else
    let r := s.getFS uHIF source F.HIF_EVT_ROUTE_RING
    if !s.hif.held.isEmpty then s.hold (.record r 0x10 d) else s.eventTo r d

/-- EVT_RANGE (R55, Table 6 of chapter 16). -/
def State.evtRange (s : State) (bar off master reason dat : Nat) : State :=
  s.event 0x01 0x230 uHIF (bar * 2 ^ 61 + off * 2 ^ 35 + master * 2 ^ 28 + reason * 2 ^ 24) (dat % 2 ^ 32)

/-- EVT_DOMAIN_OFF (R397, Table 9 of chapter 18). -/
def State.evtDomainOff (s : State) (bar off master : Nat) : State :=
  s.event 0xA6 0x403 uPLN (bar * 2 ^ 61 + off * 2 ^ 35 + master * 2 ^ 28) 0

/-! ### Completions -/

/-- The bytes of a completion on its reporting ring (Table 9 of chapter 3; 64 bytes on a TABLE_REPLY ring). -/
def compBytes (sq : Nat) (d : Desc) (c : Comp) (ci table : Nat) : List Byte :=
  let hd := wordsBytes [bitsOf d.w0 40 16 * 2 ^ 40 + c.status * 2 ^ 32 + c.len % 2 ^ 32,
    sq * 2 ^ 49 + ci * 2 ^ 32 + c.info % 2 ^ 32]
  if table = 0x13 then hd ++ sliceBytes c.extra 0 48 else hd

/-- R77: write the completions that stand at the front of an SQ's descriptors, in ring order, while the reporting ring
has room; a full one starts tCQW (R83), a disabled one halts the SQ with CQ_OFF, or takes nothing during a flush. -/
def State.flushComps : Nat → State → Nat → State
  | 0, s, _ => s
  | n + 1, s, r =>
    let x := s.ring r
    match x.descs with
    | [] => s
    | d :: rest =>
      match d.comp with
      | none => s
      | some c =>
        let cq := s.getFS uHIF r F.RING_CQ_CQ
        let t := if s.ringType r = 0x03 then 0x13 else 0x08
        let owner := (s.ringOwner r).getD 0
        if !s.fnLive owner ∨ x.flr then
          (s.when ((s.ringOwner r).isSome && !s.fnEnabled owner) fun s => s.addFS uHIF cq F.RING_LOST_COUNT 1).setRing r { x with descs := rest }
            |>.flushComps n r
        else if !s.ringUp cq t then
          let s := s.setRing r { x with descs := rest }
          if s.ringState r = 1 ∨ s.ringState r = 2 then
            let s := (s.setFS uHIF r F.RING_STATUS_STATE 3).setFS uHIF r F.RING_STATUS_REASON 4
            (s.eventFn owner 0x05 uHIF (4 * 2 ^ 16 + r) 0).flushComps n r
          else s.flushComps n r
        else if s.ringFull cq then
          s.setRing r { x with fullAt := some (x.fullAt.getD s.ns) }
        else
          let s := s.setRing r { x with descs := rest, fullAt := none }
          (s.putEntry cq (compBytes r d c ((d.idx + 1) % 2 ^ (x.log + 1)) t)).flushComps n r

/-- Give descriptor `idx` of an SQ its completion; it is written in ring order. -/
def State.complete (s : State) (r idx : Nat) (c : Comp) : State :=
  let x := s.ring r
  (s.setRing r { x with descs := x.descs.map fun d => if d.idx = idx ∧ d.comp = none then { d with comp := some c } else d }).flushComps
    (x.descs.length + 1) r

/-- A completion with no reply words. -/
def comp (status len info : Nat) : Comp := ⟨status, len, info, []⟩

/-- An injected frame is discarded before its course admits it: its descriptor completes with a status (log entry 73). -/
def State.injectLost (s : State) (f : Inject) (status : Nat) : State := s.complete f.ring f.idx (comp status 0 0)

/-! ### Units -/

/-- UCB_STATE.STATE of a leaf as stored. -/
def State.ust (s : State) (u : Nat) : Nat := s.getF u F.UCB_STATE_STATE

/-- A unit is Active and not isolated. -/
def State.up (s : State) (u : Nat) : Bool := s.ust u == 4 && s.getF u F.UCB_STATE_ISOLATED == 0

/-- Line-card mode (R37). -/
def State.lineCard (s : State) : Bool := s.bit uFAB F.FAB_MODE_LINECARD

/-- A unit held Off by the device mode: in line-card mode CRS4–CRS7 (R37), the MACs of PB16–PB31 (R94) and, since every course
of theirs is held Off, the course pairs CP2 and CP3 (DESIGN CHOICE, log entry 62); FAB in exchange mode (R311). -/
def State.modeOff (s : State) (u : Nat) : Bool :=
  if s.lineCard then (0x70 ≤ u && u < 0x90) || u == 0x43 || u == 0x44 || (kindOf u == some .mac && decide (0x300 ≤ u)) else u == uFAB

/-- R47: the result with which a unit refuses every command; 0 for none. -/
def State.refusal (s : State) (u : Nat) : Nat :=
  match kindOf u with
  | some k => if isCoreKind k then 4 else if s.modeOff u then 3 else 0
  | none => 0

/-- Children a group's command does not skip by R47. -/
def State.liveKids (s : State) (u : Nat) : List Nat := (children u).filter fun c => s.refusal c == 0

/-- STATE of a unit: a group's is the common state of its children, 7 where they differ (R51); 0 where every child is skipped
(DESIGN CHOICE, log entry 66). -/
def State.stateView (s : State) : Nat → Nat → Nat
  | 0, u => s.ust u
  | n + 1, u =>
    if !isGroup u then s.ust u
    else match (s.liveKids u).map (s.stateView n) with
      | [] => 0
      | v :: r => if r.all (· == v) then v else 7

/-- Depth of the tree. -/
def treeDepth : Nat := 5

/-- A unit is Off, Retired or isolated: its crossings are closed (R32). BSN, a cluster and the table group, which receive crossings
too (R366), are in the state R51 gives a group. -/
def State.closed (s : State) (u : Nat) : Bool :=
  let st := s.stateView treeDepth u
  st == 0 || st == 6 || s.getF u F.UCB_STATE_ISOLATED == 1

/-- The ancestors of a unit, nearest first. -/
def ancestors (u : Nat) : List Nat :=
  let p1 := parentOf u
  let p2 := parentOf p1
  let p3 := parentOf p2
  if u = 0 then [] else if p1 = 0 then [0] else if p2 = 0 then [p1, 0] else if p3 = 0 then [p1, p2, 0] else [p1, p2, p3, 0]

/-- Stamp UCB_STATE_TIME (Table 3 of chapter 2). -/
def State.stampState (s : State) (u : Nat) : State := s.setF u F.UCB_STATE_TIME_TIME_NS s.ns

/-- Change a unit's STATE and stamp UCB_STATE_TIME, of the unit and of every group above it whose STATE reads otherwise
than before (R51). -/
def State.setUst (s : State) (u v : Nat) : State :=
  if s.ust u = v then s
  else
    let t := (s.setF u F.UCB_STATE_STATE v).stampState u
    let moved := (ancestors u).filter fun a => s.stateView treeDepth a != t.stateView treeDepth a
    moved.foldl State.stampState t

/-- Footing mode in force. -/
def State.footing (s : State) : Bool := s.bit uFLT F.FOOT_STATUS_ACTIVE

/-- A course's five stages are Active (R36); LRN goes by itself. -/
def State.courseUp (s : State) (n : Nat) : Bool :=
  s.up (uADM n) && s.up (uSIV n) && s.up (uLKP n) && s.up (uRSV n) && s.up (uEGR n)

/-- The partner of a course (R36). -/
def partner (n : Nat) : Nat := if n % 2 = 0 then n + 1 else n - 1

/-- A course that has accepted DRAIN: its units drain one after the other (R35), so it drains while any of them does (R378). -/
def State.courseDraining (s : State) (n : Nat) : Bool := [uADM n, uSIV n, uLKP n, uRSV n, uEGR n].any fun u => s.ust u == 5

/-- The course that serves the port blocks of CRS`n`: itself, or its partner (R36, R378). -/
def State.serving (s : State) (n : Nat) : Option Nat :=
  if s.courseUp n then some n else if s.courseUp (partner n) then some (partner n) else none

/-- FWD is powered (R393): from power-on until the drain toward Banked or Plinth-only ends, and again from ACTIVE on. -/
def State.fwdOn (s : State) : Bool := s.running && !s.pwr.fwdOff

/-- R395: packets are taken in: FWD is on, and no drain toward Banked or Plinth-only has begun. -/
def State.taking (s : State) : Bool := s.fwdOn && s.pwr.drainAt.isNone

/-! ### Performance counters (R358–R360) -/

/-- One occurrence of a count event, or `n` of them, in one counter's settings: whether it passes the filters. -/
def State.pmcPass (s : State) (u k event cls : Nat) (master : Option Nat) (addr : Nat) : Bool :=
  let g (f : Fld) := s.getF u (f.i k)
  g F.PMC_CTL_EN == 1 && g F.PMC_CTL_CHAIN == 0 && g F.PMC_CTL_EVENT == event &&
  (g F.PMC_CTL_MODE == 0 ||
   (g F.PMC_CTL_MODE == 1 &&
    (g F.PMC_CTL_CLASS_EN == 0 || g F.PMC_CTL_CLASS == cls) &&
    (g F.PMC_CTL_PRIV_EN == 0 || (match master with
      | none => false
      | some m => decide ((g F.PMC_CTL_PRIV == 1) = (m == 0 || (m == 1 && s.bit uBAR4 F.MB_AUTH_STATUS_OPEN))))) &&
    (g F.PMC_CTL_MASTER_EN == 0 || master == some (s.getF u (F.PMC_ARG_MASTER.i k))) &&
    (g F.PMC_CTL_RANGE_EN == 0 ||
      (let r := g F.PMC_CTL_RANGE
       let lo := s.getF uTAL (F.TAL_RANGE_BASE_LO_ADDR.i r) + s.getF uTAL (F.TAL_RANGE_BASE_HI_ADDR.i r) * 2 ^ 32
       let hi := s.getF uTAL (F.TAL_RANGE_LIMIT_LO_ADDR.i r) + s.getF uTAL (F.TAL_RANGE_LIMIT_HI_ADDR.i r) * 2 ^ 32
       decide (lo ≤ addr) && decide (addr ≤ hi)))))

/-- R360: counter `k` wrapped: OVF and its event. -/
def State.pmcWrap (s : State) (u k : Nat) : State :=
  let s := s.setF u (F.PMC_CTL_OVF.i k) 1
  if s.getF u (F.PMC_CTL_OVF_EVT.i k) = 1 then s.event 0x41 0x229 u k 0 else s

/-- Add to performance counter `k`, 48 bits, chaining an odd counter to the one below it (R360). -/
def State.pmcAdd (s : State) (u k n : Nat) : State :=
  let v := (s.ctr (perfIndex u k)).toNat
  let put (s : State) (k w : Nat) : State :=
    { s with ctrs := s.ctrs.put (fun _ => 0) (perfIndex u k) (BitVec.ofNat 64 (w % 2 ^ 48)) }
  let s := put s k (v + n)
  if v + n < 2 ^ 48 then s
  else if k % 2 = 0 ∧ s.getF u (F.PMC_CTL_CHAIN.i (k + 1)) = 1 ∧ s.getF u (F.PMC_CTL_EN.i (k + 1)) = 1 then
    let c := (s.ctr (perfIndex u (k + 1))).toNat
    let s := put s (k + 1) (c + 1)
    if c + 1 < 2 ^ 48 then s else s.pmcWrap u (k + 1)
  else s.pmcWrap u k

/-- R359: `n` occurrences of a count event in a unit. -/
def State.occur (s : State) (u event cls : Nat) (master : Option Nat) (addr n : Nat) : State :=
  if nctr u = 0 then s
  else (List.range 8).foldl (fun s k => if s.pmcPass u k event cls master addr then s.pmcAdd u k n else s) s

/-! ### Drops (R350, R352) -/

/-- What a drop knows of its packet (Table 3 of chapter 16). -/
structure DropInfo where
  uid : Nat
  inPort : Option Nat := none
  egPort : Option Nat := none
  queue : Option Nat := none
  len : Nat := 0
  admitAt : Nat := 0
  gen : Nat := 0
  tc : Nat := 0
  color : Nat := 0
  detail : Nat := 0
  deriving DecidableEq, Repr

/-- A cinder record (Table 3 of chapter 16). -/
def State.cinderRec (s : State) (code : Nat) (i : DropInfo) : List Byte :=
  wordsBytes [code * 2 ^ 48 + i.uid * 2 ^ 34 + (i.inPort.getD 0) * 2 ^ 25 + (i.egPort.getD 0) * 2 ^ 16 +
      (if i.egPort.isSome then 2 ^ 15 else 0) + (if i.admitAt ≠ 0 then i.gen * 2 ^ 14 else 0) + i.len % 2 ^ 14,
    s.ns, i.admitAt,
    (i.queue.getD 0) * 2 ^ 46 + (if i.queue.isSome then 2 ^ 45 else 0) + (if i.inPort.isSome then 2 ^ 44 else 0) +
      i.tc % 8 * 2 ^ 41 + i.color % 4 * 2 ^ 39 + i.detail % 2 ^ 23 * 2 ^ 16 + s.frac]

/-- R352: the cinder record of a drop, within the period's limit. -/
def State.cinder (s : State) (code : Nat) (i : DropInfo) : State :=
  if s.getF uTAL F.TAL_CINDER_CFG_EN = 1 ∧ bitsOf (s.getF uTAL (F.TAL_CINDER_MASK_CODES.i (code / 32))) (code % 32) 1 = 1 then
    if s.tal.cinders ≥ s.getF uTAL F.TAL_CINDER_CFG_LIMIT then s.addF uTAL F.TAL_CINDER_SUPPRESSED_COUNT 1
    else
      let s := s.modTal fun t => { t with cinders := s.tal.cinders + 1 }
      s.record (s.getF uTAL F.TAL_CINDER_CFG_RING) 0x11 (s.cinderRec code i)
  else s

/-- R350, R352: a drop adds 1 to one drop counter, by code and scope, and may leave a cinder record. -/
def State.drop (s : State) (code scope : Nat) (i : DropInfo) : State :=
  (s.addCtr (0x14000 + 256 * scope + code) 1).cinder code i

/-- Drop information of a packet. -/
def Pkt.info (p : Pkt) (uid : Nat) : DropInfo :=
  { uid := uid, inPort := if p.fabric then none else some p.adm.port, len := p.frame.length, admitAt := p.adm.admitAt
    gen := p.adm.gen, tc := p.tc, color := p.color }

/-- In-flight count of a generation. -/
def inflightFld (g : Nat) : Fld := if g = 0 then F.GEN_INFLIGHT_A_COUNT else F.GEN_INFLIGHT_B_COUNT

/-- R167, R169: the retiring generation retires, at its count's end or at the horizon, and the sweep starts. -/
def State.genRetire (s : State) (byHorizon : Bool) : State :=
  let g := 1 - s.getF uTG F.GEN_STATUS_ACTIVE
  let s := s.setF uTG F.GEN_RETIRE_BY_HORIZON (if byHorizon then 1 else 0)
  let s := s.setF uTG F.GEN_RETIRE_ORPHANS (s.getF uTG (inflightFld g))
  let s := (s.setF uTG (inflightFld g) 0).setF uTG F.GEN_STATUS_STATE 3
  s.modGen fun x => { x with retired := s.gen.retired.put (fun _ => 0) g s.ns }

/-- R25, R166–R168: a counted packet stops being in flight; an orphan changes no count; the last packet of a retiring
generation retires it. -/
def State.leaveFlight (s : State) (p : Pkt) : State :=
  if p.counted ∧ ¬ p.adm.admitAt < s.gen.retired.get (fun _ => 0) p.adm.gen then
    let s := s.setF uTG (inflightFld p.adm.gen) (s.getF uTG (inflightFld p.adm.gen) - 1)
    if s.getF uTG F.GEN_STATUS_STATE = 2 ∧ s.getF uTG (inflightFld p.adm.gen) = 0 ∧
      p.adm.gen ≠ s.getF uTG F.GEN_STATUS_ACTIVE then s.genRetire false else s
  else s

/-- A course drops a packet still in flight, per ingress port. -/
def State.dropIngress (s : State) (code uid : Nat) (p : Pkt) : State :=
  (s.drop code p.adm.port (p.info uid)).leaveFlight p

/-- R23: past the deadline. -/
def State.pastDeadline (s : State) (p : Pkt) : Bool := s.ns > p.adm.admitAt + p.adm.deadline

/-! ### Fault reports (R366, R368, R370) -/

/-- Severity in force of a source. -/
def State.sevOf (s : State) (u src : Nat) : Nat := s.getF u (F.FLT_SEV_SEVERITY.i src)

/-- Mark a source in its unit's sum; the first report of an unmasked source goes to FLT. -/
def State.reportMark (s : State) (u src detail : Nat) : State :=
  let sum := s.getF u F.UCB_FAULT_SUM_SRC
  if bitsOf sum src 1 = 1 then s
  else
    let s := s.setF u F.UCB_FAULT_SUM_SRC (setBitsOf sum src 1 1)
    if bitsOf (s.getF u F.UCB_FAULT_MASK_MASK) src 1 = 1 then s
    else { s with reports := s.reports ++ [⟨u, src, detail⟩] }

/-- R368, R370: an occurrence of a fault source. It counts; where it sets the SRC bit of an unmasked source, the fault
collector has a report to react to. -/
def State.report (s : State) (u src detail : Nat) : State :=
  if nsrc u = 0 then s
  else ((s.addF u (F.FLT_SRC_COUNT_COUNT.i src) 1).occur u 0x005 (s.sevOf u src) none 0 1).reportMark u src detail

end Sys2Proof.Machine
end

