-- ==== Sys2Proof/Machine/Parse.lean ====
section
/-!
DEFINITION. The fixed parser (chapter spec/05_parsing.md): profile selection, extractions, malformed checks and
slow-path triggers, as functions of a table entry and a frame. Table entries are numbers whose bit 8·o + b is bit b of
the word at byte offset o of the entry's format (R5).
-/
namespace Sys2Proof.Machine

/-- Field `[lo + w - 1 : lo]` of the word at byte offset `off` of a table entry, record or descriptor. -/
def ent (e off lo w : Nat) : Nat := bitsOf e (8 * off + lo) w

/-- Byte `i` of a frame; 0 at or past its end. R123 says so of extraction source bytes; checks, triggers and compares read 0
there too (DESIGN CHOICE, log entry 90). -/
def fb (f : List Byte) (i : Nat) : Nat := (f.getD i 0).toNat

/-- Two frame bytes in wire order. -/
def fb2 (f : List Byte) (i : Nat) : Nat := 256 * fb f i + fb f (i + 1)

/-- Four frame bytes in wire order. -/
def fb4 (f : List Byte) (i : Nat) : Nat := 65536 * fb2 f i + fb2 f (i + 2)

/-- A PARSE_SEL entry is valid in a generation (Table 2): bit 63 for B, bit 62 for A. -/
def genValid (e gen : Nat) : Bool := ent e 0 (62 + gen % 2) 1 == 1

/-- R120: a PARSE_SEL entry matches a port class, ET12 and ET16. -/
def parseSelMatches (e cls et12 et16 : Nat) : Bool :=
  ent e 0 (32 + cls) 1 == 1 &&
  (et12 ^^^ ent e 0 16 16) &&& ent e 0 0 16 == 0 &&
  (et16 ^^^ ent e 8 16 16) &&& ent e 8 0 16 == 0

/-- R120: the profile PARSE_SEL selects, `sel` being the entries in ascending index. -/
def selectProfile (sel : List Nat) (gen cls et12 et16 dflt : Nat) : Nat :=
  match sel.find? fun e => genValid e gen && parseSelMatches e cls et12 et16 with
  | some e => ent e 0 48 6
  | none => dflt

/-! Fields of a PARSE_PROFILE entry (Table 3). -/
def profMalAction (e : Nat) : Nat := ent e 0 54 2
def profL3Kind (e : Nat) : Nat := ent e 0 52 2
def profL3Off (e : Nat) : Nat := ent e 0 44 8
def profL4Kind (e : Nat) : Nat := ent e 0 42 2
def profGre (e : Nat) : Nat := ent e 0 39 3
def profDepth (e : Nat) : Nat := ent e 0 36 3
def profMinLen (e : Nat) : Nat := ent e 0 27 9
def profSlow (e : Nat) : Bool := ent e 0 16 1 == 1
def profMalEn (e : Nat) : Nat := ent e 8 32 32
def profExt (e i : Nat) : Nat := bitsOf e (8 * 0x10 + 32 * i) 32

/-- R122, Tables 3 and 4: a PARSE_PROFILE entry lies in range. -/
def profileOk (e : Nat) : Bool :=
  ent e 0 56 6 == 0 && profMalAction e ≤ 2 &&
  (if profL3Kind e == 0 then profL3Off e == 0 else 14 ≤ profL3Off e && profL3Off e ≤ 128) &&
  (profL4Kind e == 0 || profL3Kind e == 1 || profL3Kind e == 2) &&
  (if profL3Kind e == 3 then 1 ≤ profDepth e && profDepth e ≤ 4 else profDepth e == 0) &&
  profMinLen e ≤ 256 && ent e 0 17 10 == 0 && ent e 0 0 16 == 0 &&
  profMalEn e < 2048 && ent e 8 0 32 == 0 && bitsOf e (8 * 0x70) 128 == 0 &&
  (List.range 24).all fun i =>
    let x := profExt e i
    let len := bitsOf x 19 5
    len ≤ 16 && bitsOf x 24 8 + len ≤ 256 && bitsOf x 12 7 + len ≤ 128 && bitsOf x 0 12 == 0

/-- R123: extraction `x` applied to the key vector. -/
def applyExt (f : List Byte) (kv : List Byte) (x : Nat) : List Byte :=
  patchBytes kv (bitsOf x 12 7) (sliceBytes f (bitsOf x 24 8) (bitsOf x 19 5))

/-- R119, R123: the key vector, zeroed and then filled by extractions 0–23 in ascending order. -/
def keyVector (e : Nat) (f : List Byte) : List Byte :=
  (List.range 24).foldl (fun kv i => applyExt f kv (profExt e i)) (List.replicate 128 0)

/-- One's complement sum of the 16-bit words of `n` bytes from offset `o`. -/
def sum16 (f : List Byte) (o n : Nat) : Nat :=
  (List.range (n / 2)).foldl (fun a i => a + fb2 f (o + 2 * i)) 0

/-- Fold carries into 16 bits (the one's complement of the Internet checksum). -/
def fold16 (n : Nat) : Nat :=
  let a := n % 65536 + n / 65536
  let b := a % 65536 + a / 65536
  b % 65536 + b / 65536

/-- IHL of an IPv4 header at `o`. -/
def ipIhl (f : List Byte) (o : Nat) : Nat := fb f o % 16

/-- R118: L4_OFF of the admission record. -/
def l4Off (e : Nat) (f : List Byte) : Nat :=
  match profL3Kind e with
  | 1 => profL3Off e + 4 * ipIhl f (profL3Off e)
  | 2 => profL3Off e + 40
  | _ => 0

/-- End of the IP payload as the IP header's length gives it. -/
def ipEnd (e : Nat) (f : List Byte) : Nat :=
  let o := profL3Off e
  if profL3Kind e == 1 then o + fb2 f (o + 2) else o + 40 + fb2 f (o + 4)

/-- Whether the 16 bytes at `o` are the IPv6 loopback address ::1. -/
def isV6Loop (f : List Byte) (o : Nat) : Bool := beNat (sliceBytes f o 16) == 1

/-- Table 5: malformed check `r` of profile `e` applies to frame `f` and fails. -/
def malFails (e : Nat) (f : List Byte) (r : Nat) : Bool :=
  let o := profL3Off e
  let k3 := profL3Kind e
  let k4 := profL4Kind e
  let o4 := l4Off e f
  let len := f.length
  let v4 := k3 == 1
  let ip := k3 == 1 || k3 == 2
  match r with
  | 0 => profMinLen e ≠ 0 && len < profMinLen e
  | 1 => ip && fb f o / 16 ≠ (if v4 then 4 else 6)
  | 2 => v4 && ipIhl f o < 5
  | 3 => v4 && fold16 (sum16 f o (4 * ipIhl f o)) ≠ 0xFFFF
  | 4 => if v4 then fb2 f (o + 2) < 4 * ipIhl f o || o + fb2 f (o + 2) > len
         else k3 == 2 && o + 40 + fb2 f (o + 4) > len
  | 5 => if v4 then fb f (o + 12) / 16 == 14 || fb4 f (o + 12) == 0xFFFFFFFF
         else k3 == 2 && fb f (o + 8) == 0xFF
  | 6 => if v4 then fb f (o + 12) == 127 || fb f (o + 16) == 127
         else k3 == 2 && (isV6Loop f (o + 8) || isV6Loop f (o + 24))
  | 7 => (k4 == 1 && o4 + 8 > len) || (k4 == 2 && o4 + 20 > len) || (k4 == 3 && o4 + 4 > len)
  | 8 => k4 == 2 && ((fb f (o4 + 13) % 4 == 3) || fb f (o4 + 13) == 0)
  | 9 => k4 == 1 && (fb2 f (o4 + 4) < 8 || o4 + fb2 f (o4 + 4) > ipEnd e f)
  | 10 => k4 == 3 && fb f (o4 + 1) % 8 ≠ 0
  | _ => false

/-- R124 step 1: the first enabled malformed check that fails. -/
def firstMal (e : Nat) (f : List Byte) : Option Nat :=
  (List.range 11).find? fun r => bitsOf (profMalEn e) r 1 == 1 && malFails e f r

/-- MPLS_BOS of the admission record: the label position of the bottom of stack within MPLS_DEPTH, 0 if none. -/
def mplsBos (e : Nat) (f : List Byte) : Nat :=
  if profL3Kind e ≠ 3 then 0
  else match (List.range (profDepth e)).find? fun i => fb f (profL3Off e + 4 * i + 2) % 2 == 1 with
    | some i => i + 1
    | none => 0

/-- Value of label `i` (from 0) of an MPLS stack. -/
def mplsLabel (e : Nat) (f : List Byte) (i : Nat) : Nat := fb4 f (profL3Off e + 4 * i) / 4096

/-- Table 6: trigger `c` (0–7) holds. -/
def slowTrigger (e : Nat) (f : List Byte) (c : Nat) : Bool :=
  let o := profL3Off e
  let nh := fb f (o + 6)
  match c with
  | 0 => profL3Kind e == 1 && fb2 f (o + 6) % 16384 ≠ 0
  | 1 => profL3Kind e == 2 && nh == 44
  | 2 => profL3Kind e == 1 && ipIhl f o > 5
  | 3 => profL3Kind e == 2 && [0, 43, 50, 51, 60, 135, 139, 140, 253, 254].contains nh
  | 4 => profL3Kind e == 3 && mplsBos e f == 0
  | 5 => profL3Kind e == 3 && mplsBos e f ≠ 0 &&
         (List.range (mplsBos e f)).any fun i => [1, 13, 14].contains (mplsLabel e f i)
  | 6 => profL4Kind e == 3 &&
         (let b := fb f (l4Off e f)
          4 * (b / 128) + 2 * (b / 32 % 2) + b / 16 % 2) ≠ profGre e
  | 7 => profSlow e
  | _ => false

/-- What the parse stage decides about a packet. -/
structure ParseOut where
  kv : List Byte
  mal : Option Nat
  slow : Option Nat
  drop : Bool
  l3Off : Nat
  l4Off : Nat
  bos : Nat
  deriving DecidableEq, Repr

/-- R124: the parse stage on a frame under a profile. `drop` is DROP_MALFORMED. -/
def parseFrame (e : Nat) (f : List Byte) : ParseOut :=
  let m := firstMal e f
  { kv := keyVector e f
    mal := m
    slow := match m with
      | none => (List.range 8).find? fun c => slowTrigger e f c
      | some _ => if profMalAction e == 1 then some 15 else none
    drop := m.isSome && profMalAction e == 0
    l3Off := profL3Off e
    l4Off := l4Off e f
    bos := mplsBos e f }

end Sys2Proof.Machine
end

