-- ==== Sys2Proof/Machine/Ptp.lean ====
section
/-!
DEFINITION. The MAC's PTP work on a frame as it is sent (R109 of spec/04_ports.md, R211 of spec/09_actions_and_rewrite.md).
-/
namespace Sys2Proof.Machine

/-- Replace two bytes of a frame, in wire order. -/
def setFb2 (f : List Byte) (o v : Nat) : List Byte := patchBytes f o (beBytes v 2)

/-! Fields of the PTP word, word 0x20 of the record. -/
def ptpMode (w : Nat) : Nat := bitsOf w 62 2
def ptpOff (w : Nat) : Nat := bitsOf w 54 8
def ptpUdp (w : Nat) : Bool := bitsOf w 53 1 == 1
def ptpTag (w : Nat) : Nat := bitsOf w 37 16
def ptpRouted (w : Nat) : Bool := bitsOf w 36 1 == 1

/-- R112: zeros up to 60 bytes without FCS. -/
def padFrame (f : List Byte) : List Byte := f ++ List.replicate (60 - f.length) 0

/-! ### PTP (R109, R211) -/

/-- Change `n` bytes at `o`, a UDP checksum at `c` following with PTP_UDP; a zero checksum stays. -/
def ptpPut (p : Pkt) (f : List Byte) (o : Nat) (new : List Byte) : List Byte :=
  if f.length < o + new.length then f
  else
    let g := patchBytes f o new
    let c := ptpOff p.ptp - 2
    if !ptpUdp p.ptp ∨ fb2 f c = 0 then g
    else
      let n := new.length
      let sum := fold16 ((0xFFFF - fb2 f c) + (0xFFFF - fold16 (sum16 f o n)) + fold16 (sum16 g o n))
      setFb2 g c (if sum = 0xFFFF then 0xFFFF else 0xFFFF - sum)

/-- The MAC's PTP work on the frame as it is sent at time stamp `tx` (1/65,536 ns). -/
def ptpEdit (p : Pkt) (f : List Byte) (tx : Nat) : List Byte :=
  let o := ptpOff p.ptp
  match ptpMode p.ptp with
  | 1 => ptpPut p f (o + 8) (beBytes ((beNat (sliceBytes f (o + 8) 8) + (tx + 2 ^ 64 - p.adm.rxTs % 2 ^ 64)) % 2 ^ 64) 8)
  | 2 => ptpPut p f (o + 34) (beBytes (tx / 65536 / 1000000000) 6 ++ beBytes (tx / 65536 % 1000000000) 4)
  | _ => f

end Sys2Proof.Machine
end

