-- ==== Sys2Proof/Machine/Store.lean ====
section
/-!
DEFINITION. Table entries by table, generation and index (chapters 6–9, 13), the basin's stored instances, queue
entries, occupancy counts and their release (R271, R278, R215, R107).
-/
namespace Sys2Proof.Machine

/-! ### Table entries -/

/-- Key of a table entry. Indexed generational tables keep one image per generation; every other table uses image 0. -/
def tblKey (tid gen idx : Nat) : Nat := tid * 2 ^ 32 + gen * 2 ^ 31 + idx

def State.ent (s : State) (tid gen idx : Nat) : Nat := s.tbl.get (fun _ => 0) (tblKey tid gen idx)

def State.setEnt (s : State) (tid gen idx v : Nat) : State :=
  { s with tbl := s.tbl.put (fun _ => 0) (tblKey tid gen idx) v }

/-- The listed entries of a table image, as (index, entry), indexes rising. -/
def State.entries (s : State) (tid gen : Nat) : List (Nat × Nat) :=
  (s.tbl.filter fun e => decide (tblKey tid gen 0 ≤ e.1) && decide (e.1 < tblKey tid gen 0 + 2 ^ 31)).map fun e =>
    (e.1 - tblKey tid gen 0, e.2)

/-- A TM_QUEUE, TM_SUB or TM_SVC entry's words 0x00 and 0x08; internal-port queues and their nodes are fixed (R291). -/
def State.tmEnt (s : State) (tid idx : Nat) : Nat :=
  let fixed (band prof parent : Nat) : Nat := 2 ^ 63 + band * 2 ^ 58 + 2 ^ 42 + prof * 2 ^ 36 + parent * 2 ^ 22
  if tid = 0x50 then
    let l := idx % 65536
    if l < 65504 then s.ent tid 0 idx else fixed ((l - 65504) % 8) 63 (16380 + (l - 65504) / 8)
  else if tid = 0x51 then
    let l := idx % 16384
    if l < 16380 then s.ent tid 0 idx else fixed 0 0 (1020 + (l - 16380))
  else
    let l := idx % 1024
    if l < 1020 then s.ent tid 0 idx else fixed 0 0 (64 + (l - 1020))

def tmEn (e : Nat) : Bool := ent e 0 63 1 == 1
def tmShape (e : Nat) : Bool := ent e 0 62 1 == 1
def tmFill (e : Nat) : Bool := ent e 0 61 1 == 1
def tmBand (e : Nat) : Nat := ent e 0 58 3
def tmWeight (e : Nat) : Nat := ent e 0 42 16
def tmProfile (e : Nat) : Nat := ent e 0 36 6
def tmParent (e : Nat) : Nat := ent e 0 22 14
def tmRate (e : Nat) : Nat := ent e 8 32 32
def tmBurst (e : Nat) : Nat := ent e 8 0 25

/-- The subscriber node, service node and local port above a queue (R290). -/
def State.queuePath (s : State) (q : Nat) : Nat × Nat × Nat :=
  let quad := q / 65536
  let sub := quad * 16384 + tmParent (s.tmEnt 0x50 q)
  let svc := quad * 1024 + tmParent (s.tmEnt 0x51 sub)
  (sub, svc, tmParent (s.tmEnt 0x52 svc))

/-- Port number of local port `l` of quadrant `q`: Ethernet 0–255 or internal 256–271 (R290). -/
def portOf (q l : Nat) : Nat := if l < 64 then 64 * q + l else 256 + 4 * q + (l - 64)

/-- The port at the root of a queue's tree; a footing queue names its port by its index (R306). -/
def State.queuePort (s : State) (q : Nat) : Nat :=
  if s.footing ∧ q % 65536 < 512 then portOf (q / 65536) (q % 65536 / 8)
  else portOf (q / 65536) (s.queuePath q).2.2

/-- The queue of internal port `c` for priority `p` (R291). -/
def internalQueue (c p : Nat) : Nat := 65536 * (c / 4) + 65504 + 8 * (c % 4) + p

/-- Quadrant of a port: Ethernet or internal. -/
def portQuad (p : Nat) : Nat := if p < 256 then p / 64 else (p - 256) / 4

/-- Basin column of a queue's port: its block, or the engine column. -/
def portCol (p : Nat) : Nat := if p < 256 then p / 8 else 32

/-- A queue's profile field (Table 2 of chapter 13). -/
def State.prof (s : State) (q : Nat) (f : Fld) : Nat := s.getF uTMG (f.i (tmProfile (s.tmEnt 0x50 q)))

/-! ### Ports -/

def State.port (s : State) (p : Nat) : Port := s.ports.get (fun _ => {}) p
def State.setPort (s : State) (p : Nat) (x : Port) : State := { s with ports := s.ports.put (fun _ => {}) p x }

/-- A field of a port's slot in its MAC window. -/
def State.mac (s : State) (p : Nat) (f : Fld) : Nat := s.getF (uMAC (p / 8)) (f.i (p % 8))
def State.setMac (s : State) (p : Nat) (f : Fld) (v : Nat) : State := s.setF (uMAC (p / 8)) (f.i (p % 8)) v

/-- Occupancy count of a port: priorities 0–7, 8 the total (R271). -/
def State.occ (s : State) (p r : Nat) : Nat := s.bas.occ.get (fun _ => 0) (16 * p + r)
def State.setOcc (s : State) (p r n : Nat) : State :=
  s.modBas fun b => { b with occ := s.bas.occ.put (fun _ => 0) (16 * p + r) n }

def State.linkState (s : State) (p : Nat) : Nat := s.mac p F.PORT_STATUS_LINK_STATE

/-- R469: a port may begin to receive or to transmit a frame. -/
def State.portLive (s : State) (p : Nat) : Bool := s.linkState p == 3 && s.up (uMAC (p / 8))

/-! ### Frames in a MAC (R106, R107, R469) -/

/-- Replace what the MACs hold. -/
def State.setSending (s : State) (l : List TxItem) : State := s.modBas fun b => { b with sending := l }

/-- Change the first item a predicate accepts. -/
def modTx (p : TxItem → Bool) (f : TxItem → TxItem) : List TxItem → List TxItem
  | [] => []
  | x :: r => if p x then f x :: r else x :: modTx p f r

/-- Remove the first item a predicate accepts. -/
def dropTx (p : TxItem → Bool) : List TxItem → List TxItem
  | [] => []
  | x :: r => if p x then r else x :: dropTx p r

/-- The frame a port transmits. -/
def State.txHead (s : State) (p : Nat) : Option TxItem := s.bas.sending.find? fun x => x.port == p && x.started

/-- A class of a port's traffic is paused by the partner: `r` a priority, or 8 for PAUSE (R106). A change of FC_MODE leaves a pause
in force until its quanta end (DESIGN CHOICE, log entry 88). -/
def State.pausedBy (s : State) (p r : Nat) : Bool := decide (s.ns < (s.port p).pauseTill.get (fun _ => 0) r)

/-- R106: the partner has paused a frame in a MAC: by PAUSE, or by PFC of the priority its queue's profile gives. -/
def State.txPaused (s : State) (x : TxItem) : Bool :=
  s.pausedBy x.port 8 || s.pausedBy x.port (s.prof x.queue F.TM_PROF_CFG_PFC_PRIO)

/-- R109, R211: a frame starts in its MAC: it takes the transmit stamp, the MAC's PTP work on it and the FCS. -/
def State.txStart (s : State) (x : TxItem) : State :=
  let tx := ((s.clk.now : Int) + signedOf (s.mac x.port F.PORT_PTP_ADJ_TX_ADJ) 16 * 256).toNat
  let s := s.setSending (modTx (fun y => y.port == x.port && !s.txPaused y) (fun y => { y with started := true, data := withFcs (ptpEdit y.pkt y.data tx) })
    s.bas.sending)
  if ptpMode x.pkt.ptp = 3 then
    s.event 0x15 x.port (uMAC (x.port / 8)) (x.port * 2 ^ 32 + ptpTag x.pkt.ptp * 2 ^ 16 + tx % 65536) (tx / 65536)
  else s

/-- R106, R469: a port with no frame in transmission that may start one starts the first in its MAC that is not paused. A
frame starts as soon as it can, so this is applied before whatever stops a port from starting frames, and after whatever
lets it start them. -/
def State.txBegin (s : State) (p : Nat) : State :=
  if s.portLive p ∧ (s.txHead p).isNone then
    match s.bas.sending.find? fun x => x.port == p && !s.txPaused x with
    | some x => s.txStart x
    | none => s
  else s

/-- A PAUSE (`r` = 8) or PFC frame of a priority with quanta `q` goes out and is counted; a standby's lanes are squelched
(R438). -/
def State.pauseOut (s : State) (p r q : Nat) : State :=
  (if s.twin.squelched then s else s.send (.pause p r q)).portCtr p (if r = 8 then 19 else 20 + r) 1

/-- R107, R469: a port that may start a frame sends PAUSE or PFC, after the frame in transmission and ahead of queued ones.
A port that may not sends none; while XOFF holds the next repeat sends it (DEDUCED, log entry 76). -/
def State.sendPause (s : State) (p r q : Nat) : State :=
  if !s.portLive p then s
  else
    let s := s.txBegin p
    if (s.txHead p).isSome then s.setPort p { s.port p with fcWait := (s.port p).fcWait ++ [(r, q)] } else s.pauseOut p r q

/-- R107: the pause frames that waited for the frame in transmission go out. -/
def State.pauseFlush (s : State) (p : Nat) : State :=
  let l := (s.port p).fcWait
  let s := s.setPort p { s.port p with fcWait := [] }
  if s.portLive p then s.each l fun s x => s.pauseOut p x.1 x.2 else s

/-- R107: compare a port's counts with XOFF_CELLS and XON_CELLS and send PAUSE or PFC where one is crossed. In PAUSE
mode TX_XOFF reads all ones while the port is in XOFF (log entry 20). -/
def State.pauseCheck (s : State) (p tc : Nat) : State :=
  let fc := s.mac p F.PORT_CTL_FC_MODE
  let r := if fc = 2 then tc else 8
  let xoff := s.mac p F.PORT_STATUS_TX_XOFF
  let isOff := if fc = 2 then bitsOf xoff tc 1 == 1 else xoff == 0xFF
  let level (v : Nat) := if fc = 2 then setBitsOf xoff tc 1 v else v * 0xFF
  if fc ≠ 1 ∧ (fc ≠ 2 ∨ bitsOf (s.mac p F.PORT_PFC_TX_EN) tc 1 = 0) then s
  else if !isOff ∧ s.occ p r > s.mac p F.PORT_FC_THR_XOFF_CELLS then
    let s := (s.setMac p F.PORT_STATUS_TX_XOFF (level 1)).sendPause p r 0xFFFF
    s.setPort p { s.port p with xoffAt := (s.port p).xoffAt.put (fun _ => 0) r s.ns }
  else if isOff ∧ s.occ p r ≤ s.mac p F.PORT_FC_THR_XON_CELLS then
    (s.setMac p F.PORT_STATUS_TX_XOFF (level 0)).sendPause p r 0
  else s

/-- R271: charge (`up`) or release `n` cells of a packet's ingress occupancy. Host ports and fabric packets are not
charged. -/
def State.charge (s : State) (k : Pkt) (n : Nat) (up : Bool) : State :=
  if k.adm.port ≥ 256 ∨ k.fabric then s
  else
    let f (s : State) (r : Nat) := s.setOcc k.adm.port r (if up then s.occ k.adm.port r + n else s.occ k.adm.port r - n)
    (f (f s k.tc) 8).pauseCheck k.adm.port k.tc

/-! ### Instances -/

/-- Cells of a frame (R268). -/
def cellsOf (len : Nat) : Nat := ceilDiv len 256

def State.inst (s : State) (id : Nat) : Option Inst := s.bas.insts.get (fun _ => none) id
def State.setInst (s : State) (id : Nat) (x : Option Inst) : State :=
  s.modBas fun b => { b with insts := s.bas.insts.put (fun _ => none) id x }

/-- Cells held in a crosspoint. -/
def State.xpUsed (s : State) (i j : Nat) : Nat := s.getF (uXP i j) F.XP_STATUS_USED_CELLS

/-- Free cells of a crosspoint. -/
def State.xpFree (s : State) (i j : Nat) : Nat := xpSize i j - s.xpUsed i j

/-- Cells and instances enter a crosspoint. -/
def State.xpPut (s : State) (i j n k : Nat) : State :=
  let u := uXP i j
  let s := (s.addF u F.XP_STATUS_USED_CELLS n).addF u F.XP_STATUS_PACKETS k
  s.setF u F.XP_HWM_CELLS (max (s.getF u F.XP_HWM_CELLS) (s.xpUsed i j))

/-- Cells and instances leave a crosspoint. -/
def State.xpTake (s : State) (i j n k : Nat) : State :=
  let u := uXP i j
  (s.setF u F.XP_STATUS_USED_CELLS (s.xpUsed i j - n)).setF u F.XP_STATUS_PACKETS (s.getF u F.XP_STATUS_PACKETS - k)

/-- Free a deep-buffer block and its reference counter (R278). A block that a timed-out fetch still reads stays in use
(R277). -/
def State.freeBlock (s : State) (x : Inst) : State :=
  let b : Blk := ⟨x.ch, x.pool, x.block, x.req⟩
  if ¬ s.bas.blocks.contains b then s
  else
    let used : Fld := ⟨0x300 + 0x10 * x.req + 4 * x.pool, 0, 0, 29⟩
    let s := if x.refCtr then s.setF uBPM F.BPM_REF_USED_COUNT (s.getF uBPM F.BPM_REF_USED_COUNT - 1) else s
    if s.bas.limbo.any (fun l => l.2 == b) then s
    else
      let s := s.modBas fun x => { x with blocks := s.bas.blocks.erase b }
      let s := s.setF uBPM used (s.getF uBPM used - 1)
      s.setFS uBPM x.ch F.BPM_CH_STATUS_USED (s.getFS uBPM x.ch F.BPM_CH_STATUS_USED - 1)

/-- R278: a copy no longer needs the block; at the last one the block is freed. -/
def State.blockDone (s : State) (id : Nat) : State :=
  match s.inst id with
  | none => s
  | some x =>
    if x.place = 0 ∨ x.place = 4 then s
    else if x.blkRef > 1 then s.setInst id (some { x with blkRef := x.blkRef - 1 })
    else
      let s := if x.place = 1 then s.xpTake x.row 33 x.left 1 else s
      (s.setInst id (some { x with blkRef := 0, place := 4, left := 0 })).freeBlock x

/-- R278: a copy of an instance has left, `fetched` if its cells had come back from the block; the last one frees the
crosspoint cells and releases the charge. -/
def State.unref (s : State) (id : Nat) (fetched : Bool) : State :=
  let s := if fetched then s else s.blockDone id
  match s.inst id with
  | none => s
  | some x =>
    if x.ref > 1 then s.setInst id (some { x with ref := x.ref - 1 })
    else
      let s := s.setInst id none
      (if x.place = 0 then s.xpTake x.row x.col x.cells 1 else s).charge x.pkt x.cells false

/-! ### Delivery accounts (R215) -/

/-- A copy of a replicated packet is delivered or dropped; the last one closes the account. -/
def State.mcDone (s : State) (k : Pkt) (delivered : Bool) : State :=
  match k.mc with
  | none => s
  | some id =>
    match s.bas.mcs.get (fun _ => none) id with
    | none => s
    | some m =>
      let m := { m with left := m.left - 1, sent := m.sent + (if delivered then 1 else 0)
                        dropped := m.dropped + (if delivered then 0 else 1) }
      let keep (x : Option Mc) : State := s.modBas fun b => { b with mcs := s.bas.mcs.put (fun _ => none) id x }
      if m.left > 0 then keep (some m)
      else
        let s := keep none
        let i := if m.port ≥ 256 then 64 else if m.port / 32 = m.course then m.port % 32 else 32 + m.port % 32
        if m.sent = 0 then s.addF (uRSV m.course) F.RSV_MC_NONE_COUNT 1
        else if m.dropped > 0 then s.addF (uRSV m.course) (F.RSV_MC_PARTIAL_COUNT.i i) 1 else s

/-! ### Queue entries -/

def State.queue (s : State) (q : Nat) : List QEnt := s.bas.queues.get (fun _ => []) q
def State.setQueue (s : State) (q : Nat) (l : List QEnt) : State :=
  s.modBas fun b => { b with queues := s.bas.queues.put (fun _ => []) q l }

/-- Cells queued (DEPTH_CELLS). -/
def depthOf (l : List QEnt) : Nat := (l.map (·.cells)).sum

def State.tel (s : State) (q : Nat) : QTel := s.bas.tel.get (fun _ => {}) q

/-- Change a queue's telemetry, following its depth (R307). -/
def State.telUp (s : State) (q : Nat) (f : QTel → QTel) : State :=
  let d := depthOf (s.queue q)
  let t := f (s.tel q)
  s.modBas fun b => { b with tel := s.bas.tel.put (fun _ => {}) q { t with dmin := min t.dmin d, dmax := max t.dmax d } }

/-- Row of Table 9 of chapter 13 that counts a code of the traffic manager. -/
def tmDropRow (code : Nat) : Option Nat :=
  [0x60, 0x50, 0x07, 0x31, 0x51, 0x52, 0x53, 0x49, 0x62].findIdx? (· == code)

/-- The traffic manager drops a copy against its queue (R294, R302, R310): drop counter of the egress port, telemetry,
TMQ_DROP_CTR, its instance and account. -/
def State.tmDrop (s : State) (code q : Nat) (e : QEnt) (detail : Nat) : State :=
  let p := s.queuePort q
  let k := match s.inst e.inst with | some x => x.pkt | none => {}
  let s := s.drop code (264 + p) { k.info (uTMQ (q / 65536)) with egPort := some p, queue := some q, detail := detail, color := e.color }
  let s := s.telUp q fun t => { t with drop := t.drop + 1 }
  let s := match tmDropRow code with
    | some r => s.addF (uTMQ (q / 65536)) (F.TMQ_DROP_CTR_COUNT.i r) 1
    | none => s
  let s := if e.back ∧ !e.gone then s.xpTake 33 (portCol p) e.cells 1 else s
  ((s.unref e.inst e.back).leaveFlight k).mcDone k false

/-- Queues of a quadrant that hold entries, in queue-number order. -/
def State.busyQueues (s : State) (quad : Nat) : List Nat :=
  (s.bas.queues.filter fun e => e.1 / 65536 == quad).map (·.1)

/-- Entries of a queue that are on chip. -/
def onChip (l : List QEnt) : Nat := (l.filter fun e => e.page.isNone).length

/-- The oldest page of a queue. -/
def State.headPage (s : State) (q : Nat) : Option Nat := (s.queue q).findSome? fun e => e.page

/-- Since when the oldest page of a queue is being read. -/
def State.pageAsked (s : State) (q : Nat) : Option Nat := (s.queue q).findSome? fun e => e.pageAt

/-- On-chip entries of a quadrant that are in use, or kept for the pages being read (R295). -/
def State.chipUsed (s : State) (quad : Nat) : Nat :=
  s.getF (uTMQ quad) F.TMQ_ENTRY_USED_COUNT + 16 * ((s.busyQueues quad).filter fun q => (s.pageAsked q).isSome).length

/-- R295: the read of a queue's oldest page is issued once the queue holds fewer than 16 entries on chip and 16 are free. -/
def State.askPage (s : State) (q : Nat) : State :=
  match s.headPage q with
  | none => s
  | some pg =>
    if (s.pageAsked q).isSome ∨ 16 ≤ onChip (s.queue q) ∨ 32768 < s.chipUsed (q / 65536) + 16 then s
    else s.setQueue q ((s.queue q).map fun e => if e.page = some pg then { e with pageAt := some s.ns } else e)

/-- R295: page reads are issued as soon as they can be. -/
def State.askPages (s : State) (quad : Nat) : State :=
  if s.bas.pages.all (fun p => p.1 != quad) then s else s.each (s.busyQueues quad) State.askPage

/-- Page and on-chip counts of a removed entry (R295). -/
def State.freeEntry (s : State) (q : Nat) (e : QEnt) : State :=
  (match e.page with
  | none => s.setF (uTMQ (q / 65536)) F.TMQ_ENTRY_USED_COUNT (s.getF (uTMQ (q / 65536)) F.TMQ_ENTRY_USED_COUNT - 1)
  | some pg =>
    if (s.queue q).any fun x => x.page == some pg then s
    else (s.modBas fun b => { b with pages := s.bas.pages.erase (q / 65536, pg) }).setF (uTMQ (q / 65536))
      F.TMQ_PAGE_USED_PAGES (s.getF (uTMQ (q / 65536)) F.TMQ_PAGE_USED_PAGES - 1)).askPages (q / 65536)

def State.tmNode (s : State) (lvl idx : Nat) : TmNode := s.bas.tags.get (fun _ => {}) (lvl * 2 ^ 20 + idx)
def State.setTmNode (s : State) (lvl idx : Nat) (x : TmNode) : State :=
  s.modBas fun b => { b with tags := s.bas.tags.put (fun _ => {}) (lvl * 2 ^ 20 + idx) x }

/-- R304: of a subscriber node, a service node and a local port, those with no active child left are inactive. -/
def State.settleAbove (s : State) (quad sub svc l : Nat) : State :=
  let live (f : Nat → Bool) := (s.busyQueues quad).any f
  let s := if live fun x => (s.queuePath x).1 == sub then s
    else s.setTmNode 1 sub { s.tmNode 1 sub with active := false }
  let s := if live fun x => (s.queuePath x).2.1 == svc then s
    else s.setTmNode 2 svc { s.tmNode 2 svc with active := false }
  if live fun x => (s.queuePath x).2.2 == l then s
  else s.setTmNode 3 (quad * 128 + l) { s.tmNode 3 (quad * 128 + l) with active := false }

/-- R304: a queue that has become empty is inactive, and so are its ancestors with no other active child. -/
def State.settle (s : State) (q : Nat) : State :=
  if ¬ (s.queue q).isEmpty then s
  else
    let (sub, svc, l) := s.queuePath q
    (s.setTmNode 0 q { s.tmNode 0 q with active := false }).settleAbove (q / 65536) sub svc l

/-- Remove the head entry of a queue. -/
def State.popQueue (s : State) (q : Nat) : State :=
  match s.queue q with
  | [] => s
  | e :: r =>
    let s := (s.setQueue q r).freeEntry q e
    (s.telUp q id).settle q

/-- Drop every entry of a queue under a code, from head to tail (R304, R309). -/
def State.flushQueue (code : Nat) : Nat → State → Nat → State
  | 0, s, _ => s
  | n + 1, s, q =>
    match s.queue q with
    | [] => s
    | e :: _ => ((s.popQueue q).tmDrop code q e 0).flushQueue code n q

/-- A port's queues that hold entries. -/
def State.portQueues (s : State) (p : Nat) : List Nat :=
  (s.busyQueues (portQuad p)).filter fun q => s.queuePort q == p

end Sys2Proof.Machine
end

