-- ==== Sys2Proof/Machine/Operands.lean ====
section
/-!
DEFINITION. The operands of microwords: threads, their registers and the literal (R255, R256, Tables 4 and 5 of
spec/11_microcode.md). A thread is named by 256·cluster + 8·engine + thread.
-/
namespace Sys2Proof.Machine

/-! Parts of a thread's name. -/
def thrKey (c e t : Nat) : Nat := 256 * (c % 16) + 8 * (e % 32) + t % 8
def ecOf (k : Nat) : Nat := k / 256
def engOf (k : Nat) : Nat := k / 8 % 32
def thrOf (k : Nat) : Nat := k % 8
/-- 8·engine + thread, as TID and CSH_LOCK.OWNER give it. -/
def tidOf (k : Nat) : Nat := k % 256
def engUid (k : Nat) : Nat := uENG (ecOf k) (engOf k)

def State.cluster (s : State) (c : Nat) : Cluster := s.eng.clusters.get (fun _ => {}) c
def State.setCluster (s : State) (c : Nat) (x : Cluster) : State :=
  s.modEng fun e => { e with clusters := s.eng.clusters.put (fun _ => {}) c x }
def State.engine (s : State) (g : Nat) : Engine := s.eng.engines.get (fun _ => {}) g
def State.setEngine (s : State) (g : Nat) (x : Engine) : State :=
  s.modEng fun e => { e with engines := s.eng.engines.put (fun _ => {}) g x }
def State.thread (s : State) (k : Nat) : Thread := s.eng.threads.get (fun _ => {}) k
def State.setThread (s : State) (k : Nat) (x : Thread) : State :=
  s.modEng fun e => { e with threads := s.eng.threads.put (fun _ => {}) k x }
def State.chan (s : State) (c n : Nat) : Chan := s.eng.chans.get (fun _ => {}) (64 * c + n)
def State.setChan (s : State) (c n : Nat) (x : Chan) : State :=
  s.modEng fun e => { e with chans := s.eng.chans.put (fun _ => {}) (64 * c + n) x }
def State.lockSt (s : State) (c n : Nat) : LockSt := s.eng.locks.get (fun _ => {}) (256 * c + n)
def State.setLock (s : State) (c n : Nat) (x : LockSt) : State :=
  s.modEng fun e => { e with locks := s.eng.locks.put (fun _ => {}) (256 * c + n) x }
/-- A microword of an engine's control store. -/
def State.cword (s : State) (g a : Nat) : Nat := s.eng.cs.get (fun _ => 0) (4096 * g + a % 4096)
/-- A byte of an engine's local memory. -/
def State.lmem (s : State) (g o : Nat) : Byte := s.eng.lmem.get (fun _ => 0) (2 ^ 18 * g + o)
def State.setLmem (s : State) (g o : Nat) (b : Byte) : State :=
  s.modEng fun e => { e with lmem := s.eng.lmem.put (fun _ => 0) (2 ^ 18 * g + o) b }
def State.lmemBytes (s : State) (g o n : Nat) : List Byte := (List.range n).map fun i => s.lmem g (o + i)
def State.setLmemBytes (s : State) (g o : Nat) (bs : List Byte) : State :=
  s.each bs.zipIdx fun s b => s.setLmem g (o + b.2) b.1

/-- EC cycles of plinth time at the clusters' 2,200 MHz. -/
def ecCycles (t : Nat) : Nat := t * 22 / 655360

/-- Time of a number of EC cycles, in 1/65,536 ns, rounded up. -/
def cycTime (n : Nat) : Nat := ceilDiv (n * 655360) 22

/-- The present EC cycle (R6). -/
def State.ecNow (s : State) : Nat := ecCycles s.clk.core

/-- The outstanding job a thread holds. -/
def State.jobOf (s : State) (k : Nat) : Option OutJob :=
  (s.cluster (ecOf k)).outst.find? fun j => j.thread == some (tidOf k)

/-- EC cycles of budget left (R236): it does not count while the thread is HALTED. -/
def State.budgetLeft (s : State) (k : Nat) : Nat :=
  let x := s.thread k
  if (s.jobOf k).isNone then 0
  else if x.st = 6 then x.budget
  else x.budget - (s.ecNow - ecCycles x.budgetAt)

/-- A shared register (R256). -/
def State.sreg (s : State) (c j : Nat) : DWord :=
  BitVec.ofNat 64 (s.getF (uCSH c) (F.CSH_S_LO.i j) + 2 ^ 32 * s.getF (uCSH c) (F.CSH_S_HI.i j))
def State.setSreg (s : State) (c j : Nat) (v : DWord) : State :=
  (s.setF (uCSH c) (F.CSH_S_LO.i j) (v.toNat % 2 ^ 32)).setF (uCSH c) (F.CSH_S_HI.i j) (v.toNat / 2 ^ 32)

/-- A register read as an operand (Table 4). -/
def State.opReg (s : State) (k r : Nat) : DWord :=
  if r < 32 then (s.thread k).g.get (fun _ => 0) r
  else if r < 48 then s.sreg (ecOf k) (r - 32)
  else match r with
    | 49 => BitVec.ofNat 64 s.ns
    | 50 => BitVec.ofNat 64 (tidOf k)
    | 51 => BitVec.ofNat 64 (s.budgetLeft k)
    | 52 => (match s.jobOf k with
      | some j => BitVec.ofNat 64 (j.job.pkt.adm.admitAt + j.job.pkt.adm.deadline)
      | none => 0)
    | 53 => BitVec.ofNat 64 (s.thread k).stack.length
    | _ => 0

/-- A register a microword reads, as it stood before the microword issued (R257). -/
def State.operand (s : State) (k r : Nat) : DWord :=
  match (s.thread k).ops.find? fun x => x.1 == r with
  | some x => x.2
  | none => s.opReg k r

/-- What the writes of one EC cycle leave. -/
def SWrites.value (x : SWrites) : DWord := x.writes.foldl (fun a w => if w.add then a + w.v else w.v) x.base

/-- A further write in its place by engine and thread. -/
def SWrites.insert (x : SWrites) (w : SWrite) : SWrites :=
  { x with writes := x.writes.takeWhile (fun y => decide (y.tid ≤ w.tid)) ++ w :: x.writes.dropWhile fun y => decide (y.tid ≤ w.tid) }

/-- R256: thread `k` writes s register `j` of its cluster, or adds to it: the writes of one EC cycle apply by rising engine and
thread. -/
def State.writeS (s : State) (k j : Nat) (add : Bool) (v : DWord) : State :=
  let c := ecOf k
  let cyc := max s.ecNow (s.engine (k / 8)).cyc
  let old := s.eng.sregs.get (fun _ => {}) (16 * c + j)
  let x : SWrites := if old.cyc = cyc ∧ old.value = s.sreg c j then old else { cyc := cyc, base := s.sreg c j }
  let x := x.insert { tid := tidOf k, add := add, v := v }
  (s.setSreg c j x.value).modEng fun e => { e with sregs := s.eng.sregs.put (fun _ => {}) (16 * c + j) x }

/-- A register written by a microword; a write of ZERO is discarded (Table 4). -/
def State.setOpReg (s : State) (k r : Nat) (v : DWord) : State :=
  if r < 32 then s.setThread k { s.thread k with g := (s.thread k).g.put (fun _ => 0) r v }
  else if r < 48 then s.writeS k (r - 32) false v
  else s

/-- Operand B of the ALU slot (Table 5). -/
def State.opB (s : State) (k w : Nat) : DWord :=
  match uBmode w with
  | 0 => s.operand k (uSb w)
  | 1 => BitVec.ofNat 64 (bitsOf w 0 16)
  | 2 => BitVec.ofNat 64 (uLit w)
  | _ => (BitVec.ofNat 16 (bitsOf w 0 16)).signExtend 64

/-- Address or window offset of the memory slot: its base register plus a displacement, modulo 2^64. -/
def State.opAddr (s : State) (k w d : Nat) : Nat := (s.operand k (uAreg w) + BitVec.ofNat 64 d).toNat

end Sys2Proof.Machine
end

