-- ==== Sys2Proof/Machine/Flags.lean ====
section
/-!
DEFINITION. The condition bits of a thread (R255, Table 3 of spec/11_microcode.md) and what each ALU operation sets
them to, and the selected nibble of the next-address rule (R251, R254).
-/
namespace Sys2Proof.Machine

/-- A bit as a number at a place. -/
def bitAt (b : Bool) (i : Nat) : Nat := if b then 2 ^ i else 0

/-- Z and N of a result. -/
def flagsZN (r : DWord) : Nat := bitAt (r == 0) 0 + bitAt r.msb 1

/-- Group 0 bits c0–c7 after ADD: carry and signed overflow. -/
def flagsAdd (a b : DWord) : Nat :=
  let r := a + b
  flagsZN r + bitAt (decide (2 ^ 64 ≤ a.toNat + b.toNat)) 2 + bitAt (a.msb == b.msb && r.msb != a.msb) 3

/-- Group 0 bits c0–c7 after SUB and CMP: borrow, signed overflow, SLT, SLE, ULE. -/
def flagsSub (a b : DWord) : Nat :=
  let r := a - b
  flagsZN r + bitAt (decide (a.toNat < b.toNat)) 2 + bitAt (a.msb != b.msb && r.msb != a.msb) 3 +
    bitAt (decide (a.toInt < b.toInt)) 4 + bitAt (decide (a.toInt ≤ b.toInt)) 5 + bitAt (decide (a.toNat ≤ b.toNat)) 6

/-- Group 0 bits c0–c7 after every other operation. -/
def flagsOther (r : DWord) : Nat := flagsZN r

/-- SETC = 1: groups 0 and 2 take the flags and bits [15:0] of the result; F0–F7 stay. -/
def withFlags (cond fl : Nat) (r : DWord) : Nat :=
  setBitsOf (setBitsOf cond 0 8 fl) 32 16 (r.toNat % 65536)

/-- SETF: F0–F7 under the mask B[15:8]. -/
def withSetf (cond : Nat) (b : DWord) : Nat :=
  let f := bitsOf cond 8 8
  let m := bitsOf b.toNat 8 8
  setBitsOf cond 8 8 ((f - (f &&& m)) ||| (bitsOf b.toNat 0 8 &&& m))

/-- Group 3, computed at issue; 0 in a thread that holds no job. -/
def State.group3 (s : State) (k : Nat) : Nat :=
  match s.jobOf k with
  | none => 0
  | some j =>
    let a := j.job.pkt.adm
    bitAt true 0 + bitAt a.host 1 + bitAt (a.gen % 2 == 1) 2 + bitAt (a.pass == 1) 3 +
      bitAt (decide (s.budgetLeft k < 256)) 4 + bitAt (decide (a.admitAt + a.deadline < s.ns + 1000)) 5

/-- All 64 condition bits as a microword that issues now sees them (R254). -/
def State.condNow (s : State) (k : Nat) : Nat := setBitsOf (s.thread k).cond 48 16 (s.group3 k)

/-- The selected nibble AND MASK (R251). -/
def mway (cond w : Nat) : Nat := bitsOf cond (16 * uGroup w + 4 * uNib w) 4 &&& uMask w

end Sys2Proof.Machine
end

