-- ==== Sys2Proof/Machine/Engine.lean ====
section
/-!
DEFINITION. Threads, channels, locks, jobs and their aborts (R225–R244 of spec/10_engines.md), and the issue of
microwords: which thread issues, breakpoints, waiting for results, the engine sampler (R229, R230, R244, R257, R364).
-/
namespace Sys2Proof.Machine

/-- An engine is in service or draining, powered and not gated by footing mode. -/
def State.engineRuns (s : State) (u : Nat) : Bool :=
  (s.ust u == 4 || s.ust u == 5) && s.getF u F.UCB_STATE_ISOLATED == 0 && s.fwdOn && !s.footing

/-! ### Samples and debug records -/

/-- R364: close a thread's open sample at EC cycle `cyc` and write its entry. -/
def State.closeSampleAt (s : State) (k cyc : Nat) : State :=
  let x := s.thread k
  match x.sample with
  | none => s
  | some p =>
    let u := engUid k
    let s := s.setThread k { x with sample := none }
    let count := s.getF u F.ENG_SAMP_STATUS_COUNT
    let next := s.getF u F.ENG_SAMP_STATUS_NEXT
    let wrap := s.getF u F.ENG_SAMP_CFG_WRAP = 1
    if s.getF u F.ENG_SAMP_CFG_EN = 0 ∨ (count = 4096 ∧ ¬ wrap) then s
    else
      let lat := min 65535 (cyc - p.cyc)
      let ent := p.time % 2 ^ 32 * 2 ^ 32 + lat * 2 ^ 16 + (if p.job then 2 ^ 15 else 0) + thrOf k * 2 ^ 12 + p.addr
      let g := k / 8
      let s := s.setEngine g { s.engine g with samples := (s.engine g).samples.put (fun _ => 0) next (BitVec.ofNat 64 ent) }
      let s := s.setF u F.ENG_SAMP_STATUS_NEXT ((next + 1) % 4096)
      let s := s.setF u F.ENG_SAMP_STATUS_COUNT (min 4096 (count + 1))
      if count + 1 ≥ 4096 then s.setF u F.ENG_SAMP_STATUS_FULL 1 else s

/-- R364: a thread halts, stops or aborts: its open sample closes now. -/
def State.closeSample (s : State) (k : Nat) : State := s.closeSampleAt k (max s.ecNow (s.engine (k / 8)).cyc)

/-- R364: a microword issues in EC cycle `c`; every INTERVAL-th of the sampled threads opens a sample. -/
def State.sampleIssue (s : State) (k c : Nat) : State :=
  let u := engUid k
  let s := s.closeSampleAt k c
  if s.getF u F.ENG_SAMP_CFG_EN = 0 ∨ bitsOf (s.getF u F.ENG_SAMP_CFG_THREADS) (thrOf k) 1 = 0 ∨
      (s.getF u F.ENG_SAMP_CFG_WRAP = 0 ∧ s.getF u F.ENG_SAMP_STATUS_FULL = 1) then s
  else
    let g := k / 8
    let n := (s.engine g).sampCount + 1
    if n < s.getF u F.ENG_SAMP_CFG_INTERVAL then s.setEngine g { s.engine g with sampCount := n }
    else
      let s := s.setEngine g { s.engine g with sampCount := 0 }
      let x := s.thread k
      let time := (s.clk.now + (cycTime c - s.clk.core)) / 65536
      s.setThread k { x with sample := some ⟨time, c, x.pc, (s.jobOf k).isSome⟩ }

/-- R245, Table 7: a DEBUG record of a thread, to EC_DEBUG_RING of its cluster. -/
def State.debugRecord (s : State) (k kind brk code : Nat) : State :=
  let u := uEC (ecOf k)
  if s.getF u F.EC_DEBUG_RING_EN = 0 then s
  else
    let x := s.thread k
    let (adm, seq) : Adm × Nat := match s.jobOf k with
      | some j => (j.job.pkt.adm, j.seq)
      | none => ({}, 0)
    s.record (s.getF u F.EC_DEBUG_RING_RING) 0x16 (wordsBytes
      [kind * 2 ^ 59 + thrOf k * 2 ^ 56 + brk * 2 ^ 54 + engUid k * 2 ^ 36 + x.st * 2 ^ 32 + x.pc, s.ns, adm.admitAt,
       adm.deadline * 2 ^ 44 + min 131071 (s.budgetLeft k), seq * 2 ^ 48 + code, 0, 0, 0])

/-! ### Waking and halting -/

/-- A wait ends: READY; a thread halted in its wait stays HALTED (R240, R241). -/
def State.wake (s : State) (k : Nat) : State :=
  let x := s.thread k
  if x.st = 6 then s.setThread k { x with waitSt := 0, waitObj := 0 }
  else s.setThread k { x with st := 1, waitSt := 0, waitObj := 0, elig := max x.elig s.ecNow }

/-- R241: a live thread halts before its next issue, also in a wait; its budget stops. -/
def State.haltThread (s : State) (k : Nat) : State :=
  let x := s.thread k
  if x.st = 0 ∨ x.st = 6 then s else (s.setThread k { x with st := 6, budget := s.budgetLeft k }).closeSample k

/-- STATE of a thread that is not halted: what it waits for, or READY. -/
def Thread.waitKind (x : Thread) : Nat := if x.waitSt = 0 then 1 else x.waitSt

/-- R239: every live thread of an engine is blocked on the engine's own channels and locks. -/
def State.stalled (s : State) (g : Nat) : Bool :=
  let c := g / 32
  let live := (List.range 8).filter fun t => (s.thread (8 * g + t)).st != 0
  !live.isEmpty && live.all fun t =>
    let x := s.thread (8 * g + t)
    (x.st == 3 && s.getF (uCSH c) (F.CSH_CHAN_CFG_WRITERS.i x.waitObj) ||| 2 ^ (g % 32) == 2 ^ (g % 32)) ||
    (x.st == 4 && (match (s.lockSt c x.waitObj).owner with | some o => o / 8 == g % 32 | none => false))

/-- R239: the stall of an engine of cluster `c` that what led from `s0` to `s` began starts now. -/
def State.stallNoted (s0 s : State) (c : Nat) : State :=
  s.each ((List.range 17).map (32 * c + ·)) fun s g =>
    if !s0.stalled g && s.stalled g then s.setEngine g { s.engine g with stallFrom := s.clk.core } else s

/-- RESUME of a halted thread: READY, or waiting on if it was halted in a wait that has not ended; its budget counts
again, past the breakpoint it stands at (R242, R244). -/
def State.resumeThread (s : State) (k : Nat) : State :=
  let x := s.thread k
  s.stallNoted (c := ecOf k) <| s.setThread k { x with st := x.waitKind, budgetAt := s.clk.core, skipBrk := true, elig := max x.elig s.ecNow }

/-! ### Channels and locks (R232–R234) -/

/-- R232: the oldest message of a channel goes to the longest-waiting reader. -/
def State.serveChan (s : State) (c n : Nat) : State :=
  let x := s.chan c n
  match x.msgs, x.waiting with
  | m :: ms, t :: ts =>
    let k := 256 * c + t
    let r := (s.thread k).waitReg
    let s := s.setChan c n { x with msgs := ms, waiting := ts }
    let s := s.setOpReg k r (BitVec.ofNat 64 m.length)
    let s := s.each m.zipIdx fun s w => s.setOpReg k (r + 1 + w.2) w.1
    (s.setThread k { s.thread k with cond := setBitsOf (s.thread k).cond 17 1 0 }).wake k
  | _, _ => s

/-- R234: a lock is released; its oldest waiter acquires it. -/
def State.passLock (s : State) (c n : Nat) : State :=
  let x := s.lockSt c n
  match x.waiting with
  | [] => s.setLock c n { x with owner := none }
  | t :: ts =>
    let k := 256 * c + t
    let s0 := s
    let s := s.setLock c n { owner := some t, waiting := ts }
    s0.stallNoted ((s.setThread k { s.thread k with cond := setBitsOf (s.thread k).cond 18 1 0 }).wake k) c

/-- A thread waits for nothing any more: it leaves every list of waiters. -/
def State.endWaits (s : State) (k : Nat) : State :=
  let c := ecOf k
  let t := tidOf k
  let s := s.modEng fun e => { e with chans := s.eng.chans.remap (fun _ => {}) fun i x =>
    if i / 64 = c then { x with waiting := x.waiting.filter (· ≠ t) } else x }
  let s := s.modEng fun e => { e with locks := s.eng.locks.remap (fun _ => {}) fun i x =>
    if i / 256 = c then { x with waiting := x.waiting.filter (· ≠ t) } else x }
  let s := s.setCluster c { s.cluster c with waiting := (s.cluster c).waiting.filter (· ≠ t) }
  s.setThread k { s.thread k with waitSt := 0, waitObj := 0 }

/-- R237 step 1, R246: free a thread's reservations, pass its locks to their waiters, end its own waits. -/
def State.freeHolds (s : State) (k : Nat) : State :=
  let c := ecOf k
  let t := tidOf k
  let s := s.modEng fun e => { e with chans := s.eng.chans.remap (fun _ => {}) fun i x =>
    if i / 64 = c then { x with reserved := x.reserved.filter (· ≠ t) } else x }
  let s := s.endWaits k
  let mine := (s.eng.locks.filter fun l => l.1 / 256 == c && l.2.owner == some t).map fun l => l.1 % 256
  s.each mine fun s n => s.passLock c n

/-! ### Jobs -/

/-- Cells a packet of `len` bytes takes in the packet buffer (R223). -/
def jobCells (len : Nat) : Nat := ceilDiv (len + 512) 256

/-- Free cells of a cluster's packet buffer. -/
def State.freeCells (s : State) (c : Nat) : Nat :=
  let x := s.cluster c
  4096 - ((x.queued.map (·.cells)).sum + (x.outst.map (·.job.cells)).sum +
    ((s.punts.filter fun p => p.cluster == some c).map (·.cells)).sum)

/-- R223: the router's internal port is ready. -/
def State.routerReady (s : State) (c : Nat) : Bool :=
  38 ≤ s.freeCells c && (s.cluster c).queued.length < 256

/-- A cluster drops a packet (R248): its drop counter, the packet no longer in flight. -/
def State.dropCluster (s : State) (code c seq : Nat) (p : Pkt) : State :=
  let s := s.drop code (604 + c) { p.info (uEC c) with detail := seq }
  (s.leaveFlight p).mcDone p false

/-- Remove an outstanding job. -/
def State.endJob (s : State) (c : Nat) (j : OutJob) : State :=
  s.setCluster c { s.cluster c with outst := (s.cluster c).outst.erase j }

/-- The unit counter of an abort code (Table 12 of chapter 10). -/
def abortCtr (code : Nat) : Option Fld :=
  if code = 0x10 then some F.EC_CTR_DEADLINE else if code = 0x39 then some F.EC_CTR_BUDGET
  else if code = 0x3A then some F.EC_CTR_FAULT else if code = 0x3B then some F.EC_CTR_INVALID else none

/-- R237 step 5: the thread restarts READY at its start address; its g registers keep their values. A halted thread stays
HALTED (R241), and the cycles of a microword that has issued still pass (R250). -/
def State.restart (s : State) (k : Nat) : State :=
  let s := s.closeSample k
  let x := s.thread k
  let e := s.engine (k / 8)
  let mid := e.issuing == some (thrOf k)
  let s := s.setEngine (k / 8) { e with issuing := if mid then none else e.issuing }
  s.setThread k { x with
    st := if x.st = 6 then 6 else 1, pc := x.start, stack := [], job := none, skipBrk := false
    waitSt := 0, waitObj := 0, aluDone := false, memDone := false, ops := [], csTold := false
    elig := max s.ecNow (if mid then e.cyc + uCyc (s.cword (k / 8) x.pc) + 1 else x.elig) }

/-- The packet of a job with the bytes its packet buffer holds now, where the frame stood at acceptance (R223, R237). -/
def Job.current (j : Job) : Pkt := { j.pkt with frame := sliceBytes j.win 256 j.pkt.frame.length }

/-- R237 steps 1–4: the job of a thread ends without an ending, by its default action; DROP_DEADLINE and discards at
RETIRE always drop. The cluster's drop counter of the code counts every abort, a punted one too. -/
def State.abortJob (s : State) (k code : Nat) : State :=
  match s.jobOf k with
  | none => s
  | some j =>
    let c := ecOf k
    let brk := (List.range 4).any fun b => s.getF (engUid k) (F.ENG_BRK_EN.i b) == 1
    let s := if brk then s.debugRecord k 5 0 code else s
    let s := s.freeHolds k
    let s := s.setThread k { s.thread k with mem := [], job := none }
    let s := s.endJob c j
    let s := match abortCtr code with | some f => s.addF (uEC c) f 1 | none => s
    if j.act = 1 ∧ code ≠ 0x10 ∧ code ≠ 0x60 then
      let s := s.addCtr (0x14000 + 256 * (604 + c) + code) 1
      s.setPunts (s.punts ++ [⟨j.ring, code, 0, j.job.current, some c, j.job.cells, false⟩])
    else s.dropCluster code c j.seq j.job.pkt

/-- R238: a fault of a thread; with no job it only restarts (R237 step 5), and a wait it was in is over. -/
def State.threadFault (s : State) (k : Nat) : State :=
  if (s.jobOf k).isSome then (s.abortJob k 0x3A).restart k
  else ((s.event 0x30 (0x200 + ecOf k) (engUid k) (thrOf k * 2 ^ 12 + (s.thread k).pc) 0).endWaits k).restart k

/-! ### Issue of a microword -/

/-- The thread may issue: READY, its STEP not used up. -/
def Thread.canIssue (x : Thread) : Bool := x.st == 1 && x.stepLeft != some 0

/-- First element after `last` in a rising list, wrapping. -/
def nextAfter (l : List Nat) (last : Nat) : Option Nat := (l.find? fun t => last < t).or l.head?

/-- R402: the first EC cycle in which an engine may issue again: PLN_TRIM.ISSUE_8THS issues in any 8 cycles. -/
def State.trimFrom (s : State) (g : Nat) : Nat :=
  match (s.engine g).recent[s.getF uPLN F.PLN_TRIM_ISSUE_8THS - 1]? with
  | some c => c + 8
  | none => 0

/-- R229, R230, R402: the EC cycle of the next issue of engine `g` and the thread that takes it. -/
def State.nextSlot (s : State) (g : Nat) : Option (Nat × Nat) :=
  let e := s.engine g
  let ready := (List.range 8).filter fun t => (s.thread (8 * g + t)).canIssue
  let elig (t : Nat) := (s.thread (8 * g + t)).elig
  let base := max (max s.ecNow (e.cyc + 1)) (s.trimFrom g)
  match ready with
  | [] => none
  | t0 :: _ =>
    let first := ready.foldl (fun a t => min a (elig t)) (elig t0)
    let c := max base first
    let cand := ready.filter fun t => decide (elig t ≤ c)
    let isHigh (t : Nat) := bitsOf (s.getF (uENG (g / 32) (g % 32)) F.ENG_HIGH_MASK) t 1 == 1
    let starved := cand.filter fun t => !isHigh t && decide (elig t + 1024 ≤ c)
    match nextAfter starved e.lastNormal with
    | some t => some (c, t)
    | none =>
      match nextAfter (cand.filter isHigh) e.lastHigh with
      | some t => some (c, t)
      | none => (nextAfter (cand.filter fun t => !isHigh t) e.lastNormal).map fun t => (c, t)

/-- What the beginning of a microword's issue answers: the state, whether the thread issues, and its microword. -/
structure Issue where
  state : State
  go : Bool
  word : Nat
  deriving DecidableEq, Repr

/-- R244: the breakpoints that fire at a thread's next address. -/
def State.brksAt (s : State) (k : Nat) : List Nat :=
  let x := s.thread k
  let u := engUid k
  if x.skipBrk then []
  else (List.range 4).filter fun b => s.getF u (F.ENG_BRK_EN.i b) == 1 &&
    bitsOf (s.getF u (F.ENG_BRK_THREADS.i b)) (thrOf k) 1 == 1 && s.getF u (F.ENG_BRK_ADDR.i b) == x.pc

/-- R244: a breakpoint fires: its count, its record, its action. -/
def State.fireBrk (s : State) (k b : Nat) : State :=
  let u := engUid k
  let s := s.addF u (F.ENG_BRK_HITS_COUNT.i b) 1
  let s := s.debugRecord k 2 b 0
  let s := s.setThread k { s.thread k with skipBrk := true }
  match s.getF u (F.ENG_BRK_ACTION.i b) with
  | 0 => s
  | 1 => s.haltThread k
  | _ => s.each (List.range 8) (fun s t => s.haltThread (k / 8 * 8 + t))

/-- Every breakpoint at a thread's next address fires, by rising number. Answers whether the thread goes on. -/
def State.fireBrks (s : State) (k : Nat) : State × Bool :=
  let bs := s.brksAt k
  (s.each bs (fun s b => s.fireBrk k b), bs.all fun b => s.getF (engUid k) (F.ENG_BRK_ACTION.i b) == 0)

/-- R257, R259: the microword waits in WAIT_MEM: it reads, or writes with its ALU, a register whose load has not returned, its
operation would be the ninth in flight, or it is a JOBEND with packet operations in flight. -/
def Thread.mustWait (x : Thread) (w : Nat) : Bool :=
  (x.mem.any fun m => m.space != 5 && (uHazards w).contains m.reg && m.reg != 48) ||
  (decide (8 ≤ (x.mem.filter fun m => m.space != 5).length) && [1, 2, 3, 4, 5, 6, 7, 8, 9, 0x11].contains (uBop w)) ||
  (uBop w == 0x10 && x.mem.any fun m => m.space == 1)

/-- R260: a LOOKUP that finds 65,536 lookups in flight waits (log entry 82); the courses' lookups end in the step that makes
them. -/
def State.lookupFull (s : State) (w : Nat) : Bool :=
  uBop w == 0x09 && decide (65536 ≤ (s.eng.threads.map fun x => x.2.mem.countP fun m => m.space == 4).sum)

/-- R233, R234, R256: same-cycle accesses of a channel, lock or s register go by engine and thread. A microword that would come
to one ahead of an access that has been made issues in the next EC cycle that comes after it (log entry 98). -/
def State.sharedFrom (s : State) (k w c : Nat) : Nat :=
  (uShared w).foldl (fun c o => max c (ceilDiv (s.eng.shared.get (fun _ => 0) (512 * ecOf k + o) - tidOf k) 256)) c

/-- The accesses of a microword that issues in EC cycle `c`. -/
def State.sharedMark (s : State) (k w c : Nat) : State :=
  s.each (uShared w) fun s o => s.modEng fun e => { e with
    shared := s.eng.shared.put (fun _ => 0) (512 * ecOf k + o) (256 * c + tidOf k) }

/-- A microword that comes before this one to something they share is still being issued. -/
def State.sharedWait (s : State) (k w : Nat) : Bool :=
  let c := ecOf k
  let mine := 256 * (s.engine (k / 8)).cyc + tidOf k
  !(uShared w).isEmpty && (List.range 17).any fun e =>
    let g := 32 * c + e
    match (s.engine g).issuing with
    | none => false
    | some t => decide (256 * (s.engine g).cyc + 8 * e + t < mine) &&
      (uShared (s.cword g (s.thread (8 * g + t)).pc)).any fun o => (uShared w).contains o

/-- The issue of thread `k`'s microword begins, or goes on if its first slot has been performed: the thread is the one
that takes the issue slot, no breakpoint halts it, no result is missing. -/
def State.beginIssue (s : State) (k : Nat) : Issue :=
  let g := k / 8
  let e := s.engine g
  let x := s.thread k
  let w := s.cword g x.pc
  if !s.engineRuns (engUid k) then ⟨s, false, w⟩
  else if e.issuing = some (thrOf k) then ⟨s, true, w⟩
  else if e.issuing.isSome then ⟨s, false, w⟩
  else match s.nextSlot g with
    | none => ⟨s, false, w⟩
    | some (c, t) =>
      if t ≠ thrOf k then ⟨s, false, w⟩
      else
        let (s, on) := s.fireBrks k
        if !on then ⟨s, false, w⟩
        else if (s.thread k).mustWait w ∨ s.lookupFull w then
          ⟨s.setThread k { s.thread k with st := 5, waitAt := s.clk.core }, false, w⟩
        else
          let c := s.sharedFrom k w c
          let s := (s.sampleIssue k c).sharedMark k w c
          let high := bitsOf (s.getF (engUid k) F.ENG_HIGH_MASK) t 1 = 1
          let e := s.engine g
          let s := s.setEngine g { e with
            cyc := c, issuing := some t, recent := c :: e.recent.take 7
            lastHigh := if high then t else e.lastHigh, lastNormal := if high then e.lastNormal else t }
          let s := (s.occur (engUid k) 0x100 (thrOf k) none 0 1)
          ⟨s.setThread k { s.thread k with snap := s.condNow k, ops := (uReads w).map fun r => (r, s.opReg k r) }, true, w⟩

/-- An ALU row: the ALU slot of the microword being issued holds operation `code`; its result and its flags. The result
reaches DST when the microword has issued, so the memory slot still reads the register as it stood (R257). -/
def State.aluSlot (s : State) (k code : Nat) (f : DWord → DWord → Nat → DWord) (fl : DWord → DWord → DWord → Nat) : State :=
  let i := s.beginIssue k
  let s := i.state
  let w := i.word
  if !i.go ∨ uSeq w = 0 ∨ uAop w ≠ code ∨ (s.thread k).aluDone then s
  else
    let a := s.operand k (uSa w)
    let b := s.opB k w
    let r := f a b (uSh w)
    let s := s.setThread k { s.thread k with aluDone := true, aluRes := r }
    if uSetc w then s.setThread k { s.thread k with cond := withFlags (s.thread k).cond (fl a b r) r } else s

/-- R262: a corrected control-store word, reported once for the issue that read it. -/
def State.csCorrected (s : State) (k : Nat) : State :=
  if (s.thread k).csTold then s
  else
    ((s.setThread k { s.thread k with csTold := true }).addF (engUid k) F.ENG_CS_CORRECTED_COUNT 1).report (engUid k) 1 (s.thread k).pc

/-- A memory row: the memory slot of the microword being issued holds operation `code`; it comes after the ALU slot, and after
the accesses of other threads that go before it.
`corrected`: the microword was read with a correction. -/
def State.memSlot (s : State) (k code : Nat) (corrected : Bool) (f : State → Nat → State) : State :=
  let i := s.beginIssue k
  let x := i.state.thread k
  if !i.go ∨ uSeq i.word = 0 ∨ uBop i.word ≠ code ∨ x.memDone ∨ ¬ (x.aluDone ∨ uAop i.word = 0) ∨ i.state.sharedWait k i.word then
    i.state
  else
    let s := i.state.when corrected fun s => s.csCorrected k
    f (s.setThread k { s.thread k with memDone := true }) i.word

/-- The microword has issued: the ALU result in DST, the thread's next address and return stack, its cycle length (R250),
its STEP count. -/
def State.endIssue (s : State) (k w pc : Nat) (stack : List Nat) : State :=
  let g := k / 8
  let s := if (s.thread k).aluDone ∧ uAluWrites w then s.setOpReg k (uDst w) (s.thread k).aluRes else s
  let s := s.setEngine g { s.engine g with issuing := none }
  let x := s.thread k
  s.setThread k { x with
    pc := pc, stack := stack, elig := max x.elig ((s.engine g).cyc + uCyc w + 1), aluDone := false, memDone := false
    ops := [], csTold := false, skipBrk := false, stepLeft := x.stepLeft.map (· - 1) }

/-- A sequencer row: the microword being issued has SEQ `code`, and its other two slots have been performed or are
empty. `next` gives the next address and return stack, or a fault. -/
def State.seqSlot (s : State) (k code : Nat) (corrected : Bool) (next : Thread → Nat → Option (Nat × List Nat)) : State :=
  let i := s.beginIssue k
  let s := i.state
  let w := i.word
  let x := s.thread k
  if !i.go ∨ uSeq w ≠ code ∨ ¬ (x.aluDone ∨ uAop w = 0) ∨ ¬ (x.memDone ∨ uBop w = 0) then s
  else
    let s := s.when corrected fun s => s.csCorrected k
    match next x w with
    | some (pc, stack) => s.endIssue k w pc stack
    | none => s.threadFault k

end Sys2Proof.Machine
end

