-- ==== Sys2Proof/Machine/Dram.lean ====
section
/-!
DEFINITION. The DRAM controller (R327–R342 of spec/15_dram_and_movers.md): the interleaved space, bank state, row
disturbance, ECC, and accesses by source.
-/
namespace Sys2Proof.Machine

/-- Member channels in ascending order (R330). -/
def State.ilvChannels (s : State) : List Nat :=
  (List.range 12).filter fun c => bitsOf (s.getF uDRM F.DRM_ILV_CFG_MASK) c 1 == 1

/-- R330: channel and channel-local address of a DRAM address in the interleaved space. -/
def State.dramMap (s : State) (a : Nat) : Option (Nat × Nat) :=
  let chs := s.ilvChannels
  let n := chs.length
  if a < n * s.getF uDRM F.DRM_ILV_CFG_SIZE_GIB * 2 ^ 30 then
    let g := a / 4096
    match chs[g % n]? with
    | some ch => some (ch, s.getF (uDMC ch) F.DMC_ILV_BASE_BASE_GIB * 2 ^ 30 + g / n * 4096 + a % 4096)
    | none => none
  else none

/-- R331, R342: a channel takes accesses: Active or Draining, not isolated, powered, not gated by footing mode. -/
def State.chanOn (s : State) (ch : Nat) : Bool :=
  (s.ust (uDMC ch) == 4 || s.ust (uDMC ch) == 5) && s.getF (uDMC ch) F.UCB_STATE_ISOLATED == 0 && s.fwdOn && !s.footing

/-- R331: an access that does not reach DRAM. -/
def State.dramOff (s : State) (ch : Option Nat) : State :=
  let s := s.addF uDRM F.DRM_OFF_ACCESS_COUNT 1
  match ch with
  | none => s
  | some c =>
    if s.dram.told.contains c then s
    else (s.modDram fun d => { d with told := c :: s.dram.told }).event 0x38 (0x218 + c) (uDMC c) c 0

/-! ### Bytes -/

/-- Row of a channel-local address: the bits map as row, bank with bank group (5 bits, as DMC_TRN_CTL numbers banks), column (R335). -/
def rowOf (ch l : Nat) : Nat := l / 2 ^ (Config.colBits ch + 5) % 2 ^ 18

/-- Bank key of a channel-local address: its rank, and bank and bank group as they stand in the address in open-page mode (R335),
XORed with low row bits in predictive mode (R334). -/
def State.bankOf (s : State) (ch l : Nat) : Nat :=
  let b := l / 2 ^ Config.colBits ch % 32
  64 * ch + 32 * (Config.dramRank ch l % 2) + (if s.getF (uDMC ch) F.DMC_POLICY_MODE = 1 then b else b ^^^ rowOf ch l % 32)

/-- The canonical form of the DRAM's bytes: keys rise strictly and no byte is listed that nothing has written. -/
def Memory.wf (m : KMap (Option Byte)) : Bool := m.wf fun _ => none

/-- Key of a byte. -/
def dramKey (ch l : Nat) : Nat := ch * 2 ^ 36 + l

/-- A byte of a channel: as last written; 0 if nothing has written it (log entry 7), or a free value where its contents
were lost since. -/
def State.dramByte (s : State) (ch l : Nat) : Byte :=
  match s.dram.bytes.get (fun _ => none) (dramKey ch l) with
  | some b => b
  | none =>
    let r := s.dram.lost.get (fun _ => 0) (s.bankOf ch l * 2 ^ 18 + rowOf ch l)
    if r = 0 then 0 else BitVec.ofNat 8 (Config.freeValue (r - 1) / 256 ^ l)

def State.setDramByte (s : State) (ch l : Nat) (b : Byte) : State :=
  s.modDram fun d => { d with bytes := s.dram.bytes.put (fun _ => none) (dramKey ch l) (some b) }

/-! ### Banks -/

def State.bank (s : State) (b : Nat) : Bank := s.dram.banks.get (fun _ => {}) b
def State.setBank (s : State) (b : Nat) (x : Bank) : State :=
  s.modDram fun d => { d with banks := s.dram.banks.put (fun _ => {}) b x }

/-- The DMC's own accesses, of the patrol scrub and to write back corrected codewords, which carry no source ID (Table 2). -/
def dmcSrc : Nat := 65536

/-- The source that made the most activations, the lower ID on a tie (R337); the DMC's own activations have no source to throttle. -/
def topSource (acts : KMap Nat) : Option Nat :=
  ((acts.filter fun e => e.1 != dmcSrc).foldl (fun (a : Option (Nat × Nat)) e =>
    match a with
    | none => some e
    | some b => if b.2 < e.2 then some e else a) none).map (·.1)

/-- R336: the source with the most activations of a bank is throttled. -/
def State.throttle (s : State) (ch b : Nat) (top : Option Nat) : State :=
  match top with
  | none => s
  | some t =>
    let s := s.setBank b { s.bank b with throttled := some t, thrAt := s.clk.now }
    let s := s.addF (uDMC ch) F.DMC_RH_EVENTS 1
    (s.event 0x39 (0x218 + ch) (uDMC ch) (t * 2 ^ 16 + b % 32 * 2 ^ 8 + b / 32 % 2 * 16 + ch) 0).report (uDMC ch) 2 0

/-- R336, R337: a bank is activated by a source. -/
def State.activate (s : State) (ch b src : Nat) : State :=
  let x := s.bank b
  let acts := x.acts.put (fun _ => 0) src (x.acts.get (fun _ => 0) src + 1)
  let total := (acts.map (·.2)).sum
  if x.raa + 1 ≥ Config.raaimt ch then
    (s.setBank b { x with raa := x.raa + 1 - Config.raaimt ch, acts := [], throttled := none }).addF (uDMC ch) F.DMC_RFM 1
  else
    let s := s.setBank b { x with raa := x.raa + 1, acts := acts }
    if s.getF (uDMC ch) F.DMC_RH_THR_ACT ≤ total ∧ x.throttled.isNone then
      s.throttle ch b (topSource acts)
    else s

/-- R335: what an access to row `r` leaves in bank `b`: the rank awake, the page policy's count and the row kept open. -/
def State.touchBank (s : State) (ch b r : Nat) : State :=
  let x := s.bank b
  let mode := s.getF (uDMC ch) F.DMC_POLICY_MODE
  let pred := match x.last with
    | none => x.pred
    | some r' => if r' = r then min 3 (x.pred + 1) else x.pred - 1
  (s.modDram fun d => { d with down := s.dram.down.filter (· ≠ 2 * ch + b / 32 % 2) }).setBank b { x with
    last := some r, pred := pred, at_ := s.ns, row := if mode = 1 ∨ pred ≥ 2 then some r else none }

/-- R337: a throttled source makes at most one activation of its bank per THROTTLE_NS: its access waits (log entry 86). -/
def State.throttleWait (s : State) (ch b src : Nat) : State :=
  if (s.bank b).throttled = some src then
    let s := s.reachRaw ((s.bank b).thrAt + s.getF (uDMC ch) F.DMC_RH_THROTTLE_NS * 65536)
    s.setBank b { s.bank b with thrAt := s.clk.now }
  else s

/-- R334, R335, R340: an access of a source to row `r` of bank `b`, at address `l`: the rank wakes, the page policy, an
activation if the row is not open; and the performance counters. -/
def State.touchRow (s : State) (ch b r l src : Nat) (wr : Bool) : State :=
  let hit := (s.bank b).row = some r
  let t := (if hit then s else s.throttleWait ch b src).touchBank ch b r
  let t := if hit then t else t.activate ch b src
  t.occur (uDMC ch) (if wr then 0x101 else 0x100) (src / 4096) none l 1

/-- An access of a source to a channel-local address. -/
def State.touch (s : State) (ch l src : Nat) (wr : Bool) : State := s.touchRow ch (s.bankOf ch l) (rowOf ch l) l src wr

/-- R338: how a codeword read: 0 good, 1 corrected and written back, 2 uncorrectable, 3 parity retried, 4 parity failed twice. -/
def State.dramEcc (s : State) (ch l code : Nat) : State :=
  let u := uDMC ch
  match code with
  | 1 => ((s.touch ch l dmcSrc true).addF u F.DMC_ECC_CORR 1).report u 0 l
  | 2 =>
    let s := (s.addF u F.DMC_ECC_UNCORR 1).setF u F.DMC_ERR_ADDR_LO_ADDR (l % 2 ^ 32)
    ((s.setF u ⟨0x138, 0, 0, 4⟩ (l / 2 ^ 32)).event 0x3A (0x218 + ch) u ch l).report u 1 l
  | 3 => s.report u 3 l
  | 4 => s.report u 4 l
  | _ => s

/-! ### Accesses in the interleaved space -/

/-- Starts of the 64-byte accesses that cover a range. -/
def lines (a n : Nat) : List Nat := if n = 0 then [] else (List.range ((a + n - 1) / 64 - a / 64 + 1)).map fun i => (a / 64 + i) * 64

/-- Accesses of a source to `n` bytes from a channel-local address, one per 64. -/
def State.touchRun (s : State) (ch l n src : Nat) (wr : Bool) : State := s.each (lines l n) fun s a => s.touch ch a src wr

/-- Access a channel's local address, where an address has one and the channel takes accesses (R331). -/
def State.dramThrough (s : State) (src : Nat) (wr : Bool) (c : Option (Nat × Nat)) : Option (Nat × Nat) × State :=
  match c with
  | none => (none, s.dramOff none)
  | some (ch, l) => if s.chanOn ch then (some (ch, l), s.touch ch l src wr) else (none, s.dramOff (some ch))

/-- Access one DRAM address: the channel and local address, or none where R331 applies. -/
def State.dramAt (s : State) (src a : Nat) (wr : Bool) : Option (Nat × Nat) × State := s.dramThrough src wr (s.dramMap a)

/-- What the access to line `i` of a read shows: `ecc` is 8·(line) + code, so a plain code is that of the first (log entry 10). -/
def eccOfLine (ecc i : Nat) : Nat := if ecc / 8 = i then ecc % 8 else 0

/-- The access to line `la` of a read of `n` bytes; p carries whether every access gave its data, the bytes read, and the state. An
access fails under R331, with an uncorrectable codeword (code 2) or with a parity failure (4). -/
def dramReadLine (src a n ecc : Nat) (p : Bool × Nat × State) (la : Nat) : Bool × Nat × State :=
  if !p.1 then p
  else match p.2.2.dramAt src (max la a) false with
    | (none, s) => (false, p.2.1, s)
    | (some (ch, l), s) =>
      let code := eccOfLine ecc (la / 64 - a / 64)
      let ok : Bool := code != 2 && code != 4
      (ok, (if ok then p.2.1 + (min (la + 64) (a + n) - max la a) else p.2.1), s.dramEcc ch l code)

/-- The accesses of a read of `n` bytes, every 64-byte access in order, as far as the first that fails. -/
def State.dramReadRun (s : State) (src a n ecc : Nat) : Bool × Nat × State :=
  (lines a n).foldl (dramReadLine src a n ecc) (true, 0, s)

/-- What `n` bytes of the interleaved space hold. -/
def State.dramBytes (s : State) (a n : Nat) : List Byte :=
  (List.range n).map fun i => match s.dramMap (a + i) with | some (ch, l) => s.dramByte ch l | none => 0

/-- Read `n` bytes; none if an access fails. -/
def State.dramRead (s : State) (src a n ecc : Nat) : Option (List Byte) × State :=
  let x := s.dramReadRun src a n ecc
  if x.1 then (some (x.2.2.dramBytes a n), x.2.2) else (none, x.2.2)

/-- Write `n` bytes of `bs` from its index `k` at a channel's address `l`. -/
def State.setDramRun (s : State) (ch l n k : Nat) (bs : List Byte) : State :=
  s.each (List.range n) fun s i => s.setDramByte ch (l + i) (bs.getD (k + i) 0)

/-- What the access to one line of a write leaves: the bytes from `lo` written, `n` of them. -/
def dramWriteAt (a lo n : Nat) (bs : List Byte) (done : Nat) (x : Option (Nat × Nat) × State) : Bool × Nat × State :=
  match x.1 with
  | none => (false, done, x.2)
  | some c => (true, done + n, x.2.setDramRun c.1 c.2 n (lo - a) bs)

/-- Write the bytes of the 64-byte line `la` of a write of `bs` at `a`; p carries whether every access went through, the
bytes written, and the state. -/
def dramWriteLine (src a : Nat) (bs : List Byte) (p : Bool × Nat × State) (la : Nat) : Bool × Nat × State :=
  if !p.1 then p
  else dramWriteAt a (max la a) (min (la + 64) (a + bs.length) - max la a) bs p.2.1 (p.2.2.dramAt src (max la a) true)

/-- Write bytes in ascending order; answers how many were written before an access failed under R331. -/
def State.dramWrite (s : State) (src a : Nat) (bs : List Byte) : Nat × State :=
  ((lines a bs.length).foldl (dramWriteLine src a bs) (true, 0, s)).2

/-- R332: the DRAM address of a cluster's window offset; none outside the window. -/
def State.ecWindow (s : State) (c o n : Nat) : Option Nat :=
  if o + n ≤ s.getF uDRM (F.DRM_ECWIN_SIZE_PAGES.i c) * 4096 then
    some (s.getF uDRM (F.DRM_ECWIN_BASE_ADDR.i c) * 4096 + o)
  else none

/-- R342: a channel retired or isolated ends the engine loads in flight on it with an error. -/
def State.failLoads (s : State) (ch : Nat) : State :=
  s.modEng fun e => { e with threads := s.eng.threads.remap (fun _ => {}) fun _ x => { x with
    mem := x.mem.map fun m => if m.chan = some ch then { m with bad := true } else m } }

/-! ### Refresh, page closing, power-down, scrub, training helpers -/

/-- R336, R337: a rank is refreshed: activation counts since the last REF restart, throttles end. -/
def State.refreshRank (s : State) (ch rank : Nat) : State :=
  s.modDram fun d => { d with banks := s.dram.banks.remap (fun _ => {}) fun b x =>
    if b / 32 = 2 * ch + rank then { x with acts := [], throttled := none, raa := x.raa - Config.raaimt ch } else x }

/-- R335: an open row of an idle bank closes after OPEN_NS in open-page mode. -/
def State.idleClose (s : State) (ch b : Nat) : State :=
  let x := s.bank (64 * ch + b)
  if s.getF (uDMC ch) F.DMC_POLICY_MODE = 1 ∧ x.row.isSome then
    (s.reach (x.at_ + s.getF (uDMC ch) F.DMC_POLICY_OPEN_NS)).setBank (64 * ch + b) { x with row := none }
  else s

/-- R340: a rank idle for IDLE_NS enters power-down. -/
def State.rankDown (s : State) (ch rank : Nat) : State :=
  let idle := s.getF (uDMC ch) F.DMC_PD_IDLE_NS
  let last := (s.dram.banks.filter fun b => b.1 / 32 == 2 * ch + rank).foldl (fun a b => max a b.2.at_) 0
  if idle = 0 ∨ !s.chanOn ch ∨ s.dram.down.contains (2 * ch + rank) then s
  else
    let s := s.reach (last + idle)
    s.modDram fun d => { d with down := (2 * ch + rank) :: s.dram.down }

/-- R339: one line of a slice is read, by the DMC itself, and corrected as R338 gives. -/
def State.scrubLine (s : State) (ch : Nat) (corr unc : List Nat) (l : Nat) : State :=
  let hit (x : Nat) : Bool := x / 64 == l / 64
  (s.touch ch l dmcSrc false).dramEcc ch l (if unc.any hit then 2 else if corr.any hit then 1 else 0)

/-- R339: the scrub slice of a work period: `finished` in its period, with the channel-local addresses of the slice found
correctable and not. One that is abandoned has been read as far as the last of those. -/
def State.scrubSlice (s : State) (ch : Nat) (finished : Bool) (corr unc : List Nat) : State :=
  let u := uDMC ch
  if s.getF u F.DMC_SCRUB_EN = 0 ∨ !s.chanOn ch ∨ s.dram.scrubAt.get (fun _ => 0) ch = s.clk.wpNum + 1 then s
  else
    let s := s.modDram fun d => { d with scrubAt := s.dram.scrubAt.put (fun _ => 0) ch (s.clk.wpNum + 1) }
    let cap := s.getF u F.DMC_CFG_CAP_GIB * 2 ^ 30
    let a := s.dram.scrub.get (fun _ => 0) ch
    let n := min (65536 * 2 ^ s.getF u F.DMC_SCRUB_SLICE_LOG2) (cap - a)
    let last := ((corr ++ unc).filter fun x => decide (a ≤ x) && decide (x < a + n)).foldl max 0
    let s := s.each (if finished then lines a n else if a ≤ last then lines a (last + 1 - a) else []) fun s l => s.scrubLine ch corr unc l
    if !finished then s.addF u F.DMC_SCRUB_ABANDON 1
    else s.modDram fun d => { d with scrub := s.dram.scrub.put (fun _ => 0) ch (if a + n ≥ cap then 0 else a + n) }

/-- R341: a helper run starts. -/
def State.trainGo (s : State) (ch : Nat) : State :=
  let s := s.each (List.range 80) fun s k => s.setF (uDMC ch) (F.DMC_TRN_ERR_COUNT.i k) 0
  s.setF (uDMC ch) F.DMC_TRN_CTL_GO 1

/-- R333, R341: the bursts of a helper run are written to their row and read back; the row has no address of its own here. -/
def State.trainBursts (s : State) (ch b r : Nat) : State :=
  let n := List.replicate (s.getF (uDMC ch) F.DMC_TRN_COUNT_BURSTS) 0
  let s := s.each n fun s _ => s.touchRow ch b r 0 (10 * 4096 + ch) true
  s.each n fun s _ => s.touchRow ch b r 0 (10 * 4096 + ch) false

/-- R341: a helper run ends with its per-lane error counts; the row it wrote loses its contents. -/
def State.trainEnd (s : State) (ch : Nat) (errs : List Nat) : State :=
  let u := uDMC ch
  if s.getF u F.DMC_TRN_CTL_GO = 0 then s
  else
    let s := s.each (errs.take 80).zipIdx fun s e => s.setF u (F.DMC_TRN_ERR_COUNT.i e.2) (min 65535 e.1)
    let b := 64 * ch + 32 * s.getF u F.DMC_TRN_CTL_RANK + s.getF u F.DMC_TRN_CTL_BANK
    let r := s.getF u F.DMC_TRN_CTL_ROW
    let s := s.trainBursts ch b r
    let n := s.draws
    let s := s.draw.2
    let s := s.modDram fun d => { d with
      bytes := s.dram.bytes.keep fun k =>
        !(k / 2 ^ 36 == ch && s.bankOf ch (k % 2 ^ 36) == b && rowOf ch (k % 2 ^ 36) == r)
      lost := s.dram.lost.put (fun _ => 0) (b * 2 ^ 18 + r) (n + 1) }
    s.setF u F.DMC_TRN_CTL_GO 0

/-! ### Movers (R343–R348) -/

def State.mover (s : State) (m : Nat) : Option MvRun := s.dram.mv.get (fun _ => none) m
def State.setMover (s : State) (m : Nat) (x : Option MvRun) : State :=
  s.modDram fun d => { d with mv := s.dram.mv.put (fun _ => none) m x }

/-- Fields of a descriptor (Table 7 of chapter 3). -/
def Desc.op (d : Desc) : Nat := bitsOf d.w0 56 8
def Desc.len (d : Desc) : Nat := bitsOf d.w0 0 32

/-- Change a descriptor held in a ring. -/
def State.setDesc (s : State) (r idx : Nat) (f : Desc → Desc) : State :=
  s.setRing r { s.ring r with descs := (s.ring r).descs.map fun d => if d.idx = idx then f d else d }

/-- The oldest descriptor of a ring that has neither begun nor waits, if it has opcode `op`. -/
def State.nextDesc (s : State) (r op : Nat) : Option Desc :=
  match (s.ring r).descs.find? fun d => !d.begun && d.comp.isNone && d.wait.isNone with
  | some d => if d.op = op then some d else none
  | none => none

/-- R164, R264: no ring holds a descriptor of an opcode of `ops` that the device read before `d` and that has not begun. -/
def State.firstRead (s : State) (ops : List Nat) (d : Desc) : Bool :=
  s.hif.rings.all fun r => r.2.descs.all fun e => !ops.contains e.op || e.begun || e.comp.isSome || decide (d.seq ≤ e.seq)

/-- The descriptor a mover takes up next: its channel Active and idle, not gated by footing mode (R345, R380). -/
def State.moverDesc (s : State) (m op : Nat) : Option Desc :=
  if s.up (uMV m) && !s.footing && s.fwdOn && (s.mover m).isNone then s.nextDesc (s.getF (uMV m) F.MV_CFG_RING) op else none

/-- A mover's descriptor completes. -/
def State.moverEnd (s : State) (m idx status len : Nat) : State :=
  ((s.setMover m none).complete (s.getF (uMV m) F.MV_CFG_RING) idx (comp status len 0))

/-- Begin a transfer whose data have been moved as far as `n` bytes with `status`; the read-back follows (R346). -/
def State.moverBegin (s : State) (m : Nat) (d : Desc) (host dst n status : Nat) (tail : List Byte) : State :=
  let s := s.setDesc (s.getF (uMV m) F.MV_CFG_RING) d.idx fun d => { d with begun := true }
  let s := s.occur (uMV m) 0x100 0 none dst n
  if status ≠ 0 then s.moverEnd m d.idx status n
  else s.setMover m (some ⟨d.idx, d.op, host, dst, d.len, tail, 0, s.ns⟩)

/-- The source ID of a mover. -/
def mvSrc (m : Nat) : Nat := 7 * 4096 + m

/-- The last 8 bytes, or all of fewer. -/
def lastEight (bs : List Byte) : List Byte := bs.drop (bs.length - 8)

/-- H2D: `data` is what the host returned, `ok` whether every read succeeded (R345). -/
def State.moveH2D (s : State) (m : Nat) (data : List Byte) (ok : Bool) : State :=
  match s.moverDesc m 0x50 with
  | none => s
  | some d =>
    let s := s.hostRead 1 d.w1 d.len
    let bs := if ok then sliceBytes data 0 d.len else data.take d.len
    let (n, s) := s.dramWrite (mvSrc m) d.w2 bs
    s.moverBegin m d d.w1 d.w2 n (if n < bs.length then 0x47 else if ok then 0 else 0x03) (lastEight bs)

/-- The bytes that a read of a mover gave before the access that failed. -/
def State.readBefore (s : State) (m a n ecc : Nat) : List Byte :=
  let x := s.dramReadRun (mvSrc m) a n ecc
  x.2.2.dramBytes a x.2.1

/-- D2H. What was read before an access that failed has been written (Table 7). -/
def State.moveD2H (s : State) (m ecc : Nat) : State :=
  match s.moverDesc m 0x51 with
  | none => s
  | some d =>
    match s.dramRead (mvSrc m) d.w1 d.len ecc with
    | (none, x) =>
      let bs := s.readBefore m d.w1 d.len ecc
      (x.when (!bs.isEmpty) fun x => x.send (.hostWrite 1 d.w2 bs)).moverBegin m d d.w2 d.w1 bs.length 0x47 []
    | (some bs, s) => (s.send (.hostWrite 1 d.w2 bs)).moverBegin m d d.w2 d.w1 d.len 0 (lastEight bs)

/-- D2D; likewise. -/
def State.moveD2D (s : State) (m ecc : Nat) : State :=
  match s.moverDesc m 0x52 with
  | none => s
  | some d =>
    match s.dramRead (mvSrc m) d.w1 d.len ecc with
    | (none, x) =>
      let (n, x) := x.dramWrite (mvSrc m) d.w2 (s.readBefore m d.w1 d.len ecc)
      x.moverBegin m d 0 d.w2 n 0x47 []
    | (some bs, s) =>
      let (n, s) := s.dramWrite (mvSrc m) d.w2 bs
      s.moverBegin m d 0 d.w2 n (if n < bs.length then 0x47 else 0) (lastEight bs)

/-- FILL: the 64-bit pattern over the range, little-endian. -/
def State.moveFill (s : State) (m : Nat) : State :=
  match s.moverDesc m 0x53 with
  | none => s
  | some d =>
    let bs := (List.replicate (d.len / 8) (leBytes d.w2 8)).flatten
    let (n, s) := s.dramWrite (mvSrc m) d.w1 bs
    s.moverBegin m d 0 d.w1 n (if n < bs.length then 0x47 else 0) (lastEight bs)

/-- R347: the gate of a channel opens: the time is written and the GATE completes. Where an FLR has taken the descriptor's ring
nothing is written to the host (R89). -/
def State.openGate (s : State) (m : Nat) : State :=
  match s.mover m with
  | none => s
  | some x =>
    let s := s.setF (uMV m) F.MV_STATUS_GATED 0
    (if x.idx < 2 ^ 20 then s.send (.hostWrite 1 x.host (leBytes s.ns 8)) else s).moverEnd m x.idx 0 8

/-- R347: a mover in service: Active or Draining and not isolated. One that is not sees no trigger (log entry 113). -/
def State.moverOn (s : State) (m : Nat) : Bool :=
  (s.ust (uMV m) == 4 || s.ust (uMV m) == 5) && s.getF (uMV m) F.UCB_STATE_ISOLATED == 0

/-- R347: a trigger fires for a channel. -/
def State.trigger (s : State) (m : Nat) : State :=
  if !s.moverOn m then s
  else if s.bit (uMV m) F.MV_STATUS_GATED then s.openGate m
  else if s.bit (uMV m) F.MV_STATUS_PENDING then s.addF (uMV m) F.MV_TRIG_MISSED_COUNT 1
  else s.setF (uMV m) F.MV_STATUS_PENDING 1

/-- GATE. -/
def State.moveGate (s : State) (m : Nat) : State :=
  match s.moverDesc m 0x54 with
  | none => s
  | some d =>
    let s := s.setDesc (s.getF (uMV m) F.MV_CFG_RING) d.idx fun d => { d with begun := true }
    if s.getF (uMV m) F.MV_TRIG_MODE = 0 then s.moverEnd m d.idx 0x01 0
    else
      let s := (s.setMover m (some ⟨d.idx, 0x54, d.w1, 0, 8, [], 0, s.ns⟩)).setF (uMV m) F.MV_STATUS_GATED 1
      if s.bit (uMV m) F.MV_STATUS_PENDING then (s.setF (uMV m) F.MV_STATUS_PENDING 0).openGate m else s

/-- SIGNAL: the time is written, and the channels that watch this one are triggered. -/
def State.moveSignal (s : State) (m : Nat) : State :=
  match s.moverDesc m 0x55 with
  | none => s
  | some d =>
    let s := s.setDesc (s.getF (uMV m) F.MV_CFG_RING) d.idx fun d => { d with begun := true }
    let s := (s.send (.hostWrite 1 d.w1 (leBytes s.ns 8))).moverEnd m d.idx 0 8
    s.each (List.range 32) fun s c =>
      if s.getF (uMV c) F.MV_TRIG_MODE = 2 ∧ s.getF (uMV c) F.MV_TRIG_SRC = m then s.trigger c else s

/-- R346: the read-back and the completion; `host` is what a host read of the last bytes returns, `ok` whether it succeeded
(D2H), `ecc` how DRAM reads. A mover that drains reads Ready then (R348). -/
def State.moverDone (s : State) (m : Nat) (host : List Byte) (ok : Bool) (ecc : Nat) : State :=
  match s.mover m with
  | none => s
  | some x =>
    if x.op = 0x54 ∨ s.footing then s
    else
      let n := x.tail.length
      let (back, s) : Option (List Byte) × State :=
        if x.op = 0x51 then (if ok then some (sliceBytes host 0 n) else none, s.hostRead 1 (x.host + x.len - n) n)
        else s.dramRead (mvSrc m) (x.dst + x.len - n) n ecc
      match back with
      | none => s.moverEnd m x.idx (if x.op = 0x51 then 0x03 else 0x47) x.len
      | some bs => s.moverEnd m x.idx (if bs = x.tail then 0 else 0x45) x.len

/-- R347: a channel's timer trigger fires at the boundary that begins period `n`. Movers gated by footing mode see none (R380). -/
def State.timerFires (s : State) (n m : Nat) : Bool :=
  s.getF (uMV m) F.MV_TRIG_MODE == 1 && n % s.getF (uMV m) F.MV_TRIG_PERIOD == 0 && !s.footing &&
    s.moverOn m

/-- R347: a GATE still closed after LIMIT_MS. A trigger of a boundary that has come by then wins, of one cycle with it too. A GATE
of a mover gated by footing mode stays as it is (R380). -/
def State.gateLimit (s : State) (m : Nat) : State :=
  match s.mover m with
  | none => s
  | some x =>
    let limit := x.since + s.getF (uMV m) F.MV_GATE_LIMIT_MS * 1000000
    if x.op = 0x54 ∧ !s.footing ∧ !(s.timerFires (s.clk.wpNum + 1) m && decide (s.clk.nextWp ≤ limit * 65536)) then
      let s := s.reach limit
      (s.setF (uMV m) F.MV_STATUS_GATED 0).moverEnd m x.idx 0x46 0
    else s

/-- R348: the ring of a mover is read only while that mover is Active, and not gated (R380). -/
def State.ringRead (s : State) (r : Nat) : Bool :=
  s.ringType r != 6 || (List.range 32).any fun m => s.getF (uMV m) F.MV_CFG_RING == r && s.up (uMV m) && !s.footing

/-- R348: RETIRE and ISOLATE of a mover end its current descriptor with TARGET_OFF. -/
def State.moverStop (s : State) (m : Nat) : State :=
  match s.mover m with
  | none => s
  | some x => (s.setF (uMV m) F.MV_STATUS_GATED 0).moverEnd m x.idx 0x05 0

end Sys2Proof.Machine
end

