-- ==== Sys2Proof/Machine/Meter.lean ====
section
/-!
DEFINITION. Meters (R202–R206 of spec/09_actions_and_rewrite.md). Tokens are whole numbers of 1/(8,000,000 · 65,536)
byte, the exact amount a rate in kb/s adds in 1/65,536 ns, so no fraction is lost (R203, R204, R301; log entry 8).
-/
namespace Sys2Proof.Machine

/-! Fields of a meter entry (Table 3). -/
def metMode (e : Nat) : Nat := ent e 0 62 2
def metAware (e : Nat) : Bool := ent e 0 61 1 == 1
def metL1 (e : Nat) : Bool := ent e 0 60 1 == 1
def metRedDrop (e : Nat) : Bool := ent e 0 59 1 == 1
def metMarkDei (e : Nat) : Bool := ent e 0 58 1 == 1
def metCir (e : Nat) : Nat := ent e 0 0 32
def metEir (e : Nat) : Nat := ent e 8 32 32
def metCbs (e : Nat) : Nat := ent e 8 0 24
def metEbs (e : Nat) : Nat := ent e 0x10 32 24

/-- The tokens of one byte. -/
def byteTok : Nat := 8000000 * 65536

/-- Tokens that a rate in kb/s adds in `d` units of 1/65,536 ns (R204, R301). -/
def refill (kbps d : Nat) : Nat := kbps * d

/-- The buckets refilled to plinth time `t`, in 1/65,536 ns (R204). -/
def metRefill (e : Nat) (m : MeterSt) (t : Nat) : MeterSt :=
  let d := t - m.last
  let c := m.tc + refill (metCir e) d
  let cbs := metCbs e * byteTok
  let ebs := metEbs e * byteTok
  if metMode e = 0 then { tc := min cbs c, te := min ebs (m.te + (c - cbs)), last := t }
  else { tc := min cbs c, te := min ebs (m.te + refill (metEir e) d), last := t }

/-- R204: the output colour and the buckets after a frame of `b` bytes with input colour `i` (0 green, 1 yellow, 2 red). -/
def metStep (e : Nat) (m : MeterSt) (t bytes inColor : Nat) : Nat × MeterSt :=
  let m := metRefill e m t
  let b := (bytes + if metL1 e then 20 else 0) * byteTok
  let i := if metAware e then inColor else 0
  if metMode e = 1 then
    if i = 2 ∨ m.te < b then (2, m)
    else if i = 1 ∨ m.tc < b then (1, { m with te := m.te - b })
    else (0, { m with te := m.te - b, tc := m.tc - b })
  else
    if i = 0 ∧ b ≤ m.tc then (0, { m with tc := m.tc - b })
    else if i ≠ 2 ∧ b ≤ m.te then (1, { m with te := m.te - b })
    else (2, m)

/-- Key of a meter. -/
def metKey (tid idx : Nat) : Nat := tid * 2 ^ 32 + idx
def State.meterSt (s : State) (tid idx : Nat) : MeterSt := s.meters.get (fun _ => {}) (metKey tid idx)
def State.setMeterSt (s : State) (tid idx : Nat) (m : MeterSt) : State :=
  { s with meters := s.meters.put (fun _ => {}) (metKey tid idx) m }

/-- R204: apply a meter to a frame of `bytes` with FCS. -/
def State.meter (s : State) (tid idx bytes inColor : Nat) : Nat × State :=
  let r := metStep (s.ent tid 0 idx) (s.meterSt tid idx) s.clk.now bytes inColor
  (r.1, s.setMeterSt tid idx r.2)

/-- R203: an accepted WRITE fills both buckets. -/
def State.fillMeter (s : State) (tid idx : Nat) : State :=
  let e := s.ent tid 0 idx
  s.setMeterSt tid idx { tc := metCbs e * byteTok, te := metEbs e * byteTok, last := s.clk.now }

end Sys2Proof.Machine
end

