-- ==== Sys2Proof/Machine/Basin.lean ====
section
/-!
DEFINITION. The basin, the deep buffer and the traffic manager's enqueue (R268–R289 of spec/12_basin.md; R294, R295,
R300 of spec/13_traffic_manager.md).
-/
namespace Sys2Proof.Machine

/-! ### What an instance holds (R268, R269, R274) -/

/-- The admission record (Table 1 of chapter 5). -/
def admWords (p : Pkt) : List Nat :=
  let a := p.adm
  [a.admitAt, a.rxTs,
   a.deadline * 2 ^ 44 + a.gen % 2 * 2 ^ 43 + a.pass % 4 * 2 ^ 41 + (if a.host then 2 ^ 40 else 0) + a.port * 2 ^ 31 + a.cls * 2 ^ 27 +
     a.profile * 2 ^ 21 + (if a.slow then 2 ^ 20 else 0) + a.slowClass * 2 ^ 16 + (if a.mal then 2 ^ 15 else 0) + a.malReason * 2 ^ 10 +
     a.bos * 2 ^ 7,
   p.frame.length * 2 ^ 50 + a.l3Off * 2 ^ 42 + a.l4Off * 2 ^ 34]

/-- A result slot of the job record. -/
def slotWord (x : Option Slot) : Nat :=
  match x with
  | none => 0
  | some x => 2 ^ 63 + (if x.hit then 2 ^ 62 else 0) + (if x.skipped then 2 ^ 61 else 0) + x.index % 2 ^ 24 * 2 ^ 24 + x.result % 2 ^ 24

/-- The job cell of a detour (R268): key vector, result slots, admission record, zeros. -/
def jobCell (p : Pkt) : List Byte :=
  sliceBytes p.kv 0 128 ++ wordsBytes ((List.range 8).map fun i => slotWord (if i < 7 then p.slots[i]? else none)) ++
    wordsBytes (admWords p) ++ List.replicate 32 0

/-- The packet descriptor of an instance that `ref` copies share (Table 2). -/
def packetDesc (p : Pkt) (ref : Nat) : List Byte :=
  let a := p.adm
  wordsBytes [a.admitAt,
    a.deadline * 2 ^ 44 + a.gen % 2 * 2 ^ 43 + a.pass % 4 * 2 ^ 41 + (if a.host then 2 ^ 40 else 0) + a.port * 2 ^ 31 +
      p.color % 4 * 2 ^ 29 + p.tc % 8 * 2 ^ 26 + ref * 2 ^ 15 + p.frame.length,
    p.edits, p.lse01, p.lse23, p.ptp / 2 ^ 36 * 2 ^ 36 + p.l3Kind % 4 * 2 ^ 34 + a.l3Off * 2 ^ 26 + a.bos * 2 ^ 23, a.rxTs, 0]

/-- Byte `i` of the frame's cells, in cells of 256. -/
def frameCells : Nat → List Byte → List (List Byte)
  | 0, _ => []
  | n + 1, f => f.take 256 :: frameCells n (f.drop 256)

/-- The cells of an instance (R268): the job cell where it has one, then the frame. -/
def Inst.cellData (x : Inst) : List (List Byte) :=
  let n := cellsOf x.pkt.frame.length
  (if n < x.cells then [jobCell x.pkt] else []) ++ frameCells n x.pkt.frame

/-- The cell tags of an instance (Table 1); which cells of its crosspoint it takes is free (log entry 83). -/
def Inst.cellTags (x : Inst) : List Nat :=
  x.cellData.mapIdx fun i c =>
    if i + 1 = x.cells then 2 ^ 21 + (c.length - 1) * 2 ^ 13 else Config.cellNo x.id (i + 1) % 1024 * 2 ^ 22 + (c.length - 1) * 2 ^ 13

/-- A fabric port's number (R313). -/
def State.isFabricPort (s : State) (p : Nat) : Bool := s.lineCard && decide (128 ≤ p) && decide (p < 256)

/-! ### Enqueue (R294, R295, R300) -/

/-- A serial comparison of 48-bit tags (R299): `a` is later than `b`. -/
def tagLater (a b : Nat) : Bool := let d := (a + 2 ^ 48 - b) % 2 ^ 48; d != 0 && decide (d < 2 ^ 47)

/-- Key of a port's virtual times. -/
def tmPortKey (q l : Nat) : Nat := q * 128 + l

/-- R300: queue `q` becomes active, and its ancestors with it; each that was not takes S := V of its parent's band. -/
def State.activateQueue (s : State) (q : Nat) : State :=
  let quad := q / 65536
  let (sub, svc, l) := s.queuePath q
  let up (s : State) (lvl idx plvl pidx band : Nat) : State :=
    let x := s.tmNode lvl idx
    if x.active then s
    else s.setTmNode lvl idx { x with active := true, elig := true, tag := (s.tmNode plvl pidx).vt.get (fun _ => 0) band }
  let s := up s 2 svc 3 (tmPortKey quad l) (tmBand (s.tmEnt 0x52 svc))
  let s := up s 1 sub 2 svc (tmBand (s.tmEnt 0x51 sub))
  up s 0 q 1 sub (tmBand (s.tmEnt 0x50 q))

/-- The least number not in a list. -/
def leastFree (used : List Nat) (n : Nat) : Option Nat := (List.range n).find? fun i => !used.contains i

/-- R295: where an entry goes: on chip (`some none`), to a page (`some (some page)`), or nowhere. -/
def State.entrySpace (s : State) (q : Nat) : Option (Option Nat) :=
  let u := uTMQ (q / 65536)
  let l := s.queue q
  if onChip l < 32 ∧ (l.all fun e => e.page.isNone) ∧ s.chipUsed (q / 65536) < 32768 then some none
  else
    let count := s.getF u F.TMQ_PAGE_COUNT_PAGES
    let tail : Option Nat := match l.getLast? with
      | some e => (match e.page with
        | some pg => if (l.filter fun (x : QEnt) => x.page == some pg).length < 16 then some pg else none
        | none => none)
      | none => none
    if count = 0 then none
    else match tail with
      | some pg => some (some pg)
      | none =>
        let used : List Nat := (s.bas.pages.filter fun p => p.1 == q / 65536).map (·.2)
        (leastFree used (min count (used.length + 1))).map some

/-- First DRAM address of a quadrant's page (R295). -/
def State.pageAddr (s : State) (quad pg : Nat) : Nat :=
  s.getF (uTMQ quad) F.TMQ_PAGE_BASE_LO_ADDR * 4096 + s.getF (uTMQ quad) F.TMQ_PAGE_BASE_HI_ADDR * 2 ^ 32 + 256 * pg

/-- R295: an entry is written into its place of its page, and stands at its queue's tail. Its layout is internal: 16 bytes of a
free value (log entry 1). A write that R331 discards leaves it unwritten (log entry 85). -/
def State.pagePut (s : State) (q pg : Nat) (e : QEnt) : State :=
  let k := ((s.queue q).filter fun x => x.page == some pg).length
  let w := s.draw.2.dramWrite (3 * 4096 + q / 65536) (s.pageAddr (q / 65536) pg + 16 * k) (leBytes s.draw.1 16)
  w.2.setQueue q (w.2.queue q ++ [{ e with page := some pg, unwritten := decide (w.1 < 16) }])

/-- The depth limit of a queue's profile for a colour. -/
def State.depthLimit (s : State) (q color : Nat) : Nat :=
  if color = 0 then s.prof q F.TM_PROF_LIM_G_CELLS else if color = 1 then s.prof q F.TM_PROF_LIM_Y_CELLS
  else s.prof q F.TM_PROF_LIM_R_CELLS

/-- R294 check 2: the queue, its subscriber and its service node are in use; footing queues ignore the nodes (R306). -/
def State.queueEn (s : State) (q : Nat) : Bool :=
  let (sub, svc, _) := s.queuePath q
  (s.footing && decide (q % 65536 < 512)) ||
    (tmEn (s.tmEnt 0x50 q) && tmEn (s.tmEnt 0x51 sub) && tmEn (s.tmEnt 0x52 svc))

/-- R294: the enqueue checks of a copy in order, and its place at the tail of its queue. -/
def State.enqueue (s : State) (id : Nat) (c : Copy) : State :=
  match s.inst id with
  | none => s
  | some x =>
    let q := c.queue
    let u := uTMQ (q / 65536)
    let p := s.queuePort q
    let e : QEnt := { inst := id, copy := c, cells := x.cells, row := x.row, enq := s.ns, admitAt := x.pkt.adm.admitAt
                      color := x.pkt.color }
    if !s.up u then s.tmDrop 0x60 q e 0
    else if !s.queueEn q then s.tmDrop 0x50 q e 0
    else if p < 256 ∧ !s.isFabricPort p ∧ (s.port p).past then s.tmDrop 0x07 q e 0
    else
      let mi := q / 65536 * 8192 + c.em
      let (color, s) := if c.emEn then s.meter 0x46 mi (x.pkt.frame.length + 4) x.pkt.color else (x.pkt.color, s)
      let e : QEnt := { e with color := color }
      if c.emEn ∧ color = 2 ∧ metRedDrop (s.ent 0x46 0 mi) then s.tmDrop 0x31 q e c.em
      else if depthOf (s.queue q) + x.cells > s.depthLimit q color then s.tmDrop 0x51 q e 0
      else match s.entrySpace q with
        | none => s.tmDrop 0x52 q e 0
        | some pg =>
          let fresh := match pg with | some n => !s.bas.pages.contains (q / 65536, n) | none => false
          let s := if (s.queue q).isEmpty then s.activateQueue q else s
          let s := match pg with
            | none => (s.setQueue q (s.queue q ++ [e])).addF u F.TMQ_ENTRY_USED_COUNT 1
            | some n => (if fresh then
                (s.modBas fun b => { b with pages := s.bas.pages ++ [(q / 65536, n)] }).addF u F.TMQ_PAGE_USED_PAGES 1
              else s).pagePut q n e
          (s.telUp q fun t => { t with enq := t.enq + 1 }).askPages (q / 65536)

/-! ### Deep-buffer blocks (R273, R280) -/

/-- Field `BPM_QUOTA` or `BPM_USED` of a requester and pool. -/
def bpmQuota (r p : Nat) : Fld := ⟨0x200 + 0x10 * r + 4 * p, 0, 0, 29⟩
def bpmUsed (r p : Nat) : Fld := ⟨0x300 + 0x10 * r + 4 * p, 0, 0, 29⟩

/-- Blocks of pool `p` on a channel. -/
def State.poolBlocks (s : State) (ch p : Nat) : Nat :=
  s.getFS uBPM ch (if p = 0 then F.BPM_CH_POOL0_BLOCKS else if p = 1 then F.BPM_CH_POOL1_BLOCKS else F.BPM_CH_POOL2_BLOCKS)

/-- BPM_CH_STATUS.ONLINE: the DMC is Active with a region set. -/
def State.chOnline (s : State) (ch : Nat) : Bool :=
  s.up (uDMC ch) && decide (0 < s.poolBlocks ch 0 + s.poolBlocks ch 1 + s.poolBlocks ch 2)

/-- Numbers of the blocks in use in a pool of a channel. -/
def State.usedBlocks (s : State) (ch p : Nat) : List Nat :=
  (s.bas.blocks.filter fun b => b.ch == ch && b.pool == p).map (·.num)

/-- Channels with a free block in a pool, in rotation after the one used last (R273 step 3). -/
def State.freeChans (s : State) (p : Nat) : List Nat :=
  let last := s.bas.chan.get (fun _ => 11) p
  ((List.range 12).map fun i => (last + 1 + i) % 12).filter fun ch =>
    s.chOnline ch && decide ((s.usedBlocks ch p).length < s.poolBlocks ch p)

/-- Block size of a pool (Table 4). -/
def blockSize (p : Nat) : Nat := if p = 0 then 256 else if p = 1 then 2048 else 10240

/-- Take a block of pool `p` on channel `ch` for a requester. -/
def State.takeBlock (s : State) (p ch req : Nat) : Option (Blk × State) :=
  (leastFree (s.usedBlocks ch p) (s.poolBlocks ch p)).map fun n =>
    let b : Blk := ⟨ch, p, n, req⟩
    let s := s.modBas fun x => { x with blocks := s.bas.blocks ++ [b], chan := s.bas.chan.put (fun _ => 11) p ch }
    (b, (s.setF uBPM (bpmUsed req p) (s.getF uBPM (bpmUsed req p) + 1)).setFS uBPM ch F.BPM_CH_STATUS_USED
      (s.getFS uBPM ch F.BPM_CH_STATUS_USED + 1))

/-- R273: allocate a block for a frame of `len` bytes; otherwise the refusal's code. -/
def State.allocBlock (s : State) (len req : Nat) (counted : Bool) : Nat ⊕ (Blk × State) :=
  let pools := (List.range 3).filter fun p => decide (64 + len ≤ blockSize p)
  let free := pools.filter fun p => !(s.freeChans p).isEmpty
  let ok := free.filter fun p => decide (s.getF uBPM (bpmUsed req p) < s.getF uBPM (bpmQuota req p))
  if counted ∧ s.getF uBPM F.BPM_REF_USED_COUNT ≥ 65536 then .inl 0x44
  else match ok with
    | [] => .inl (if free.isEmpty then 0x44 else 0x43)
    | p :: _ =>
      match (s.freeChans p).head? with
      | none => .inl 0x44
      | some ch =>
        match s.takeBlock p ch req with
        | none => .inl 0x44
        | some (b, s) => .inr (b, if counted then s.addF uBPM F.BPM_REF_USED_COUNT 1 else s)

/-! ### Placing an instance (R270–R273, R281, R282) -/

/-- Vent class fields of a queue's profile (Table 7). -/
def State.vc (s : State) (q : Nat) (f : Fld) : Nat := s.getF uBSN (f.i (s.prof q F.TM_PROF_CFG_VENT_CLASS))

/-- C of Table 3: cells queue `q` holds in XP(i, its column). -/
def State.directCells (s : State) (i q : Nat) : Nat :=
  let ids := ((s.queue q).filter fun e => e.row == i).map (·.inst)
  (ids.eraseDups.map fun id => match s.inst id with | some x => if x.place = 0 then x.cells else 0 | none => 0).sum

/-- The pair of a row and a queue is in VENT state (R272). -/
def State.inVent (s : State) (i q : Nat) : Bool := s.bas.vent.get (fun _ => false) (i * 2 ^ 18 + q)
def State.setVent (s : State) (i q : Nat) (b : Bool) : State :=
  s.modBas fun x => { x with vent := s.bas.vent.put (fun _ => false) (i * 2 ^ 18 + q) b }

/-- Drop every copy an instance would have carried, in a scope; the packet is no longer in flight (R25). -/
def State.refuseAt (s : State) (code scope : Nat) (p : Pkt) (cs : List Copy) : State :=
  (s.each cs fun s c =>
    let s := s.drop code scope { p.info uBSN with egPort := some (s.queuePort c.queue), queue := some c.queue }
    s.mcDone p false).leaveFlight p

/-- Refuse an instance: every copy it would have carried is dropped, counted per row (Table 11). -/
def State.refuse (s : State) (code row : Nat) (p : Pkt) (cs : List Copy) : State := s.refuseAt code (536 + row) p cs

/-- Store an instance, charge it (R271) and enqueue its copies. -/
def State.storeInst (s : State) (x : Inst) (cs : List Copy) : State :=
  let s := s.modBas fun b => { b with nextId := s.bas.nextId + 1 }
  let s := (s.setInst x.id (some x)).charge x.pkt x.cells true
  s.each cs fun s c => s.enqueue x.id c

/-- R282: the bypass meter of XP(i, j): 400 Gb/s, 1 MiB, full when first used. -/
def State.bypassMeter (s : State) (i j len : Nat) : Bool × State :=
  let k := 64 * i + j
  let full := 1048576 * byteTok
  let m := s.bas.bypass.get (fun _ => { tc := full, te := 0, last := 0 }) k
  let tc := min full (m.tc + refill 400000000 (s.clk.now - m.last))
  let ok := len * byteTok ≤ tc
  let m' : MeterSt := { tc := if ok then tc - len * byteTok else tc, te := 0, last := s.clk.now }
  (ok, (s.modBas fun b => { b with bypass := s.bas.bypass.put (fun _ => { tc := full, te := 0, last := 0 }) k m' }))

/-- An instance that vents from row `i`: XP(i, 33), then a block (Table 3, R273, R282). A packet past its deadline is not
written into the vent column (R24), counted per ingress port of its course; one that is written leaves flight (R25).
Answers whether it was placed. -/
def State.ventInst (s : State) (i j n req : Nat) (p : Pkt) (cs : List Copy) (bypass : Bool) : Bool × State :=
  if s.pastDeadline p ∧ !p.fabric then (false, s.refuseAt 0x10 p.adm.port p cs)
  else if !s.up (uXP i 33) ∨ s.xpFree i 33 < n then (false, s.refuse 0x42 i p cs)
  else if !s.up uBPM then (false, s.refuse 0x44 i p cs)
  else match s.allocBlock p.frame.length req (cs.length > 1) with
    | .inl code => (false, s.refuse code i p cs)
    | .inr (b, s) =>
      let s := s.xpPut i 33 n 1
      let s := (s.occur uBSN 0x100 (if bypass then 2 else 1) none 0 1).leaveFlight p
      (true, s.storeInst { id := s.bas.nextId, row := i, col := j, cells := n, ref := cs.length, place := 1, left := n, at_ := s.ns
                           ch := b.ch, pool := b.pool, block := b.num, req := req, refCtr := cs.length > 1
                           blkRef := cs.length, lost := false, pkt := { p with counted := false } } cs)

/-- R270 step 3, Table 3: place one instance from row `i` in column `j` for its copies. Handed to a port column or the vent
column the packet leaves flight; in column 32 it stays in flight (R25). -/
def State.placeInst (s : State) (i j req : Nat) (p : Pkt) (cs : List Copy) : Bool × State :=
  let n := cellsOf p.frame.length + if j = 32 ∧ cs.all (fun c => c.src == 0 && c.punt.isNone) then 1 else 0
  let room := n ≤ s.xpFree i j
  let above (q : Nat) : Bool := decide (s.vc q F.BSN_VC_CFG_HIGH_CELLS < s.directCells i q + n)
  let own (q : Nat) : Bool := !s.inVent i q && (above q || !room) && s.vc q F.BSN_VC_CFG_VENT_EN == 1
  if !s.up (uXP i j) then
    if s.footing then (false, s.refuse 0x41 i p cs)
    else match s.bypassMeter i j p.frame.length with
      | (false, s) => (false, s.refuse 0x45 i p cs)
      | (true, s) =>
        let r := s.ventInst i j n req p cs true
        (r.1, if r.1 then r.2.addF (uXP i j) F.XP_BYPASS_COUNT 1 else r.2)
  else if cs.any fun c => s.inVent i c.queue || own c.queue then
    if s.footing then (false, s.refuse 0x41 i p cs)
    else
      let mine := (cs.filter fun c => own c.queue).map (·.queue)
      let r := s.ventInst i j n req p cs false
      (r.1, if r.1 then r.2.each mine fun s q => s.setVent i q true else r.2)
  else if !room then (false, s.refuse 0x41 i p cs)
  else
    let s := (s.xpPut i j n 1).occur uBSN 0x100 0 none 0 1
    let s := if j < 32 then s.leaveFlight p else s
    (true, s.storeInst { id := s.bas.nextId, row := i, col := j, cells := n, ref := cs.length, place := 0, left := 0, at_ := s.ns
                         ch := 0, pool := 0, block := 0, req := req, refCtr := false, blkRef := 0, lost := false
                         pkt := { p with counted := p.counted && decide (j = 32) } } cs)

/-- Destination columns of copies, ascending. -/
def State.copyCols (s : State) (cs : List Copy) : List Nat :=
  (List.range 33).filter fun j => cs.any fun c => portCol (s.queuePort c.queue) == j

/-- R271: the packet passes its ingress limit with `n` cells in `k` instances. -/
def State.ingressOk (s : State) (p : Pkt) (cells : Nat) : Bool :=
  if p.adm.port ≥ 256 ∨ p.fabric then true
  else
    let r := if s.mac p.adm.port F.PORT_CTL_FC_MODE = 2 then p.tc else 8
    decide (s.occ p.adm.port r + cells ≤ s.getF uBSN (F.BSN_ING_LIMIT_LIMIT_CELLS.i p.adm.port))

/-- R286, Table 6: a capture record. -/
def captureRec (point : Nat) (mc : Bool) (p : Pkt) (frame : List Byte) (egPort queue nh time : Nat) : List Byte :=
  let h := frame.take 128
  wordsBytes
    [point * 2 ^ 62 + (if mc then 2 ^ 61 else 0) + h.length * 2 ^ 46 + p.adm.port * 2 ^ 37 + egPort * 2 ^ 28 + frame.length,
     time, p.adm.admitAt,
     queue * 2 ^ 46 + p.tc % 8 * 2 ^ 43 + p.color * 2 ^ 41 + p.adm.gen % 2 * 2 ^ 40 + p.adm.pass * 2 ^ 38 + nh * 2 ^ 18]
  ++ List.replicate 96 0 ++ sliceBytes h 0 128

/-- R287: a capture record enters the period's batch. -/
def State.capture (s : State) (r : List Byte) : State :=
  if s.getF uBSN F.BSN_CAPTURE_CFG_EN = 0 then s
  else if s.bas.captured ≥ s.getF uBSN F.BSN_CAPTURE_CFG_LIMIT ∨ s.bas.capture.length ≥ 4096 then
    s.addF uBSN F.BSN_CAPTURE_LOST_COUNT 1
  else s.modBas fun b => { b with capture := s.bas.capture ++ [r], captured := s.bas.captured + 1 }

/-- R270 step 3: place every instance of a packet, columns ascending. Answers whether any was placed. -/
def State.placeAll (s : State) (row req : Nat) (p : Pkt) (cs : List Copy) : Bool × State :=
  (s.copyCols cs).foldl (fun (a : Bool × State) j =>
    let r := a.2.placeInst row j req p (cs.filter fun c => portCol (a.2.queuePort c.queue) == j)
    (a.1 || r.1, r.2)) (false, s)

/-- R79, R227: a packet written into row 32 toward an egress queue. -/
def State.placeRow32 (s : State) (p : Pkt) (c : Copy) : State := (s.placeAll 32 8 p [c]).2

/-! ### Vent writes and returns -/

/-- Instances that wait in XP(i, 33), oldest first. -/
def State.ventQueue (s : State) (i : Nat) : List Inst :=
  s.bas.insts.filterMap fun e => match e.2 with | some x => if x.place = 1 ∧ x.row = i then some x else none | none => none

/-- R274: the row whose vented cell the BPM takes next, in rotation. -/
def State.ventTurn (s : State) : Option Nat :=
  ((List.range 33).map fun i => (s.bas.ventRow + 1 + i) % 33).find? fun i => !(s.ventQueue i).isEmpty

/-- First channel-local address of a channel's deep-buffer region. -/
def State.deepBase (s : State) (ch : Nat) : Nat :=
  s.getFS uBPM ch F.BPM_CH_BASE_LO_ADDR * 4096 + s.getFS uBPM ch F.BPM_CH_BASE_HI_ADDR * 2 ^ 32

/-- First channel-local address of a block: pool 0, then pool 1, then pool 2 (R274). -/
def State.blockAddr (s : State) (b : Blk) : Nat :=
  s.deepBase b.ch + (if b.pool = 0 then 0 else s.poolBlocks b.ch 0 * 256 + (if b.pool = 1 then 0 else s.poolBlocks b.ch 1 * 2048)) +
    b.num * blockSize b.pool

/-- The block an instance is given. -/
def Inst.blk (x : Inst) : Blk := ⟨x.ch, x.pool, x.block, x.req⟩

/-- Bytes of a block that its vent writes and its fetch reads (R274). -/
def Inst.blkLen (x : Inst) : Nat := ceilDiv (64 + x.pkt.frame.length) 64 * 64

/-- R274: the vent write of an instance: its descriptor, its frame, and up to the next 64 bytes a value the spec does not give
(log entry 1). A channel that takes no accesses discards it. -/
def State.blockWrite (s : State) (x : Inst) : State :=
  if !s.chanOn x.ch then s
  else (s.draw.2.touchRun x.ch (s.blockAddr x.blk) x.blkLen x.row true).setDramRun x.ch (s.blockAddr x.blk) x.blkLen 0
    (packetDesc x.pkt x.ref ++ x.pkt.frame ++ leBytes s.draw.1 64)

/-- R277: the fetch of an instance's block for column `j` is issued. -/
def State.blockRead (s : State) (x : Inst) (j : Nat) : State :=
  if s.chanOn x.ch then s.touchRun x.ch (s.blockAddr x.blk) x.blkLen (4096 + j) false else s

/-- R280: an instance's block is read and written into block `b`. -/
def State.blockMove (s : State) (x : Inst) (b : Blk) : State :=
  let a := s.blockAddr x.blk
  let to_ := s.blockAddr b
  let bs := (List.range x.blkLen).map fun i => s.dramByte x.ch (a + i)
  ((s.touchRun x.ch a x.blkLen (2 * 4096) false).touchRun b.ch to_ x.blkLen (2 * 4096) true).setDramRun b.ch to_ x.blkLen 0 bs

/-- One cell of instance `x` leaves XP(i,33); with its last cell the instance's write is issued. -/
def State.ventTake (s : State) (i : Nat) (x : Inst) : State :=
  let done := x.left ≤ 1
  let s := (s.modBas fun b => { b with ventRow := i }).xpTake i 33 1 (if done then 1 else 0)
  let s := if done then s.blockWrite x else s
  s.setInst x.id (some { x with left := x.left - 1, place := if done then 2 else 1, at_ := if done then s.ns else x.at_ })

/-- R277: a vent write has ended; the block can be fetched. -/
def State.ventDone (s : State) (id : Nat) : State :=
  match s.inst id with
  | some x => if x.place = 2 then s.setInst id (some { x with place := 3 }) else s
  | none => s

/-- R272: a pair with no entry in the deep buffer, or in transit to or from it, and few cells returns to DIRECT. -/
def State.ventReturn (s : State) (i q : Nat) : State :=
  let deep := (s.queue q).any fun e => e.row == i && !e.back &&
    (match s.inst e.inst with | some x => x.place != 0 && x.place != 4 && !x.lost | none => false)
  if s.inVent i q ∧ !deep ∧ s.directCells i q ≤ s.vc q F.BSN_VC_CFG_LOW_CELLS then s.setVent i q false else s

/-- Change the first entry of a queue that satisfies `p`. -/
def modifyFirst (p : QEnt → Bool) (f : QEnt → QEnt) : List QEnt → List QEnt
  | [] => []
  | e :: r => if p e then f e :: r else e :: modifyFirst p f r

/-- An entry names a block not yet back in XP(33, j). -/
def State.blockEnt (s : State) (e : QEnt) : Bool :=
  !e.back && (match s.inst e.inst with | some x => x.place != 0 | none => false)

/-- The entry of a queue its column fetches next: the first block entry in list order that is on chip and in its block. -/
def State.fetchEnt (s : State) (q : Nat) : Option QEnt :=
  match (s.queue q).find? fun e => s.blockEnt e && e.fetch.isNone with
  | some e => if e.page.isNone ∧ (s.inst e.inst).any (fun x => x.place == 3) then some e else none
  | none => none

/-- Entries that have left their queue and whose cells are not yet read. -/
def State.dequeued (s : State) : List QEnt := s.bas.egress.map (·.ent) ++ s.bas.router.flatMap (·.2)

/-- Cells of a queue returned and not yet read, or being fetched. -/
def State.returned (s : State) (q : Nat) : Nat :=
  (((s.queue q).filter fun e => e.back || e.fetch.isSome).map (·.cells)).sum +
    ((s.dequeued.filter fun e => e.back && !e.gone && e.copy.queue == q).map (·.cells)).sum

/-- Cells of the fetches in flight for a column. -/
def State.fetching (s : State) (j : Nat) : Nat :=
  ((s.bas.queues.filter fun x => portCol (s.queuePort x.1) == j).map fun x =>
    ((x.2.filter fun e => e.fetch.isSome && !e.back).map (·.cells)).sum).sum

/-- Remove the first entry of a queue that satisfies `p`. -/
def removeFirst (p : QEnt → Bool) : List QEnt → List QEnt
  | [] => []
  | e :: r => if p e then r else e :: removeFirst p r

/-- The basin drops an entry of a queue (R277, R283): counted per column. -/
def State.basinDrop (s : State) (code q : Nat) (e : QEnt) : State :=
  let j := portCol (s.queuePort q)
  let k := match s.inst e.inst with | some x => x.pkt | none => {}
  let s := (s.setQueue q (removeFirst (fun x => decide (x = e)) (s.queue q))).freeEntry q e
  let s := s.drop code (570 + j) { k.info uBSN with egPort := some (s.queuePort q), queue := some q, color := e.color }
  let s := s.telUp q fun t => { t with drop := t.drop + 1 }
  let s := if e.back ∧ !e.gone then s.xpTake 33 j e.cells 1 else s
  (((s.unref e.inst e.back).leaveFlight k).mcDone k false).settle q

/-- Age limit of a queue's profile in ns. -/
def State.ageNs (s : State) (q : Nat) : Nat := s.prof q F.TM_PROF_AGE_AGE_US * 1000

/-- R23: an entry is past its queue's age limit. -/
def State.aged (s : State) (q : Nat) (e : QEnt) : Bool := decide (s.ageNs q < s.ns - e.admitAt)

/-- Why the head entry of a queue is dropped as it comes up: its crosspoint left service (R283), its block is lost or the
device is in footing mode (R280, R281), its return crosspoint is out of service (R282). -/
def State.upDrop (s : State) (q : Nat) : Option (Nat × QEnt) :=
  match s.queue q with
  | [] => none
  | e :: _ =>
    match s.inst e.inst with
    | none => none
    | some x =>
      if e.gone ∨ (x.lost ∧ x.place = 4 ∧ !e.back) then some (0x60, e)
      else if !s.blockEnt e then none
      else if s.footing ∨ x.lost then some (0x47, e)
      else if !s.up (uXP 33 (portCol (s.queuePort q))) then some (0x60, e)
      else none

/-- Drop the entries of a queue that come up without cells. -/
def State.comeUp : Nat → State → Nat → State
  | 0, s, _ => s
  | n + 1, s, q => match s.upDrop q with
    | some (code, e) => (s.basinDrop code q e).comeUp n q
    | none => s

/-- R276: a queue's next block may be fetched into XP(33, j). -/
def State.canFetch (s : State) (j q : Nat) : Bool :=
  match s.fetchEnt q with
  | some e => decide (s.returned q < s.vc q F.BSN_VC_RET_AHEAD_CELLS) && decide (e.cells + s.fetching j ≤ s.xpFree 33 j) && s.up (uXP 33 j)
  | none => false

/-- The copies at the heads of a column's queues come up. -/
def State.colUp (s : State) (j : Nat) : State :=
  s.each ((s.bas.queues.map (·.1)).filter fun q => portCol (s.queuePort q) == j) fun s q => s.comeUp (s.queue q).length q

/-- R276: the queue a return engine serves next: queues whose head waits first, then the others, each in rotation. -/
def State.fetchTurn (s : State) (j : Nat) : Option Nat :=
  let qs := (s.bas.queues.map (·.1)).filter fun q => portCol (s.queuePort q) == j && s.canFetch j q
  let headWaits (q : Nat) : Bool := match s.queue q with | e :: _ => s.blockEnt e && e.fetch.isNone | [] => false
  let last := s.bas.retLast.get (fun _ => 2 ^ 18) j
  let pick (l : List Nat) : Option Nat := (l.find? (last < ·)).or l.head?
  (pick (qs.filter headWaits)).or (pick qs)

/-- R276: the return engine of column `j` starts the fetch of queue `q`'s first block not yet fetched. -/
def State.startFetch (s : State) (j q : Nat) : State :=
  let s := s.modBas fun b => { b with retLast := s.bas.retLast.put (fun _ => 2 ^ 18) j q }
  let s := match (s.fetchEnt q).bind fun e => s.inst e.inst with | some x => s.blockRead x j | none => s
  s.setQueue q (modifyFirst (fun e => s.blockEnt e && e.fetch.isNone) (fun e => { e with fetch := some s.ns }) (s.queue q))

/-- RETURN_FETCH. -/
def State.fetchNext (s : State) (j : Nat) : State :=
  let s := s.colUp j
  match s.fetchTurn j with
  | none => s
  | some q => s.startFetch j q

/-- The block of a fetch that ends after its entry was dropped, as `freeBlock` takes it. -/
def limboInst (b : Blk) : Inst :=
  { id := 0, row := 0, col := 0, cells := 0, ref := 0, place := 3, left := 0, at_ := 0, ch := b.ch, pool := b.pool
    block := b.num, req := b.req, refCtr := false, blkRef := 0, lost := false, pkt := {} }

/-- A live instance uses a block. -/
def State.blockLive (s : State) (b : Blk) : Bool :=
  s.bas.insts.any fun e => match e.2 with | some x => x.place != 0 && x.place != 4 && !x.lost && x.blk == b | none => false

/-- R277: the read of a block ends whose entry was dropped; the block is free unless it is still used. -/
def State.limboEnd (s : State) (l : Nat × Blk) : State :=
  let s := s.modBas fun b => { b with limbo := s.bas.limbo.erase l }
  if s.blockLive l.2 then s else s.freeBlock (limboInst l.2)

/-- R277: the read of a fetched block ends, `ecc` as R338: channel, age, ECC; a good one is in XP(33, j) and no longer needs the
block. -/
def State.blockArrive (s : State) (q ecc : Nat) (e : QEnt) (x : Inst) : State :=
  let j := portCol (s.queuePort q)
  if s.footing ∨ x.lost ∨ ¬ (s.ust (uDMC x.ch) = 4 ∨ s.ust (uDMC x.ch) = 5) then s.basinDrop 0x47 q e
  else
    let s := s.dramEcc x.ch (s.blockAddr x.blk + 64 * (ecc / 8)) (ecc % 8)
    if !s.up (uXP 33 j) then s.basinDrop 0x60 q e
    else if s.aged q e then s.basinDrop 0x49 q e
    else if ecc % 8 = 2 ∨ ecc % 8 = 4 then s.basinDrop 0x46 q e
    else
      let s := s.setQueue q (modifyFirst (fun y => decide (y = e)) (fun y => { y with back := true }) (s.queue q))
      (s.xpPut 33 j e.cells 1).blockDone e.inst

/-- RETURN_BLOCK_CHECK: the oldest read of a block for a queue ends. Results of a return engine come back in order (R333), so a
read whose entry was dropped at tDTO comes first. -/
def State.blockCheck (s : State) (q ecc : Nat) : State :=
  match s.bas.limbo.find? fun l => l.1 == q with
  | some l => s.limboEnd l
  | none =>
    match (s.queue q).find? fun e => e.fetch.isSome && !e.back with
    | none => s
    | some e => match s.inst e.inst with | none => s | some x => s.blockArrive q ecc e x

/-- R277: a fetch, or a vent write, has not ended within tDTO: the entry is dropped. The block of a fetch is held until
its channel ends the read. -/
def State.deepTimeout (s : State) (fetch : Bool) (n : Nat) : State :=
  if fetch then
    match (s.queue n).find? fun e => e.fetch.isSome && !e.back with
    | none => s
    | some e =>
      let s := s.reach (e.fetch.getD 0 + 100000)
      match s.inst e.inst with
      | none => s
      | some x =>
        let s := if x.place = 3 then s.modBas fun b => { b with limbo := s.bas.limbo ++ [(n, x.blk)] } else s
        s.basinDrop 0x47 n e
  else
    match s.inst n with
    | none => s
    | some x =>
      if x.place ≠ 2 then s
      else
        let s := s.reach (x.at_ + 100000)
        let hits := s.bas.queues.flatMap fun e => (e.2.filter fun y => y.inst == n).map fun y => (e.1, y)
        s.each hits fun s h => s.basinDrop 0x47 h.1 h.2

/-- R280: the first live block of a channel in ascending address order whose fetch has not started. -/
def State.firstBlock (s : State) (ch : Nat) : Option Inst :=
  let live := s.bas.insts.filterMap fun e => match e.2 with
    | some x => if x.place = 3 ∧ x.ch = ch ∧ !x.lost ∧ !(s.bas.limbo.any fun l => l.2 == x.blk) ∧
        !(s.bas.queues.any fun q => q.2.any fun y => y.inst == x.id && y.fetch.isSome && !y.back) then some x else none
    | none => none
  live.foldl (fun (a : Option Inst) x => match a with
    | none => some x
    | some b => if x.pool < b.pool ∨ x.pool = b.pool ∧ x.block < b.block then some x else a) none

/-- R280: one live block of a draining channel moves to another online channel. -/
def State.relocate (s : State) (ch : Nat) : State :=
  match s.firstBlock ch with
  | none => s
  | some x =>
    if s.ust (uDMC ch) ≠ 5 ∨ !s.up (uXP 33 33) then s
    else match (s.freeChans x.pool).head? with
      | none => s
      | some to_ =>
        match s.takeBlock x.pool to_ x.req with
        | none => s
        | some (b, s) =>
          let s := (s.blockMove x b).freeBlock { x with refCtr := false }
          (s.setInst x.id (some { x with ch := b.ch, block := b.num })).addF uBPM F.BPM_RELOCATED_COUNT 1

/-- The blocks of the channels that satisfy `p` are lost and held no longer (R277). An instance keeps no block number that another
could be given. -/
def State.loseBlocks (s : State) (p : Nat → Bool) : State :=
  let gone := (s.bas.insts.filterMap (·.2)).filter fun x => x.place != 0 && x.place != 4 && p x.ch
  let held := s.bas.limbo.filter fun l => p l.2.ch
  let s := s.modBas fun b => { b with limbo := s.bas.limbo.filter fun l => !p l.2.ch }
  let s := s.each gone fun s x => (s.freeBlock x).setInst x.id (some { x with lost := true, block := 2 ^ 32, refCtr := false })
  s.each held fun s l => s.freeBlock (limboInst l.2)

/-- R280: a DMC leaves service without a drain: every live block on its channel is lost. -/
def State.loseChannel (s : State) (ch : Nat) : State :=
  (s.addF uBPM F.BPM_LOST_COUNT (s.bas.blocks.filter fun b => b.ch == ch).length).loseBlocks (· == ch)

/-- R283: a crosspoint leaves service: its instances are discarded. Their copies come up without cells. -/
def State.loseXp (s : State) (i j : Nat) : State :=
  let u := uXP i j
  let s := (s.setF u F.XP_STATUS_USED_CELLS 0).setF u F.XP_STATUS_PACKETS 0
  let here (x : Inst) : Bool := x.row == i && (x.place == 0 && x.col == j || x.place == 1 && j == 33)
  let s := s.each ((s.bas.insts.filterMap (·.2)).filter here) fun s x =>
    (if x.place = 1 then s.freeBlock x else s).setInst x.id (some { x with lost := true, place := 4, left := 0 })
  if i = 33 then
    let f (e : QEnt) : QEnt := if e.back ∧ portCol (s.queuePort e.copy.queue) = j then { e with gone := true } else e
    s.modBas fun b => { b with
      queues := s.bas.queues.remap (fun _ => []) fun _ l => l.map f
      router := s.bas.router.remap (fun _ => []) fun _ l => l.map f
      egress := s.bas.egress.map fun x => { x with ent := f x.ent } }
  else s

/-! ### Reading a crosspoint (R23, R24, R283, R284) -/

/-- A copy leaves the basin: its cells are read. -/
def State.readCopy (s : State) (e : QEnt) (col : Nat) : State :=
  (if e.back ∧ !e.gone then s.xpTake 33 col e.cells 1 else s).unref e.inst e.back

/-- A copy that has left its queue is dropped in the basin: counted in a scope, against its account, and no longer in flight. -/
def State.readDrop (s : State) (code scope : Nat) (e : QEnt) (p : Pkt) : State :=
  ((s.drop code scope { p.info uBSN with egPort := some (s.queuePort e.copy.queue), queue := some e.copy.queue, color := e.color
                                         }).leaveFlight p).mcDone p false

/-- R284: an uncorrectable tag ends the instance: every copy of it that waits, in its queue or for its read, is dropped. Copies
returned from the deep buffer have cells of their own. -/
def State.tagLost (s : State) (id : Nat) : State :=
  let mine (y : QEnt) : Bool := y.inst == id && !y.back
  let hits := s.bas.queues.flatMap fun e => (e.2.filter mine).map fun y => (e.1, y)
  let out := s.dequeued.filter mine
  let s := s.modBas fun b => { b with
    egress := s.bas.egress.filter fun x => !mine x.ent
    router := s.bas.router.remap (fun _ => []) fun _ l => l.filter fun y => !mine y }
  let s := s.each hits fun s h => s.basinDrop 0x48 h.1 h.2
  s.each out fun s y => match s.inst y.inst with
    | some x => (s.readCopy y (portCol (s.queuePort y.copy.queue))).readDrop 0x48 (570 + portCol (s.queuePort y.copy.queue)) y x.pkt
    | none => s

/-- The cells of a dequeued copy of instance `x` are read in column `col`: whether the copy goes on. `err` 0: they read clean;
1: a word corrected; 2: an uncorrectable data word; 3: an uncorrectable tag (R284). A drop is counted per column, but a
deadline passed at column 32 per basin row (R24). -/
def State.readOut (s : State) (col err : Nat) (e : QEnt) (x : Inst) : Bool × State :=
  let xp := if e.back then uXP 33 col else uXP e.row col
  let read := s.readCopy e col
  if e.gone ∨ (x.lost ∧ !e.back) then (false, read.readDrop 0x60 (570 + col) e x.pkt)
  else if col = 32 ∧ s.pastDeadline x.pkt then (false, read.readDrop 0x10 (536 + e.row) e x.pkt)
  else if col ≠ 32 ∧ s.aged e.copy.queue e then (false, read.readDrop 0x49 (570 + col) e x.pkt)
  else if err = 2 then (false, (read.report xp 1 0).readDrop 0x48 (570 + col) e x.pkt)
  else if err = 3 then
    (false, ((if e.back then read else read.tagLost e.inst).report xp 2 0).readDrop 0x48 (570 + col) e x.pkt)
  else (true, if err = 1 then read.report xp 0 0 else read)

/-- R284: what reading a cell of instance `x` in XP(i,33) with an uncorrectable word finds: every copy is dropped. -/
def State.ventLost (s : State) (i src : Nat) (x : Inst) : State := (s.tagLost x.id).report (uXP i 33) src 0

/-- VENT_CELL_WRITE: the BPM takes the next vented cell, at no more than PCT % of a column's rate (R274, R285), its read as
`err` of `readOut`. An uncorrectable data word drops the copies too (DEDUCED, log entry 84). In footing mode nothing vents
(R281). -/
def State.ventCell (s : State) (err : Nat) : State :=
  let pct := s.getF uBSN F.BSN_VENT_GOV_PCT
  if pct = 0 ∨ s.footing ∨ !s.up uBPM ∧ s.ust uBPM ≠ 5 then s
  else match s.ventTurn with
    | none => s
    | some i =>
      match s.ventQueue i with
      | [] => s
      | x :: _ =>
        let s := s.reachRaw s.bas.ventAt
        let s := s.modBas fun b => { b with ventAt := s.clk.now + ceilDiv 4096000 pct }
        if err = 2 ∨ err = 3 then s.ventLost i (err - 1) x
        else (if err = 1 then s.report (uXP i 33) 0 0 else s).ventTake i x

end Sys2Proof.Machine
end

