-- ==== Sys2Proof/Machine/Tm.lean ====
section
/-!
DEFINITION. The traffic manager's decisions, shapers, flushes and entry pages (R295–R306 of spec/13_traffic_manager.md).
-/
namespace Sys2Proof.Machine

/-! ### Shapers (R301) -/

/-- A shaper's settings: on, rate in kb/s, burst in bytes. -/
structure Shaper where
  on : Bool
  rate : Nat
  burst : Nat
  deriving DecidableEq, Repr

/-- The shaper of a queue (level 0), subscriber node (1), service node (2) or Ethernet port (3, by quadrant · 128 + local
port). -/
def State.shaper (s : State) (lvl idx : Nat) : Shaper :=
  if lvl = 3 then
    let u := uTMQ (idx / 128)
    let l := idx % 128
    if l < 64 then ⟨s.getF u (F.TMQ_PORT_CFG_SHAPE_EN.i l) == 1, s.getF u (F.TMQ_PORT_RATE_RATE_KBPS.i l),
      s.getF u (F.TMQ_PORT_BURST_BYTES.i l)⟩
    else ⟨false, 0, 0⟩
  else
    let e := s.tmEnt (0x50 + lvl) idx
    ⟨tmShape e, tmRate e, tmBurst e⟩

/-- A shaper's credit now, in `byteTok`-ths of a byte (R301). -/
def State.credit (s : State) (lvl idx : Nat) : Int :=
  let h := s.shaper lvl idx
  let x := s.tmNode lvl idx
  min ((h.burst * byteTok : Nat) : Int) (x.credit + (refill h.rate (s.clk.now - x.last) : Nat))

/-- R297: within credit. -/
def State.inCredit (s : State) (lvl idx : Nat) : Bool := !(s.shaper lvl idx).on || decide (0 ≤ s.credit lvl idx)

/-- Take `n` bytes of credit. -/
def State.takeCredit (s : State) (lvl idx n : Nat) : State :=
  if (s.shaper lvl idx).on then
    s.setTmNode lvl idx { s.tmNode lvl idx with credit := s.credit lvl idx - ((n * byteTok : Nat) : Int), last := s.clk.now }
  else s

/-- R301: a changed shaper's credit: BURST or 0. -/
def State.resetCredit (s : State) (lvl idx : Nat) (full : Bool) : State :=
  s.setTmNode lvl idx { s.tmNode lvl idx with
    credit := if full then (((s.shaper lvl idx).burst * byteTok : Nat) : Int) else 0, last := s.clk.now }

/-! ### Eligibility (R297, R313) -/

/-- R297: a queue is paused. -/
def State.queuePaused (s : State) (q : Nat) : Bool :=
  let p := s.queuePort q
  decide (p < 256) && (s.pausedBy p 8 || s.pausedBy p (s.prof q F.TM_PROF_CFG_PFC_PRIO))

/-- R275: the head entry's cells are held in a crosspoint of the queue's column. -/
def State.ready (s : State) (q : Nat) : Bool :=
  match s.queue q with
  | [] => false
  | e :: _ => e.page.isNone && (e.back || (match s.inst e.inst with | some x => x.place == 0 | none => false))

/-- R297: a queue is eligible. In footing mode only footing queues are, with no shaper (R306). -/
def State.queueElig (s : State) (q : Nat) : Bool :=
  if s.footing then decide (q % 65536 < 512) && s.ready q && !s.queuePaused q
  else tmEn (s.tmEnt 0x50 q) && s.ready q && s.inCredit 0 q && !s.queuePaused q

/-- A queue whose ancestors are in use and within credit too. -/
def State.pathElig (s : State) (q : Nat) : Bool :=
  s.queueElig q && (s.footing ||
    (let (sub, svc, _) := s.queuePath q
     tmEn (s.tmEnt 0x51 sub) && s.inCredit 1 sub && tmEn (s.tmEnt 0x52 svc) && s.inCredit 2 svc))

/-- Fabric lanes that are up (R312). -/
def State.fabLanes (s : State) : List Nat :=
  (List.range 128).filter fun k => bitsOf (s.getF uFAB (F.FAB_LANE_UP_MAP.i (k / 32))) (k % 32) 1 == 1

/-- R297: a port's MAC has room for a frame: it holds none, or no more than the free value of log entry 75. Copies in their
egress pass count. -/
def State.macRoom (s : State) (p : Nat) : Bool :=
  let n := (s.bas.sending.filter fun x => x.port == p).length + (s.bas.egress.filter fun x => x.port == p).length
  n == 0 || decide (n ≤ Config.macFrames)

/-- R297, R313: the port itself may send. -/
def State.portElig (s : State) (p : Nat) : Bool :=
  if p ≥ 256 then s.routerReady (p - 256) && !s.footing
  else
    let own := s.footing || s.inCredit 3 (tmPortKey (p / 64) (p % 64))
    if s.isFabricPort p then
      let f := p - 128
      s.getF uFAB (F.FAB_FP_CFG_EN.i f) == 1 &&
        decide (s.fab.xoffTill.get (fun _ => 0) (s.getF uFAB (F.FAB_FP_CFG_DEV.i f)) ≤ s.ns) &&
        !s.fabLanes.isEmpty && s.up uFAB && own && !s.footing
    else s.mac p F.PORT_STATUS_LINK_STATE == 3 && s.up (uMAC (p / 8)) && s.mac p F.PORT_STATUS_HELD == 0 &&
      (s.port p).flush.isNone && !s.pausedBy p 8 && s.macRoom p && own

/-- Ports of a scheduler: block scheduler 0–7, or 8 for the internal one. -/
def schedPorts (quad sched : Nat) : List Nat :=
  if sched < 8 then (List.range 8).map (64 * quad + 8 * sched + ·) else (List.range 4).map (256 + 4 * quad + ·)

/-- R300: an element active since before that becomes eligible takes the later of S and V; eligibility is noted. -/
def State.noteElig (s : State) (lvl idx plvl pidx band : Nat) (now : Bool) : State :=
  let x := s.tmNode lvl idx
  if !x.active ∨ x.elig = now then s
  else if now then
    let v := (s.tmNode plvl pidx).vt.get (fun _ => 0) band
    s.setTmNode lvl idx { x with elig := true, tag := if tagLater v x.tag then v else x.tag }
  else s.setTmNode lvl idx { x with elig := false }

/-- R300 over every active queue and node below a scheduler's ports. -/
def State.noteAll (s : State) (quad sched : Nat) : State :=
  let ports := schedPorts quad sched
  let qs := (s.busyQueues quad).filter fun q => ports.contains (s.queuePort q)
  let good := qs.filter fun q => s.queueElig q
  let s := s.each qs fun s q => s.noteElig 0 q 1 (s.queuePath q).1 (tmBand (s.tmEnt 0x50 q)) (good.contains q)
  let subs := (qs.map fun q => (s.queuePath q).1).eraseDups
  let goodSub := subs.filter fun n => tmEn (s.tmEnt 0x51 n) && s.inCredit 1 n && good.any fun q => (s.queuePath q).1 == n
  let s := s.each subs fun s n =>
    s.noteElig 1 n 2 (quad * 1024 + tmParent (s.tmEnt 0x51 n)) (tmBand (s.tmEnt 0x51 n)) (goodSub.contains n)
  let svcs := (qs.map fun q => (s.queuePath q).2.1).eraseDups
  s.each svcs fun s n =>
    s.noteElig 2 n 3 (tmPortKey quad (tmParent (s.tmEnt 0x52 n))) (tmBand (s.tmEnt 0x52 n))
      (s.portElig (portOf quad (tmParent (s.tmEnt 0x52 n))) && tmEn (s.tmEnt 0x52 n) && s.inCredit 2 n &&
        goodSub.any fun m => quad * 1024 + tmParent (s.tmEnt 0x51 m) == n)

/-! ### The decision (R298, R299, R302) -/

/-- R298: among eligible children, the highest band, then the least tag, then the lowest index. -/
def State.pickChild (s : State) (lvl : Nat) (cs : List Nat) : Option Nat :=
  cs.foldl (fun (a : Option Nat) c => match a with
    | none => some c
    | some b =>
      let bb := tmBand (s.tmEnt (0x50 + lvl) b)
      let bc := tmBand (s.tmEnt (0x50 + lvl) c)
      let tb := (s.tmNode lvl b).tag
      let tc := (s.tmNode lvl c).tag
      if bb < bc ∨ (bb = bc ∧ (tagLater tb tc ∨ (tb = tc ∧ c < b))) then some c else some b) none

/-- R298: the node's virtual time of the chosen child's band takes its tag. -/
def State.takeV (s : State) (plvl pidx lvl c : Nat) : State :=
  let x := s.tmNode plvl pidx
  s.setTmNode plvl pidx { x with vt := x.vt.put (fun _ => 0) (tmBand (s.tmEnt (0x50 + lvl) c)) (s.tmNode lvl c).tag }

/-- The scheduler's next eligible port in rotation after the one it chose last. -/
def State.pickPort (s : State) (quad sched : Nat) : Option Nat :=
  let ports := schedPorts quad sched
  let have_ := ((s.busyQueues quad).filter fun q => s.pathElig q).map fun q => s.queuePort q
  let ok := ports.filter fun p => s.portElig p && have_.contains p
  let last := s.bas.lastPort.get (fun _ => 2 ^ 16) (quad * 16 + sched)
  (ok.find? (last < ·)).or ok.head?

/-- R298: descend from a port to a queue, updating virtual times on the way. In footing mode the highest footing queue. -/
def State.descend (s : State) (quad p : Nat) : Option (Nat × State) :=
  let qs := (s.busyQueues quad).filter fun q => s.pathElig q && s.queuePort q == p
  if s.footing then qs.getLast?.map fun q => (q, s)
  else
    let l := if p < 256 then p % 64 else 64 + (p - 256) % 4
    match s.pickChild 2 ((qs.map fun q => (s.queuePath q).2.1).eraseDups) with
    | none => none
    | some svc =>
      let s := s.takeV 3 (tmPortKey quad l) 2 svc
      match s.pickChild 1 (((qs.filter fun q => (s.queuePath q).2.1 == svc).map fun q => (s.queuePath q).1).eraseDups) with
      | none => none
      | some sub =>
        let s := s.takeV 2 svc 1 sub
        match s.pickChild 0 (qs.filter fun q => (s.queuePath q).1 == sub) with
        | none => none
        | some q => some (q, s.takeV 1 sub 0 q)

/-- R299: the charged length of a frame. -/
def State.chargeLen (s : State) (q len : Nat) : Nat :=
  let l1 := if s.queuePort q < 256 then s.getF (uTMQ (q / 65536)) (F.TMQ_PORT_CFG_L1.i (s.queuePort q % 64)) else 0
  let n : Int := ((len + 4 + 20 * l1 : Nat) : Int) + signedOf (s.prof q F.TM_PROF_CFG_LEN_ADJ) 8
  if n < 64 then 64 else n.toNat

/-- R299: charge a frame along the path. -/
def State.chargePath (s : State) (q len : Nat) : State :=
  if s.footing then s
  else
    let n := s.chargeLen q len
    let (sub, svc, l) := s.queuePath q
    let one (s : State) (lvl idx : Nat) : State :=
      let x := s.tmNode lvl idx
      let s := s.setTmNode lvl idx { x with
        tag := (x.tag + ceilDiv (n * 65536) (max 1 (tmWeight (s.tmEnt (0x50 + lvl) idx)))) % 2 ^ 48 }
      s.takeCredit lvl idx n
    let s := one (one (one s 0 q) 1 sub) 2 svc
    s.takeCredit 3 (tmPortKey (q / 65536) l) n

/-- A dequeued entry goes to the egress pass of its port, or to the router of its cluster, which reads column 32. -/
def State.passOn (s : State) (q : Nat) (e : QEnt) : State :=
  let p := s.queuePort q
  if p < 256 then s.modBas fun b => { b with egress := s.bas.egress ++ [⟨p, e, portCol p⟩] }
  else
    let c := p - 256
    s.modBas fun b => { b with router := s.bas.router.put (fun _ => []) c (s.bas.router.get (fun _ => []) c ++ [e]) }

/-- R298, R302: one decision of a scheduler. -/
def State.tmDecide (s : State) (quad sched : Nat) : State :=
  let u := uTMQ quad
  if ¬ (s.ust u = 4 ∨ s.ust u = 5) ∨ s.getF u F.UCB_STATE_ISOLATED = 1 ∨ !s.fwdOn then s
  else
    let ports := schedPorts quad sched
    let s := s.each ((s.busyQueues quad).filter fun q => ports.contains (s.queuePort q)) fun s q =>
      s.comeUp (s.queue q).length q
    let s := if s.footing then s else s.noteAll quad sched
    match s.pickPort quad sched with
    | none => s
    | some p =>
      let s := s.modBas fun b => { b with lastPort := s.bas.lastPort.put (fun _ => 2 ^ 16) (quad * 16 + sched) p }
      match s.descend quad p with
      | none => s
      | some (q, s) =>
        match s.queue q with
        | [] => s
        | e :: _ =>
          let d := s.ns - e.enq
          let delay (t : QTel) : QTel := { t with lmin := some (min d (t.lmin.getD d)), lmax := max t.lmax d }
          if s.aged q e then ((s.popQueue q).telUp q delay).tmDrop 0x49 q e 0
          else
            let len := match s.inst e.inst with | some x => x.pkt.frame.length | none => 0
            let s := s.chargePath q len
            let s := (s.popQueue q).telUp q fun t => { delay t with sent := t.sent + 1 }
            let s := s.occur u 0x100 (tmBand (s.tmEnt 0x50 q)) none 0 1
            s.passOn q e

/-! ### Flushes (R304, R104) -/

/-- R104: a flush of a port's queues starts. -/
def State.startFlush (s : State) (p : Nat) : State :=
  let x := s.port p
  (s.setPort p { x with flush := some (x.flush.getD 0), past := true }).setF (uTMQ (p / 64))
    (F.TMQ_PORT_STATUS_FLUSHING.i (p % 64)) 1

/-- R304: one entry leaves; an empty port ends the flush with EVT_PORT_FLUSHED. Frames enqueued before that, after the port has
come up again too, are flushed with the rest (DESIGN CHOICE, log entry 87). -/
def State.flushStep (s : State) (p : Nat) : State :=
  match (s.port p).flush with
  | none => s
  | some n =>
    match s.portQueues p with
    | q :: _ =>
      (match s.queue q with
       | e :: _ =>
         let s := (s.popQueue q).tmDrop 0x07 q e 0
         s.setPort p { s.port p with flush := some (n + 1) }
       | [] => s)
    | [] =>
      let s := s.setPort p { s.port p with flush := none }
      let s := s.setF (uTMQ (p / 64)) (F.TMQ_PORT_STATUS_FLUSHING.i (p % 64)) 0
      s.event 0x13 p (uMAC (p / 8)) p n

/-! ### Entry pages (R295, R296) -/

/-- Entries of a page come onto the chip. -/
def State.pageIn (s : State) (q pg : Nat) : State :=
  let l := s.queue q
  let n := (l.filter fun e => e.page == some pg).length
  let u := uTMQ (q / 65536)
  let s := s.setQueue q (l.map fun e => if e.page = some pg then { e with page := none, pageAt := none } else e)
  let s := s.modBas fun b => { b with pages := s.bas.pages.erase (q / 65536, pg) }
  ((s.setF u F.TMQ_PAGE_USED_PAGES (s.getF u F.TMQ_PAGE_USED_PAGES - 1)).addF u F.TMQ_ENTRY_USED_COUNT n).askPages (q / 65536)

/-- R296: entries of a queue are lost. -/
def State.entriesLost (s : State) (q : Nat) (es : List QEnt) : State :=
  s.each es fun s e =>
    let s := (s.setQueue q (removeFirst (fun x => decide ({ x with pageAt := e.pageAt } = e)) (s.queue q))).freeEntry q e
    (s.tmDrop 0x53 q e 0).settle q

/-- R296: a page's entries are lost. -/
def State.pageLose (s : State) (q pg : Nat) : State := s.entriesLost q ((s.queue q).filter fun e => e.page == some pg)

/-- Another page read of the quadrant was issued before queue `q`'s, at `at_`: a quadrant is one source, whose results return in
order (R333); of two issued at one time the lower queue's first. -/
def State.pageBefore (s : State) (q at_ : Nat) : Bool :=
  (s.busyQueues (q / 65536)).any fun x => match s.pageAsked x with
    | some t => decide (t < at_) || (t == at_ && decide (x < q))
    | none => false

/-- ENTRY_PAGE_READ: the read of a queue's oldest page, where it has been issued, ends (R295, R296). A DRAM error loses its
entries (R331, R338), and an entry never written is lost (log entry 85). -/
def State.pageRead (s : State) (q ecc : Nat) : State :=
  match s.headPage q, s.pageAsked q with
  | some pg, some at_ =>
    if s.pageBefore q at_ then s
    else (match s.dramRead (3 * 4096 + q / 65536) (s.pageAddr (q / 65536) pg) 256 ecc with
     | (some _, s) =>
       let s := s.entriesLost q ((s.queue q).filter fun e => e.page == some pg && e.unwritten)
       if s.bas.pages.contains (q / 65536, pg) then s.pageIn q pg else s
     | (none, s) => s.pageLose q pg)
  | _, _ => s

/-- R296: the read of the oldest page has not ended within tPAGE of its issue. -/
def State.pageTimeout (s : State) (q : Nat) : State :=
  match s.headPage q, s.pageAsked q with
  | some pg, some t => (s.reach (t + 100000)).pageLose q pg
  | _, _ => s

/-! ### Changes under traffic (R301, R305) -/

/-- Queues at or below an entry of TM_QUEUE, TM_SUB or TM_SVC that hold copies. -/
def State.queuesBelow (s : State) (lvl idx : Nat) : List Nat :=
  let quad := if lvl = 0 then idx / 65536 else if lvl = 1 then idx / 16384 else idx / 1024
  (s.busyQueues quad).filter fun q =>
    if lvl = 0 then q == idx else if lvl = 1 then (s.queuePath q).1 == idx else (s.queuePath q).2.1 == idx

/-- An accepted WRITE of a queue or node entry: the shaper's credit, the flush of a cleared EN, the move of an active
child. -/
def State.tmWrite (s : State) (lvl idx new : Nat) : State :=
  let tid := 0x50 + lvl
  let old := s.ent tid 0 idx
  let below := s.queuesBelow lvl idx
  let path := s.queuePath (below.headD 0)
  let active := (s.tmNode lvl idx).active
  let s := s.setEnt tid 0 idx (new % 2 ^ 128)
  let s := if tmShape old ≠ tmShape new ∨ tmRate old ≠ tmRate new ∨ tmBurst old ≠ tmBurst new ∨ (!tmEn old ∧ tmEn new) then
      s.resetCredit lvl idx (tmFill new) else s
  let s := if tmEn old ∧ !tmEn new then s.each below fun s q => s.flushQueue 0x50 (s.queue q).length q else s
  if active ∧ (tmParent old ≠ tmParent new ∨ tmBand old ≠ tmBand new) then
    let s := s.setTmNode lvl idx { s.tmNode lvl idx with active := false }
    let s := s.each (below.filter fun q => !(s.queue q).isEmpty) fun s q => s.activateQueue q
    if below.isEmpty then s else s.settleAbove (below.headD 0 / 65536) path.1 path.2.1 path.2.2
  else s

/-- R306: entry to footing mode flushes every queue that is not a footing queue. -/
def State.tmFooting (s : State) : State :=
  s.each ((s.bas.queues.map (·.1)).filter fun q => decide (512 ≤ q % 65536)) fun s q =>
    s.flushQueue 0x62 (s.queue q).length q

/-- R309: a quadrant leaves service: every entry is dropped. -/
def State.tmRetire (s : State) (quad : Nat) : State :=
  s.each (s.busyQueues quad) fun s q => s.flushQueue 0x60 (s.queue q).length q

end Sys2Proof.Machine
end

