-- ==== Sys2Proof/Machine/Ports.lean ====
section
/-!
DEFINITION. Ports, lanes and links (R92–R112 of spec/04_ports.md).
-/
namespace Sys2Proof.Machine

/-! ### Modes, slots and lanes (R92, R93, R468) -/

/-- Lanes per port of a port mode; 0 where the block is off. -/
def lanesPer (mode : Nat) : Nat :=
  if mode = 0 then 0 else if mode = 1 then 8 else if mode = 2 then 4 else if mode = 3 then 2 else 1

/-- Rate of a port of a mode, Gb/s. -/
def modeGbps (mode : Nat) : Nat :=
  match mode with
  | 1 => 800 | 2 => 400 | 3 => 200 | 4 => 100 | 5 => 50 | 6 => 25 | 7 => 10 | _ => 0

/-- LANE_STATUS.RATE_10M of a mode (R468). -/
def modeRate10M (mode : Nat) : Nat :=
  if mode = 0 then 0 else if mode ≤ 4 then 10625 else if mode = 5 then 5312 else if mode = 6 then 2578 else 1031

/-- FEC codes a mode allows (Table 1). -/
def modeFec (mode : Nat) : List Nat :=
  if mode = 0 then [] else if mode ≤ 5 then [3] else if mode = 6 then [0, 1, 2] else [0, 1]

def State.macMode (s : State) (b : Nat) : Nat := s.getF (uMAC b) F.MAC_MODE_MODE

/-- R92: the slot of a port is in use. -/
def State.portExists (s : State) (p : Nat) : Bool :=
  let n := lanesPer (s.macMode (p / 8))
  decide (p < 256) && n != 0 && p % 8 % n == 0 && !(s.lineCard && decide (128 ≤ p))

/-- UIDs of the lanes of a port. -/
def State.portLanes (s : State) (p : Nat) : List Nat :=
  (List.range (lanesPer (s.macMode (p / 8)))).map fun i => uLane (p / 8) (p % 8 + i)

/-- The port that uses lane `l` of a block. -/
def State.lanePort (s : State) (b l : Nat) : Option Nat :=
  let n := lanesPer (s.macMode b)
  if n = 0 then none else some (8 * b + l / n * n)

/-- A lane that may carry a port: Active and not under test (R97, R101). -/
def State.laneOk (s : State) (u : Nat) : Bool := s.up u && s.getF u F.LANE_TEST_EN == 0

/-! ### Transmission -/

/-- A copy dies in the MAC. -/
def State.txDrop (s : State) (x : TxItem) : State :=
  (s.drop 0x07 (264 + x.port) { x.pkt.info (uMAC (x.port / 8)) with egPort := some x.port, queue := some x.queue }).mcDone
    x.pkt false

/-- R100: a frame in transmission ends with an errored termination; pause frames behind it are not started. The lanes of a
standby are squelched (R438). -/
def State.txStop (s : State) (p : Nat) : Option TxItem × State :=
  let s := s.setPort p { s.port p with fcWait := [] }
  match s.txHead p with
  | none => (none, s)
  | some x =>
    let s := s.setSending (dropTx (fun x => x.port == p && x.started) s.bas.sending)
    (some x, (if s.twin.squelched then s else s.send (.frame p x.data true)).portCtr p 28 1)

/-- R100: the frame in transmission is cut and dropped. -/
def State.txCut (s : State) (p : Nat) : State :=
  match s.txStop p with
  | (none, s) => s
  | (some x, s) => s.txDrop x

/-- Frames the MAC had not started when the port's queues are flushed go with them (DEDUCED, log entry 21). -/
def State.txFlush (s : State) (p : Nat) : State :=
  let gone := s.bas.sending.filter fun x => x.port == p && !x.started
  let s := s.setSending (s.bas.sending.filter fun x => !(x.port == p && !x.started))
  s.each gone fun s x => s.txDrop x

/-- R208, R215: the last byte of the frame in transmission leaves; the copy is delivered, and pause frames that waited for
it go out (R107). The lanes of a standby are squelched (R438). -/
def State.txEnd (s : State) (p : Nat) : State :=
  let s := s.txBegin p
  match s.txHead p with
  | none => s
  | some x =>
    let s := s.setSending (dropTx (fun x => x.port == p && x.started) s.bas.sending)
    let s := if s.twin.squelched then s else s.send (.frame p x.data false)
    ((((s.portCtr p 17 1).portCtr p 18 x.data.length).mcDone x.pkt true).pauseFlush p).txBegin p

/-! ### Link states (R99–R105) -/

def State.setLink (s : State) (p v reason : Nat) : State :=
  let s := (s.setMac p F.PORT_STATUS_LINK_STATE v).setMac p F.PORT_STATUS_DOWN_REASON reason
  s.setPort p { s.port p with since := s.ns }

/-- R102, R104: the hold of a port starts at t_down; with HOLD_US 0 the flush starts there. -/
def State.startHold (s : State) (p : Nat) : State :=
  let s := s.setPort p { s.port p with tDown := s.ns }
  if s.mac p F.PORT_HOLD_HOLD_US = 0 then ((s.setMac p F.PORT_STATUS_HELD 0).startFlush p).txFlush p
  else (s.setMac p F.PORT_STATUS_HELD 1).setPort p { s.port p with past := false }

/-- R100: the port is declared down: EVT_LINK_DOWN, PORT_FLAPS, t_down. -/
def State.declareDown (s : State) (p reason : Nat) : State :=
  let s := s.setMac p F.PORT_FLAPS_COUNT (s.mac p F.PORT_FLAPS_COUNT + 1)
  s.event 0x12 p (uMAC (p / 8)) (reason * 256 + p) s.ns

/-- R100: the MAC starts or stops transmitting remote fault ordered sets. -/
def State.remoteFault (s : State) (p : Nat) (on : Bool) : State :=
  if (s.port p).rfTx = on then s
  else
    let s := s.setPort p { s.port p with rfTx := on }
    if s.twin.squelched then s else s.send (.remoteFault p on)

/-- Entry to TRAINING: the PCS aligns anew. -/
def State.training (s : State) (p : Nat) : State :=
  (s.setLink p 1 (s.mac p F.PORT_STATUS_DOWN_REASON)).setPort p
    { s.port p with faultReason := 0, since := s.ns, aligned := false }

/-- R101: a port in DOWN returns to TRAINING as soon as every lane of it is Active, not under test and has signal. -/
def State.retrain (s : State) (p : Nat) : State :=
  if s.linkState p = 5 ∧ (s.portLanes p).all (fun u => s.laneOk u && s.getF u F.LANE_STATUS_SIGNAL == 1) then s.training p
  else s

/-- R100, R102: end of the SUSPECT interval, or of a MAC drain. -/
def State.linkDown (s : State) (p reason : Nat) : State :=
  (((s.setLink p 5 reason).declareDown p reason).startHold p).retrain p

/-- R101: DOWN with no declaration. -/
def State.quietDown (s : State) (p reason : Nat) : State := (s.setLink p 5 reason).retrain p

/-- R104: the hold is over with the port not up. -/
def State.holdOver (s : State) (p : Nat) : State := ((s.setMac p F.PORT_STATUS_HELD 0).startFlush p).txFlush p

/-- R100, R103: the port is declared up. -/
def State.declareUp (s : State) (p : Nat) : State :=
  let x := s.port p
  let late := s.mac p F.PORT_STATUS_HELD = 1 ∧ s.ns > x.tDown + s.mac p F.PORT_HOLD_HOLD_US * 1000
  let s := if late then s.holdOver p else s
  let s := (s.setLink p 3 0).setMac p F.PORT_STATUS_HELD 0
  let s := s.setPort p { s.port p with past := false, wasUp := true, faultReason := 0 }
  (s.event 0x11 p (uMAC (p / 8)) p s.ns).txBegin p

/-- What a fault's reason says of the PCS and the receiver: without signal, lock, alignment or a carrying lane the PCS is not
aligned; the receiver reports a local fault for reasons LOS, CDR, ALIGN and LOCAL_FAULT of a port that is not OFF, and the
MAC answers with remote fault ordered sets (R100; DEDUCED, log entry 74). -/
def State.faultSeen (s : State) (p reason : Nat) : State :=
  let s := if [2, 3, 4, 8].contains reason then s.setPort p { s.port p with aligned := false } else s
  if [2, 3, 4, 5].contains reason ∧ s.linkState p ≠ 0 then s.remoteFault p true else s

/-- R100, R101: a fault of the link with its reason. A standby's ports are up from reception alone: a remote fault, which its
squelched transmitters cause, takes none down (R438). A lane that leaves Active or enters test is such a fault while the
port is up (log entry 22), and no failed training otherwise; it is the reason of a port in SUSPECT or DOWN too (R97, R99). -/
def State.linkFault (s : State) (p reason : Nat) : State :=
  if !s.portExists p ∨ (s.twin.squelched ∧ reason = 6) then s
  else
    let st := s.linkState p
    let s := (if st = 3 then s.txBegin p else s).faultSeen p reason
    if st = 3 then
      let s := (s.setLink p 4 reason).setPort p { s.port p with faultReason := reason, since := s.ns }
      let s := s.txCut p
      if s.mac p F.PORT_DEBOUNCE_DOWN_US = 0 then s.linkDown p reason else s
    else if st = 4 ∧ reason = 8 then
      (s.setMac p F.PORT_STATUS_DOWN_REASON 8).setPort p { s.port p with faultReason := 8 }
    else if st = 5 ∧ reason = 8 then s.setMac p F.PORT_STATUS_DOWN_REASON 8
    else if st = 2 ∧ reason ≠ 8 then (s.quietDown p reason).portCtr p 34 1
    else if (st = 1 ∨ st = 2) ∧ reason = 8 then s.quietDown p 8
    else if st = 1 ∧ reason = 7 then s.setPort p { s.port p with faultReason := 7 }
    else s

/-- The receiver's fault is over: the PCS is aligned. -/
def State.faultOver (s : State) (p : Nat) : State :=
  (s.setPort p { s.port p with aligned := true }).remoteFault p false

/-- What a fault's reason says of the lanes: signal or lock is gone (Table 6). -/
def State.laneLoss (s : State) (p reason : Nat) : State :=
  s.each (s.portLanes p) fun s u =>
    if reason = 2 then ((s.setF u F.LANE_STATUS_SIGNAL 0).setF u F.LANE_STATUS_CDR_LOCK 0).setF u F.LANE_STATUS_ADAPTED 0
    else if reason = 3 then (s.setF u F.LANE_STATUS_CDR_LOCK 0).setF u F.LANE_STATUS_ADAPTED 0 else s

/-- R100: the fault clears before DOWN_US: UP again, no declaration. -/
def State.faultClear (s : State) (p : Nat) : State :=
  if s.linkState p = 4 ∧ (s.portLanes p).all s.laneOk then
    let s := s.each (s.portLanes p) fun s u =>
      ((s.setF u F.LANE_STATUS_SIGNAL 1).setF u F.LANE_STATUS_CDR_LOCK 1).setF u F.LANE_STATUS_ADAPTED 1
    (((s.setLink p 3 0).setPort p { s.port p with faultReason := 0, since := s.ns }).faultOver p).txBegin p
  else s

/-- R100: DOWN_US has passed in SUSPECT. -/
def State.downDebounce (s : State) (p : Nat) : State :=
  if s.linkState p = 4 then
    let s := s.reach ((s.port p).since + s.mac p F.PORT_DEBOUNCE_DOWN_US * 1000)
    s.linkDown p (s.port p).faultReason
  else s

/-- Every lane of a port has signal. -/
def State.allSignal (s : State) (p : Nat) : Bool := (s.portLanes p).all fun u => s.getF u F.LANE_STATUS_SIGNAL == 1

/-- R101: the lanes of a port have signal; a DOWN port whose lanes are all Active and not under test trains. The training
time of a port in TRAINING counts from the detection (Table 4). -/
def State.signalDetect (s : State) (p : Nat) : State :=
  if !s.portExists p then s
  else
    let s := if s.linkState p = 1 ∧ !s.allSignal p then s.setPort p { s.port p with since := s.ns } else s
    let s := s.each (s.portLanes p) fun s u => s.setF u F.LANE_STATUS_SIGNAL 1
    s.retrain p

/-- Training ends: UP_WAIT, and UP at once with UP_MS 0. A partner that offers no matching mode leaves the port in
TRAINING until tLTRAIN ends, with the reason AN_MISMATCH (R95, log entry 23). A standby's port comes up from reception
alone (R438). -/
def State.trainingDone (s : State) (p : Nat) (match_ : Bool) : State :=
  if s.linkState p ≠ 1 then s
  else if s.mac p F.PORT_CTL_AN_EN = 1 ∧ !match_ ∧ !s.twin.squelched then
    (s.setMac p F.PORT_STATUS_DOWN_REASON 7).setPort p { s.port p with faultReason := 7 }
  else
    let s := s.each (s.portLanes p) fun s u =>
      ((s.setF u F.LANE_STATUS_SIGNAL 1).setF u F.LANE_STATUS_CDR_LOCK 1).setF u F.LANE_STATUS_ADAPTED 1
    let s := (s.setLink p 2 (s.mac p F.PORT_STATUS_DOWN_REASON)).faultOver p
    if s.mac p F.PORT_DEBOUNCE_UP_MS = 0 then s.declareUp p else s

/-- tLTRAIN, largest value, ns (Table 4). -/
def trainMax (mode : Nat) : Nat := if mode ≤ 5 then 250000000 else 50000000

/-- R101: training has not finished within the largest tLTRAIN of the detection of signal on every lane. A training that
did not finish is a local fault of the receiver (R100; log entry 74). -/
def State.trainingTimeout (s : State) (p : Nat) : State :=
  if s.linkState p ≠ 1 ∨ !s.allSignal p then s
  else
    let s := s.reach ((s.port p).since + trainMax (s.macMode (p / 8)))
    let r := if (s.port p).faultReason = 7 then 7 else 4
    ((s.faultSeen p r).quietDown p r).portCtr p 34 1

/-- R100: UP_MS has passed in UP_WAIT with no fault. -/
def State.upDebounce (s : State) (p : Nat) : State :=
  if s.linkState p = 2 then (s.reach ((s.port p).since + s.mac p F.PORT_DEBOUNCE_UP_MS * 1000000)).declareUp p else s

/-- R104: plinth time passes t_down + HOLD_US with the port not up. -/
def State.holdExpire (s : State) (p : Nat) : State :=
  if s.mac p F.PORT_STATUS_HELD = 1 ∧ s.linkState p ≠ 3 then
    (s.reach ((s.port p).tDown + s.mac p F.PORT_HOLD_HOLD_US * 1000)).holdOver p
  else s

/-- ADMIN_UP := 1 on a port in OFF (Table 5, R101). -/
def State.adminUp (s : State) (p : Nat) : State :=
  if s.linkState p ≠ 0 then s
  else
    let s := (s.setPort p { s.port p with wasUp := false }).startHold p
    if (s.portLanes p).all s.laneOk then s.training p else s.quietDown p 8

/-- ADMIN_UP := 0 (R105). The partner's pause and the watchdog's ignore time end with it (DESIGN CHOICE, log entry 88). -/
def State.adminDown (s : State) (p : Nat) : State :=
  let st := s.linkState p
  if st = 0 then s
  else
    let s := if st = 3 then s.txBegin p else s
    let s := if st = 3 ∨ st = 4 then (s.declareDown p 1).setPort p { s.port p with tDown := s.ns } else s
    let s := (s.setLink p 0 1).setPort p { s.port p with pauseTill := [], pauseAt := [], ignoreTill := [], since := s.ns, aligned := false }
    (s.remoteFault p false).holdOver p

/-- R99: the ports of a block at the end of its MAC's drain, or at its RETIRE or ISOLATE: DOWN with reason LANE. -/
def State.macGone (s : State) (b : Nat) (cut : Bool) : State :=
  s.each ((List.range 8).map (8 * b + ·)) fun s p =>
    if !s.portExists p then s
    else
      let st := s.linkState p
      let s := if cut then (s.txBegin p).txCut p else s
      if st = 3 ∨ st = 4 then s.linkDown p 8
      else if st = 1 ∨ st = 2 ∨ st = 5 then s.quietDown p 8 else s

/-- R99, R97: a lane has left Active or entered test. -/
def State.laneLeft (s : State) (u : Nat) : State :=
  match s.lanePort ((u - 0x200) / 16) ((u - 0x201) % 16) with
  | some p => s.linkFault p 8
  | none => s

/-- R101: a lane has become Active or left test: a DOWN port whose lanes are now all in order trains. -/
def State.laneBack (s : State) (u : Nat) : State :=
  match s.lanePort ((u - 0x200) / 16) ((u - 0x201) % 16) with
  | some p => if s.portExists p then s.retrain p else s
  | none => s

/-! ### Re-adaptation (R98) -/

/-- When the re-adaptation of a lane, or of a twin lane (R430), began. -/
def State.adaptBegan (s : State) (u : Nat) : Nat :=
  if u < 0x200 then s.twin.adaptAt.get (fun _ => 0) (u % 16)
  else (s.port ((u - 0x200) / 16 * 8)).adaptAt.get (fun _ => 0) (u % 16)

/-- A re-adaptation begins now. -/
def State.adaptBegin (s : State) (u : Nat) : State :=
  if u < 0x200 then s.modTwin fun w => { w with adaptAt := w.adaptAt.put (fun _ => 0) (u % 16) s.ns }
  else
    let p := (u - 0x200) / 16 * 8
    s.setPort p { s.port p with adaptAt := (s.port p).adaptAt.put (fun _ => 0) (u % 16) s.ns }

/-- R98: a write of 1 to READAPT; it acts on an Active lane and changes nothing on another (log entry 102). -/
def State.readapt (s : State) (u : Nat) : State :=
  if s.up u then (s.setF u F.LANE_ADAPT_READAPT 1).adaptBegin u else s.setF u F.LANE_ADAPT_READAPT 0

def State.readaptDone (s : State) (u : Nat) : State :=
  if s.getF u F.LANE_ADAPT_READAPT = 1 then (s.setF u F.LANE_ADAPT_READAPT 0).setF u F.LANE_STATUS_ADAPTED 1 else s

/-- R98: tREADAPT has passed. -/
def State.readaptTimeout (s : State) (u : Nat) : State :=
  if s.getF u F.LANE_ADAPT_READAPT = 1 then
    let s := s.reach (s.adaptBegan u + 20000000)
    let s := (s.setF u F.LANE_ADAPT_READAPT 0).setF u F.LANE_STATUS_ADAPTED 0
    s.event 0x10 (if u < 0x200 then 0x420 else 0x100 + 8 * ((u - 0x200) / 16) + (u % 16 - 1)) u 0 0
  else s

/-! ### Flow control (R106–R108) -/

/-- Duration of quanta at a port's rate, ns, rounded up. -/
def State.quantaNs (s : State) (p q : Nat) : Nat := ceilDiv (q * 512) (max 1 (modeGbps (s.macMode (p / 8))))

/-- R106: a pause of class `r` (a priority, or 8) arrives; while its watchdog ignores the partner it has no effect. A frame
already started completes. -/
def State.takePause (s : State) (p r q : Nat) : State :=
  let s := s.txBegin p
  let x := s.port p
  if s.ns < x.ignoreTill.get (fun _ => 0) r then s
  else if q = 0 then
    (s.setPort p { x with pauseTill := x.pauseTill.put (fun _ => 0) r 0, pauseAt := x.pauseAt.put (fun _ => 0) r 0 }).txBegin p
  else
    let at_ := if s.ns < x.pauseTill.get (fun _ => 0) r then x.pauseAt.get (fun _ => 0) r else s.ns
    s.setPort p { x with pauseTill := x.pauseTill.put (fun _ => 0) r (s.ns + s.quantaNs p q)
                         pauseAt := x.pauseAt.put (fun _ => 0) r at_ }

/-- R106: the received quanta run out. -/
def State.pauseExpire (s : State) (p r : Nat) : State :=
  let t := (s.port p).pauseTill.get (fun _ => 0) r
  if t = 0 then s
  else
    let s := s.reach t
    let x := s.port p
    (s.setPort p { x with pauseTill := x.pauseTill.put (fun _ => 0) r 0, pauseAt := x.pauseAt.put (fun _ => 0) r 0 }).txBegin p

/-- R108: a class has stayed paused for WD_MS: released, the partner ignored, PFC_WD_TRIPS and EVT_PFC_STORM. -/
def State.pfcWatchdog (s : State) (p r : Nat) : State :=
  let wd := s.mac p F.PORT_PFC_WD_WD_MS * 1000000
  let x := s.port p
  let due := x.pauseAt.get (fun _ => 0) r + wd
  if wd = 0 ∨ x.pauseTill.get (fun _ => 0) r ≤ due then s
  else
    let s := s.reach due
    let s := s.setPort p { x with
      pauseTill := x.pauseTill.put (fun _ => 0) r 0, pauseAt := x.pauseAt.put (fun _ => 0) r 0
      ignoreTill := x.ignoreTill.put (fun _ => 0) r (s.ns + wd) }
    ((s.portCtr p 33 1).event 0x14 p (uMAC (p / 8)) ((if r = 8 then 0 else r) * 256 + p) 0).txBegin p

/-- R108: the partner's pause counts again. -/
def State.pfcIgnoreEnd (s : State) (p r : Nat) : State :=
  let t := (s.port p).ignoreTill.get (fun _ => 0) r
  if t = 0 then s
  else
    let s := s.reach t
    s.setPort p { s.port p with ignoreTill := (s.port p).ignoreTill.put (fun _ => 0) r 0 }

/-- R107: half the quanta have passed while XOFF holds: the frame of the port's FC_MODE is sent again. -/
def State.pauseRepeat (s : State) (p r : Nat) : State :=
  let xoff := s.mac p F.PORT_STATUS_TX_XOFF
  let fc := s.mac p F.PORT_CTL_FC_MODE
  if (if r = 8 then fc = 1 ∧ xoff = 0xFF
      else fc = 2 ∧ bitsOf xoff r 1 = 1 ∧ bitsOf (s.mac p F.PORT_PFC_TX_EN) r 1 = 1) then
    let s := s.reach ((s.port p).xoffAt.get (fun _ => 0) r + ceilDiv (s.quantaNs p 0xFFFF) 2)
    let s := s.sendPause p r 0xFFFF
    s.setPort p { s.port p with xoffAt := (s.port p).xoffAt.put (fun _ => 0) r s.ns }
  else s

/-! ### Reception (R106, R109, R111, R469) -/

/-- R106: a MAC control frame. -/
def State.macControl (s : State) (p : Nat) (f : List Byte) : State :=
  let mode := s.mac p F.PORT_CTL_FC_MODE
  if fb2 f 14 = 1 ∧ mode = 1 then (s.portCtr p 7 1).takePause p 8 (fb2 f 16)
  else if fb2 f 14 = 0x0101 ∧ mode = 2 then
    s.each ((List.range 8).filter fun n => bitsOf (fb f 17) n 1 == 1) fun s n =>
      let s := s.portCtr p (8 + n) 1
      if bitsOf (s.mac p F.PORT_PFC_RX_EN) n 1 = 1 then s.takePause p n (fb2 f (18 + 2 * n)) else s
  else (s.portCtr p 16 1).drop 0x06 p { uid := uMAC (p / 8), inPort := some p, len := f.length }

/-- Frames a port block holds toward its course. -/
def State.rxBlock (s : State) (b : Nat) : List RxFrame := s.rx.get (fun _ => []) b
def State.setRx (s : State) (b : Nat) (l : List RxFrame) : State := { s with rx := s.rx.put (fun _ => []) b l }

/-- The receive stamp: plinth time at the end of the start-of-frame delimiter plus RX_ADJ, in 1/65,536 ns (R109). The last
of the `n` bytes with FCS arrives now, at the port's rate. -/
def State.rxStamp (s : State) (p n : Nat) : Nat :=
  ((s.clk.now : Int) - (n * 8 * 65536 / max 1 (modeGbps (s.macMode (p / 8))) : Nat) +
    signedOf (s.mac p F.PORT_PTP_ADJ_RX_ADJ) 16 * 256).toNat

/-- The first check a received frame fails, with its port counter (R111). -/
def State.rxCheck (s : State) (p n : Nat) (fcsOk pcsBad cut : Bool) : Option (Nat × Nat) :=
  if pcsBad then some (0x04, 5)
  else if cut then some (0x05, 6)
  else if n < 64 then some (0x02, 3)
  else if n > s.mac p F.PORT_CTL_MTU then some (0x03, 4)
  else if !fcsOk then some (0x01, 2) else none

/-- R469, R111: reception of a frame, given without its FCS. A standby drops it as DROP_TWIN_STANDBY (R438). `begun` 0: it
begins now; 1: it began while the port was UP and the port entered SUSPECT before its end (R100), which the port may have
left again; 2: it began while the port was UP and its MAC Active, and the port left
UP by ADMIN_UP := 0 or its MAC began to drain before the end (R99, R105). -/
def State.frameIn (s : State) (p : Nat) (f : List Byte) (fcsOk pcsBad : Bool) (begun : Nat) : State :=
  if !s.portExists p then s
  else if (begun = 0 ∧ (!s.portLive p ∨ s.pwr.drainAt.isSome)) ∨ (begun = 1 ∧ !(s.port p).wasUp) then s
  else
    let i : DropInfo := { uid := uMAC (p / 8), inPort := some p, len := f.length }
    match s.rxCheck p (f.length + 4) fcsOk pcsBad (begun == 1) with
    | some (code, k) => (s.portCtr p k 1).drop code p i
    | none =>
      if fb2 f 12 = 0x8808 then s.macControl p f
      else
        let s := (s.portCtr p 0 1).portCtr p 1 (f.length + 4)
        if s.twin.squelched then (s.addF uTWN F.TWN_STBY_RX 1).drop 0x65 p i
        else match s.serving (p / 32) with
        | none => s.drop 0x60 p i
        | some n =>
          let held := ((s.rxBlock (p / 8)).map (·.frame.length)).sum
          if held + f.length > 131072 then s.drop 0x11 p { i with uid := uADM n }
          else s.setRx (p / 8) (s.rxBlock (p / 8) ++ [⟨p, f, s.rxStamp p (f.length + 4), s.clk.now⟩])

/-- The FEC counters (R469): codewords corrected and uncorrected and symbols corrected, while the PCS is aligned. -/
def State.fecCount (s : State) (p corr unc sym : Nat) : State :=
  if s.portExists p ∧ (s.port p).aligned then
    ((s.portCtr p 30 corr).portCtr p 31 unc).portCtr p 32 sym
  else s

end Sys2Proof.Machine
end

