-- ==== Sys2Proof/Machine/Search.lean ====
section
/-!
DEFINITION. Keys and the searches of the forwarding tables: the exact-match table, the LPM table, the learned tables
(spec/06_lookup_tables.md), the CAM tables and the sieve (spec/08_classifier_and_cam.md). An entry of a keyed
generational table stands once, at its slot, with one GEN_VALID bit per generation; an indexed generational table keeps
one image per generation (R467).
-/
namespace Sys2Proof.Machine

/-! ### Keys (R130) -/

/-- Bytes of a key view that a key definition's four segments name, in order. -/
def segBytes (view : List Byte) (segs : List (Nat × Nat)) : List Byte := segs.flatMap fun s => sliceBytes view s.1 s.2

/-- Segments of LKP_KEYDEF `k`. -/
def State.keySegs (s : State) (k : Nat) : List (Nat × Nat) :=
  let g (f : Fld) := s.getF uTG (f.i k)
  [(g F.LKP_KEYDEF_A_SEG0_OFF, g F.LKP_KEYDEF_A_SEG0_LEN), (g F.LKP_KEYDEF_A_SEG1_OFF, g F.LKP_KEYDEF_A_SEG1_LEN),
   (g F.LKP_KEYDEF_B_SEG2_OFF, g F.LKP_KEYDEF_B_SEG2_LEN), (g F.LKP_KEYDEF_B_SEG3_OFF, g F.LKP_KEYDEF_B_SEG3_LEN)]

/-- Segments of SIV_KEYDEF `k`. -/
def State.sieveSegs (s : State) (k : Nat) : List (Nat × Nat) :=
  let g (f : Fld) := s.getF uTG (f.i k)
  [(g F.SIV_KEYDEF_A_SEG0_OFF, g F.SIV_KEYDEF_A_SEG0_LEN), (g F.SIV_KEYDEF_A_SEG1_OFF, g F.SIV_KEYDEF_A_SEG1_LEN),
   (g F.SIV_KEYDEF_B_SEG2_OFF, g F.SIV_KEYDEF_B_SEG2_LEN), (g F.SIV_KEYDEF_B_SEG3_OFF, g F.SIV_KEYDEF_B_SEG3_LEN)]

/-- Total length of a key definition. -/
def segTotal (segs : List (Nat × Nat)) : Nat := (segs.map (·.2)).sum

/-- A key type is wide. -/
def State.keyWide (s : State) (k : Nat) : Bool := s.getF uTG (F.LKP_KEYDEF_A_WIDE.i k) == 1

/-- R130: the key of key type `k`, zero-padded to 8 or 40 bytes. -/
def State.emKey (s : State) (k : Nat) (view : List Byte) : List Byte :=
  sliceBytes (segBytes view (s.keySegs k)) 0 (if s.keyWide k then 40 else 8)

/-- R178: the 40-byte sieve key. -/
def State.sieveKey (s : State) (k : Nat) (view : List Byte) : List Byte :=
  sliceBytes (segBytes view (s.sieveSegs k)) 0 40

/-- R142: the ECMP hash of a key view under a hash profile. -/
def State.viewHash (s : State) (h : Nat) (view : List Byte) : Nat :=
  let mask (j : Nat) : Nat := s.getF uTG ⟨0x600 + 0x20 * h + 4 * j, 0, 0, 32⟩
  let bytes := (List.range 160).filterMap fun b => if bitsOf (mask (b / 32)) (b % 32) 1 = 1 then some (view.getD b 0) else none
  (crc32c (BitVec.ofNat 32 (s.getF uTG (F.LKP_HASH_SEED_SEED.i h))) bytes).toNat

/-- H[31:16] × `n` >> 16. -/
def hashPick (h n : Nat) : Nat := h / 65536 * n / 65536

/-! ### The exact-match table (R132, R133, R466) -/

/-- Area of a segment in a generation. -/
def State.emArea (s : State) (g gen : Nat) : Nat :=
  if gen % 2 = 0 then s.getF uTG (F.EM_SEG_AREA_A.i g) else s.getF uTG (F.EM_SEG_AREA_B.i g)

/-- Seeds of a segment in a generation; after reset SEED1 = g and SEED2 = 0x8000_0000 + g. -/
def State.emSeeds (s : State) (g gen : Nat) : Nat × Nat :=
  (s.gen.seeds.get (fun _ => none) (2 * g + gen % 2)).getD (g, 0x80000000 + g)

def State.wideAreas (s : State) : Nat := s.getF uTG F.EM_CFG_WIDE_AREAS

/-- KEY_TYPE and key of an entry. -/
def emType (e : Nat) : Nat := ent e 0 48 8
def emResult (e : Nat) : Nat := ent e 0 24 24
def emKeyOf (wide : Bool) (e : Nat) : List Byte := leBytes (e / 2 ^ 64) (if wide then 40 else 8)
def emHit (e : Nat) : Bool := ent e 0 61 1 == 1

/-- There is a segment of the key's width. -/
def State.emHasWidth (s : State) (wide : Bool) : Bool := if wide then s.wideAreas != 0 else s.wideAreas != 8

/-- R133: the segment of a key. -/
def State.emSegment (s : State) (kt : Nat) (key : List Byte) : Nat :=
  let h := (crc32c 0 (BitVec.ofNat 8 kt :: key)).toNat
  let w := s.wideAreas
  if s.keyWide kt then 8 - w + h * w / 2 ^ 32 else h * (8 - w) / 2 ^ 32

/-- Slot of way 0 of a bucket: area, bucket. -/
def emSlot (wide : Bool) (area bucket : Nat) : Nat := area * 524288 + bucket * (if wide then 16 else 4)

/-- Ways of a bucket, as slots. -/
def emWays (wide : Bool) (b : Nat) : List Nat := (List.range 4).map fun i => b + i * (if wide then 4 else 1)

/-- R133: B1 and B2 of a key in a generation's binding of its segment, as slots of way 0. -/
def State.emBuckets (s : State) (gen kt : Nat) (key : List Byte) : Nat × Nat :=
  let g := s.emSegment kt key
  let w := s.keyWide kt
  let nb := if w then 32768 else 131072
  let seeds := s.emSeeds g gen
  let b (seed : Nat) := (crc32c (BitVec.ofNat 32 seed) (BitVec.ofNat 8 kt :: key)).toNat * nb / 2 ^ 32
  (emSlot w (s.emArea g gen) (b seeds.1), emSlot w (s.emArea g gen) (b seeds.2))

/-- Stash slots. -/
def stashSlot (i : Nat) : Nat := 0xFFFF00 + i

/-- Stash entries in use. -/
def State.stashed (s : State) : List (Nat × Nat) :=
  (s.entries 0x10 0).filter fun e => decide (0xFFFF00 ≤ e.1) && (genValid e.2 0 || genValid e.2 1)

/-- The slots a lookup of a key reads in a generation: B1, B2, the stash. -/
def State.emCandidates (s : State) (gen kt : Nat) (key : List Byte) : List Nat :=
  let b := s.emBuckets gen kt key
  let w := s.keyWide kt
  emWays w b.1 ++ emWays w b.2 ++ s.stashed.map (·.1)

/-- An entry holds a key and is valid in a generation. -/
def State.emMatches (s : State) (gen kt : Nat) (key : List Byte) (slot : Nat) : Bool :=
  let e := s.ent 0x10 0 slot
  genValid e gen && emType e == kt && emKeyOf (s.keyWide kt) e == key

/-- R133: the slot of a key in a generation. -/
def State.emFind (s : State) (gen kt : Nat) (key : List Byte) : Option Nat :=
  if s.emHasWidth (s.keyWide kt) then (s.emCandidates gen kt key).find? (s.emMatches gen kt key) else none

/-! ### The LPM table (R138, R139, R465) -/

def lpmPlen (v6 : Bool) (e : Nat) : Nat := if v6 then ent e 0 53 8 else ent e 0 55 6
def lpmVrf (v6 : Bool) (e : Nat) : Nat := if v6 then ent e 0 41 12 else ent e 0 43 12
def lpmResult (e : Nat) : Nat := ent e 0 0 24
def lpmPrefix (v6 : Bool) (e : Nat) : Nat := beNat (leBytes (e / 2 ^ 64) (if v6 then 16 else 4))

/-- The first `n` bits of two addresses of `w` bits are equal. -/
def prefixEq (w n a b : Nat) : Bool := a / 2 ^ (w - n) == b / 2 ^ (w - n)

/-- Table of an address family. -/
def lpmTable (v6 : Bool) : Nat := if v6 then 0x13 else 0x12

/-- R139: the slot of the longest prefix that matches. -/
def State.lpmFind (s : State) (gen : Nat) (v6 : Bool) (vrf addr : Nat) : Option Nat :=
  let w := if v6 then 128 else 32
  let hits := (s.entries (lpmTable v6) 0).filter fun e =>
    genValid e.2 gen && lpmVrf v6 e.2 == vrf && prefixEq w (lpmPlen v6 e.2) (lpmPrefix v6 e.2) addr
  (hits.foldl (fun (a : Option (Nat × Nat)) e => match a with
    | none => some e
    | some b => if lpmPlen v6 e.2 > lpmPlen v6 b.2 then some e else a) none).map (·.1)

/-- An LPM entry by its key in a generation. -/
def State.lpmKey (s : State) (gen : Nat) (v6 : Bool) (vrf plen prefix_ : Nat) : Option Nat :=
  ((s.entries (lpmTable v6) 0).find? fun e =>
    genValid e.2 gen && lpmVrf v6 e.2 == vrf && lpmPlen v6 e.2 == plen && lpmPrefix v6 e.2 == prefix_).map (·.1)

/-! ### Learned tables (R144, R147) -/

def lrnPort (e : Nat) : Nat := ent e 0 52 9
def lrnStatic (e : Nat) : Bool := ent e 0 61 1 == 1
def lrnValid (e : Nat) : Bool := ent e 0 63 1 == 1
def lrnKeyOf (e : Nat) : Nat := ent e 8 0 60

/-- The ways of B1 and of B2 of a key (FID · 2^48 + MAC). -/
def lrnWays (key : Nat) : List Nat :=
  let b (seed : Nat) := (crc32c (BitVec.ofNat 32 seed) (beBytes key 8)).toNat * 16384 / 2 ^ 32
  ((List.range 4).map (4 * b 1 + ·)) ++ ((List.range 4).map (4 * b 2 + ·))

/-- The slot of a key in CRS`n`'s learned table. -/
def State.lrnFind (s : State) (n key : Nat) : Option Nat :=
  (lrnWays key).find? fun i => lrnValid (s.ent (0x20 + n) 0 i) && lrnKeyOf (s.ent (0x20 + n) 0 i) == key

/-- The key of FID and MAC bytes at two offsets of a key view. -/
def lrnKey (view : List Byte) (fidOff macOff : Nat) : Nat :=
  beNat (sliceBytes view fidOff 2) % 4096 * 2 ^ 48 + beNat (sliceBytes view macOff 6)

/-! ### CAM tables (R184–R187) -/

def State.camCfg (s : State) (t : Nat) (f : Fld) : Nat := s.getFS uCAMG t f

/-- Key bytes of a CAM table's entry. -/
def State.camKeyLen (s : State) (t : Nat) : Nat := 10 * 2 ^ s.camCfg t F.CAM_TBL_CFG_WIDTH_LOG2

/-- UIDs of the in-service CAM banks, in position order of R191: banks 0–15 of CBG0–CBG3. -/
def camBanks : List Nat := (List.range 64).map fun i => uCB (i / 16) (i % 16)

/-- Banks of a table, and of one replica of it. -/
def State.tableBanks (s : State) (t : Nat) : List Nat :=
  (camBanks ++ (List.range 4).map fun h => uCB h 16).filter fun u =>
    s.getF u F.CAM_BANK_CFG_EN == 1 && s.getF u F.CAM_BANK_CFG_TABLE == t
def State.replicaBanks (s : State) (t r : Nat) : List Nat :=
  (s.tableBanks t).filter fun u => s.getF u F.CAM_BANK_CFG_REPLICA == r

/-- Replicas of a table, and those in service (R187). -/
def State.replicas (s : State) (t : Nat) : Nat := 2 ^ s.camCfg t F.CAM_TBL_CFG_REPLICAS_LOG2
def State.replicaUp (s : State) (t r : Nat) : Bool := (s.replicaBanks t r).all s.up
def State.liveReplicas (s : State) (t : Nat) : List Nat := (List.range (s.replicas t)).filter (s.replicaUp t)

/-- R187: the replica course `n` searches. -/
def State.searchReplica (s : State) (t n : Nat) : Option Nat :=
  let k := s.replicas t
  ((List.range k).map fun i => (n % k + i) % k).find? (s.replicaUp t)

def camKeyOf (len e : Nat) : List Byte := leBytes (e / 2 ^ 64) len
def camPoison (e : Nat) : Bool := ent e 0 60 1 == 1
def camResult (e : Nat) : Nat := ent e 0 0 24

/-- The bank that holds an address of a table's replica. -/
def State.camBankOf (s : State) (t r addr : Nat) : Option Nat :=
  let per := 4096 / 2 ^ s.camCfg t F.CAM_TBL_CFG_WIDTH_LOG2
  (s.replicaBanks t r).find? fun u => s.getF u F.CAM_BANK_CFG_POSITION == addr / per

/-- The row of an address is empty in a replica, its bank having been reset since it was written (R392). -/
def State.camBlank (s : State) (t r addr : Nat) : Bool :=
  match s.camBankOf t r addr with
  | some u => s.flt.blank.contains (u, addr)
  | none => false

/-- What the key rows of an entry at an address hold in a replica (R191). -/
def State.camRowKey (s : State) (t r addr e : Nat) : List Byte :=
  let len := s.camKeyLen t
  let key := camKeyOf len e
  if s.flt.rowKeys.isEmpty then key
  else match s.camBankOf t r addr with
    | none => key
    | some u =>
      let w := len / 10
      (List.range w).flatMap fun i => match s.flt.rowKeys.get (fun _ => none) (4096 * u + addr % (4096 / w) * w + i) with
        | some v => leBytes v 10
        | none => sliceBytes key (10 * i) 10

/-- The first key unit of an address in its bank. -/
def State.camUnit (s : State) (t addr : Nat) : Nat :=
  let w := 2 ^ s.camCfg t F.CAM_TBL_CFG_WIDTH_LOG2
  addr % (4096 / w) * w

/-- R192: an uncorrectable row, key unit `row` of VERIFY bank `u`, is poisoned and counted once. -/
def State.poisonRow (s : State) (u tid addr row : Nat) : State :=
  let s := s.setEnt tid 0 addr (setBitsOf (s.ent tid 0 addr) 60 1 1)
  let s := if s.flt.poison.contains (u, addr, row) then s
    else (s.modFlt fun f => { f with poison := s.flt.poison ++ [(u, addr, row)] }).addF u F.CAM_BANK_POISONED_COUNT 1
  s.report u 3 addr

/-- R186: the matching entry of lowest address in a generation, in replica `r`. -/
def State.camFind (s : State) (gen t r : Nat) (key : List Byte) : Option Nat :=
  ((s.entries (0x38 + t) 0).find? fun e =>
    genValid e.2 gen && !camPoison e.2 && s.camRowKey t r e.1 e.2 == key && !s.camBlank t r e.1).map (·.1)

/-- The bank that answers for an address verifies its matches (R192). -/
def State.camVerifies (s : State) (t r addr : Nat) : Bool :=
  match s.camBankOf t r addr with
  | some u => s.getF u F.CAM_BANK_CFG_VERIFY == 1
  | none => false

/-- The entry at `slot` matches `key` falsely: one flipped bit of its rows (`cam` 2 in a VERIFY bank, 7 in another, R191), or
several in a VERIFY bank (3), make them read as the key. -/
def State.camFalse (s : State) (gen t r : Nat) (key : List Byte) (cam slot : Nat) : Bool :=
  let e := s.ent (0x38 + t) 0 slot
  let x := leNat (s.camRowKey t r slot e) ^^^ leNat key
  genValid e gen && !camPoison e && !s.camBlank t r slot && x != 0 &&
    (if x &&& (x - 1) = 0 then cam == (if s.camVerifies t r slot then 2 else 7) else cam == 3 && s.camVerifies t r slot)

/-- What a search of replica `r` matches, and what the match's bits then show: `cam` 1 a flipped check bit, 2 a flipped key bit, 3
uncorrectable, 4 and 5 a corrected and an uncorrectable binding word. A true match shows no flipped key bit; with `cam` 6 such a
bit makes it miss (R191, R192). -/
def State.camMatch (s : State) (gen t r : Nat) (key : List Byte) (cam slot : Nat) : Option (Nat × Nat) :=
  let right := if cam = 6 then none else s.camFind gen t r key
  let wrong := s.camFalse gen t r key cam slot
  match right with
  | some a => if wrong ∧ slot < a then some (slot, cam) else some (a, if cam = 2 ∨ cam = 7 ∨ (cam = 3 ∧ wrong) then 0 else cam)
  | none => if wrong then some (slot, cam) else none

/-! ### The sieve (R178, R179) -/

def sivEnable (e : Nat) : Bool := ent e 0 61 1 == 1
def sivGroup (e : Nat) : Nat := ent e 0 55 6
def sivPrio (e : Nat) : Nat := ent e 0 39 16
def sivDetour (e : Nat) : Nat := ent e 0 35 4
def sivResult (e : Nat) : Nat := ent e 0 0 24
def sivValue (e : Nat) : Nat := bitsOf e 64 320

/-- A group's mask in the byte order of VALUE: key byte `i` in bits [8i + 7:8i]. -/
def State.sieveMask (s : State) (grp : Nat) : Nat :=
  leNat ((List.range 10).flatMap fun j => beBytes (s.getFS uTG grp (F.SIV_GRP_MASK_BITS.i j)) 4)

/-- R178: a group is searched by a pass: 0 ingress, 1 egress. -/
def State.sieveSearched (s : State) (grp stage kd : Nat) : Bool :=
  s.getFS uTG grp F.SIV_GRP_CFG_EN == 1 && s.getFS uTG grp F.SIV_GRP_CFG_STAGE == stage &&
  s.getFS uTG grp F.SIV_GRP_CFG_KEYDEF == kd

/-- R178, R179: the selected rule (index, image) of a search: highest PRIORITY, then lowest index. -/
def State.sieveFind (s : State) (stage gen kd : Nat) (key : List Byte) : Option (Nat × Nat) :=
  let k := leNat key
  let rules := if stage = 0 then (s.entries 0x30 (gen % 2)).filter fun e => genValid e.2 gen
    else (s.entries 0x31 0).filter fun e => sivEnable e.2 && bitsOf e.2 63 1 == 1
  let hits := rules.filter fun e => s.sieveSearched (sivGroup e.2) stage kd && (k &&& s.sieveMask (sivGroup e.2)) == sivValue e.2
  hits.foldl (fun (a : Option (Nat × Nat)) e => match a with
    | none => some e
    | some b => if sivPrio e.2 > sivPrio b.2 then some e else a) none

/-! ### Hit bits (R148) -/

/-- Set bit `b` of word 0x00 of an entry. -/
def State.setEntBit (s : State) (tid idx b : Nat) : State := s.setEnt tid 0 idx (setBitsOf (s.ent tid 0 idx) b 1 1)

/-! ### Where a table word stands (R128, R153) -/

/-- Bank, counted from TBG0 TB0 in ascending UID order, that holds a slot of a table in table SRAM (Table 1 of chapter 6). EM
and LPM units, next hops, groups and members follow each other from the first bank on; each table of TBG10 and TBG11 is spread
evenly over its 16 banks (DESIGN CHOICE, log entry 41). A slot from 2^24 on is a word of the table's search index. The stash
and the tables held elsewhere have no bank. -/
def State.tableBank (s : State) (tid slot : Nat) : Option Nat :=
  let split := s.getF uTG F.SIV_CFG_EGRESS_COUNT
  let w := slot - 2 ^ 24
  if 2 ^ 24 ≤ slot then
    (if tid = 0x12 ∨ tid = 0x13 then some (72 + w / 131072 % 8) else if tid = 0x30 ∨ tid = 0x31 then some (160 + w * 16 / 327680 % 16) else none)
  else if tid = 0x10 then (if slot < 9 * 524288 then some (slot / 65536) else none)
  else if tid = 0x12 ∨ tid = 0x13 then some (80 + slot / 262144)
  else if tid = 0x18 then some (128 + slot / 65536)
  else if tid = 0x19 then some 144
  else if tid = 0x1A then some (145 + slot / 262144)
  else if tid = 0x30 then some (160 + slot * 16 / 262144)
  else if tid = 0x31 then some (160 + (262144 - split + slot) * 16 / 262144)
  else if tid = 0x40 then some (176 + slot * 16 / 131072)
  else if tid = 0x41 then some (176 + slot * 16 / 32768)
  else if tid = 0x42 then some (176 + slot * 16 / 16384)
  else if tid = 0x43 then some (176 + slot * 16 / 65536)
  else if tid = 0x44 then some (176 + slot * 16 / 753664)
  else none

/-- The unit whose word holds a slot of a table: the bank, or the spare that serves in its place; the learned table's unit;
the first live replica's bank of a CAM address. -/
def State.wordUnit (s : State) (tid slot : Nat) : Option Nat :=
  if 0x20 ≤ tid ∧ tid ≤ 0x27 then some (uLRN (tid - 0x20))
  else if 0x38 ≤ tid ∧ tid ≤ 0x3F then
    (s.liveReplicas (tid - 0x38)).findSome? fun r => s.camBankOf (tid - 0x38) r slot
  else (s.tableBank tid slot).map fun b =>
    let u := uTB (b / 16) (b % 16)
    match s.flt.swapped.find? fun w => w.1 == u with | some w => w.2 | none => u

/-- R375: a substitution wrote the word of a slot to its bank as uncorrectable, and no WRITE has replaced it since. -/
def State.spoiled (s : State) (tid slot : Nat) : Bool :=
  !s.flt.badWords.isEmpty && (match s.wordUnit tid slot with | some u => s.flt.badWords.contains (u, tid, slot) | none => false)

/-- The slots an EM key's lookup reads in a generation, each with the units of its width. -/
def State.emWords (s : State) (gen kt : Nat) (key : List Byte) : List (Nat × Nat) :=
  (s.emCandidates gen kt key).flatMap fun i => (List.range (if s.keyWide kt then 4 else 1)).map fun j => (0x10, i + j)

/-- R154, R177: the device rebuilds a word of a search index. -/
def State.markNode (s : State) (tid slot : Nat) : State :=
  if slot < 2 ^ 24 ∨ s.gen.nodes.contains (tid, slot) then s else s.modGen fun g => { g with nodes := s.gen.nodes ++ [(tid, slot)] }

/-- R153: a word read corrected (source 0) or found uncorrectable (source 1) is reported of its bank with its address, the
slot (DESIGN CHOICE, log entry 78). -/
def State.wordReport (s : State) (tid slot src : Nat) : State :=
  match s.wordUnit tid slot with
  | some u => s.report u src slot
  | none => s

/-- What a command's or a job's search meets in memory: 0 clean, 1 a corrected word at `slot`, 2 an uncorrectable one (R153,
R154). -/
def State.wordEcc (s : State) (tid ecc slot : Nat) : State :=
  if ecc = 1 then s.wordReport tid slot 0 else if ecc = 2 then (s.wordReport tid slot 1).markNode tid slot else s

end Sys2Proof.Machine
end

