-- ==== Sys2Proof/Machine/Admit.lean ====
section
/-!
DEFINITION. The ingress pass of a course up to hand-off: admission and parsing (spec/05_parsing.md), sieve, lookup,
resolve and meter stages (spec/06_lookup_tables.md, spec/08_classifier_and_cam.md, R195–R206 of
spec/09_actions_and_rewrite.md), and the footing pass (R381, R382 of spec/17_faults_and_repair.md).
-/
namespace Sys2Proof.Machine

/-! ### Records -/

/-- R118, Table 1: the admission record, 32 bytes. -/
def admRec (p : Pkt) : List Byte :=
  let a := p.adm
  let b (x : Bool) : Nat := if x then 1 else 0
  wordsBytes [a.admitAt, a.rxTs % 2 ^ 64,
    a.deadline * 2 ^ 44 + a.gen % 2 * 2 ^ 43 + a.pass * 2 ^ 41 + b a.host * 2 ^ 40 + a.port * 2 ^ 31 + a.cls * 2 ^ 27 +
      a.profile * 2 ^ 21 + b a.slow * 2 ^ 20 + a.slowClass * 2 ^ 16 + b a.mal * 2 ^ 15 + a.malReason * 2 ^ 10 + a.bos * 2 ^ 7,
    p.frame.length * 2 ^ 50 + a.l3Off * 2 ^ 42 + a.l4Off * 2 ^ 34]

/-- R119: the 160-byte key view. -/
def keyView (p : Pkt) : List Byte := sliceBytes p.kv 0 128 ++ admRec p

/-- The course's state of a course number. -/
def State.course (s : State) (n : Nat) : Course := s.courses.get (fun _ => {}) n
def State.setCourse (s : State) (n : Nat) (x : Course) : State :=
  { s with courses := s.courses.put (fun _ => {}) n x }

/-- A packet waits for hand-off. -/
def State.toHand (s : State) (n : Nat) (h : Hand) : State :=
  s.setCourse n { s.course n with hand := (s.course n).hand ++ [h] }

/-- Tally index of ADM_MAL_CTR and of ADM_SLOW_CTR of a course (R361). -/
def malCtr (n r : Nat) : Nat := 0x13000 + 64 * n + r
def slowCtr (n c : Nat) : Nat := 0x13000 + 64 * n + 32 + c

/-- R125: a stage marks a packet for a slow-path class: none where the packet is dropped. -/
def State.markSlow (s : State) (n : Nat) (p : Pkt) (cls : Nat) : Option Pkt × State :=
  let s := (s.addCtr (slowCtr n cls) 1).occur (uADM n) 0x101 cls none 0 1
  let act := s.getF (uADM n) (F.ADM_SLOW_CFG_ACTION.i cls)
  let p := { p with adm := { p.adm with slow := act == 0, slowClass := cls } }
  if act = 2 then (none, s.dropIngress 0x14 (uADM n) p) else (some p, s)

/-! ### Tags of a frame -/

def isTag (et : Nat) : Bool := et == 0x8100 || et == 0x88A8

/-- The outer tag's TCI; none for an untagged frame. -/
def outerTci (f : List Byte) : Option Nat := if isTag (fb2 f 12) then some (fb2 f 14) else none

/-! ### Parse (R120–R125) -/

/-- PARSE_SEL and PARSE_PROFILE of a generation. -/
def State.parseSel (s : State) (gen : Nat) : List Nat := (s.entries 0x01 gen).map (·.2)
def State.profile (s : State) (gen i : Nat) : Nat := s.ent 0x02 gen i

/-- R124, R125: the parse stage with profile `pr`. None where the packet is dropped. -/
def State.parse (s : State) (n pr : Nat) (p : Pkt) : Option Pkt × State :=
  let p := { p with adm := { p.adm with profile := pr } }
  let e := s.profile p.adm.gen pr
  if !genValid e p.adm.gen then (none, s.dropIngress 0x15 (uADM n) p)
  else
    let o := parseFrame e p.frame
    let p := { p with
      kv := o.kv, l3Kind := profL3Kind e
      adm := { p.adm with mal := o.mal.isSome, malReason := o.mal.getD 0, bos := o.bos, l3Off := o.l3Off, l4Off := o.l4Off } }
    let s := match o.mal with | some r => s.addCtr (malCtr n r) 1 | none => s
    if o.drop then (none, s.dropIngress 0x13 (uADM n) p)
    else match o.slow with
      | some c => s.markSlow n p c
      | none => (some p, s)

/-! ### Words in error (R153, R154, R159) -/

/-- What a header meets in memory as it is searched: `ecc` 1 a corrected, 2 an uncorrectable word read in table `tid` at
slot or index `slot`, where 2^24 + w is word w of the table's search index; `cam` the finding at a CAM match: 1 an error in
check bits, 2 in a key bit, 3 uncorrectable (R192), 4 a corrected, 5 an uncorrectable binding word (R193). -/
structure Reads where
  ecc : Nat := 0
  tid : Nat := 0
  slot : Nat := 0
  cam : Nat := 0
  deriving DecidableEq, Repr

/-- R154, R177: an uncorrectable word is reported, with EVT_TABLE_ECC; a search index's word is then rebuilt, and what reaches
it meanwhile drops with no further report. -/
def State.badWord (s : State) (uid course tid slot : Nat) : State :=
  if s.gen.nodes.contains (tid, slot) then s
  else
    ((s.wordReport tid slot 1).event 0x20 0x210 uid (tid * 2 ^ 32 + course * 2 ^ 24 + slot % 2 ^ 24) 0).markNode tid slot

/-- R159: the words of the search indexes are rebuilt, and the uncorrectable words this meets are reported and left as found. -/
def State.rebuildNodes (s : State) : State :=
  if s.gen.nodes.isEmpty then s
  else
    let (k, s) := s.draw
    let s := s.modGen fun g => { g with nodes := [] }
    s.each (Config.rebuildBad k) fun s w => s.badWord uTG 0 w.1 (w.2 % 2 ^ 24)

/-- What a stage that reads the words `ws` meets: the first of them that stands as uncorrectable (R375), else `r`. -/
def State.meets (s : State) (ws : List (Nat × Nat)) (r : Reads) : Reads :=
  match ws.find? fun w => s.spoiled w.1 w.2 with
  | some w => { r with ecc := 2, tid := w.1, slot := w.2 }
  | none => r

/-- R153, R154: a stage of course `n` whose tables include those of `here` reads the word of `r`. True where the packet is to
be dropped. -/
def State.readEcc (s : State) (n : Nat) (here : List Nat) (r : Reads) : Bool × State :=
  if !here.contains r.tid then (false, s)
  else if r.ecc = 1 then (false, s.wordReport r.tid r.slot 0)
  else if r.ecc = 2 then (true, s.badWord (uLKP n) n r.tid r.slot)
  else (false, s)

/-- A drop in the course with a DETAIL. -/
def State.dropWith (s : State) (code uid : Nat) (p : Pkt) (detail : Nat) : State :=
  (s.drop code p.adm.port { p.info uid with detail := detail }).leaveFlight p

/-- Tables of the lookup stage's own searches, and those the resolve stage reads. -/
def lookupTids (n : Nat) : List Nat := [0x10, 0x12, 0x13, 0x20 + n]
def resolveTids : List Nat := [0x18, 0x19, 0x1A, 0x40, 0x43]

/-- R154: a stage of a course drops the packet if it meets an uncorrectable word. -/
def State.eccDrop (s : State) (n uid : Nat) (here : List Nat) (p : Pkt) (r : Reads) (go : State → State) : State :=
  match s.readEcc n here r with
  | (true, s) => s.dropWith 0x20 uid p r.tid
  | (false, s) => go s

/-! ### Sieve (R178–R180) -/

/-- The sieve stage of the ingress pass; an uncorrectable word of a rule or of the search index drops the packet (R154,
R177). -/
def State.sieveStage (s : State) (n : Nat) (p : Pkt) (r : Reads) : Option Pkt × State :=
  let set := p.adm.profile
  if s.getF uTG (F.SIV_SET_EN.i set) = 0 then (some { p with slots := [{}] }, s)
  else
    let kd := s.getF uTG (F.SIV_SET_KEYDEF.i set)
    let r := s.meets ((s.sieveFind 0 p.adm.gen kd (s.sieveKey kd (keyView p))).map fun x => (0x30, x.1)).toList r
    match s.readEcc n [0x30] r with
    | (true, s) => (none, s.dropWith 0x20 (uSIV n) p r.tid)
    | (false, s) =>
    match s.sieveFind 0 p.adm.gen kd (s.sieveKey kd (keyView p)) with
    | none => (some { p with slots := [{}] }, s.addF (uSIV n) F.SIV_ING_MISS_COUNT 1)
    | some (i, e) =>
      let s := s.addF (uSIV n) F.SIV_ING_MATCH_COUNT 1
      let p := { p with slots := [{ hit := true, result := sivResult e, index := i, extra := sivDetour e }] }
      if sivDetour e = 0 then (some p, s) else s.markSlow n p (sivDetour e)

/-! ### The lookups -/

/-- Count a lookup and its hit (Table 10 of chapter 16; class: the slot code of R196). -/
def State.countLookup (s : State) (n code : Nat) (hit : Bool) : State :=
  let s := s.occur (uLKP n) 0x100 code none 0 1
  if hit then s.occur (uLKP n) 0x101 code none 0 1 else s

/-- One EM lookup. -/
def State.emLookup (s : State) (n code : Nat) (p : Pkt) (kt : Nat) : Slot × State :=
  match s.emFind p.adm.gen kt (s.emKey kt (keyView p)) with
  | none => ({}, s.countLookup n code false)
  | some i =>
    let e := s.ent 0x10 0 i
    ({ hit := true, result := emResult e, index := i, extra := if s.keyWide kt then bitsOf e (8 * 0x30) 64 else 0 },
     (s.countLookup n code true).setEntBit 0x10 i 61)

/-- The VRF of a lookup set. -/
def State.setVrf (s : State) (pr : Nat) (view : List Byte) : Nat :=
  if s.getF uTG (F.LKP_SET_B_VRF_FROM_KEY.i pr) = 1 then beNat (sliceBytes view (s.getF uTG (F.LKP_SET_B_VRF_OFF.i pr)) 2) % 4096
  else s.getF uTG (F.LKP_SET_B_VRF.i pr)

/-- The LPM lookup of a lookup set. -/
def State.lpmLookup (s : State) (n : Nat) (p : Pkt) : Slot × State :=
  let pr := p.adm.profile
  let v6 := s.getF uTG (F.LKP_SET_A_LPM_AF.i pr) == 2
  let view := keyView p
  let addr := beNat (sliceBytes view (s.getF uTG (F.LKP_SET_A_LPM_ADDR_OFF.i pr)) (if v6 then 16 else 4))
  match s.lpmFind p.adm.gen v6 (s.setVrf pr view) addr with
  | none => ({}, s.countLookup n 3 false)
  | some i =>
    let e := s.ent (lpmTable v6) 0 i
    ({ hit := true, result := lpmResult e, index := i }, (s.countLookup n 3 true).setEntBit (lpmTable v6) i 61)

/-- The CAM lookup: the slot, whether the packet is dropped under a code. -/
def State.camLookup (s : State) (n : Nat) (p : Pkt) (r : Reads) (skip : Bool) : Slot × Option Nat × State :=
  let pr := p.adm.profile
  let t := s.getF uTG (F.LKP_CAM_SET_TABLE.i pr)
  let kt := s.getF uTG (F.LKP_CAM_SET_KEY_TYPE.i pr)
  let skipped (s : State) : Slot × Option Nat × State :=
    ({ skipped := true }, none, s.addFS uCAMG t F.CAM_TBL_SKIP_COUNT 1)
  if skip then skipped s
  else match s.searchReplica t n with
    | none => skipped s
    | some rep =>
      let key := sliceBytes (segBytes (keyView p) (s.keySegs kt)) 0 (s.camKeyLen t)
      match s.camMatch p.adm.gen t rep key r.cam r.slot with
      | none => ({}, none, s.countLookup n 4 false)
      | some (a, cam) =>
        let e := s.ent (0x38 + t) 0 a
        let bank := (s.camBankOf t rep a).getD uCAMG
        let verify := s.getF bank F.CAM_BANK_CFG_VERIFY == 1
        let s := s.countLookup n 4 true
        let fail (s : State) : State :=
          (s.addFS uCAMG t F.CAM_TBL_VERIFY_FAIL_COUNT 1).event 0x25 0x210 bank ((0x38 + t) * 2 ^ 32 + a) 0
        if verify ∧ cam = 2 then ({}, some 0x26, (fail s).report bank 2 a)
        else if verify ∧ cam = 3 then
          ({}, some 0x26, (fail s).poisonRow bank (0x38 + t) a (s.camUnit t a))
        else if cam = 5 ∨ s.flt.badWords.contains (bank, 0x38 + t, a) then
          ({}, some 0x20, (s.report bank 1 a).event 0x20 0x210 (uLKP n) ((0x38 + t) * 2 ^ 32 + n * 2 ^ 24 + a) 0)
        else
          let s := if verify ∧ cam = 1 then s.report bank 2 a else if cam = 4 then s.report bank 0 a else s
          ({ hit := true, result := camResult e, index := a }, none, s.setEntBit (0x38 + t) a 61)

/-- The learned-table lookups: LRN_DST, LRN_SRC and the source key (R144, R147). -/
def State.lrnLookup (s : State) (n : Nat) (p : Pkt) : Slot × Slot × Nat × State :=
  let view := keyView p
  let g (f : Fld) := s.getF (uLRN n) f
  let dst := lrnKey view (g F.LRN_KEY_FID_OFF) (g F.LRN_KEY_DMAC_OFF)
  let src := lrnKey view (g F.LRN_KEY_FID_OFF) (g F.LRN_KEY_SMAC_OFF)
  let t := 0x20 + n
  let slot (i : Option Nat) : Slot := match i with
    | none => {}
    | some i => { hit := true, result := lrnPort (s.ent t 0 i), index := i, extra := lrnPort (s.ent t 0 i) }
  let d := s.lrnFind n dst
  let r := s.lrnFind n src
  let s := s.countLookup n 6 d.isSome
  (slot d, slot r, src, match r with | some i => s.setEntBit t i 62 | none => s)

/-- The words the lookup stage reads in table SRAM: of both EM lookups' buckets and of the route that matches. -/
def State.lookupWords (s : State) (p : Pkt) (lpm : Slot) : List (Nat × Nat) :=
  let g (f : Fld) := s.getF uTG (f.i p.adm.profile)
  let em (kt : Nat) := s.emWords p.adm.gen kt (s.emKey kt (keyView p))
  (if g F.LKP_SET_A_EM0_EN = 1 then em (g F.LKP_SET_A_EM0_TYPE) else []) ++
  (if g F.LKP_SET_A_EM1_EN = 1 then em (g F.LKP_SET_A_EM1_TYPE) else []) ++
  (if lpm.hit then [(lpmTable (g F.LKP_SET_A_LPM_AF == 2), lpm.index)] else [])

/-- R131, R144: the lookup stage. Answers the packet with its slots, the key it may learn, or a drop. -/
def State.lookupStage (s : State) (n : Nat) (p : Pkt) (r : Reads) (skip : Bool) : Option (Pkt × Option Nat) × State :=
  let pr := p.adm.profile
  let g (f : Fld) := s.getF uTG (f.i pr)
  let (em0, s) := if g F.LKP_SET_A_EM0_EN = 1 then s.emLookup n 1 p (g F.LKP_SET_A_EM0_TYPE) else ({}, s)
  let (em1, s) := if g F.LKP_SET_A_EM1_EN = 1 then s.emLookup n 2 p (g F.LKP_SET_A_EM1_TYPE) else ({}, s)
  let (lpm, s) := if g F.LKP_SET_A_LPM_AF = 0 then (({} : Slot), s) else s.lpmLookup n p
  let (cam, camDrop, s) := if g F.LKP_CAM_SET_EN = 1 then s.camLookup n p r skip else (({} : Slot), none, s)
  let lrn := g F.LKP_SET_A_LRN_EN == 1 && s.up (uLRN n)
  let (dst, src, key, s) := if lrn then s.lrnLookup n p else (({} : Slot), ({} : Slot), 0, s)
  let p := { p with slots := p.slots ++ [em0, em1, lpm, cam, dst, src] }
  let r := s.meets (s.lookupWords p lpm) r
  match s.readEcc n (lookupTids n) r with
  | (true, s) => (none, s.dropWith 0x20 (uLKP n) p r.tid)
  | (false, s) => match camDrop with
    | some code => (none, s.dropWith code (uLKP n) p (if code = 0x20 then 0x38 + g F.LKP_CAM_SET_TABLE else 0))
    | none =>
      let mac := key / 2 ^ 40 % 2
      let learns := lrn && s.getF (uLRN n) F.LRN_CFG_EN == 1 && !p.adm.mal && !p.adm.host && mac == 0 && p.adm.pass == 1
      (some (p, if learns then some key else none), s)

/-! ### Resolve (R195–R201, R212) -/

/-! Fields of an ingress action record (Table 2 of chapter 9). -/
def actKind (e : Nat) : Nat := bitsOf e 59 3
def actIndex (e : Nat) : Nat := bitsOf e 39 20
def actTcEn (e : Nat) : Bool := bitsOf e 38 1 == 1
def actMeterEn (e : Nat) : Bool := bitsOf e 32 1 == 1
def actEmEn (e : Nat) : Bool := bitsOf e 17 1 == 1
def actDetour (e : Nat) : Nat := bitsOf e 0 4

/-! Fields of the EDITS word, word 0x08 of the record. -/
def edDscpEn (w : Nat) : Bool := bitsOf w 63 1 == 1
def edDscp (w : Nat) : Nat := bitsOf w 57 6
def edPcpEn (w : Nat) : Bool := bitsOf w 56 1 == 1
def edPcp (w : Nat) : Nat := bitsOf w 53 3
def edTtl (w : Nat) : Bool := bitsOf w 52 1 == 1
def edDecap (w : Nat) : Nat := bitsOf w 50 2
def edDecapLen (w : Nat) : Nat := bitsOf w 42 8
def edDecapEt (w : Nat) : Nat := bitsOf w 26 16
def edPush (w : Nat) : Nat := bitsOf w 23 3
def edCapture (w : Nat) : Bool := bitsOf w 22 1 == 1
def edFctr (w : Nat) : Option Nat := if bitsOf w 21 1 = 1 then some (bitsOf w 0 21) else none

/-- R196: the edit groups of the forwarding record `f` and the KEEP record `k`, each from `f` where it sets the group's
enable: EDITS, LSE words, PTP word. -/
def composeEdits (f k : Nat) : Nat × Nat × Nat × Nat :=
  let wf := bitsOf f 64 64
  let wk := bitsOf k 64 64
  let pf := bitsOf f 256 64
  let pk := bitsOf k 256 64
  let put (sel : Bool) (a b lo w : Nat) : Nat := bitsOf (if sel then a else b) lo w * 2 ^ lo
  let push := edPush wf != 0
  (put (edDscpEn wf) wf wk 57 7 + put (edPcpEn wf) wf wk 53 4 + put (edTtl wf) wf wk 52 1 + put (edDecap wf != 0) wf wk 26 26 +
     put push wf wk 23 3 + put (edCapture wf) wf wk 22 1 + put (edFctr wf).isSome wf wk 0 22,
   bitsOf (if push then f else k) 128 64, bitsOf (if push then f else k) 192 64,
   put (ptpMode pf != 0) pf pk 37 27 + put (ptpRouted pf) pf pk 36 1)

/-- A forwarding result: next hop, ECMP group, list, drop, or a learned port (R141, R196, R197). -/
inductive Fwd where
  | nextHop (i : Nat)
  | ecmp (g : Nat)
  | list (l : Nat)
  | discard
  | learned (port : Nat)
  deriving DecidableEq, Repr

/-- The result of an RTYPE other than ACTION. -/
def fwdOf (result : Nat) : Fwd :=
  let i := result % 2 ^ 20
  if result / 2 ^ 22 = 0 then .nextHop i else if result / 2 ^ 22 = 1 then .ecmp i else .discard

/-- The result of a forwarding record (Table 2). -/
def actFwd (e : Nat) : Fwd :=
  if actKind e = 0 then .nextHop (actIndex e) else if actKind e = 1 then .ecmp (actIndex e)
  else if actKind e = 2 then .list (actIndex e) else .discard

/-- What the walk of R196 has found: a drop, or the forwarding result with its record and the applied KEEP record. -/
inductive Walk where
  | drop (code : Nat)
  | found (f : Fwd) (rec_ keep : Option Nat)
  | none_ (keep : Option Nat)
  deriving DecidableEq, Repr

/-- One hit of the walk. `last` is MISS_RESULT's use, where a KEEP record ends in DROP_NO_ROUTE. -/
def State.walkHit (s : State) (gen result : Nat) (keep : Option Nat) (last : Bool) : Walk :=
  if result / 2 ^ 22 ≠ 2 then .found (fwdOf result) none keep
  else
    let e := s.ent 0x40 gen (result % 2 ^ 20)
    if !genValid e gen then .drop 0x27
    else if actKind e = 4 then (if last then .drop 0x28 else .none_ (some (keep.getD e)))
    else .found (actFwd e) (some e) keep

/-- Slot number of a slot code of R196 (slots in the job record's order). -/
def slotOf (p : Pkt) (code : Nat) : Slot :=
  let i := if code = 5 then 0 else if code = 6 then 5 else code
  p.slots.getD i {}

/-- R196: the walk over slot codes, then MISS_RESULT. -/
def State.walk (s : State) (p : Pkt) (miss : Nat) : List Nat → Option Nat → Walk
  | [], keep => s.walkHit p.adm.gen miss keep true
  | c :: r, keep =>
    if c = 0 then s.walkHit p.adm.gen miss keep true
    else
      let x := slotOf p c
      if !x.hit then s.walk p miss r keep
      else if c = 6 then .found (.learned x.extra) none keep
      else match s.walkHit p.adm.gen x.result keep false with
        | .none_ k => s.walk p miss r k
        | w => w

/-- R198: the traffic class where no record gives one. -/
def State.setTc (s : State) (p : Pkt) : Nat :=
  let src := s.getF uTG (F.RSV_SET_A_TC_SRC.i p.adm.profile)
  if src = 0 then s.getF uTG (F.RSV_SET_A_TC.i p.adm.profile)
  else if src = 1 then (match outerTci p.frame with | some t => t / 2 ^ 13 | none => 0)
  else
    let o := p.adm.l3Off
    if p.l3Kind = 1 then fb p.frame (o + 1) / 32
    else if p.l3Kind = 2 then fb2 p.frame o / 16 % 256 / 32 else 0

/-- Labels a decapsulation takes from the stack at L3_OFF: those popped, or those that the bytes stripped reach (log entry
80). -/
def labelsOff (p : Pkt) : Nat :=
  let n := edDecapLen p.edits
  if edDecap p.edits = 0 then 0 else if edDecap p.edits = 3 then n else (n + 3 - p.adm.l3Off) / 4

/-- A decapsulation leaves no label of the stack (MPLS_BOS 0: no bottom of stack found). -/
def stackGone (p : Pkt) : Bool := p.adm.bos != 0 && decide (p.adm.bos ≤ labelsOff p)

/-- R199: the offset of the TTL a TTL_DEC packet is checked at; none where nothing is checked. -/
def ttlAt (p : Pkt) : Option Nat :=
  let o := p.adm.l3Off
  if p.l3Kind = 1 then some (o + 8) else if p.l3Kind = 2 then some (o + 7)
  else if p.l3Kind = 3 ∧ !stackGone p then some (o + 4 * labelsOff p + 3)
  else none

/-- R212: decapsulation lies within the frame or stack. -/
def decapOk (p : Pkt) : Bool :=
  let n := edDecapLen p.edits
  match edDecap p.edits with
  | 0 => true
  | 3 => p.l3Kind == 3 && (p.adm.bos == 0 || decide (n ≤ p.adm.bos))
  | _ => decide (n + 14 ≤ p.frame.length)

/-! Fields of a NEXT_HOP entry (Table 8 of chapter 6). -/
def nhValid (e : Nat) : Bool := bitsOf e 63 1 == 1
def nhKind (e : Nat) : Nat := bitsOf e 61 2
def nhTarget (e : Nat) : Nat := bitsOf e 40 18

/-- R141: what a next hop gives: a queue (the copy), a punt's ring, or a drop code. -/
inductive Hop where
  | queue (q : Nat)
  | punt (ring : Nat)
  | drop (code : Nat)
  deriving DecidableEq, Repr

def State.hop (s : State) (i tc : Nat) : Hop :=
  let e := s.ent 0x18 0 i
  if !nhValid e then .drop 0x21
  else if nhKind e = 1 then .drop 0x22
  else if nhKind e = 2 then .punt (nhTarget e % 2 ^ 15)
  else .queue (nhTarget e + tc)

/-- R142: the next hop an ECMP group selects; none where the group is not valid. -/
def State.ecmpHop (s : State) (g : Nat) (view : List Byte) : Option Nat :=
  let e := s.ent 0x19 0 g
  if bitsOf e 63 1 = 0 then none
  else some (s.ent 0x1A 0 (bitsOf e 0 22 + hashPick (s.viewHash (bitsOf e 43 3) view) (bitsOf e 32 10)) % 2 ^ 20)

/-- R213: the fate a list's head gives, read once; a head with VALID 0 drops the packet. -/
def listFate (head : Nat) (foot : Bool) : Fate ⊕ Nat := if bitsOf head 63 1 = 1 then .inl (.list head foot) else .inr 0x2C

/-- The action record that a result names. -/
def hitWords (result : Nat) : List (Nat × Nat) := if result / 2 ^ 22 = 2 then [(0x40, result % 2 ^ 20)] else []

/-- The action records the walk of R196 reads. -/
def State.walkWords (s : State) (p : Pkt) (miss : Nat) : List Nat → List (Nat × Nat)
  | [] => hitWords miss
  | c :: r =>
    if c = 0 then hitWords miss
    else
      let x := slotOf p c
      if !x.hit then s.walkWords p miss r
      else if c = 6 then []
      else match s.walkHit p.adm.gen x.result none false with
        | .none_ _ => hitWords x.result ++ s.walkWords p miss r
        | _ => hitWords x.result

/-- The words a forwarding result is read from. -/
def State.fwdWords (s : State) (p : Pkt) : Fwd → List (Nat × Nat)
  | .nextHop i => [(0x18, i)]
  | .ecmp g =>
    let e := s.ent 0x19 0 g
    let m := bitsOf e 0 22 + hashPick (s.viewHash (bitsOf e 43 3) (keyView p)) (bitsOf e 32 10)
    [(0x19, g), (0x1A, m), (0x18, s.ent 0x1A 0 m % 2 ^ 20)]
  | .list l => [(0x43, l)]
  | .discard => []
  | .learned port => if port = p.adm.port then [] else [(0x18, s.getF uTG F.RSV_LRN_NH_BASE_BASE + port)]

/-- The words the resolve stage reads: a packet that the sieve denies reads none, and one that a record detours no next hop. -/
def State.resolveWords (s : State) (p : Pkt) : List (Nat × Nat) :=
  let pr := p.adm.profile
  let siv := p.slots.getD 0 {}
  if s.flt.badWords.isEmpty ∨ (siv.hit ∧ siv.result / 2 ^ 22 = 3) then []
  else
    let order := (List.range 6).map fun j => bitsOf (s.getF uTG (F.RSV_SET_B_ORDER.i pr)) (3 * j) 3
    let miss := s.getF uTG (F.RSV_SET_A_MISS_RESULT.i pr)
    s.walkWords p miss order ++ (match s.walk p miss order none with
      | .found f rec_ keep => if actDetour (rec_.getD 0) ≠ 0 ∨ actDetour (keep.getD 0) ≠ 0 then [] else s.fwdWords p f
      | _ => [])

/-- R195 step 7: the fate a forwarding result gives. -/
def State.fateOf (s : State) (p : Pkt) (f : Fwd) : Fate ⊕ Nat :=
  let nh (i : Nat) : Fate ⊕ Nat := match s.hop i p.tc with
    | .queue q => .inl (.queue { queue := q, nh := i })
    | .punt r => .inl (.punt r 0)
    | .drop c => .inr c
  match f with
  | .nextHop i => nh i
  | .ecmp g => (match s.ecmpHop g (keyView p) with | some i => nh i | none => .inr 0x21)
  | .list l => listFate (s.ent 0x43 0 l) false
  | .discard => .inr 0x22
  | .learned port => if port = p.adm.port then .inr 0x29 else nh (s.getF uTG F.RSV_LRN_NH_BASE_BASE + port)

/-- R202, R204, R205: the ingress meter of the course; none where the packet is dropped. -/
def State.meterStage (s : State) (n : Nat) (p : Pkt) (m : Nat) : Option Pkt × State :=
  let i := 16384 * n + bitsOf m 18 14
  let c := bitsOf m 33 2
  let inC := if c = 3 then (match outerTci p.frame with | some t => t / 2 ^ 12 % 2 | none => 0) else c
  let (color, s) := s.meter 0x45 i (p.frame.length + 4) inC
  if color = 2 ∧ metRedDrop (s.ent 0x45 0 i) then (none, s.dropWith 0x30 (uRSV n) { p with color := color } (bitsOf m 18 14))
  else (some { p with color := color, markDei := metMarkDei (s.ent 0x45 0 i) && color != 0 }, s)

/-- What the words of the list members read at hand-off held, and the index of the first that was not clean: the outcome comes
with the pass that resolves the list (R154). -/
def Reads.memberWord (r : Reads) : Nat × Nat := if r.tid = 0x44 then (r.ecc, r.slot) else (0, 0)

/-- R195: the resolve stage, then the meter stage; the packet then waits for hand-off. -/
def State.resolve (s : State) (n : Nat) (p : Pkt) (learn : Option Nat) (r : Reads) : State :=
  let siv := p.slots.getD 0 {}
  let cam := p.slots.getD 4 {}
  let pr := p.adm.profile
  let u := uRSV n
  if siv.hit ∧ siv.result / 2 ^ 22 = 3 then s.dropIngress 0x23 u p
  else if cam.skipped ∧ s.camCfg (s.getF uTG (F.LKP_CAM_SET_TABLE.i pr)) F.CAM_TBL_CFG_SKIP_ACTION = 1 then s.dropIngress 0x25 u p
  else
    let order := (List.range 6).map fun j => bitsOf (s.getF uTG (F.RSV_SET_B_ORDER.i pr)) (3 * j) 3
    match s.walk p (s.getF uTG (F.RSV_SET_A_MISS_RESULT.i pr)) order none with
    | .drop code => s.dropIngress code u p
    | .none_ _ => s.dropIngress 0x28 u p
    | .found f rec_ keep =>
      let rec1 := rec_.getD 0
      let k := keep.getD 0
      let det := if actDetour rec1 ≠ 0 then actDetour rec1 else actDetour k
      let (q, s) := if det = 0 then (some p, s) else s.markSlow n p det
      match q with
      | none => s
      | some p =>
        if p.adm.slow then s.toHand n { pkt := p, fate := .detour, learn := learn, fctr := edFctr (composeEdits rec1 k).1 }
        else
          let (ed, l01, l23, ptp) := composeEdits rec1 k
          let tcRec := if actTcEn rec1 then rec1 else k
          let p := { p with
            edits := ed, lse01 := l01, lse23 := l23, ptp := ptp
            tc := if actTcEn tcRec then bitsOf tcRec 35 3 else s.setTc p }
          if !decapOk p then s.dropIngress 0x2B u p
          else
            let expired := edTtl ed && (match ttlAt p with | some o => decide (fb p.frame o ≤ 1) | none => false)
            let fate : Fate ⊕ Nat :=
              if expired then
                (if s.getF uTG F.RSV_TTL_CFG_PUNT = 1 then .inl (.punt (s.getF uTG F.RSV_TTL_CFG_RING) 0x2A) else .inr 0x2A)
              else s.fateOf p f
            match fate with
            | .inr code => s.dropIngress code u p
            | .inl fate =>
              let m := if actMeterEn rec1 then rec1 else k
              let (q, s) := if actMeterEn m then s.meterStage n p m else (some p, s)
              match q with
              | none => s
              | some p =>
                let em := if actEmEn rec1 then some (bitsOf rec1 4 13) else if actEmEn k then some (bitsOf k 4 13) else none
                s.toHand n { pkt := p, fate := fate, learn := learn, capture := edCapture ed, fctr := edFctr ed, em := em, member := r.memberWord }

/-! ### The footing pass (R381, R382) -/

/-- The footing queue of a queue's port for a traffic class. -/
def State.footQueue (s : State) (q tc : Nat) : Nat := q / 65536 * 65536 + 8 * ((s.queuePath q).2.2) + tc

/-- R382: a next hop in the footing pass. -/
def State.footHop (s : State) (p : Pkt) (i : Nat) : Copy ⊕ Nat :=
  let e := s.ent 0x18 0 i
  if !nhValid e ∨ nhKind e ≠ 0 then .inr 0x21
  else
    let q := nhTarget e
    let l := (s.queuePath q).2.2
    if 64 ≤ l then .inr 0x63
    else if portOf (q / 65536) l = p.adm.port then .inr 0x29
    else .inl { queue := s.footQueue q p.tc, nh := i }

/-- R381: the VID a footing pass takes. -/
def State.footVid (s : State) (p : Pkt) : Nat :=
  match outerTci p.frame with | some t => t % 4096 | none => s.getF uFLT (F.FOOT_PORT_CFG_PVID.i p.adm.port)

/-- R381: the key of the footing lookup. -/
def State.footKey (s : State) (p : Pkt) : List Byte := beBytes (s.footVid p) 2 ++ sliceBytes p.frame 0 6

/-- The words a footing pass reads. -/
def State.footWords (s : State) (p : Pkt) : List (Nat × Nat) :=
  let gen := s.getF uTG F.GEN_STATUS_ACTIVE
  let kt := s.getF uFLT F.FOOT_CFG_KEY_TYPE
  s.emWords gen kt (s.footKey p) ++ (match s.emFind gen kt (s.footKey p) with
    | none => []
    | some i =>
      let res := emResult (s.ent 0x10 0 i)
      let a := s.ent 0x40 gen (res % 2 ^ 20)
      if res / 2 ^ 22 = 0 then [(0x18, res % 2 ^ 20)]
      else hitWords res ++ (if actKind a = 0 then [(0x18, actIndex a)] else if actKind a = 2 then [(0x43, actIndex a)] else []))

/-- R381, R382: the footing pass of a stamped header. -/
def State.footPass (s : State) (n : Nat) (p : Pkt) (r : Reads) : State :=
  let pt := p.adm.port
  let tci := outerTci p.frame
  let tc := match tci with | some t => t / 2 ^ 13 | none => s.getF uFLT (F.FOOT_PORT_CFG_PCP.i pt)
  let p := { p with tc := tc, foot := true }
  let gen := s.getF uTG F.GEN_STATUS_ACTIVE
  match s.emFind gen (s.getF uFLT F.FOOT_CFG_KEY_TYPE) (s.footKey p) with
  | none => (s.countLookup n 1 false).dropIngress 0x63 (uRSV n) p
  | some i =>
    let s := (s.countLookup n 1 true).setEntBit 0x10 i 61
    let res := emResult (s.ent 0x10 0 i)
    let x := res % 2 ^ 20
    let rt := res / 2 ^ 22
    let a := s.ent 0x40 gen x
    let one (i : Nat) : State := match s.footHop p i with
      | .inl c => s.toHand n { pkt := p, fate := .queue c }
      | .inr code => s.dropIngress code (uRSV n) p
    if rt = 0 then one x
    else if rt = 2 ∧ genValid a gen ∧ actKind a = 0 then one (actIndex a)
    else if rt = 2 ∧ genValid a gen ∧ actKind a = 2 then
      (match listFate (s.ent 0x43 0 (actIndex a)) true with
       | .inl fate => s.toHand n { pkt := p, fate := fate, member := r.memberWord }
       | .inr code => s.dropIngress code (uRSV n) p)
    else s.dropIngress 0x63 (uRSV n) p

/-! ### Admission (R113–R117, R470) -/

/-- The course of a packet that no course admitted (from the host or the fabric, straight to row 32 or a fabric row): the one
that serves its ingress port's blocks (R36), or the host port's (log entry 81). -/
def State.portCourse (s : State) (port : Nat) : Nat :=
  if port ≥ 256 then port - 256 else (s.serving (port / 32)).getD (port / 32)

/-- R114, R115: a header takes fresh stamps and is counted in flight. -/
def State.stamp (s : State) (n port cls : Nat) (host : Bool) (rx : Option Nat) (f : List Byte) : Pkt × State :=
  let gen := s.getF (uADM n) F.ADM_GEN_STATUS_GEN
  let dl := s.getF (uADM n) (F.ADM_CLASS_CFG_DEADLINE_US.i cls) * 1000
  let a : Adm := { admitAt := s.ns, rxTs := rx.getD (s.ns * 65536) % 2 ^ 64, deadline := dl, gen := gen, pass := 1, host := host
                   port := port, cls := cls, course := n }
  let s := s.addF uTG (inflightFld gen) 1
  let old := s.gen.maxDeadline.get (fun _ => 0) gen
  ({ frame := f, adm := a }, (s.modGen fun g => { g with maxDeadline := s.gen.maxDeadline.put (fun _ => 0) gen (max old dl) }))

/-- The stages after the parser: sieve, lookup, resolve; a SLOW packet goes to its detour (R18). -/
def State.stages (s : State) (n : Nat) (p : Pkt) (r : Reads) (skip : Bool) : State :=
  if p.adm.slow then s.toHand n { pkt := p, fate := .detour }
  else match s.sieveStage n p r with
    | (none, s) => s
    | (some p, s) =>
      if p.adm.slow then s.toHand n { pkt := p, fate := .detour }
      else match s.lookupStage n p r skip with
        | (none, s) => s
        | (some (p, learn), s) => s.eccDrop n (uRSV n) resolveTids p (s.meets (s.resolveWords p) r) fun s => s.resolve n p learn r

/-- R120: the profile PARSE_SEL or the port class gives. -/
def State.pickProfile (s : State) (n : Nat) (p : Pkt) : Nat :=
  selectProfile (s.parseSel p.adm.gen) p.adm.gen p.adm.cls (fb2 p.frame 12) (fb2 p.frame 16)
    (s.getF (uADM n) (F.ADM_CLASS_CFG_DEFAULT_PROFILE.i p.adm.cls))

/-- Take the CAM-skip mark of the next header. -/
def State.takeSkip (s : State) (n : Nat) : Bool × State :=
  ((s.course n).camSkip, s.setCourse n { s.course n with camSkip := false })

/-- A stamped fresh header runs its pass. -/
def State.firstPass (s : State) (n : Nat) (p : Pkt) (r : Reads) : State :=
  let s := s.occur (uADM n) 0x100 p.adm.cls none 0 1
  let (skip, s) := s.takeSkip n
  if s.footing then s.eccDrop n (uLKP n) (0x10 :: resolveTids) p (s.meets (s.footWords p) r) fun s => s.footPass n p r
  else match s.parse n (s.pickProfile n p) p with
    | (none, s) => s
    | (some p, s) => s.stages n p r skip

/-- Port blocks a course serves and does not hold (R36, R378, R379). -/
def State.servedBlocks (s : State) (n : Nat) : List Nat :=
  (List.range 32).filter fun b => s.serving (b / 4) == some n && !(s.course n).heldBlocks.contains b

/-- The oldest frame that waits for course `n` (R470); of two that arrived at one time, the lower block's (DESIGN CHOICE, log
entry 89). -/
def State.nextFrame (s : State) (n : Nat) : Option RxFrame :=
  (s.servedBlocks n).foldl (fun (a : Option RxFrame) b => match a, (s.rxBlock b).head? with
    | some x, some y => if y.at_ < x.at_ then some y else some x
    | none, y => y
    | x, none => x) none

/-- HEADER_ADMIT: course `n` admits the oldest port header, or a host-injected frame, whose descriptor completes then (R78). -/
def State.admitHeader (s : State) (n : Nat) (host : Bool) (r : Reads) : State :=
  let adm := (s.ust (uADM n) == 4 || s.ust (uADM n) == 5) && s.getF (uADM n) F.UCB_STATE_ISOLATED == 0
  if !s.taking ∨ !(if host then adm else s.courseUp n) then s
  else if host then
    match (s.course n).inject with
    | [] => s
    | f :: rest =>
      let s := (s.setCourse n { s.course n with inject := rest }).complete f.ring f.idx (comp 0 f.len 0)
      let (p, s) := s.stamp n (256 + n) (s.getF (uADM n) (F.ADM_PORT_CFG_CLASS.i 32)) true none f.frame
      s.firstPass n p r
  else
    match s.nextFrame n with
    | none => s
    | some x =>
      let s := s.setRx (x.port / 8) (s.rxBlock (x.port / 8)).tail
      let cls := s.getF (uADM (x.port / 32)) (F.ADM_PORT_CFG_CLASS.i (x.port % 32))
      let (p, s) := s.stamp n x.port cls false (some x.stamp) x.frame
      s.firstPass n p r

/-- RECIRCULATION_ADMIT (R20, R21, R217): deadline, pass limit, then the recirculation pass. -/
def State.admitRecirc (s : State) (n : Nat) (r : Reads) : State :=
  if !s.taking ∨ ¬ ((s.ust (uADM n) = 4 ∨ s.ust (uADM n) = 5) ∧ s.getF (uADM n) F.UCB_STATE_ISOLATED = 0) then s
  else match (s.course n).recirc with
    | [] => s
    | x :: rest =>
      let s := s.setCourse n { s.course n with recirc := rest }
      let p := x.pkt
      if s.footing then s.dropIngress 0x62 (uADM n) p
      else if s.pastDeadline p then s.dropIngress 0x10 (uADM n) p
      else if p.adm.pass ≠ 1 then s.dropIngress 0x12 (uADM n) p
      else
        let (skip, s) := s.takeSkip n
        let p := { p with slots := [], adm := { p.adm with pass := 2, slow := false, mal := false, malReason := 0, bos := 0 } }
        match s.parse n x.profile p with
        | (none, s) => s
        | (some p, s) => s.stages n p r skip

end Sys2Proof.Machine
end

