-- ==== Sys2Proof/Machine/HandOff.lean ====
section
/-!
DEFINITION. Hand-off: learning (R144–R147), the choice of an engine cluster (R221, R222), replication (R213–R215), the three
steps of R270, and the flow counters (R362, R363).
-/
namespace Sys2Proof.Machine

/-! ### Flow counters (R362, R363) -/

/-- Add a packet to a counter's delta in a cache; a full cache evicts its oldest delta first. -/
def State.flowCount (s : State) (cache ctr bytes : Nat) : State :=
  if s.getF uTAL F.TAL_FLOW_CFG_EN = 0 then s
  else
    let t := s.tal
    if t.flows.any fun d => d.cache == cache && d.ctr == ctr then
      { s with tal := { t with flows := t.flows.map fun d =>
          if d.cache = cache ∧ d.ctr = ctr then { d with pkts := d.pkts + 1, bytes := d.bytes + bytes } else d } }
    else
      let full := 8192 ≤ (t.flows.filter fun d => d.cache == cache).length
      let old := if full then t.flows.find? fun d => d.cache == cache else none
      let flows := match old with | some d => t.flows.erase d | none => t.flows
      let out := match old with | some d => t.flowOut ++ [{ d with at_ := s.ns }] | none => t.flowOut
      { s with tal := { t with flows := flows ++ [⟨cache, ctr, 1, bytes, 0⟩], flowOut := out } }

/-! ### Learning (R144, R146) -/

/-- R146: a learn that needs a record may be made: within LIMIT, and the LEARN ring has room. -/
def State.mayLearn (s : State) (n : Nat) : Bool :=
  let r := s.getF (uLRN n) F.LRN_RING_RING
  decide ((s.course n).learned < s.getF (uLRN n) F.LRN_CFG_LIMIT) && s.ringUp r 0x12 && !s.ringFull r

/-- Table 13 of chapter 6: a learn record. -/
def State.learnRec (s : State) (n kind port old slot key : Nat) : State :=
  let d := wordsBytes [kind * 2 ^ 56 + n * 2 ^ 48 + port * 2 ^ 39 + old * 2 ^ 30 + slot, s.ns, key, 0]
  (s.recordNow (s.getF (uLRN n) F.LRN_RING_RING) 0x12 d).setCourse n { s.course n with learned := (s.course n).learned + 1 }

/-- R144, Table 12: the learn of a packet at hand-off. -/
def State.learn (s : State) (n port key : Nat) : State :=
  let u := uLRN n
  let t := 0x20 + n
  let image (port : Nat) : Nat := 2 ^ 63 + 2 ^ 62 + port * 2 ^ 52 + key * 2 ^ 64
  match s.lrnFind n key with
  | some i =>
    let e := s.ent t 0 i
    if lrnPort e = port ∨ lrnStatic e ∨ s.getF u F.LRN_CFG_MOVE_EN = 0 then s
    else if !s.mayLearn n then s.addF u F.LRN_LIMITED_COUNT 1
    else ((s.setEnt t 0 i (setBitsOf e 52 9 port)).addF u F.LRN_MOVE_COUNT 1).learnRec n 2 port (lrnPort e) i key
  | none =>
    if !s.mayLearn n then s.addF u F.LRN_LIMITED_COUNT 1
    else match (lrnWays key).find? fun i => !lrnValid (s.ent t 0 i) with
      | some i => ((s.setEnt t 0 i (image port)).addF u F.LRN_NEW_COUNT 1).learnRec n 1 port 0 i key
      | none => (s.addF u F.LRN_FULL_COUNT 1).learnRec n 3 port 0 0 key

/-! ### Detours (R221, R222) -/

/-- R221: a cluster is in service. -/
def State.clusterUp (s : State) (c : Nat) : Bool :=
  s.up (uCSH c) && ((List.range 17).any fun e => s.up (uENG c e)) && !(s.cluster c).closed

/-- Home clusters of a course. -/
def State.homes (s : State) (n : Nat) : List Nat :=
  (List.range (s.getF (uRSV n) F.RSV_ENG_HOME_COUNT)).map fun j => bitsOf (s.getF (uRSV n) F.RSV_ENG_HOME_HOMES) (4 * j) 4

/-- R221: the cluster of a detour or punt of priority `prio`; none where no cluster is in service. -/
def State.pickCluster (s : State) (n : Nat) (p : Pkt) (prio : Nat) : Option Nat :=
  let own := s.homes n
  let all := if s.serving (partner n) = some n then own ++ s.homes (partner n) else own
  let l := all.filter s.clusterUp
  let m := (List.range 16).filter fun c => bitsOf (s.getF (uRSV n) F.RSV_ENG_OVFL_MASK) c 1 == 1 && s.clusterUp c
  let h := s.viewHash (s.getF (uRSV n) F.RSV_ENG_HOME_HPROF) (keyView p)
  let first := l[hashPick h l.length]?
  let spill : Bool := match first with
    | none => true
    | some c => decide (s.getF (uRSV n) F.RSV_ENG_SPILL_CELLS < depthOf (s.queue (internalQueue c prio)))
  if spill then (m[hashPick h m.length]?).or first else first

/-! ### Copies (R213, R215) -/

/-- The enabled members of the list with head `e` (next hop, egress action). -/
def State.listMembers (s : State) (e : Nat) : List (Nat × Option Nat) :=
  (List.range (bitsOf e 32 13)).filterMap fun i =>
    let m := s.ent 0x44 0 (bitsOf e 0 20 + i)
    if bitsOf m 63 1 = 1 then some (bitsOf m 0 20, if bitsOf m 47 1 = 1 then some (bitsOf m 32 15) else none) else none

/-- A copy of a member; a drop's code; none where SRC_PRUNE makes no copy. -/
def State.memberCopy (s : State) (n : Nat) (p : Pkt) (prune foot : Bool) (m : Nat × Option Nat) : Option (Copy ⊕ Nat) :=
  let act (c : Copy) : Copy := { c with eactEn := m.2.isSome, eact := m.2.getD 0 }
  if foot then
    (match s.footHop p m.1 with
     | .inl c => some (.inl c)
     | .inr code => if code = 0x29 then none else some (.inr code))
  else match s.hop m.1 p.tc with
    | .queue q => if prune ∧ p.adm.port < 256 ∧ s.queuePort q = p.adm.port then none else some (.inl (act { queue := q, nh := m.1 }))
    | .punt r => (match s.pickCluster n p 0 with
      | some c => some (.inl { queue := internalQueue c 0, punt := some r })
      | none => some (.inr 0x38))
    | .drop code => some (.inr code)

/-- R202: a copy of a packet that is not detoured carries the record's egress meter. -/
def Hand.meterCopy (h : Hand) (c : Copy) : Copy := { c with emEn := h.em.isSome, em := h.em.getD 0 }

/-- R215: an account of `k` copies of a packet that course `n` admitted. -/
def State.openMc (s : State) (n port k : Nat) : Nat × State :=
  let id := s.bas.nextMc
  (id, (s.modBas fun b => { b with nextMc := id + 1, mcs := s.bas.mcs.put (fun _ => none) id (some ⟨n, port, k, 0, 0⟩) }))

/-! ### The hand-off stage -/

/-- R22: the basin row a course writes a packet into. -/
def handRow (port : Nat) : Nat := if port < 256 then port / 8 else 4 * (port - 256)

/-- R271 for copies: the packet's charge. -/
def State.chargeOf (s : State) (p : Pkt) (cs : List Copy) (extra : Nat) : Nat :=
  (s.copyCols cs).length * (cellsOf p.frame.length + extra)

/-- Steps 2 and 3 of R270 for the copies of a packet; where an instance is placed, a capture record (R286). A packet handed
off to a replication list leaves flight; one copy leaves it where `placeInst` says. -/
def State.writeBasin (s : State) (n : Nat) (h : Hand) (p : Pkt) (cs : List Copy) (list : Bool) : State :=
  let extra := if cs.all (fun c => portCol (s.queuePort c.queue) == 32 && c.src == 0 && c.punt.isNone) then 1 else 0
  let count (s : State) : State := match h.fctr with | some f => s.flowCount (2 * n) f (p.frame.length + 4) | none => s
  if cs.isEmpty then (count s).leaveFlight h.pkt
  else if !s.ingressOk p (s.chargeOf p cs extra) then
    let s := s.drop 0x40 p.adm.port (p.info uBSN)
    (s.each cs fun s _ => s.mcDone p false).leaveFlight h.pkt
  else
    let s := count s
    let (placed, s) := s.placeAll (handRow p.adm.port) n p cs
    let s := if placed ∧ h.capture then
        let c := cs.headD { queue := 0 }
        s.capture (captureRec 0 list p p.frame 0 (if list then 0 else c.queue) (if list then 0 else c.nh) s.ns)
      else s
    if list then s.leaveFlight h.pkt else s

/-- R214: the copies that a list with head `l` makes at hand-off. -/
def State.replicateClean (s : State) (n : Nat) (h : Hand) (l : Nat) (foot : Bool) : State :=
  let p := h.pkt
  let prune := foot || bitsOf l 62 1 == 1
  let ms := (s.listMembers l).map fun m => s.memberCopy n p prune foot m
  let made := ms.filterMap id
  let pruned := (ms.filter (·.isNone)).length
  let s := s.addF (uRSV n) F.RSV_MC_PRUNED_COUNT pruned
  let s := (s.addF (uRSV n) F.RSV_MC_COPIES_COUNT made.length).occur (uRSV n) 0x100 p.tc none 0 made.length
  let (id, s) := if made.isEmpty then (0, s) else s.openMc p.adm.course p.adm.port made.length
  let p := { p with mc := if made.isEmpty then none else some id, counted := false }
  let codes := made.filterMap fun x => match x with | .inr c => some c | .inl _ => none
  let cs := made.filterMap fun x => match x with
    | .inl c => some (h.meterCopy c)
    | .inr _ => none
  let s := s.each codes fun s code =>
    ((s.when (code == 0x38) fun s => s.addF (uRSV n) F.RSV_NO_ENGINE_COUNT 1).drop code p.adm.port (p.info (uRSV n))).mcDone p false
  s.writeBasin n h p cs true

/-- R213, R214: a list at hand-off, whose member words are read there (R153, R154). -/
def State.replicate (s : State) (n : Nat) (h : Hand) (l : Nat) (foot : Bool) : State :=
  match s.readEcc n [0x44] (s.meets ((List.range (bitsOf l 32 13)).map fun i => (0x44, bitsOf l 0 20 + i)) ⟨h.member.1, 0x44, h.member.2, 0⟩) with
  | (true, s) => s.dropWith 0x20 (uRSV n) h.pkt 0x44
  | (false, s) => s.replicateClean n h l foot

/-- HAND_OFF: the oldest packet that waits in course `n`. -/
def State.handOff (s : State) (n : Nat) : State :=
  match (s.course n).hand with
  | [] => s
  | h :: rest =>
    let s := s.setCourse n { s.course n with hand := rest }
    let p := h.pkt
    if s.pastDeadline p then s.dropIngress 0x10 (uRSV n) p
    else
      let s := match h.learn with | some key => s.learn n p.adm.port key | none => s
      match h.fate with
      | .queue c => s.writeBasin n h p [h.meterCopy c] false
      | .list l foot => s.replicate n h l foot
      | .detour =>
        let prio := s.getF (uRSV n) (F.RSV_ENG_CLASS_PRIO.i p.adm.slowClass)
        (match s.pickCluster n p prio with
         | none => (s.addF (uRSV n) F.RSV_NO_ENGINE_COUNT 1).dropIngress 0x38 (uRSV n) p
         | some c => s.writeBasin n h p [{ queue := internalQueue c prio }] false)
      | .punt ring reason =>
        match s.pickCluster n p 0 with
        | none => (s.addF (uRSV n) F.RSV_NO_ENGINE_COUNT 1).dropIngress 0x38 (uRSV n) p
        | some c => s.writeBasin n h p [h.meterCopy { queue := internalQueue c 0, punt := some ring, reason := reason }] false

end Sys2Proof.Machine
end

