-- ==== Sys2Proof/Machine/Egress.lean ====
section
/-!
DEFINITION. The egress pass: basin read, egress resolve, rewrite, egress sieve, the way to the MAC (R207–R212 of
spec/09_actions_and_rewrite.md, R112 of spec/04_ports.md, R178–R181 of spec/08_classifier_and_cam.md, R284, R286,
R288 of spec/12_basin.md).
-/
namespace Sys2Proof.Machine

/-! ### Rewrite (R208–R210) -/

/-- A frame under rewrite: its bytes, the kind and the offset of the L3 header R199 read, the label bottom of stack. -/
structure Rw where
  f : List Byte
  kind : Nat
  l3 : Nat
  deriving DecidableEq, Repr

/-- R210: RFC 1624 update of a checksum field as a 16-bit word changes from `m` to `m'`. -/
def csumUpdate (c m m' : Nat) : Nat := 0xFFFF - fold16 ((0xFFFF - c) + (0xFFFF - m) + m')

/-- Change the 16-bit word at `o` of the IPv4 header at `l3`, its checksum following. -/
def ipSet (f : List Byte) (l3 o v : Nat) : List Byte :=
  if f.length < l3 + 12 then f
  else setFb2 (setFb2 f (l3 + o) v) (l3 + 10) (csumUpdate (fb2 f (l3 + 10)) (fb2 f (l3 + o)) v)

/-- Number of tags after the MAC addresses (at most 2 are looked through). -/
def tagCount (f : List Byte) : Nat := if isTag (fb2 f 12) then (if isTag (fb2 f 16) then 2 else 1) else 0

/-- What modes 1 and 2 leave of `r` as the frame `f`, `n` bytes stripped: its L3 header is the one R199 read, the label that
stays outermost, or, where they were stripped, what follows the Ethernet header and tags of `f` (log entry 80). -/
def stripped (p : Pkt) (n : Nat) (f : List Byte) (r : Rw) : Rw :=
  let label := r.l3 + 4 * labelsOff p
  if n ≤ r.l3 then { f := f, kind := r.kind, l3 := r.l3 + f.length - r.f.length }
  else if r.kind = 3 ∧ !stackGone p then { f := f, kind := 3, l3 := label + f.length - r.f.length }
  else { f := f, kind := 0, l3 := 14 + 4 * tagCount f }

/-- Step 1: decapsulation. `macs` are the addresses of a header mode 2 adds, which the spec does not give (log entry 1). -/
def decap (p : Pkt) (macs : List Byte) (r : Rw) : Rw :=
  let n := edDecapLen p.edits
  match edDecap p.edits with
  | 1 => stripped p n (r.f.drop n) r
  | 2 => stripped p n (macs ++ beBytes (edDecapEt p.edits) 2 ++ r.f.drop n) r
  | 3 =>
    let f := r.f.take r.l3 ++ r.f.drop (r.l3 + 4 * n)
    { f := if stackGone p then setFb2 f (r.l3 - 2) (edDecapEt p.edits) else f, kind := if stackGone p then 0 else r.kind, l3 := r.l3 }
  | _ => r

/-- Step 2: TTL decrement in the header R199 read. -/
def decTtl (r : Rw) : Rw :=
  let put (o : Nat) : List Byte := if o < r.f.length then patchBytes r.f o [BitVec.ofNat 8 (fb r.f o - 1)] else r.f
  if r.kind = 1 then { r with f := ipSet r.f r.l3 8 (fb2 r.f (r.l3 + 8) - 256) }
  else if r.kind = 2 then { r with f := put (r.l3 + 7) }
  else if r.kind = 3 then { r with f := put (r.l3 + 3) } else r

/-- Step 3: DSCP of the IPv4 or IPv6 header. -/
def setDscp (r : Rw) (d : Nat) : Rw :=
  if r.kind = 1 then { r with f := ipSet r.f r.l3 0 (setBitsOf (fb2 r.f r.l3) 2 6 d) }
  else if r.kind = 2 ∧ r.l3 + 2 ≤ r.f.length then { r with f := setFb2 r.f r.l3 (setBitsOf (fb2 r.f r.l3) 6 6 d) }
  else r

/-- Step 4: push of label stack entries after the Ethernet header and its tags (R200). The first of them is then the frame's
L3 header. -/
def pushLabels (p : Pkt) (r : Rw) : Rw :=
  let n := edPush p.edits
  if n = 0 then r
  else
    let o := 12 + 4 * tagCount r.f
    let mpls := fb2 r.f o == 0x8847 || fb2 r.f o == 0x8848
    let lse := [p.lse01 / 2 ^ 32, p.lse01 % 2 ^ 32, p.lse23 / 2 ^ 32, p.lse23 % 2 ^ 32].take n
    let lse := lse.mapIdx fun i x => if i + 1 = n then setBitsOf x 8 1 (if mpls then 0 else 1) else x
    { r with f := r.f.take o ++ beBytes 0x8847 2 ++ lse.flatMap (fun x => beBytes x 4) ++ r.f.drop (o + 2), l3 := o + 2 }

/-! Fields of an ENCAP entry (Table 5 of chapter 9). -/
def encValid (e : Nat) : Bool := bitsOf e 63 1 == 1
def encOuter (e : Nat) : Nat := bitsOf e 61 2
def encUdp (e : Nat) : Bool := bitsOf e 60 1 == 1
def encInner (e : Nat) : Bool := bitsOf e 59 1 == 1
def encProf (e : Nat) : Nat := bitsOf e 56 3
def encLen (e : Nat) : Nat := bitsOf e 49 7
def encBody (e : Nat) : List Byte := (leBytes (e / 2 ^ 128) 112).take (encLen e)

/-- R209: the body with its lengths, checksum and UDP source port filled in for `n` bytes behind it. -/
def encapBody (e h n : Nat) : List Byte :=
  let b := encBody e
  let hl := if encOuter e = 1 then 4 * ipIhl b 2 else 40
  let b := if encUdp e ∧ encOuter e ≠ 0 then
      let u := 2 + hl
      setFb2 (setFb2 (setFb2 b u (0xC000 + h / 2 ^ 18)) (u + 4) (b.length - u + n)) (u + 6) 0
    else b
  if encOuter e = 1 then
    let b := setFb2 (setFb2 (setFb2 b 4 (b.length - 2 + n)) 6 0) 12 0
    setFb2 b 12 (0xFFFF - fold16 (sum16 b 2 hl))
  else if encOuter e = 2 then setFb2 b 6 (b.length - 2 - 40 + n) else b

/-- Step 5: encapsulation. -/
def encap (e h : Nat) (r : Rw) : Rw :=
  let inner := if encInner e then r.f else r.f.drop r.l3
  { r with f := r.f.take 12 ++ encapBody e h inner.length ++ inner }

/-- Step 7, the next hop's VLAN: the outer tag's VID, or a pushed tag with PCP = TC. -/
def nhVlan (vid tc : Nat) (f : List Byte) : List Byte :=
  if isTag (fb2 f 12) then setFb2 f 14 (setBitsOf (fb2 f 14) 0 12 vid)
  else f.take 12 ++ beBytes 0x8100 2 ++ beBytes (tc % 8 * 2 ^ 13 + vid) 2 ++ f.drop 12

/-- Step 7, VLAN_OP of the egress action. -/
def vlanOp (e : Nat) (f : List Byte) : List Byte :=
  let vid := bitsOf e 48 12
  let push (et : Nat) : List Byte := f.take 12 ++ beBytes et 2 ++ beBytes (bitsOf e 45 3 * 2 ^ 13 + vid) 2 ++ f.drop 12
  match bitsOf e 60 3 with
  | 1 => push 0x8100
  | 2 => push 0x88A8
  | 3 => if isTag (fb2 f 12) then f.take 12 ++ f.drop 16 else f
  | 4 => if isTag (fb2 f 12) then setFb2 f 14 (setBitsOf (fb2 f 14) 0 12 vid) else f
  | _ => f

/-- Step 7, PCP_EN and MARK_DEI. -/
def setPcp (p : Pkt) (f : List Byte) : List Byte :=
  let f := if edPcpEn p.edits ∧ isTag (fb2 f 12) then setFb2 f 14 (setBitsOf (fb2 f 14) 13 3 (edPcp p.edits)) else f
  if p.markDei ∧ isTag (fb2 f 12) then setFb2 f 14 (setBitsOf (fb2 f 14) 12 1 1) else f

/-! ### The pass -/

/-- A copy is dropped in the egress pass, per egress port. -/
def State.egDrop (s : State) (code port : Nat) (uid : Nat) (p : Pkt) (c : Copy) (f : List Byte) : State :=
  (s.drop code (264 + port) { p.info uid with egPort := some port, queue := some c.queue, len := f.length }).mcDone p false

/-- R288: a column counts a frame it reads and samples every Nth. -/
def State.sampleHeader (s : State) (col : Nat) (p : Pkt) : State :=
  if s.getF uBSN F.BSN_SAMPLE_CFG_EN = 0 ∨ bitsOf (s.getF uBSN F.BSN_SAMPLE_MASK_COLS) col 1 = 0 then s
  else
    let put (s : State) (k v : Nat) : State := s.modBas fun b => { b with samples := s.bas.samples.put (fun _ => 0) k v }
    let n := s.bas.samples.get (fun _ => 0) col + 1
    if n < s.getF uBSN F.BSN_SAMPLE_CFG_N then put s col n
    else
      let seq := s.bas.samples.get (fun _ => 0) (64 + col)
      let s := put (put s col 0) (64 + col) ((seq + 1) % 2 ^ 32)
      let q := { p with frame := p.frame.take (s.getF uBSN F.BSN_SAMPLE_CFG_SNAP_LEN), counted := false, mc := none }
      { s with punts := s.punts ++ [{ ring := s.getF uBSN F.BSN_SAMPLE_RING_RING, reason := 0, user := 2 ^ 63 + col * 2 ^ 48 + seq
                                      pkt := q, cluster := none, cells := 0, sample := true }] }

/-- R227: a QUEUE ending without NH_EN makes no edit before the egress sieve. -/
def Copy.plain (c : Copy) : Bool := !c.nhEn && c.src == 1

/-- R207: the egress action of a copy: the member's, else the port's. -/
def State.egAction (s : State) (port : Nat) (c : Copy) : Option Nat :=
  let u := uEGR (port / 32)
  if c.eactEn then some c.eact
  else if s.getF u (F.EGR_PORT_CFG_EACT_EN.i (port % 32)) = 1 then some (s.getF u (F.EGR_PORT_CFG_EACT.i (port % 32)))
  else none

/-- R208: steps 1 to 7. None where a template is not valid. -/
def State.rewrite (s : State) (p : Pkt) (c : Copy) (act : Option Nat) : Option (List Byte) × State :=
  let nh := s.ent 0x18 0 c.nh
  if p.foot then (some (if bitsOf nh 18 1 = 1 then nhVlan (bitsOf nh 6 12) p.tc p.frame else p.frame), s)
  else
    let (macs, s) := if edDecap p.edits = 2 then (let d := s.draw; (beBytes (d.1 % 2 ^ 96) 12, d.2)) else ([], s)
    let r := decap p macs { f := p.frame, kind := p.l3Kind, l3 := p.adm.l3Off }
    let r := if edTtl p.edits then decTtl r else r
    let a := if c.plain then 0 else act.getD 0
    let r := if bitsOf a 39 1 = 1 then setDscp r (bitsOf a 33 6) else if edDscpEn p.edits then setDscp r (edDscp p.edits) else r
    let r := pushLabels p r
    let enc := c.nhEn && bitsOf nh 39 1 == 1
    let t := s.ent 0x42 0 (bitsOf nh 19 20)
    if enc ∧ !encValid t then (none, s)
    else
      let r := if enc then encap t (s.viewHash (encProf t) (keyView p)) r else r
      let f := if c.nhEn ∧ (ptpRouted p.ptp ∨ enc) then
          beBytes (bitsOf nh 80 48) 6 ++ beBytes (s.ent 0x47 0 (bitsOf nh 72 8) % 2 ^ 48) 6 ++ r.f.drop 12
        else r.f
      let f := if c.nhEn ∧ bitsOf nh 18 1 = 1 then nhVlan (bitsOf nh 6 12) p.tc f else f
      (some (setPcp p (vlanOp a f)), s)

/-- R178, R180: the egress sieve; the selected rule's RESULT. -/
def State.egSieve (s : State) (n eprof : Nat) (p : Pkt) : Option Nat × State :=
  if s.getF uTG (F.SIV_SET_EN.i (64 + eprof)) = 0 then (none, s)
  else
    let kd := s.getF uTG (F.SIV_SET_KEYDEF.i (64 + eprof))
    match s.sieveFind 1 p.adm.gen kd (s.sieveKey kd (keyView p)) with
    | some (_, e) => (some (sivResult e), s.addF (uSIV n) F.SIV_EGR_MATCH_COUNT 1)
    | none => (none, s.addF (uSIV n) F.SIV_EGR_MISS_COUNT 1)

/-- R286, R362: what an egress action does once the egress sieve has passed a copy. -/
def State.egMark (s : State) (n port : Nat) (p : Pkt) (c : Copy) (f : List Byte) (cap : Bool) (acts : List Nat) : State :=
  let s := if cap then s.capture (captureRec 1 p.mc.isSome p f port c.queue c.nh s.ns) else s
  s.each (acts.filter fun a => bitsOf a 31 1 == 1) fun s a => s.flowCount (2 * n + 1) (bitsOf a 10 21) ((padFrame f).length + 4)

/-- R208 step 8, R112: the frame goes to the MAC, or is too long. -/
def State.toMac (s : State) (n port : Nat) (p : Pkt) (c : Copy) (f : List Byte) : State :=
  if f.length + 4 > s.mac port F.PORT_CTL_MTU then (s.portCtr port 29 1).egDrop 0x03 port (uMAC (port / 8)) p c f
  else
    let s := s.occur (uEGR n) 0x100 p.tc none 0 1
    (s.setSending (s.bas.sending ++ [{ port := port, queue := c.queue, pkt := p, data := padFrame f }])).txBegin port

/-- The course's part of the egress pass of a copy read from the basin. -/
def State.egressCourse (s : State) (n port : Nat) (p : Pkt) (c : Copy) : State :=
  let u := uEGR n
  let own := uEGR (port / 32)
  let act := if p.foot then none else (s.egAction port c).map fun i => s.ent 0x41 0 i
  if (match act with | some a => bitsOf a 63 1 == 0 | none => false) then s.egDrop 0x21 port u p c p.frame
  else if c.nhEn ∧ !nhValid (s.ent 0x18 0 c.nh) then s.egDrop 0x21 port u p c p.frame
  else match s.rewrite p c act with
    | (none, s) => s.egDrop 0x2D port u p c p.frame
    | (some f, s) =>
      let a := act.getD 0
      let eprof := if bitsOf a 44 1 = 1 then bitsOf a 40 4 else s.getF own (F.EGR_PORT_CFG_EPROF.i (port % 32))
      let (res, s) := if p.foot then (none, s) else s.egSieve n eprof p
      if (match res with | some r => decide (r / 2 ^ 22 = 3) | none => false) then s.egDrop 0x24 port u p c f
      else
        let extra := match res with
          | some r => if r / 2 ^ 22 = 2 ∧ bitsOf (s.ent 0x41 0 (r % 2 ^ 20)) 63 1 = 1 then [s.ent 0x41 0 (r % 2 ^ 20)] else []
          | none => []
        let acts := (if act.isSome then [a] else []) ++ extra
        let s := s.egMark n port p c f (acts.any fun x => bitsOf x 32 1 == 1) acts
        s.toMac n port p c f

/-- The words the egress pass of a copy reads. -/
def State.egressWords (s : State) (port : Nat) (p : Pkt) (c : Copy) : List (Nat × Nat) :=
  if s.flt.badWords.isEmpty then []
  else
    let act := if p.foot then none else s.egAction port c
    let a := (act.map fun i => s.ent 0x41 0 i).getD 0
    let eprof := if bitsOf a 44 1 = 1 then bitsOf a 40 4 else s.getF (uEGR (port / 32)) (F.EGR_PORT_CFG_EPROF.i (port % 32))
    let kd := s.getF uTG (F.SIV_SET_KEYDEF.i (64 + eprof))
    let rule := if p.foot ∨ s.getF uTG (F.SIV_SET_EN.i (64 + eprof)) = 0 then none else s.sieveFind 1 p.adm.gen kd (s.sieveKey kd (keyView p))
    let nh := s.ent 0x18 0 c.nh
    (match act with | some i => [(0x41, i)] | none => []) ++ (if c.nhEn ∨ p.foot then [(0x18, c.nh)] else []) ++
      (if c.nhEn ∧ bitsOf nh 39 1 = 1 ∧ !p.foot then [(0x42, bitsOf nh 19 20)] else []) ++
      (match rule with
       | some x => (0x31, x.1) :: (if sivResult x.2 / 2 ^ 22 = 2 then [(0x41, sivResult x.2 % 2 ^ 20)] else [])
       | none => [])

/-- R154: a copy whose egress pass reads an uncorrectable word is dropped, counted per ingress port. -/
def State.egEcc (s : State) (n : Nat) (p : Pkt) (tid : Nat) : State :=
  (s.drop 0x20 p.adm.port { p.info (uEGR n) with detail := tid }).mcDone p false

/-- The rest of the egress pass of a copy whose cells column `col` has read. -/
def State.egressRead (s : State) (port : Nat) (e : QEnt) (col : Nat) (p : Pkt) (r : Reads) : State :=
  let s := s.sampleHeader col p
  match s.serving (port / 32) with
  | none => s.egDrop 0x60 port (uCRS (port / 32)) p e.copy p.frame
  | some n =>
    let r := s.meets (s.egressWords port p e.copy) r
    match s.readEcc n [0x18, 0x31, 0x41, 0x42] r with
    | (true, s) => s.egEcc n p r.tid
    | (false, s) => s.egressCourse n port p e.copy

/-- EGRESS_PASS: the first dequeued copy of a port. `r`: the word of a table that its egress resolve, rewrite or sieve finds in
error (R154, R177). `err`: as its cells read (R284). -/
def State.egressPass (s : State) (port err : Nat) (r : Reads) : State :=
  match s.bas.egress.find? fun x => x.port == port with
  | none => s
  | some x =>
    let e := x.ent
    let s := s.modBas fun b => { b with egress := s.bas.egress.erase x }
    match s.inst e.inst with
    | none => s
    | some i =>
      match s.readOut x.col err e i with
      | (false, s) => s
      | (true, s) => s.egressRead port e x.col { i.pkt with color := e.color, adm := { i.pkt.adm with pass := i.pkt.adm.pass + 1 } } r

end Sys2Proof.Machine
end

