-- ==== Sys2Proof/Machine/TwinLink.lean ====
section
/-!
DEFINITION. Lane queues of the fabric and twin lanes (R312, R430), and the sending side of the Evoa twin link: messages,
the store of unacknowledged ones, the mirroring of commands (R430, R431, R434 and Table 3 of spec/20_twin.md).
-/
namespace Sys2Proof.Machine

/-! ### Lanes of 105.882 Gb/s -/

/-- Time on a lane of `n` bytes, in 1/65,536 ns. -/
def laneTime (n : Nat) : Nat := n * 8 * 65536 * 1000 / 105882

/-- Give the cells of a lane their end times from `t`. -/
def retime : Nat → List LaneCell → List LaneCell
  | _, [] => []
  | t, c :: r => { c with doneAt := t + laneTime c.data.length } :: retime (t + laneTime c.data.length) r

/-- Add a cell at the end of a lane's queue, or (`ahead`) behind the one in transmission and those that went ahead before. -/
def laneAdd (now : Nat) (q : List LaneCell) (c : LaneCell) (ahead : Bool) : List LaneCell :=
  let c := { c with ahead := ahead }
  match q with
  | [] => retime now [c]
  | h :: r => h :: retime (max now h.doneAt) (if ahead then r.takeWhile (·.ahead) ++ c :: r.dropWhile (·.ahead) else r ++ [c])

/-- Bytes waiting on a lane. -/
def laneLoad (q : List LaneCell) : Nat := (q.map (·.data.length)).sum

/-- The lane with the fewest bytes waiting, the lowest on a tie. -/
def leastLane (lanes : KMap (List LaneCell)) (up : List Nat) : Option Nat :=
  (up.foldl (fun (a : Option (Nat × Nat)) l =>
    let n := laneLoad (lanes.get (fun _ => []) l)
    match a with
    | none => some (l, n)
    | some b => if n < b.2 then some (l, n) else a) none).map (·.1)

/-! ### The twin link -/

/-- Twin lanes that are up. -/
def State.twinUp (s : State) : List Nat :=
  (List.range 8).filter fun l => bitsOf (s.getF uTWN F.TWN_STATUS_LANES_UP) l 1 == 1

def State.twnState (s : State) : Nat := s.getF uTWN F.TWN_STATUS_STATE
def State.twnRole (s : State) : Nat := s.getF uTWN F.TWN_STATUS_ROLE

/-- This device mirrors its changes: a lead paired or resynchronising. -/
def State.mirroring (s : State) : Bool := s.twnRole == 1 && (s.twnState == 3 || s.twnState == 2)

/-- This device refuses changes of its own host (R434). -/
def State.isFollower (s : State) : Bool := s.twnRole == 2

/-- A message as it is sent (Table 1), its CRC-32C behind it. -/
def twinBytes (type alive seq ack : Nat) (body : List Byte) : List Byte :=
  let m := beBytes (type * 2 ^ 60 + body.length * 2 ^ 48 + alive % 2 ^ 16 * 2 ^ 32 + seq % 2 ^ 32) 8 ++ beBytes (ack % 2 ^ 32 * 2 ^ 32) 8 ++ body
  m ++ beBytes (crc32c 0xFFFFFFFF#32 m).toNat 4

/-- R430: put message bytes on the up lane with the fewest bytes waiting; with no lane up they are not sent. -/
def State.twinPut (s : State) (m : List Byte) (ahead : Bool) : State :=
  match leastLane s.twin.lanes s.twinUp with
  | none => s
  | some l =>
    let q := laneAdd s.clk.now (s.twin.lanes.get (fun _ => []) l) { data := m, doneAt := 0, ends := [] } ahead
    s.modTwin fun w => { w with lanes := s.twin.lanes.put (fun _ => []) l q }

/-- Send a numbered message now and keep it until it is acknowledged (R431). -/
def State.twinPush (s : State) (type : Nat) (body : List Byte) : State :=
  let w := s.twin
  let s := { s with twin := { w with
    next := w.next + 1, alive := w.alive + 1, store := w.store ++ [(⟨w.next, type, body, 0⟩ : TwinMsg)]
    ackAt := if w.store.isEmpty then s.ns else w.ackAt } }
  s.twinPut (twinBytes type w.alive w.next w.got body) false

/-- A message with no number: HEARTBEAT or NAK. -/
def State.twinSendPlain (s : State) (type alive : Nat) (body : List Byte) : State :=
  s.twinPut (twinBytes type alive 0 s.twin.got body) (type == 0)

/-- R431: the store is full, or messages wait for room in it. -/
def State.twinFull (s : State) : Bool := decide (4096 ≤ s.twin.store.length) || !s.twin.todo.isEmpty

/-- R431: a numbered message is sent, or waits behind those that wait for room in the store. -/
def State.twinSend (s : State) (type : Nat) (body : List Byte) : State :=
  if s.twinFull then s.modTwin fun w => { w with todo := w.todo ++ [(type, body)] } else s.twinPush type body

/-- Cells whose last byte has left go to the outside, on every twin lane. -/
def State.twinDrain (s : State) : State :=
  s.each (List.range 8) fun s l =>
    let q := s.twin.lanes.get (fun _ => []) l
    let gone := q.filter fun c => c.doneAt ≤ s.clk.now
    let s := s.modTwin fun w => { w with lanes := s.twin.lanes.put (fun _ => []) l (q.filter fun c => s.clk.now < c.doneAt) }
    s.each gone fun s c => s.send (.twin c.data)

/-- Tables of the mirror set (Table 3). -/
def mirroredTable (t : Nat) : Bool :=
  (0x01 ≤ t && t ≤ 0x13) || (0x18 ≤ t && t ≤ 0x1A) || (0x30 ≤ t && t ≤ 0x3F) || (0x40 ≤ t && t ≤ 0x47) ||
  (0x50 ≤ t && t ≤ 0x52) || t == 0x58

/-- UIDs whose CFG_WRITE entries are mirrored (Table 3). -/
def mirroredUid (u : Nat) : Bool := u == 0x0C00 || u == 0x0E80 || (0x1000 ≤ u && u ≤ 0x1004)

/-- Words of 8 bytes, the last of fewer, each the other way round. -/
def turnWords : Nat → List Byte → List Byte
  | 0, _ => []
  | n + 1, bs => (bs.take 8).reverse ++ turnWords n (bs.drop 8)

/-- R5: what memory holds as a twin message carries it, most significant byte first, and back. -/
def linkWords (bs : List Byte) : List Byte := turnWords ((bs.length + 7) / 8) bs

/-- Where the bytes in wire order or the key bytes of an entry begin, which stay as they are on a link: the prefix of an LPM
entry, the body of an encapsulation template, the key of an EM, sieve or CAM entry. -/
def keyBytesAt (t : Nat) : Nat :=
  if t = 0x42 then 16
  else if (0x10 ≤ t ∧ t ≤ 0x13) ∨ (t = 0x30 ∨ t = 0x31) ∨ (0x38 ≤ t ∧ t ≤ 0x3F) then 8 else 128

/-- R5: an entry image as a twin message carries it, field by field, and back. -/
def linkImage (t : Nat) (bs : List Byte) : List Byte := linkWords (bs.take (keyBytesAt t)) ++ bs.drop (keyBytesAt t)

/-- R5: the operand of a table command as a twin message carries it, and back: words for GEN_ABORT and EM_REHASH, else an
image, which TEST_AND_SET follows with its compare word. -/
def linkOperand (op t : Nat) (bs : List Byte) : List Byte :=
  if op = 0x28 ∨ op = 0x2B then linkWords bs
  else if op = 0x25 then linkImage t (bs.take (bs.length - 8)) ++ linkWords (bs.drop (bs.length - 8))
  else linkImage t bs

/-- A TABLE_CMD body: the descriptor's words, then its operand. -/
def cmdMsg (w0 w1 w2 : Nat) (operand : List Byte) : List Byte :=
  linkWords (wordsBytes [w0, w1, w2, 0]) ++ linkOperand (bitsOf w0 56 8) (bitsOf w2 56 8) operand

/-- R434: a lead sends a command that has run, as its descriptor and operand. -/
def State.mirror (s : State) (w0 w1 w2 : Nat) (operand : List Byte) : State :=
  if s.mirroring then s.twinSend 1 (cmdMsg w0 w1 w2 operand) else s

/-! ### TWIN_HOLD (R439, R441) -/

/-- Pins by number: 1 TWIN_HOLD (false driven low), 2 and 3 PPS_OUT0 and PPS_OUT1, 4 CORE_PWR_EN. -/
def pinHold : Nat := 1

/-- Drive or release TWIN_HOLD. -/
def State.driveHold (s : State) (on : Bool) : State :=
  if s.bit uTWN F.TWN_STATUS_HOLD_OUT = on then s
  else (s.setF uTWN F.TWN_STATUS_HOLD_OUT (if on then 1 else 0)).drivePin pinHold !on

/-- R441: a paired lead gives the lead up: RELEASE, in protect mode its lanes squelched, TWIN_HOLD no longer driven. -/
def State.twinGiveUp (s : State) : State :=
  let s := s.twinSend 10 []
  let s := if s.getF uTWN F.TWN_CFG_MODE = 1 then (s.modTwin fun w => { w with squelched := true }) else s
  (s.driveHold false).setF uTWN F.TWN_STATUS_ROLE 2

/-- R441: a lead that enters footing mode yields where FOOT_YIELD is 1 and its peer is PAIRED and not in footing mode. -/
def State.footYield (s : State) : State :=
  if s.getF uTWN F.TWN_CFG_FOOT_YIELD = 1 ∧ s.twnRole = 1 ∧ s.twnState = 3 ∧ s.getF uTWN F.TWN_PEER_FOOTING = 0 then s.twinGiveUp
  else s

end Sys2Proof.Machine
end

