-- ==== Sys2Proof/Machine/Fabric.lean ====
section
/-!
DEFINITION. The fabric interface (chapter spec/14_fabric_interface.md): cells, flows, lanes, reassembly, flow control. A
lane sends its cells one after another at 105.882 Gb/s; a cell reaches the outside when its last byte has left.
-/
namespace Sys2Proof.Machine

/-- FAB works: Active, or Draining, with its domain powered. -/
def State.fabOn (s : State) : Bool :=
  s.lineCard && (s.ust uFAB == 4 || s.ust uFAB == 5) && s.getF uFAB F.UCB_STATE_ISOLATED == 0 && s.fwdOn

def State.devId (s : State) : Nat := s.getF uFAB F.FAB_ID_DEV_ID

/-- CRC-8, polynomial 0x07, initial value 0 (R315). -/
def crc8 (bs : List Byte) : Nat :=
  (bs.foldl (fun (c : BitVec 8) b =>
    (List.range 8).foldl (fun (c : BitVec 8) _ => if c.msb then (c <<< 1) ^^^ 0x07#8 else c <<< 1) (c ^^^ b)) 0#8).toNat

/-- A cell's bytes (Table 1). -/
def cellBytes (type dst src first seq : Nat) (sync : Bool) (data : List Byte) : List Byte :=
  let h := beBytes (type * 2 ^ 54 + dst * 2 ^ 47 + src * 2 ^ 40 + data.length * 2 ^ 32 + first * 2 ^ 24 + seq % 65536 * 2 ^ 8 + (if sync then 2 ^ 7 else 0)) 7
  h ++ beBytes (crc8 h) 1 ++ data

/-! ### Lanes -/

def State.fabLane (s : State) (k : Nat) : List LaneCell := s.fab.lanes.get (fun _ => []) k
def State.setFabLane (s : State) (k : Nat) (q : List LaneCell) : State :=
  s.modFab fun f => { f with lanes := s.fab.lanes.put (fun _ => []) k q }

/-- Place a cell on the up lane with the fewest bytes waiting, FC cells ahead of DATA (R317, R324); with no lane up it waits
on lane `k`. -/
def State.placeCell (s : State) (c : LaneCell) (ahead : Bool) (k : Nat) : State :=
  let l := (leastLane s.fab.lanes s.fabLanes).getD k
  s.setFabLane l (laneAdd s.clk.now (s.fabLane l) c ahead)

/-- Cells whose last byte has left an up lane; copies they complete are delivered (R317). -/
def State.fabDrain (s : State) : State :=
  s.each s.fabLanes fun s k =>
    let q := s.fabLane k
    let gone := q.takeWhile fun c => c.doneAt ≤ s.clk.now
    let s := s.setFabLane k (q.drop gone.length)
    s.each gone fun s c => s.each c.ends (fun s p => s.mcDone p true) |>.send (.cell k c.data)

/-- Move every cell that waits on a lane that is not up to the up lanes, FC cells again ahead of DATA (R318, R324). -/
def State.moveCells (s : State) : State :=
  let up := s.fabLanes
  if up.isEmpty then s
  else s.each ((List.range 128).filter fun k => !up.contains k) fun s k =>
    let q := s.fabLane k
    s.each q (fun s c => s.placeCell c c.ahead k) |>.setFabLane k []

/-- FABRIC_LANE_DOWN: the cell in transmission is lost, the waiting ones move (R318). -/
def State.fabLaneDown (s : State) (k : Nat) : State :=
  let s := s.fabDrain
  if ¬ s.fabLanes.contains k then s
  else
    let f := F.FAB_LANE_UP_MAP.i (k / 32)
    let s := s.setF uFAB f (setBitsOf (s.getF uFAB f) (k % 32) 1 0)
    match s.fabLane k with
    | [] => s
    | h :: r => ((s.each h.ends fun s p => s.mcDone p false).setFabLane k r).moveCells

/-- R312, R318: a lane unit has left Active: its fabric lane is down. -/
def State.fabLaneOut (s : State) (u : Nat) : State :=
  let b := (u - 0x200) / 16
  if s.lineCard ∧ 16 ≤ b then s.fabLaneDown (8 * (b - 16) + (u - 0x201) % 16) else s

/-- FABRIC_LANE_UP (R312). -/
def State.fabLaneUp (s : State) (k : Nat) : State :=
  let f := F.FAB_LANE_UP_MAP.i (k / 32)
  if k < 128 ∧ s.lineCard ∧ s.up (uLane (16 + k / 8) (k % 8)) then
    let s := s.setF uFAB f (setBitsOf (s.getF uFAB f) (k % 32) 1 1)
    (s.setFabLane k (retime s.clk.now (s.fabLane k))).moveCells
  else s

/-! ### Sending (R317) -/

def State.flowOut (s : State) (d : Nat) : FlowOut := s.fab.flowsOut.get (fun _ => {}) d
def State.setFlowOut (s : State) (d : Nat) (x : FlowOut) : State :=
  s.modFab fun f => { f with flowsOut := s.fab.flowsOut.put (fun _ => {}) d x }

/-- A packet's stream bytes: header (Table 2), edit block, frame. -/
def streamBytes (p : Pkt) (c : Copy) (remote : Nat) : List Byte :=
  let plain := 2 ^ 63 + 63 * 2 ^ 57 + 2 ^ 52
  let ext := (p.edits ^^^ (p.edits &&& plain)) != 0 || p.ptp / 2 ^ 37 != 0
  beBytes (p.frame.length * 2 ^ 50 + (if ext then 2 ^ 49 else 0) + p.tc % 8 * 2 ^ 46 + p.color % 4 * 2 ^ 44 + remote * 2 ^ 27 + c.nh * 2 ^ 7) 8 ++
  beBytes ((if c.eactEn then 2 ^ 63 else 0) + c.eact * 2 ^ 48 + p.adm.port * 2 ^ 39 + bitsOf p.edits 52 1 * 2 ^ 38 + bitsOf p.edits 63 1 * 2 ^ 37 +
    bitsOf p.edits 57 6 * 2 ^ 31 + bitsOf p.ptp 36 1 * 2 ^ 30 + p.l3Kind % 4 * 2 ^ 28 + p.adm.l3Off * 2 ^ 20 + p.adm.bos * 2 ^ 17) 8 ++
  (if ext then [p.edits, p.lse01, p.lse23, p.ptp / 2 ^ 36 * 2 ^ 36].flatMap fun w => beBytes w 8 else []) ++ p.frame

/-- A copy of a fabric port whose cells have been read joins the flow of the port's device. -/
def State.flowPut (s : State) (f : Nat) (c : Copy) (p : Pkt) : State :=
  let port := 128 + f
  let voq := s.ent 0x58 0 (c.queue - 131072)
  if bitsOf voq 31 1 = 0 then
    let s := s.drop 0x58 (264 + port) { p.info uFAB with egPort := some port, queue := some c.queue }
    (s.telUp c.queue fun t => { t with drop := t.drop + 1 }).mcDone p false
  else
    let d := s.getF uFAB (F.FAB_FP_CFG_DEV.i f)
    let y := s.flowOut d
    let bs := streamBytes p c (voq % 2 ^ 17)
    s.setFlowOut d { y with
      bytes := y.bytes ++ bs, starts := y.starts ++ [y.bytes.length], ends := y.ends ++ [(y.bytes.length + bs.length, p)] }

/-- The first dequeued copy of a fabric port is read, `err` as its cells read (R284). -/
def State.appendFlow (s : State) (f err : Nat) : State :=
  match s.bas.egress.find? fun x => x.port == 128 + f with
  | none => s
  | some x =>
    let s := s.modBas fun b => { b with egress := s.bas.egress.erase x }
    match s.inst x.ent.inst with
    | none => s
    | some i =>
      match s.readOut x.col err x.ent i with
      | (false, s) => s
      | (true, s) => s.flowPut f x.ent.copy i.pkt

/-- The next DATA cell of a flow. -/
def State.sendCell (s : State) (d : Nat) : State :=
  let y := s.flowOut d
  if y.bytes.isEmpty ∨ s.fabLanes.isEmpty then s
  else
    let data := y.bytes.take 248
    let n := data.length
    let first := match y.starts with | a :: _ => if a < n then a else 255 | [] => 255
    let c : LaneCell := { data := cellBytes 0 d s.devId first y.seq (!y.begun) data, doneAt := 0
                          ends := (y.ends.filter fun e => e.1 ≤ n).map (·.2) }
    let s := s.setFlowOut d { y with
      seq := (y.seq + 1) % 65536, begun := true, bytes := y.bytes.drop n
      starts := (y.starts.filter (n ≤ ·)).map (· - n), ends := (y.ends.filter fun e => n < e.1).map fun e => (e.1 - n, e.2) }
    s.placeCell c false 0

/-- FAB_CELL_SEND: fabric port `f`'s next packet, if one waits, joins its flow, and the flow's next cell is sent. -/
def State.fabCellSend (s : State) (f err : Nat) : State :=
  let s := s.fabDrain
  if !s.fabOn then s
  else (if s.ust uFAB = 4 then s.appendFlow (f % 128) err else s).sendCell (s.getF uFAB (F.FAB_FP_CFG_DEV.i (f % 128)))

/-! ### Reassembly (R319–R322) -/

def State.flowIn (s : State) (d : Nat) : FlowIn := s.fab.flowsIn.get (fun _ => {}) d
def State.setFlowIn (s : State) (d : Nat) (x : FlowIn) : State :=
  let s := s.modFab fun f => { f with flowsIn := s.fab.flowsIn.put (fun _ => {}) d x }
  s.setF uFAB F.FAB_RX_USED_CELLS ((s.fab.flowsIn.map fun f => f.2.held.length).sum)

/-- A packet from device `d` is dropped in reassembly. -/
def State.fabDrop (s : State) (d code : Nat) : State :=
  (s.drop code (620 + d) { uid := uFAB, detail := if code = 0x60 then 0 else d }).addF uFAB (F.FAB_SRC_DROP_COUNT.i d) 1

/-- R320: a gap: the packet in progress is dropped, parsing resumes at a FIRST_OFF. -/
def State.fabGap (s : State) (d code : Nat) : State :=
  let x := s.flowIn d
  let s := if x.parsing ∧ !x.buf.isEmpty then s.fabDrop d code else s
  s.setFlowIn d { s.flowIn d with parsing := false, buf := [] }

/-- R322: the packet and copy of a stream's packet whose last cell came at `at_`. -/
def streamPkt (s : State) (at_ w0 w1 : Nat) (block frame : List Byte) : Pkt × Copy :=
  let blk (i : Nat) : Nat := beNat (sliceBytes block (8 * i) 8)
  let ext := !block.isEmpty
  let gen := s.getF (uADM 0) F.ADM_GEN_STATUS_GEN
  let adm : Adm := { admitAt := at_, deadline := 500000, gen := gen, pass := 1, host := false, port := bitsOf w1 39 9
                     bos := bitsOf w1 17 3, l3Off := bitsOf w1 20 8, course := s.portCourse (bitsOf w1 39 9) }
  ({ frame := frame, adm := adm, l3Kind := bitsOf w1 28 2, tc := bitsOf w0 46 3, color := bitsOf w0 44 2
     edits := if ext then blk 0 else bitsOf w1 38 1 * 2 ^ 52 + bitsOf w1 37 1 * 2 ^ 63 + bitsOf w1 31 6 * 2 ^ 57
     lse01 := if ext then blk 1 else 0, lse23 := if ext then blk 2 else 0
     ptp := if ext then blk 3 / 2 ^ 36 * 2 ^ 36 else bitsOf w1 30 1 * 2 ^ 36, fabric := true, counted := false },
   { queue := bitsOf w0 27 17, nh := bitsOf w0 7 20, eactEn := bitsOf w1 63 1 == 1, eact := bitsOf w1 48 15 })

/-- Packets that the stream bytes of a flow complete as cell `c` joins them. A bad header that starts in an earlier cell lets
parsing resume at FIRST_OFF of `c` (R320). -/
def State.fabParse (d : Nat) (c : RxCell) : Nat → State → State
  | 0, s => s
  | n + 1, s =>
    let x := s.flowIn d
    if x.buf.length < 16 then s
    else
      let w0 := beNat (x.buf.take 8)
      let w1 := beNat (sliceBytes x.buf 8 8)
      let len := bitsOf w0 50 14
      let blk := if bitsOf w0 49 1 = 1 then 32 else 0
      if len = 0 ∨ 9212 < len ∨ bitsOf w0 44 2 = 3 ∨ w0 % 128 ≠ 0 ∨ w1 % 2 ^ 17 ≠ 0 then
        let s := s.fabGap d 0x5A
        if c.data.length < x.buf.length ∧ c.first ≠ 255 then
          State.fabParse d c n (s.setFlowIn d { s.flowIn d with parsing := true, buf := c.data.drop c.first })
        else s
      else if x.buf.length < 16 + blk + len then s
      else
        let (p, y) := streamPkt s c.at_ w0 w1 (sliceBytes x.buf 16 blk) (sliceBytes x.buf (16 + blk) len)
        let s := (s.placeAll (16 + d % 16) 9 p [y]).2
        State.fabParse d c n (s.setFlowIn d { s.flowIn d with buf := x.buf.drop (16 + blk + len) })

/-- A cell leaves the reorder buffer. -/
def State.fabLeave (s : State) (d : Nat) (c : RxCell) : State :=
  let x := s.flowIn d
  if x.parsing then State.fabParse d c 256 (s.setFlowIn d { x with buf := x.buf ++ c.data })
  else if c.first = 255 then s
  else State.fabParse d c 256 (s.setFlowIn d { x with parsing := true, buf := c.data.drop c.first })

/-- R321: cell E_d was discarded for a full buffer: the packet in progress is dropped, or the one that starts in the cell. -/
def State.fabOverrun (s : State) (d first : Nat) : State :=
  if (s.flowIn d).buf.isEmpty ∧ first ≠ 255 then (s.fabDrop d 0x5B).fabGap d 0x5B else s.fabGap d 0x5B

/-- R319: cells leave the buffer in order while the next one is held, or known to be lost for a full buffer (R321). -/
def State.fabRelease (d : Nat) : Nat → State → State
  | 0, s => s
  | n + 1, s =>
    let x := s.flowIn d
    match x.held.find? fun c => c.seq == x.exp with
    | some c =>
      let s := s.setFlowIn d { x with held := x.held.erase c, exp := (x.exp + 1) % 65536 }
      State.fabRelease d n (s.fabLeave d c)
    | none =>
      match x.overrun.find? fun o => o.1 == x.exp with
      | some o =>
        let s := s.fabOverrun d o.2
        State.fabRelease d n (s.setFlowIn d { s.flowIn d with overrun := x.overrun.erase o, exp := (x.exp + 1) % 65536 })
      | none => s

/-- Every cell of a source that can leave the buffer leaves it. -/
def State.fabReleaseAll (s : State) (d : Nat) : State :=
  State.fabRelease d ((s.flowIn d).held.length + (s.flowIn d).overrun.length + 1) s

/-- Send an FC cell to device `d`: XOFF toward this device (R324). -/
def State.sendFc (s : State) (d : Nat) : State :=
  let map := beBytes (2 ^ (127 - s.devId)) 16
  s.placeCell { data := cellBytes 1 d s.devId 255 0 false map, doneAt := 0, ends := [] } true 0

/-- R324: after a change of the cells held of source `d`. -/
def State.fcCheck (s : State) (d : Nat) : State :=
  let x := s.flowIn d
  let n := x.held.length
  match x.fcAt with
  | none =>
    if s.getF uFAB F.FAB_RX_THR_XOFF_CELLS < n then (s.sendFc d).setFlowIn d { x with fcAt := some s.ns } else s
  | some _ => if n ≤ s.getF uFAB F.FAB_RX_THR_XON_CELLS then s.setFlowIn d { x with fcAt := none } else s

/-- Fields of a received cell's header. -/
structure CellHdr where
  type : Nat
  dst : Nat
  src : Nat
  first : Nat
  seq : Nat
  sync : Bool
  data : List Byte
  deriving DecidableEq, Repr

/-- R316: the header of a received cell, if it is good. A DATA cell's source is a device (log entry 31). -/
def readCell (b : List Byte) : Option CellHdr :=
  let w := beNat (b.take 7)
  let type := bitsOf w 54 2
  let len := bitsOf w 32 8
  let first := bitsOf w 24 8
  if b.length < 8 ∨ crc8 (b.take 7) ≠ (b.getD 7 0).toNat ∨ 2 ≤ type ∨ b.length ≠ 8 + len ∨ w % 2 ^ 7 ≠ 0 ∨
    (type = 0 ∧ (len = 0 ∨ 248 < len ∨ bitsOf w 40 7 = 127)) ∨ (type = 1 ∧ len ≠ 16) ∨ (len ≤ first ∧ first ≠ 255) then none
  else some ⟨type, bitsOf w 47 7, bitsOf w 40 7, first, bitsOf w 8 16, bitsOf w 7 1 == 1, b.drop 8⟩

/-- Hold a cell that is not stale; with the buffer full it is declared lost (R321). -/
def State.fabHold (s : State) (h : CellHdr) : State :=
  let d := h.src
  let x := s.flowIn d
  if x.held.any fun c => c.seq == h.seq then s
  else if 16384 ≤ (s.fab.flowsIn.map fun f => f.2.held.length).sum then
    (s.setFlowIn d { x with overrun := x.overrun ++ [(h.seq, h.first)] }).addF uFAB F.FAB_RX_LOST_CELLS 1
  else s.setFlowIn d { x with held := x.held ++ [(⟨h.seq, h.first, h.data, s.ns⟩ : RxCell)] }

/-- FAB_CELL_RECEIVE. -/
def State.fabCellReceive (s : State) (b : List Byte) : State :=
  let s := s.fabDrain
  if !s.fabOn then s
  else match readCell b with
    | none => s.addF uFAB F.FAB_RX_HDR_ERR 1
    | some h =>
      let d := h.src
      if h.type ≠ 0 then s
      else if h.dst ≠ s.devId then s.addF uFAB F.FAB_RX_MISROUTE 1
      else
        let x := s.flowIn d
        let fin (s : State) : State := (s.fabReleaseAll d).fcCheck d
        if h.sync then
          let s := s.fabGap d 0x59
          fin ((s.setFlowIn d { s.flowIn d with synced := true, exp := h.seq, held := [], overrun := [] }).fabHold h)
        else if !x.synced then s
        else
          let g := (h.seq + 65536 - x.exp) % 65536
          if g < 4096 then fin (s.fabHold h)
          else if 32768 ≤ g then s.addF uFAB F.FAB_RX_STALE 1
          else
            let near (q : Nat) : Bool := decide ((q + 65536 - h.seq) % 65536 < 4096)
            let told := (x.overrun.filter fun o => !near o.1).length
            let s := (s.fabGap d 0x59).addF uFAB F.FAB_RX_LOST_CELLS (g - told)
            let y := s.flowIn d
            fin ((s.setFlowIn d { y with exp := h.seq, held := y.held.filter fun c => near c.seq
                                         overrun := y.overrun.filter fun o => near o.1 }).fabHold h)

/-- REORDER_WAIT_EXPIRE: the oldest held cell of source `d` has waited WAIT_NS with the next one missing. -/
def State.reorderExpire (s : State) (d : Nat) : State :=
  let x := s.flowIn d
  match x.held with
  | [] => s
  | c :: r =>
    if x.held.any fun y => y.seq == x.exp then s
    else
    let t := r.foldl (fun a y => min a y.at_) c.at_
    let s := (s.reach (t + s.getF uFAB F.FAB_REORDER_WAIT_NS)).fabDrain
    let s := (s.fabGap d 0x59).addF uFAB F.FAB_RX_LOST_CELLS 1
    let s := s.setFlowIn d { s.flowIn d with exp := (x.exp + 1) % 65536 }
    (s.fabReleaseAll d).fcCheck d

/-! ### Flow control (R323, R324) -/

/-- FC_CELL_RECEIVE. -/
def State.fcReceive (s : State) (b : List Byte) : State :=
  let s := s.fabDrain
  if !s.fabOn then s
  else match readCell b with
    | none => s.addF uFAB F.FAB_RX_HDR_ERR 1
    | some h =>
      if h.type ≠ 1 then s
      else
        let map := beNat h.data
        let till := s.ns + s.getF uFAB F.FAB_FC_HOLD_NS
        s.each ((List.range 128).filter fun n => bitsOf map (127 - n) 1 == 1) fun s n =>
          s.modFab fun f => { f with xoffTill := s.fab.xoffTill.put (fun _ => 0) n till }

/-- XOFF_EXPIRE: HOLD_NS passes after the last FC cell that set the bit. -/
def State.xoffExpire (s : State) (n : Nat) : State :=
  let t := s.fab.xoffTill.get (fun _ => 0) n
  if t = 0 then s
  else
    let s := (s.reach t).fabDrain
    s.modFab fun f => { f with xoffTill := s.fab.xoffTill.put (fun _ => 0) n 0 }

/-- FC_CELL_REPEAT toward source `d`, HOLD_NS / 2 after the last. -/
def State.fcRepeat (s : State) (d : Nat) : State :=
  match (s.flowIn d).fcAt with
  | none => s
  | some t =>
    let s := (s.reach (t + s.getF uFAB F.FAB_FC_HOLD_NS / 2)).fabDrain
    (s.sendFc d).setFlowIn d { s.flowIn d with fcAt := some s.ns }

/-! ### Out of service (R326) -/

/-- RETIRE or ISOLATE of FAB: what it holds is discarded; flows start afresh at their next SYNC. -/
def State.fabDiscard (s : State) : State :=
  let s := s.each s.fab.flowsIn fun s f => if f.2.parsing ∧ !f.2.buf.isEmpty then s.fabDrop f.1 0x60 else s
  let out := s.fab.flowsOut.flatMap (fun f => f.2.ends.map (·.2)) ++ s.fab.lanes.flatMap fun l => l.2.flatMap (·.ends)
  let s := s.each out fun s p => (s.drop 0x60 747 (p.info uFAB)).mcDone p false
  (s.modFab fun f => { f with flowsIn := [], flowsOut := [], lanes := [] }).setF uFAB F.FAB_RX_USED_CELLS 0

end Sys2Proof.Machine
end

