-- ==== Sys2Proof/Machine/TableForm.lean ====
section
/-!
DEFINITION. What the tables are and what an entry image may hold: Table 2 of spec/06_lookup_tables.md, R175 and R184 of
spec/08_classifier_and_cam.md, Table 1 of spec/09_actions_and_rewrite.md, R292 of spec/13_traffic_manager.md, R314 of
spec/14_fabric_interface.md, with the ranges of the entry formats.
-/
namespace Sys2Proof.Machine

/-! ### Kinds of table -/

def isEM (t : Nat) : Bool := t == 0x10
def isLPM (t : Nat) : Bool := t == 0x12 || t == 0x13
def isLRN (t : Nat) : Bool := 0x20 ≤ t && t ≤ 0x27
def isCAM (t : Nat) : Bool := 0x38 ≤ t && t ≤ 0x3F
def isMeter (t : Nat) : Bool := t == 0x45 || t == 0x46
def isTM (t : Nat) : Bool := 0x50 ≤ t && t ≤ 0x52

/-- Keyed tables. -/
def tblKeyed (t : Nat) : Bool := isEM t || isLPM t || isLRN t || isCAM t

/-- Tables with generation bits (R157). -/
def tblGen (t : Nat) : Bool :=
  [0x01, 0x02, 0x30, 0x40].contains t || isEM t || isLPM t || isCAM t

/-- Number of indexes of an indexed table; 0 for other IDs. -/
def State.tblSize (s : State) (t : Nat) : Nat :=
  match t with
  | 0x01 => 256 | 0x02 => 64 | 0x18 => 1048576 | 0x19 => 65536 | 0x1A => 3932160
  | 0x30 => 262144 - s.getF uTG F.SIV_CFG_EGRESS_COUNT
  | 0x31 => s.getF uTG F.SIV_CFG_EGRESS_COUNT
  | 0x40 => 131072 | 0x41 => 32768 | 0x42 => 16384 | 0x43 => 65536 | 0x44 => 753664 | 0x45 => 131072 | 0x46 => 32768
  | 0x47 => 256 | 0x50 => 262144 | 0x51 => 65536 | 0x52 => 4096 | 0x58 => 131072
  | _ => 0

/-- Table IDs that exist (R129, R194). -/
def tblKnown (t : Nat) : Bool :=
  tblKeyed t || [0x01, 0x02, 0x18, 0x19, 0x1A, 0x30, 0x31, 0x40, 0x41, 0x42, 0x43, 0x44, 0x45, 0x46, 0x47, 0x50, 0x51, 0x52, 0x58].contains t

/-- Entry size in bytes; of an EM entry by its key type's width, of a CAM entry by its table's (R184). -/
def State.entryLen (s : State) (t img : Nat) : Nat :=
  if isEM t then (if s.keyWide (emType img % 64) then 64 else 16)
  else if isLRN t then 16
  else if isCAM t then (match s.camCfg (t - 0x38) F.CAM_TBL_CFG_WIDTH_LOG2 with | 0 => 24 | 1 => 32 | _ => 48)
  else match t with
    | 0x01 => 16 | 0x02 => 128 | 0x12 => 12 | 0x13 => 32 | 0x18 => 16 | 0x19 => 16 | 0x1A => 4 | 0x30 => 48 | 0x31 => 48
    | 0x40 => 48 | 0x41 => 16 | 0x42 => 128 | 0x43 => 16 | 0x44 => 8 | 0x45 => 32 | 0x46 => 32 | 0x47 => 8
    | 0x50 => 32 | 0x51 => 32 | 0x52 => 32 | 0x58 => 4
    | _ => 0

/-- R471: opcodes allowed for a table. -/
def opAllowed (t op : Nat) : Bool :=
  if op = 0x20 ∨ op = 0x21 ∨ op = 0x25 then true
  else if op = 0x22 ∨ op = 0x23 ∨ op = 0x24 then tblKeyed t
  else if op = 0x26 ∨ op = 0x27 then isEM t || isLPM t || isLRN t
  else if op = 0x28 then isEM t
  else if op = 0x2D then [0x01, 0x02, 0x30, 0x40].contains t
  else false

/-! ### Ranges of entry images (R150) -/

/-- Table 7 of chapter 6: a RESULT lies in range. -/
def resultOk (r : Nat) : Bool :=
  bitsOf r 20 2 == 0 &&
  (match r / 2 ^ 22 with
   | 0 => true
   | 1 => r % 2 ^ 20 < 65536
   | 2 => r % 2 ^ 20 < 131072
   | _ => r % 2 ^ 20 == 0)

/-- GEN_VALID, HIT and reserved bits of an image are 0. -/
def State.rsvdOk (s : State) (t e : Nat) : Bool :=
  let z (off lo w : Nat) : Bool := bitsOf e (8 * off + lo) w == 0
  if isEM t then z 0 56 8 && z 0 0 24 && (!s.keyWide (emType e % 64) || z 0x38 0 64)
  else if isLRN t then z 0 62 1 && z 0 0 52 && z 8 60 4
  else if isCAM t then
    let len := s.camKeyLen (t - 0x38)
    z 0 24 40 && bitsOf e (8 * (8 + len)) (8 * (s.entryLen t e - 8 - len)) == 0
  else match t with
    | 0x01 => z 0 54 10 && z 8 32 32
    | 0x02 => z 0 62 2
    | 0x12 => z 0 61 3 && z 0 24 19
    | 0x13 => z 0 61 3 && z 0 24 17 && z 0x18 0 64
    | 0x18 => z 0 58 3 && z 0 0 6 && z 8 0 8
    | 0x19 => z 0 46 17 && z 0 42 1 && z 0 22 10 && z 8 0 64
    | 0x1A => z 0 20 12
    | 0x30 | 0x31 => z 0 62 2 && z 0 24 11
    | 0x40 => z 0 62 2 && z 0x20 0 36 && z 0x28 0 64
    | 0x41 => z 0 0 10 && z 8 0 64
    | 0x42 => z 0 0 49 && z 8 0 64
    | 0x43 => z 0 45 17 && z 0 20 12 && z 8 0 64
    | 0x44 => z 0 48 15 && z 0 20 12
    | 0x45 | 0x46 => z 0 32 26 && z 8 24 8 && z 0x10 56 8 && z 0x10 0 32 && z 0x18 0 64
    | 0x47 => z 0 48 16
    | 0x50 | 0x51 | 0x52 => z 0 0 22 && z 8 25 7 && z 0x10 0 64 && z 0x18 0 64
    | 0x58 => z 0 17 14
    | _ => true

/-- The highest rate a meter or shaper takes, kb/s. -/
def maxKbps : Nat := 1600000000

/-- Fields of an image that name a value keep its range: Tables 4 to 9, 11 of chapter 6; 1 and 5 of chapter 8; 2 to 6 of
chapter 9; 1 of chapter 13; Tables 3 and 4 of chapter 5. -/
def rangesOk (t idx e : Nat) : Bool :=
  let g (off lo w : Nat) : Nat := bitsOf e (8 * off + lo) w
  if isEM t then emType e ≤ 63 && resultOk (emResult e)
  else if isLRN t then lrnPort e ≤ 255
  else if isCAM t then resultOk (camResult e)
  else match t with
    | 0x02 => profileOk e
    | 0x12 => lpmPlen false e ≤ 32 && resultOk (lpmResult e) && lpmPrefix false e % 2 ^ (32 - lpmPlen false e) == 0
    | 0x13 => lpmPlen true e ≤ 128 && resultOk (lpmResult e) && lpmPrefix true e % 2 ^ (128 - lpmPlen true e) == 0
    | 0x18 =>
      (match g 0 61 2 with
       | 0 => g 0 40 18 ≤ 262136
       | 1 => g 0 40 18 == 0
       | 2 => g 0 55 3 == 0
       | _ => false)
    | 0x19 => 1 ≤ g 0 32 10 && g 0 32 10 ≤ 512 && g 0 0 22 + g 0 32 10 ≤ 3932160
    | 0x30 =>
      sivEnable e && (sivDetour e == 0 || (8 ≤ sivDetour e && sivDetour e ≤ 14)) && resultOk (sivResult e)
    | 0x31 =>
      sivDetour e == 0 && g 0 20 2 == 0 &&
      (match g 0 22 2 with
       | 2 => g 0 0 20 < 32768
       | 3 => g 0 0 20 == 0
       | _ => false)
    | 0x40 =>
      actKind e ≤ 4 &&
      (match actKind e with
       | 0 => true
       | 1 | 2 => actIndex e < 65536
       | _ => actIndex e == 0) &&
      (actDetour e == 0 || (8 ≤ actDetour e && actDetour e ≤ 14)) &&
      (let w := bitsOf e 64 64
       (match edDecap w with
        | 0 => edDecapLen w == 0
        | 3 => 1 ≤ edDecapLen w && edDecapLen w ≤ 4
        | _ => 14 ≤ edDecapLen w) &&
       edPush w ≤ 4 &&
       (List.range 4).all fun i => i < edPush w || g (0x10 + 8 * (i / 2)) (if i % 2 = 0 then 32 else 0) 32 == 0)
    | 0x41 => g 0 60 3 ≤ 4
    | 0x42 =>
      let need := (match encOuter e with | 0 => 2 | 1 => 22 | _ => 42) + (if encUdp e then 8 else 0)
      encOuter e ≤ 2 && (!encUdp e || encOuter e != 0) && need ≤ encLen e && encLen e ≤ 112 &&
        bitsOf e (8 * (16 + encLen e)) (8 * (112 - encLen e)) == 0
    | 0x43 => 1 ≤ g 0 32 13 && g 0 32 13 ≤ 1024 && g 0 0 20 + g 0 32 13 ≤ 753664
    | 0x45 | 0x46 =>
      metMode e ≤ 2 && (t == 0x45 || !metMarkDei e) && 1 ≤ metCir e && metCir e ≤ maxKbps &&
      64 ≤ metCbs e && metEir e ≤ maxKbps &&
      (match metMode e with
       | 0 => metEir e == 0
       | 1 => metCir e ≤ metEir e && metCbs e ≤ metEbs e
       | _ => true)
    | 0x50 | 0x51 | 0x52 =>
      1 ≤ tmWeight e &&
      (if t = 0x50 then tmProfile e ≤ 62 else tmProfile e == 0) &&
      (if tmShape e then 1 ≤ tmRate e && tmRate e ≤ maxKbps && 64 ≤ tmBurst e && tmBurst e ≤ 16777216
       else tmRate e == 0 && tmBurst e == 0) &&
      (match t with
       | 0x50 => tmParent e < 16380 && idx % 65536 < 65504
       | 0x51 => tmParent e < 1020 && idx % 16384 < 16380
       | _ => tmParent e < 64 && idx % 1024 < 1020)
    | _ => true

/-- R176: what a sieve rule must fit besides its format. -/
def State.sieveRuleOk (s : State) (t e : Nat) : Bool :=
  let grp := sivGroup e
  s.getFS uTG grp F.SIV_GRP_CFG_EN == 1 &&
  s.getFS uTG grp F.SIV_GRP_CFG_STAGE == t - 0x30 &&
  (sivValue e &&& s.sieveMask grp) == sivValue e

/-- An image that a table takes. -/
def State.imageOk (s : State) (t idx e : Nat) : Bool :=
  s.rsvdOk t e && rangesOk t idx e && (t != 0x30 && t != 0x31 || s.sieveRuleOk t e)

/-- Bits of word 0x00 that TEST_AND_SET leaves out of its comparison (Table 14 of chapter 6). -/
def casMask (t : Nat) : Nat :=
  let all := 2 ^ 64 - 1
  if isEM t ∨ isLPM t ∨ isCAM t then all - 7 * 2 ^ 61
  else if isLRN t then all - 2 ^ 62
  else if t = 0x31 then all - 2 ^ 63
  else if tblGen t then all - 3 * 2 ^ 62
  else all

end Sys2Proof.Machine
end

