-- ==== Sys2Proof/Machine/Tables.lean ====
section
/-!
DEFINITION. The table commands: what each reads and changes (R132–R137, R149–R151, R465, R466 of
spec/06_lookup_tables.md; R158–R162, R467 of spec/07_generations.md; R176, R185, R191 of spec/08_classifier_and_cam.md;
R203, R292, R301, R305), apart from the queues and rings they come from.
-/
namespace Sys2Proof.Machine

/-- A table command: opcode, ARG's fields (Table 14 of chapter 6), LEN, its descriptor's first three words and its operand. -/
structure TCmd where
  op : Nat
  tid : Nat
  sel : Nat
  idx : Nat
  clear : Bool
  seg : Nat
  len : Nat
  w0 : Nat
  w1 : Nat
  w2 : Nat
  data : List Byte
  deriving DecidableEq, Repr

/-- The command of a descriptor's words with an operand (R150). -/
def tcmdOf (w0 w1 w2 : Nat) (data : List Byte) : TCmd :=
  { op := bitsOf w0 56 8, tid := bitsOf w2 56 8, sel := bitsOf w2 54 2, idx := bitsOf w2 0 24, clear := bitsOf w2 53 1 == 1
    seg := bitsOf w2 51 3, len := bitsOf w0 0 32, w0 := w0, w1 := w1, w2 := w2, data := data }

/-- Opcodes. -/
def opREAD : Nat := 0x20
def opWRITE : Nat := 0x21
def opINSERT : Nat := 0x22
def opDELETE : Nat := 0x23
def opAGE : Nat := 0x24
def opTAS : Nat := 0x25
def opSLOT : Nat := 0x26
def opSCAN : Nat := 0x27
def opREHASH : Nat := 0x28
def opCOMMIT : Nat := 0x29
def opFENCE : Nat := 0x2A
def opABORT : Nat := 0x2B
def opGENWAIT : Nat := 0x2C
def opINVAL : Nat := 0x2D

/-- R472: the command changes table or generation state. -/
def TCmd.changes (c : TCmd) : Bool :=
  [0x21, 0x22, 0x23, 0x24, 0x25, 0x28, 0x29, 0x2B, 0x2D].contains c.op || (c.op == 0x27 && c.clear)

/-- What a command answers: status, INFO, bytes for ADDR, the entry as read or as it was (R152), reply words 0x10–0x38. -/
structure TReply where
  status : Nat
  info : Nat := 0
  data : List Byte := []
  old : List Byte := []
  extra : List Byte := []
  deriving DecidableEq, Repr

/-! ### Entries -/

/-- The active generation and the staging one. -/
def State.activeGen (s : State) : Nat := s.getF uTG F.GEN_STATUS_ACTIVE
def State.stagingGen (s : State) : Nat := 1 - s.activeGen
def State.genState (s : State) : Nat := s.getF uTG F.GEN_STATUS_STATE

/-- An entry has been written: the compare passes it over for two periods (R156, R183). -/
def State.markWrote (s : State) (tid idx : Nat) : State :=
  s.modGen fun g => { g with wrote := s.gen.wrote.put (fun _ => 0) (tblKey tid 0 idx) (s.clk.wpNum + 1) }

/-- Units a compare passes over once an entry becomes `v`: of an LPM entry its pool units, of table 0x12; of an EM slot outside
the stash that holds or held a wide entry its four; of a sieve index it, if the active image is the one written (R156, R183). -/
def State.wroteUnits (s : State) (tid gen idx v : Nat) : List (Nat × Nat) :=
  let wide (e : Nat) : Bool := e != 0 && s.keyWide (emType e)
  if tid = 0x12 then (List.range 3).map fun i => (0x12, idx + i)
  else if tid = 0x13 then (List.range 8).map fun i => (0x12, idx + i)
  else if tid = 0x30 ∧ gen ≠ s.activeGen then []
  else if tid = 0x10 ∧ idx < 0xFFFF00 ∧ (wide v ∨ wide (s.ent 0x10 0 idx)) then (List.range 4).map fun i => (0x10, idx + i)
  else [(tid, idx)]

/-- An entry's words are written anew: those that stood as uncorrectable do so no longer (R375). -/
def State.freshWords (s : State) (ws : List (Nat × Nat)) : State :=
  if s.flt.badWords.isEmpty then s
  else s.modFlt fun f => { f with badWords := s.flt.badWords.filter fun b => !ws.contains b.2 }

/-- A command, a move or a rehash writes an entry. -/
def State.putEnt (s : State) (tid gen idx v : Nat) : State :=
  ((s.setEnt tid gen idx v).freshWords ((tid, idx) :: s.wroteUnits tid gen idx v)).each (s.wroteUnits tid gen idx v) fun s u => s.markWrote u.1 u.2

/-- The unit width in EM slots of an entry. -/
def State.emUnits (s : State) (e : Nat) : Nat := if s.keyWide (emType e) then 4 else 1

/-- Bits 63 and 62 as GEN_VALID of generation `g`. -/
def validBit (g : Nat) : Nat := 2 ^ (62 + g % 2)

/-- An image with word 0x00's top bits (GEN_VALID, HIT and, in a CAM, POISON) cleared. -/
def bareImage (tid e : Nat) : Nat := setBitsOf e (if isCAM tid then 60 else 61) (if isCAM tid then 4 else 3) 0

/-- Slots that hold the key of an image in a generation. -/
def State.slotsOf (s : State) (tid img gen : Nat) : List Nat :=
  if isEM tid then
    let kt := emType img
    let key := emKeyOf (s.keyWide kt) img
    ((s.emCandidates gen kt key).eraseDups).filter (s.emMatches gen kt key)
  else if isLPM tid then
    let v6 := tid == 0x13
    (s.lpmKey gen v6 (lpmVrf v6 img) (lpmPlen v6 img) (lpmPrefix v6 img)).toList
  else
    let len := s.camKeyLen (tid - 0x38)
    ((s.entries tid 0).filter fun e => genValid e.2 gen && !camPoison e.2 && camKeyOf len e.2 == camKeyOf len img).map (·.1)

/-! ### Free slots and moves -/

/-- A keyed slot is free. -/
def State.slotFree (s : State) (tid i : Nat) : Bool :=
  let e := s.ent tid 0 i
  !genValid e 0 && !genValid e 1 && !(isCAM tid && camPoison e)

/-- The other bucket of the entry at an EM slot, as slots. -/
def State.emOther (s : State) (gen slot : Nat) : List Nat :=
  let e := s.ent 0x10 0 slot
  let w := s.keyWide (emType e)
  let b := s.emBuckets gen (emType e) (emKeyOf w e)
  let d := if w then 16 else 4
  let mine := slot / d * d
  emWays w (if mine = b.1 then b.2 else b.1)

/-- One level of the search for a move chain: paths (last slot first) that no shorter chain reaches. -/
def State.chainLevel (s : State) (gen : Nat) (paths : List (List Nat)) (seen : List Nat) : List (List Nat) × List Nat :=
  paths.foldl (fun (a : List (List Nat) × List Nat) p =>
    match p with
    | [] => a
    | x :: _ =>
      let next := (s.emOther gen x).filter fun y => !a.2.contains y
      (a.1 ++ next.map (· :: p), a.2 ++ next)) ([], seen)

/-- R134 step 2: the shortest move chain of at most `n` moves, as slots from the free one back to the start. -/
def State.chainFind (s : State) (gen : Nat) : Nat → List (List Nat) → List Nat → Option (List Nat)
  | 0, _, _ => none
  | n + 1, paths, seen =>
    let ends := paths.filterMap fun p => match p with
      | [] => none
      | x :: _ => ((s.emOther gen x).find? (s.slotFree 0x10)).map (· :: p)
    match ends with
    | e :: _ => some e
    | [] =>
      let l := s.chainLevel gen paths seen
      s.chainFind gen n l.1 l.2

/-- Run a chain from its free end backward: each move writes the new slot before it clears the old one. -/
def State.runChain (s : State) : List Nat → State
  | f :: x :: r => ((s.putEnt 0x10 0 f (s.ent 0x10 0 x)).putEnt 0x10 0 x 0).runChain (x :: r)
  | _ => s

/-- The moves of a chain in execution order, as (FROM, TO). -/
def chainMoves : List Nat → List (Nat × Nat)
  | f :: x :: r => (x, f) :: chainMoves (x :: r)
  | _ => []

/-- A place found for a new entry: its slot, the moves made, the state with them. -/
structure Place where
  slot : Nat
  moves : List (Nat × Nat)
  state : State

/-- R134, R135: a place for an EM entry in a generation. -/
def State.emPlace (s : State) (gen img : Nat) : Option Place :=
  let w := s.keyWide (emType img)
  let b := s.emBuckets gen (emType img) (emKeyOf w img)
  let ways := (emWays w b.1 ++ emWays w b.2).eraseDups
  match ways.find? (s.slotFree 0x10) with
  | some i => some ⟨i, [], s⟩
  | none =>
    let starts := (if b.2 < b.1 then emWays w b.2 ++ emWays w b.1 else ways).eraseDups
    match s.chainFind gen 8 (starts.map fun x => [x]) starts with
    | some c => some ⟨c.getLast?.getD 0, chainMoves c, s.runChain c⟩
    | none => ((List.range 256).find? fun i => s.slotFree 0x10 (stashSlot i)).map fun i => ⟨stashSlot i, [], s⟩

/-- Entries of both address families in the LPM pool, as (first unit, units). -/
def State.lpmHeld (s : State) : List (Nat × Nat) :=
  let f (tid n : Nat) := ((s.entries tid 0).filter fun e => genValid e.2 0 || genValid e.2 1).map fun e => (e.1, n)
  f 0x12 3 ++ f 0x13 8

/-- R465: the slot an LPM entry takes. -/
def State.lpmPlace (s : State) (v6 : Bool) : Option Nat :=
  let held := s.lpmHeld
  let free (a n : Nat) : Bool := held.all fun h => h.1 + h.2 ≤ a || a + n ≤ h.1
  if v6 then
    ((List.range (min 1572864 (2 * held.length + 1))).find? fun k => free (8 * (1572864 - 1 - k)) 8).map fun k => 8 * (1572864 - 1 - k)
  else ((List.range (min 4194304 (4 * held.length + 1))).find? fun k => free (3 * k) 3).map (3 * ·)

/-- R184: entries that a replica of a CAM table holds. -/
def State.camCapacity (s : State) (t : Nat) : Nat :=
  (s.replicaBanks t 0).length * (4096 / 2 ^ s.camCfg t F.CAM_TBL_CFG_WIDTH_LOG2)

/-- R185: the lowest free address. -/
def State.camPlace (s : State) (tid : Nat) : Option Nat :=
  (List.range (min (s.camCapacity (tid - 0x38)) ((s.entries tid 0).length + 1))).find? (s.slotFree tid)

/-- A place for a new keyed entry in a generation. -/
def State.place (s : State) (tid gen img : Nat) : Option Place :=
  if isEM tid then s.emPlace gen img
  else (if isLPM tid then s.lpmPlace (tid == 0x13) else s.camPlace tid).map fun i => ⟨i, [], s⟩

/-! ### The comparison copy of CAM keys (R191) -/

/-- DRAM address of a unit's copy: in-service bank position `b`, unit `u`. -/
def State.camCopyAt (s : State) (b u : Nat) : Nat :=
  s.getF uCAMG F.CAM_COPY_LO_ADDR * 4096 + s.getF uCAMG F.CAM_COPY_HI_ADDR * 2 ^ 32 + 10 * (4096 * b + u)

/-- Bank position of R191 that a bank's copy uses: its own, or that of the bank a spare replaces. -/
def State.camPos (s : State) (u : Nat) : Nat :=
  let b := match s.flt.swapped.find? fun w => w.2 == u with | some w => w.1 | none => u
  (camBanks.findIdx? (· == b)).getD 0

/-- An entry write: the device first writes the copy of the key in banks without VERIFY. -/
def State.camCopyWrite (s : State) (tid addr e : Nat) : State :=
  let t := tid - 0x38
  let w := 2 ^ s.camCfg t F.CAM_TBL_CFG_WIDTH_LOG2
  let per := 4096 / w
  let us := (s.tableBanks t).filter fun u => s.getF u F.CAM_BANK_CFG_POSITION == addr / per
  let row (k : Nat) : Bool := us.contains (k / 4096) && k % 4096 / w == addr % per
  let s := s.modFlt fun f => { f with
    blank := s.flt.blank.filter (fun b => !(b.2 == addr && us.contains b.1)), rowKeys := s.flt.rowKeys.keep fun k => !row k }
  s.each ((s.tableBanks t).filter fun u => s.getF u F.CAM_BANK_CFG_POSITION == addr / per && s.getF u F.CAM_BANK_CFG_VERIFY == 0) fun s u =>
    (s.dramWrite (5 * 4096) (s.camCopyAt (s.camPos u) (addr % per * w)) (camKeyOf (10 * w) e)).2

/-- Write a keyed entry; in a CAM, its copy first. -/
def State.putKeyed (s : State) (tid idx e : Nat) : State :=
  (if isCAM tid then s.camCopyWrite tid idx e else s).putEnt tid 0 idx e

/-! ### Staged units (R158, R162, R467) -/

/-- Units of a keyed entry (Table 3 of chapter 7). -/
def State.stageSize (s : State) (tid e : Nat) : Nat :=
  if isEM tid then s.emUnits e
  else if tid = 0x12 then 3
  else if tid = 0x13 then 8
  else 2 ^ s.camCfg (tid - 0x38) F.CAM_TBL_CFG_WIDTH_LOG2

/-- The area being filled by a rehash in generation `g`, if one is staged. -/
def State.rehashArea (s : State) (g : Nat) : Option Nat :=
  match s.gen.rehash with
  | some (seg, _, false) => some (s.emArea seg g)
  | _ => none

/-- A copy that a staged rehash made (R136): a slot of its area whose key the active generation has too, or the staging
generation at another slot. It counts in no staging limit. -/
def State.rehashCopy (s : State) (g slot e : Nat) : Bool :=
  s.rehashArea g == some (slot / 524288) && (!(s.slotsOf 0x10 e (1 - g)).isEmpty ||
    (s.entries 0x10 0).any fun x => x.1 / 524288 != slot / 524288 && genValid x.2 g && emType x.2 == emType e &&
      emKeyOf (s.keyWide (emType e)) x.2 == emKeyOf (s.keyWide (emType e)) e)

/-- Staged units of a table for staging generation `g`; both LPM tables count as one. -/
def State.stagedUnits (s : State) (tid g : Nat) : Nat :=
  let keyed (t : Nat) : Nat :=
    (((s.entries t 0).filter fun e => genValid e.2 g && !genValid e.2 (1 - g) && !(isEM t && s.rehashCopy g e.1 e.2)).map fun e =>
      s.stageSize t e.2).sum
  if isLPM tid then keyed 0x12 + keyed 0x13
  else if tblKeyed tid then keyed tid
  else
    let norm (e h : Nat) : Nat := setBitsOf e 62 2 (if genValid e h then 1 else 0)
    ((((s.entries tid 0).map (·.1) ++ (s.entries tid 1).map (·.1)).eraseDups).filter fun i =>
      norm (s.ent tid 0 i) 0 != norm (s.ent tid 1 i) 1).length

/-- R162: a change that takes the staged units past the limit is not made. -/
def State.staged (s : State) (tid : Nat) (r : TReply × State) : TReply × State :=
  let g := s.stagingGen
  if r.1.status = 0 ∧ stagedLimit tid < r.2.stagedUnits tid g ∧ s.stagedUnits tid g < r.2.stagedUnits tid g then ({ status := 0x47 }, s)
  else r

/-! ### Keyed generational commands (R158) -/

/-- INFO of a keyed reply. -/
def slotInfo (tid slot : Nat) (moves : List (Nat × Nat)) : Nat :=
  (if isEM tid ∧ 0xFFFF00 ≤ slot then 2 ^ 28 else 0) + moves.length * 2 ^ 24 + slot % 2 ^ 24

/-- The move list of an INSERT reply. -/
def moveWords (moves : List (Nat × Nat)) : List Byte :=
  leBytes (moves.zipIdx.foldl (fun a m => a + (m.1.1 * 2 ^ 24 + m.1.2) * 2 ^ (48 * m.2)) 0) 48

/-- R135: the reply of NOROOM. -/
def State.noRoom (s : State) (tid gen img : Nat) : TReply :=
  if isEM tid then
    let w := s.keyWide (emType img)
    let key := emKeyOf w img
    let b := s.emBuckets gen (emType img) key
    { status := 0x42
      extra := wordsBytes [s.emSegment (emType img) key * 2 ^ 48 + b.2 * 2 ^ 24 + b.1, s.stashed.length, 0, 0, 0, 0] }
  else { status := 0x42 }

/-- Bytes of an entry. -/
def State.entBytes (s : State) (tid e : Nat) : List Byte := leBytes e (s.entryLen tid e)

/-- A new slot, valid in generation `g` only, HIT = 1 (R160). -/
def State.newSlot (s : State) (tid g img : Nat) (old : Nat) : TReply × State :=
  match s.place tid g img with
  | none => (s.noRoom tid g img, s)
  | some p =>
    ({ status := 0, info := slotInfo tid p.slot p.moves, old := s.entBytes tid old, extra := moveWords p.moves },
     p.state.putKeyed tid p.slot (bareImage tid img + validBit g + 2 ^ 61))

/-- Clear a slot's staging bit, or free it if it has no other. -/
def State.unstage (s : State) (tid g slot : Nat) : State :=
  let e := s.ent tid 0 slot
  if genValid e (1 - g) then s.putEnt tid 0 slot (setBitsOf e (62 + g % 2) 1 0) else s.putEnt tid 0 slot 0

/-- INSERT (Table 1 of chapter 7). -/
def State.keyInsert (s : State) (tid img : Nat) : TReply × State :=
  let g := s.stagingGen
  match s.slotsOf tid img g with
  | _ :: _ => ({ status := 0x41 }, s)
  | [] =>
    let reach (i : Nat) : Bool :=
      !isEM tid || (s.emCandidates g (emType img) (emKeyOf (s.keyWide (emType img)) img)).contains i
    match (s.slotsOf tid img (1 - g)).find? fun i => reach i && bareImage tid (s.ent tid 0 i) == bareImage tid img with
    | some i =>
      ({ status := 0, info := slotInfo tid i [], old := s.entBytes tid (s.ent tid 0 i), extra := moveWords [] },
       s.putEnt tid 0 i (setBitsOf (s.ent tid 0 i) (62 + g) 1 1))
    | none => s.newSlot tid g img 0

/-- WRITE (Table 1 of chapter 7). -/
def State.keyWrite (s : State) (tid img : Nat) : TReply × State :=
  let g := s.stagingGen
  match s.slotsOf tid img g with
  | [] => ({ status := 0x40 }, s)
  | i :: more =>
    let e := s.ent tid 0 i
    let t := s.each more fun s j => s.unstage tid g j
    if genValid e (1 - g) then
      let r := (t.unstage tid g i).newSlot tid g img e
      if r.1.status = 0 then ({ r.1 with extra := [] }, r.2) else (r.1, s)
    else
      ({ status := 0, info := slotInfo tid i [], old := s.entBytes tid e },
       t.putKeyed tid i (bareImage tid img + validBit g + bitsOf e 61 1 * 2 ^ 61))

/-- DELETE. -/
def State.keyDelete (s : State) (tid img : Nat) : TReply × State :=
  let g := s.stagingGen
  match s.slotsOf tid img g with
  | [] => ({ status := 0x40 }, s)
  | i :: more =>
    ({ status := 0, info := slotInfo tid i [], old := s.entBytes tid (s.ent tid 0 i) },
     s.each (i :: more) fun s j => s.unstage tid g j)

/-- AGE_IF_UNHIT (R149). -/
def State.keyAge (s : State) (tid img : Nat) : TReply × State :=
  match s.slotsOf tid img s.stagingGen with
  | [] => ({ status := 0x40 }, s)
  | i :: _ =>
    let e := s.ent tid 0 i
    if bitsOf e 61 1 = 1 then
      ({ status := 0x43, info := slotInfo tid i [], old := s.entBytes tid e }, s.putEnt tid 0 i (setBitsOf e 61 1 0))
    else s.keyDelete tid img

/-- The generation a selector reaches (R161); none for RETIRING in another state. -/
def State.selGen (s : State) (sel : Nat) : Option Nat :=
  match sel with
  | 0 => some s.stagingGen
  | 1 => some s.activeGen
  | _ => if s.genState = 2 then some s.stagingGen else none

/-- READ of a keyed entry. -/
def State.keyRead (s : State) (tid sel img : Nat) : TReply :=
  match s.selGen sel with
  | none => { status := 0x40 }
  | some g =>
    match s.slotsOf tid img g with
    | [] => { status := 0x40 }
    | i :: _ =>
      let b := s.entBytes tid (s.ent tid 0 i)
      { status := 0, info := slotInfo tid i [], data := b, old := b }

/-- Word 0x00 agrees with the compare word under the table's mask. -/
def casOk (tid e cmp : Nat) : Bool := (e % 2 ^ 64 &&& casMask tid) == (cmp &&& casMask tid)

/-- TEST_AND_SET of a keyed entry. -/
def State.keyTas (s : State) (tid sel img cmp : Nat) : TReply × State :=
  match s.selGen sel with
  | none => ({ status := 0x40 }, s)
  | some g =>
    match s.slotsOf tid img g with
    | [] => ({ status := 0x40 }, s)
    | i :: _ =>
      let e := s.ent tid 0 i
      if casOk tid e cmp then s.keyWrite tid img
      else ({ status := 0x44, info := slotInfo tid i [], old := s.entBytes tid e }, s)

/-! ### Learned tables -/

/-- Commands on a learned table; an entry inserted or written is in use (log entry 30). -/
def State.lrnCmd (s : State) (c : TCmd) (img cmp : Nat) : TReply × State :=
  let n := c.tid - 0x20
  let at_ := s.lrnFind n (lrnKeyOf img)
  let info (i : Nat) : Nat := slotInfo c.tid i []
  let new (hit : Nat) : Nat := setBitsOf (setBitsOf img 63 1 1) 62 1 hit
  match at_ with
  | none =>
    if c.op = opINSERT then
      match (lrnWays (lrnKeyOf img)).find? fun i => !lrnValid (s.ent c.tid 0 i) with
      | none => ({ status := 0x42 }, s)
      | some i => ({ status := 0, info := info i, old := leBytes 0 16, extra := moveWords [] }, s.putEnt c.tid 0 i (new 1))
    else ({ status := 0x40 }, s)
  | some i =>
    let e := s.ent c.tid 0 i
    let old := leBytes e 16
    let done (status : Nat) : TReply := { status := status, info := info i, old := old }
    if c.op = opINSERT then ({ status := 0x41 }, s)
    else if c.op = opREAD then ({ status := 0, info := info i, data := old, old := old }, s)
    else if c.op = opDELETE then (done 0, s.putEnt c.tid 0 i 0)
    else if c.op = opAGE then
      (if bitsOf e 62 1 = 1 then (done 0x43, s.putEnt c.tid 0 i (setBitsOf e 62 1 0)) else (done 0, s.putEnt c.tid 0 i 0))
    else if c.op = opTAS ∧ !casOk c.tid e cmp then (done 0x44, s)
    else (done 0, s.putEnt c.tid 0 i (new (bitsOf e 62 1)))

/-! ### Indexed tables -/

/-- Device state that a READ of a TM entry shows (Table 1 of chapter 13). -/
def State.tmRead (s : State) (tid idx : Nat) : Nat :=
  let lvl := tid - 0x50
  let x := s.tmNode lvl idx
  let credit := (s.credit lvl idx) / byteTok
  s.tmEnt tid idx % 2 ^ 128 + (x.tag % 2 ^ 48 * 2 ^ 16 + (if x.active then 2 ^ 15 else 0)) * 2 ^ 128 +
    ((credit % 2 ^ 32).toNat * 2 ^ 32 + (if lvl = 0 then depthOf (s.queue idx) % 2 ^ 32 else 0)) * 2 ^ 192

/-- What an indexed entry reads as, in generation `g` (R203, R467). -/
def State.idxRead (s : State) (tid g idx : Nat) : Nat :=
  if isTM tid then s.tmRead tid idx
  else if isMeter tid then
    let e := s.ent tid 0 idx
    let m := metRefill e (s.meterSt tid idx) s.clk.now
    e % 2 ^ 192 + ((m.tc / byteTok) % 2 ^ 32 * 2 ^ 32 + (m.te / byteTok) % 2 ^ 32) * 2 ^ 192
  else if tblGen tid then
    setBitsOf (s.ent tid g idx) 62 2 ((if genValid (s.ent tid 0 idx) 0 then 1 else 0) + (if genValid (s.ent tid 1 idx) 1 then 2 else 0))
  else s.ent tid 0 idx

/-- R176: another index of a sieve group holds the same VALUE. -/
def State.sieveDup (s : State) (tid g idx img : Nat) : Bool :=
  (s.entries tid (if tid = 0x30 then g else 0)).any fun e =>
    e.1 != idx && sivGroup e.2 == sivGroup img && sivValue e.2 == sivValue img &&
    (if tid = 0x30 then genValid e.2 g else bitsOf e.2 63 1 == 1)

/-- WRITE of an indexed entry. `full`: the sieve's search index cannot place the rule (R176, R177); a rule with ENABLE 0
takes no pointer. -/
def State.idxWrite (s : State) (tid idx img : Nat) (full : Bool) : TReply × State :=
  let g := s.stagingGen
  let reply : TReply := { status := 0, info := idx, old := s.entBytes tid (s.idxRead tid g idx) }
  if (tid = 0x30 ∨ tid = 0x31) ∧ s.sieveDup tid g idx img then ({ status := 0x41 }, s)
  else if (tid = 0x30 ∨ tid = 0x31) ∧ sivEnable img ∧ full then ({ status := 0x42 }, s.addF uTG F.SIV_NOROOM_COUNT 1)
  else if tid = 0x31 then (reply, s.putEnt tid 0 idx (setBitsOf img 63 1 (bitsOf img 61 1)))
  else if tblGen tid then (reply, s.putEnt tid g idx (setBitsOf img 62 2 0 + validBit g))
  else if isMeter tid then (reply, (s.putEnt tid 0 idx (img % 2 ^ 192)).fillMeter tid idx)
  else if isTM tid then (reply, s.tmWrite (tid - 0x50) idx img)
  else (reply, s.putEnt tid 0 idx img)

/-- A mark of a written sieve index, by its table and index under an EGRESS_COUNT of `c`, under one of `d`: a mark is a physical
index's (R183). -/
def splitKey (c d k : Nat) : Nat :=
  let u := if k / 2 ^ 32 = 0x31 then 262144 - c + k % 2 ^ 31 else k % 2 ^ 31
  if k / 2 ^ 32 ≠ 0x30 ∧ k / 2 ^ 32 ≠ 0x31 then k
  else if u < 262144 - d then tblKey 0x30 0 u else tblKey 0x31 0 (u - (262144 - d))

/-- R175: SIV_CFG.EGRESS_COUNT, changed from `c`, moves the split between the sieve tables; each image stays at its physical
index, egress index i at 262,144 − EGRESS_COUNT + i. No rule is valid or enabled then (R182). -/
def State.sieveSplit (s : State) (c : Nat) : State :=
  let d := s.getF uTG F.SIV_CFG_EGRESS_COUNT
  let s := s.modGen fun g => { g with wrote := g.wrote.foldl (fun m e => m.put (fun _ => 0) (splitKey c d e.1) e.2) [] }
  let eg := (s.entries 0x31 0).map fun e => (262144 - c + e.1, e.2)
  let inn := ((s.entries 0x30 s.activeGen).filter fun e => 262144 - d ≤ e.1).map fun e => (e.1, setBitsOf e.2 62 2 0)
  let s := { s with tbl := s.tbl.keep fun k => k / 2 ^ 32 != 0x31 && !(k / 2 ^ 32 == 0x30 && 262144 - d ≤ k % 2 ^ 31) }
  let s := s.each (eg.filter fun e => decide (e.1 < 262144 - d)) fun s e =>
    (s.setEnt 0x30 0 e.1 (setBitsOf e.2 62 2 0)).setEnt 0x30 1 e.1 (setBitsOf e.2 62 2 0)
  s.each ((eg.filter fun e => decide (262144 - d ≤ e.1)) ++ inn) fun s e => s.setEnt 0x31 0 (e.1 - (262144 - d)) e.2

/-- Commands on an indexed table. -/
def State.idxCmd (s : State) (c : TCmd) (img cmp : Nat) (full : Bool) : TReply × State :=
  let g := if tblGen c.tid then s.selGen c.sel else some 0
  match g with
  | none => ({ status := 0x40 }, s)
  | some g =>
    let e := s.idxRead c.tid g c.idx
    let b := s.entBytes c.tid e
    if c.op = opREAD then ({ status := 0, info := c.idx, data := b, old := b }, s)
    else if c.op = opINVAL then
      (if genValid (s.ent c.tid g c.idx) g then
        ({ status := 0, info := c.idx, data := leBytes e 8, old := b },
         s.putEnt c.tid g c.idx (setBitsOf (s.ent c.tid g c.idx) (62 + g) 1 0))
       else ({ status := 0x40 }, s))
    else if c.op = opTAS ∧ !casOk c.tid e cmp then ({ status := 0x44, info := c.idx, old := b }, s)
    else s.idxWrite c.tid c.idx img full

/-! ### Slots -/

/-- Table of the entry that holds an LPM unit as its first. -/
def State.lpmAt (s : State) (u : Nat) : Option (Nat × Nat) :=
  let v (tid : Nat) : Bool := genValid (s.ent tid 0 u) 0 || genValid (s.ent tid 0 u) 1
  if v 0x12 then some (0x12, s.ent 0x12 0 u) else if v 0x13 then some (0x13, s.ent 0x13 0 u) else none

/-- An area is wide (R466). -/
def State.areaWide (s : State) (a : Nat) : Bool :=
  (List.range 8).any fun g => (s.emArea g 0 == a || s.emArea g 1 == a) && decide (8 - s.wideAreas ≤ g)

/-- EM slots: 9 areas of 524,288, and the stash. -/
def emSlotOk (i : Nat) : Bool := i < 4718592 || (0xFFFF00 ≤ i && i < 0x1000000)

/-- READ_SLOT (R465, R466). -/
def State.slotRead (s : State) (c : TCmd) : TReply :=
  let out (e : Nat) : TReply := { status := 0, info := c.idx, data := leBytes e c.len }
  if isEM c.tid then
    let wide := 0xFFFF00 ≤ c.idx ∨ s.areaWide (c.idx / 524288)
    let ok := if 0xFFFF00 ≤ c.idx then c.len = 64 else if wide then c.len = 64 ∧ c.idx % 4 = 0 else c.len = 16
    if ¬ (ok ∧ emSlotOk c.idx) then { status := 1 }
    else if s.slotFree 0x10 c.idx then out 0 else out (s.ent 0x10 0 c.idx)
  else if isLPM c.tid then
    if ¬ ((c.len = 12 ∧ c.idx % 3 = 0 ∨ c.len = 32 ∧ c.idx % 8 = 0) ∧ c.idx < 12582912) then { status := 1 }
    else match s.lpmAt c.idx with
      | some (t, e) => if (t = 0x12) = (c.len = 12) then out e else out 0
      | none => out 0
  else if c.len = 16 ∧ c.idx < 65536 then out (s.ent c.tid 0 c.idx) else { status := 1 }

/-- Entry that starts at a slot, with its table; none if it is free. -/
def State.slotEnt (s : State) (tid i : Nat) : Option (Nat × Nat) :=
  if isLPM tid then s.lpmAt i
  else if isLRN tid then (if lrnValid (s.ent tid 0 i) then some (tid, s.ent tid 0 i) else none)
  else if s.slotFree tid i then none else some (tid, s.ent tid 0 i)

/-- R154, R375: the first word that stands as uncorrectable among those a command reads. A WRITE reads none of them: it
replaces the entry. -/
def State.cmdSpoiled (s : State) (c : TCmd) (img : Nat) : Option Nat :=
  if s.flt.badWords.isEmpty ∨ c.op = opWRITE then none
  else
    let units := if isEM c.tid ∧ s.areaWide (c.idx / 524288) then 4 else 1
    let keyed (g : Nat) : List (Nat × Nat) :=
      if isEM c.tid then s.emWords g (emType img) (emKeyOf (s.keyWide (emType img)) img) else (s.slotsOf c.tid img g).map fun i => (c.tid, i)
    let ws := if c.op = opSCAN then
        (s.flt.badWords.filter fun b => b.2.1 == c.tid && decide (c.idx ≤ b.2.2) && decide (b.2.2 < c.idx + 8 * c.len)).map (·.2)
      else if c.op = opSLOT then (List.range units).map fun i => (c.tid, c.idx + i)
      else if tblKeyed c.tid then keyed 0 ++ keyed 1
      else [(c.tid, c.idx)]
    (ws.find? fun w => s.spoiled w.1 w.2).map (·.2)

/-- HIT_SCAN: one bit per slot from INDEX; CLEAR clears each bit read. -/
def State.slotScan (s : State) (c : TCmd) : TReply × State :=
  let n := 8 * c.len
  let hitBit := if isLRN c.tid then 62 else 61
  let top := if isEM c.tid then (if 0xFFFF00 ≤ c.idx then 0x1000000 else 4718592) else if isLPM c.tid then 12582912 else 65536
  if c.len % 8 ≠ 0 ∨ 65536 < c.len ∨ top < c.idx + n then ({ status := 1 }, s)
  else
    let hit (i : Nat) : Bool := match s.slotEnt c.tid (c.idx + i) with | some (_, e) => bitsOf e hitBit 1 == 1 | none => false
    let ones := (List.range n).filter hit
    let bits := (List.range c.len).map fun j => BitVec.ofNat 8 ((List.range 8).foldl (fun a k => a + (if hit (8 * j + k) then 2 ^ k else 0)) 0)
    let s := if c.clear then s.each ones fun s i => match s.slotEnt c.tid (c.idx + i) with
        | some (t, e) => s.setEnt t 0 (c.idx + i) (setBitsOf e hitBit 1 0)
        | none => s
      else s
    ({ status := 0, info := ones.length, data := bits }, s)

/-! ### EM_REHASH (R136, R137) -/

/-- Bind a segment's area and seeds in a generation. -/
def State.bindSeg (s : State) (seg g area s1 s2 : Nat) : State :=
  let s := s.setF uTG ((if g % 2 = 0 then F.EM_SEG_AREA_A else F.EM_SEG_AREA_B).i seg) area
  s.modGen fun x => { x with seeds := s.gen.seeds.put (fun _ => none) (2 * seg + g % 2) (some (s1, s2)) }

/-- Entries of a segment that are valid in a generation, by slot. -/
def State.segEntries (s : State) (seg g : Nat) : List (Nat × Nat) :=
  (s.entries 0x10 0).filter fun e => genValid e.2 g && s.emSegment (emType e.2) (emKeyOf (s.keyWide (emType e.2)) e.2) == seg

/-- Copy entries into the newly bound area, in rising order of slot, the stash last (DESIGN CHOICE, log entry 92); the first entry
without a place ends the copy. -/
def State.rehashCopies (g area : Nat) : List (Nat × Nat) → State → Option Nat × State
  | [], s => (none, s)
  | e :: r, s =>
    match s.emPlace g e.2 with
    | none => (some e.2, s)
    | some p =>
      if p.slot / 524288 ≠ area ∧ p.slot < 0xFFFF00 then (some e.2, s)
      else State.rehashCopies g area r (p.state.putEnt 0x10 0 p.slot (bareImage 0x10 e.2 + validBit g + bitsOf e.2 61 1 * 2 ^ 61))

/-- The finished area's image. -/
def State.areaImage (s : State) (area : Nat) : List Byte :=
  if s.areaWide area then (List.range 131072).flatMap fun u => leBytes (s.ent 0x10 0 (area * 524288 + 4 * u)) 64
  else (List.range 524288).flatMap fun u => leBytes (s.ent 0x10 0 (area * 524288 + u)) 16

/-- The rehash's work: binding, copies, or NOROOM with the binding reverted. -/
def State.rehashRun (s : State) (seg seeds : Nat) (image : Bool) : TReply × State :=
  let g := s.stagingGen
  let area := s.getF uTG F.EM_STATUS_REHASH_AREA
  let old := s.emArea seg g
  let src := s.segEntries seg g
  let t := s.bindSeg seg g area (seeds % 2 ^ 32) (seeds / 2 ^ 32 % 2 ^ 32)
  let t := t.modGen fun g => { g with rehash := some (seg, seeds, false), rehashOld := some old }
  match State.rehashCopies g area src t with
  | (some e, t) =>
    let r := t.noRoom 0x10 g e
    (r, (s.modGen fun g => { g with rehash := none }).setF uTG F.EM_STATUS_REHASH_BUSY 0)
  | (none, t) =>
    ({ status := 0, data := if image then t.areaImage area else [], extra := wordsBytes [area, 0, 0, 0, 0, 0] }, t)

/-! ### Form of a command (R150, R161, R175, R185) -/

/-- Selectors that a command takes (R161). -/
def TCmd.selOk (c : TCmd) : Bool :=
  if !tblGen c.tid then c.sel == 0
  else if c.op = opREAD then c.sel ≤ 2
  else if c.op = opTAS then c.sel ≤ 1
  else c.sel == 0

/-- LEN and INDEX fit. A keyed TEST_AND_SET, which R150 does not list, must have INDEX 0 too (DESIGN CHOICE, log entry 91). -/
def State.cmdFits (s : State) (c : TCmd) : Bool :=
  let n := s.entryLen c.tid (leNat (c.data.take 64))
  if c.op = opINVAL then c.len == 8 && c.idx < s.tblSize c.tid
  else if c.op = opREHASH then (c.len == 8 || c.len == 8388616) && bitsOf c.w2 0 51 == 0
  else if c.op = opSLOT ∨ c.op = opSCAN then true
  else
    c.len == (if c.op = opTAS then n + 8 else n) &&
    (if tblKeyed c.tid then c.idx == 0 else c.idx < s.tblSize c.tid)

/-- The image of a command and its compare word. -/
def State.cmdImage (s : State) (c : TCmd) : Nat :=
  leNat (sliceBytes c.data 0 (s.entryLen c.tid (leNat (c.data.take 64))))
def State.cmdCompare (s : State) (c : TCmd) : Nat :=
  leNat (sliceBytes c.data (s.entryLen c.tid (leNat (c.data.take 64))) 8)

/-- R150: a command's entry image is in the table's format, its fields in their ranges. -/
def State.cmdImageOk (s : State) (c : TCmd) : Bool :=
  if c.op = opWRITE ∨ c.op = opINSERT ∨ c.op = opTAS ∨ (tblKeyed c.tid ∧ (c.op = opREAD ∨ c.op = opDELETE ∨ c.op = opAGE)) then
    s.imageOk c.tid c.idx (s.cmdImage c)
  else true

/-- R132: an EM key of a width that has no segment. -/
def State.emNoSegment (s : State) (c : TCmd) : Bool :=
  isEM c.tid && [0x20, 0x21, 0x22, 0x23, 0x24, 0x25].contains c.op && !s.emHasWidth (s.keyWide (emType (s.cmdImage c)))

/-- R194, R292: the unit that holds a meter or a queue is Off, Retired or isolated. -/
def State.holderOff (s : State) (c : TCmd) : Bool :=
  (c.tid == 0x45 && s.closed (uRSV (c.idx / 16384 % 8))) || (c.tid == 0x46 && s.closed (uTMQ (c.idx / 8192 % 4))) ||
  (isTM c.tid && s.closed (uTMQ (c.idx / (if c.tid = 0x50 then 65536 else if c.tid = 0x51 then 16384 else 1024) % 4)))

/-- The first check of its form that a command fails, as its status. -/
def State.cmdCheck (s : State) (c : TCmd) : Option Nat :=
  if !tblKnown c.tid then some 1
  else if !opAllowed c.tid c.op then some 2
  else if isCAM c.tid ∧ s.footing then some 5
  else if isCAM c.tid ∧ s.camCfg (c.tid - 0x38) F.CAM_TBL_CFG_EN = 0 then some 1
  else if !c.selOk ∨ (c.clear ∧ c.op ≠ opSCAN ∧ c.op ≠ opREHASH) ∨ !s.cmdFits c ∨ s.emNoSegment c ∨ !s.cmdImageOk c then some 1
  else if !s.fwdOn then some 7
  else if s.holderOff c then some 5
  else none

/-- Perform a command whose form holds. -/
def State.tableRun (s : State) (c : TCmd) (full : Bool) : TReply × State :=
  let img := s.cmdImage c
  let cmp := s.cmdCompare c
  if c.op = opSLOT then (s.slotRead c, s)
  else if c.op = opSCAN then s.slotScan c
  else if isLRN c.tid then s.lrnCmd c img cmp
  else if !tblKeyed c.tid then
    (if tblGen c.tid then s.staged c.tid (s.idxCmd c img cmp full) else s.idxCmd c img cmp full)
  else if c.op = opREAD then (s.keyRead c.tid c.sel img, s)
  else if c.op = opINSERT then s.staged c.tid (s.keyInsert c.tid img)
  else if c.op = opWRITE then s.staged c.tid (s.keyWrite c.tid img)
  else if c.op = opDELETE then s.keyDelete c.tid img
  else if c.op = opAGE then s.keyAge c.tid img
  else s.staged c.tid (s.keyTas c.tid c.sel img cmp)

end Sys2Proof.Machine
end

