-- ==== Sys2Proof/Machine/Gens.lean ====
section
/-!
DEFINITION. Where table commands come from and in which order they run (R88, R151, R164, R471, R472), generations: commit,
retirement, sweep and abort (R163–R170, R174), the rehash (R136, R137), the egress fence (R172, R173), the shadow compare
(R155, R156, R183) and the CAM scrub (R191, R192). A command's source is its ring's number, or 65,536 + p for the table
command window of PF p; a change that comes over the twin link has the source `twinSrc`.
-/
namespace Sys2Proof.Machine

/-- Source of what the twin link brings. -/
def twinSrc : Nat := 2 ^ 20

/-! ### The table command window (R88) -/

def State.tcwStart (s : State) (p : Nat) : Option Nat := s.hif.tcwAt.get (fun _ => none) p
def State.tcwWait (s : State) (p : Nat) : Option Nat := s.hif.tcwWait.get (fun _ => none) p
def State.setTcw (s : State) (p : Nat) (start wait : Option Nat) : State :=
  s.modHif fun h => { h with tcwAt := s.hif.tcwAt.put (fun _ => none) p start, tcwWait := s.hif.tcwWait.put (fun _ => none) p wait }

/-- Window words from `f`, `n` of them, as bytes. -/
def State.winBytes (s : State) (p n : Nat) (f : Fld) : List Byte :=
  (List.range n).flatMap fun k => leBytes (s.getF (uTCW p) (f.i k)) 4

/-- The running command of a window. LEN is that of its table; the compare word follows the image. -/
def State.winCmd (s : State) (p : Nat) : TCmd :=
  let u := uTCW p
  let op := 0x1F + s.getF u F.TCW_CMD_OP
  let tid := s.getF u F.TCW_CMD_TABLE
  let image := s.winBytes p 16 F.TCW_DATA_DATA
  let n := s.entryLen tid (leNat image)
  let len := if op = opTAS then n + 8 else n
  let w2 := tid * 2 ^ 56 + s.getF u F.TCW_CMD_GEN * 2 ^ 54 + s.getF u (F.TCW_KEY_KEY.i 0)
  tcmdOf (op * 2 ^ 56 + len) 0 w2
    (image.take n ++ (if op = opTAS then leBytes (s.getF u (F.TCW_KEY_KEY.i 2) + s.getF u (F.TCW_KEY_KEY.i 3) * 2 ^ 32) 8 else []))

/-- The words of TCW_KEY that carry nothing are 0, and the entry fits the window. -/
def State.winOk (s : State) (p : Nat) : Bool :=
  let k (i : Nat) := s.getF (uTCW p) (F.TCW_KEY_KEY.i i)
  decide (k 0 < 2 ^ 24) && ((List.range 16).all fun i => i == 0 || i == 2 || i == 3 || k i == 0) &&
    decide (s.entryLen (s.winCmd p).tid (leNat ((s.winCmd p).data.take 64)) ≤ 64)

/-! ### Queues (R151, R164) -/

/-- The queue a command runs in: its table's, the generation queue (256), or none. -/
def queueOf (op tid : Nat) : Option Nat :=
  if op = opFENCE then none
  else if op = opCOMMIT ∨ op = opABORT ∨ op = opGENWAIT then some 256
  else some tid

def Desc.queue (d : Desc) : Option Nat := queueOf d.op (bitsOf d.w2 56 8)

/-- The descriptors, in ring order, that stand first of their queue in the list. -/
def queueHeads : List Desc → List (Option Nat) → List Desc
  | [], _ => []
  | d :: rest, seen =>
    if d.queue.isSome && seen.contains d.queue then queueHeads rest seen else d :: queueHeads rest (d.queue :: seen)

/-- Commands that wait at the head of a queue, as (since, source). -/
def State.waiters (s : State) (q : Nat) : List (Nat × Nat) :=
  (s.hif.rings.flatMap fun r => r.2.descs.filterMap fun d =>
    match d.wait with
    | some t => if d.comp.isNone && !d.begun && d.queue == some q then some (t, r.1) else none
    | none => none) ++
  ((List.range 8).filterMap fun p =>
    match s.tcwStart p, s.tcwWait p with
    | some _, some t => if s.getF (uTCW p) F.TCW_CMD_TABLE = q then some (t, 65536 + p) else none
    | _, _ => none)

/-- Another source's command waits ahead of this one, which began to wait at `mine`, if it did. -/
def State.aheadOf (s : State) (src q : Nat) (mine : Option Nat) : Bool :=
  (s.waiters q).any fun w => w.2 != src &&
    (match mine with
     | none => true
     | some t => decide (w.1 < t) || (w.1 == t && decide (w.2 < src)))

/-- Mirrored by R434 (Table 3 of chapter 20). -/
def TCmd.mirrored (c : TCmd) : Bool :=
  c.changes && c.op != opSCAN && (mirroredTable c.tid || c.op == opCOMMIT || c.op == opABORT)

/-- R431: a full store, or a resynchronisation in progress, holds mirrored commands. -/
def State.twinHolds (s : State) (c : TCmd) : Bool :=
  s.mirroring && c.mirrored && (s.twinFull || s.twnState == 2)

/-- R164: the command waits at the head of its queue. -/
def State.mustWait (s : State) (c : TCmd) : Bool :=
  s.twinHolds c ||
  (s.genState != 0 &&
    ((tblGen c.tid && c.changes && c.op != opSCAN) || (tblGen c.tid && c.op == opREAD && c.sel == 0) ||
      c.op == opCOMMIT || c.op == opABORT))

/-- The command may not start yet: a command of its queue runs or waits ahead, or a COMMIT waits for running commands
(R163). -/
def State.blocked (s : State) (src : Nat) (mine : Option Nat) (c : TCmd) : Bool :=
  match queueOf c.op c.tid with
  | none => false
  | some q =>
    s.aheadOf src q mine ||
    (isEM c.tid && (match s.gen.rehash with | some (_, _, b) => b | none => false)) ||
    (tblGen c.tid && s.gen.commitHead.isSome) ||
    (q == 256 && (s.gen.commitHead.isSome || s.gen.commit.isSome || s.gen.abort.isSome))

/-- R164: the generation queue runs its commands in the order the device has read them: no other ring holds one read before. -/
def State.genTurn (s : State) (d : Desc) : Bool :=
  s.hif.rings.all fun r => r.2.descs.all fun e =>
    e.queue != some 256 || e.begun || e.comp.isSome || e.op == 0 || e.op == 0xFE || decide (d.seq ≤ e.seq)

/-- The command of a ring's descriptor can run now (R151, R164). -/
def State.canRun (s : State) (r : Nat) (d : Desc) : Bool :=
  let c := tcmdOf d.w0 d.w1 d.w2 []
  !s.blocked r d.wait c && !s.mustWait c && (d.queue != some 256 || s.genTurn d)

/-- The descriptor of a TABLE_CMD ring that a command with an opcode takes up: of those that stand first of their queue in the
ring (R151), the first that can run, else the first that has yet to begin to wait, else the first. -/
def State.tblDesc (s : State) (r op : Nat) : Option Desc :=
  if s.ringType r ≠ 3 ∧ (s.ring r).typ ≠ 3 then none
  else
    let hs := (queueHeads ((s.ring r).descs.filter fun d => !d.begun && d.comp.isNone) []).filter fun d => d.op == op
    (hs.find? (s.canRun r)).or ((hs.find? fun d => d.wait.isNone).or hs.head?)

/-- Mark a ring's command as waiting from now. -/
def State.markWait (s : State) (src : Nat) (d : Desc) : State :=
  match d.wait with
  | some _ => s
  | none => s.setDesc src d.idx fun d => { d with wait := some s.ns }

/-- The master that owns a source. -/
def State.srcMaster (s : State) (src : Nat) : Nat :=
  if src < 65536 then (s.ringOwner (src % 32768)).getD 0 else (src - 65536) % 4 + 1

/-- R434, R472: the source may not make this change. -/
def State.changeDenied (s : State) (src : Nat) (c : TCmd) : Bool :=
  c.changes && (s.getFS uHIF (s.srcMaster src) F.HIF_FN_CFG_TABLE_WR == 0 || (s.isFollower && c.mirrored))

/-! ### Answers -/

/-- Complete a ring's descriptor with a command's answer: bytes to ADDR, then the completion. -/
def State.tableReply (s : State) (r : Nat) (d : Desc) (t : TReply) : State :=
  let s := s.when (!t.data.isEmpty && !(s.ring r).flr) fun s => s.send (.hostWrite (s.srcMaster r) d.w1 t.data)
  s.complete r d.idx ⟨t.status, if t.status = 0 ∨ 0x40 ≤ t.status then d.len else 0, t.info, t.extra⟩

/-- R88, R152: a window's command ends; TCW_RESULT takes the entry read or replaced, or in words 0–3 the reply words 0x10 and
0x18 of NOROOM. -/
def State.winReply (s : State) (p : Nat) (t : TReply) : State :=
  let u := uTCW p
  let put (s : State) (n : Nat) (b : List Byte) : State := s.each (List.range n) fun s k =>
    s.setF u (F.TCW_RESULT_DATA.i k) (leNat (sliceBytes b (4 * k) 4))
  let s := if 4 ≤ p then s else if t.status = 0x42 then put s 4 t.extra else if t.old.isEmpty then s else put s 16 t.old
  if 4 ≤ p then s.setTcw p none none
  else ((s.setF u F.TCW_STATUS_RESULT t.status).setF u F.TCW_STATUS_BUSY 0).setTcw p none none

/-- Count a table command (Table 10 of chapter 16). -/
def State.countTable (s : State) (src : Nat) (c : TCmd) : State :=
  s.occur uTG 0x100 (c.op % 16) (some (s.srcMaster src)) c.idx 1

/-- The first descriptor of a ring that has begun with opcode `op` completes. -/
def State.endBegun (s : State) (r op : Nat) (c : Comp) : State :=
  match (s.ring r).descs.find? fun d => d.begun && d.comp.isNone && d.op == op with
  | some d => s.complete r d.idx c
  | none => s

/-! ### Table commands (R149–R153) -/

/-- Perform a command whose source may run it now. -/
def State.tableDo (s : State) (src : Nat) (c : TCmd) (ok : Bool) (ecc slot : Nat) (full : Bool) : TReply × State :=
  let s := s.countTable src c
  match (if src < 65536 ∨ s.winOk (src - 65536) then s.cmdCheck c else some 1) with
  | some st => ({ status := st }, s)
  | none =>
    if s.changeDenied src c then ({ status := 4 }, s)
    else if !ok then ({ status := 3 }, s)
    else
      let bad := s.cmdSpoiled c (s.cmdImage c)
      let ecc := if bad.isSome then 2 else ecc
      let s := s.wordEcc c.tid ecc (bad.getD slot)
      let r := if ecc = 2 then ({ status := 0x46 }, s) else s.tableRun c full
      (r.1, if c.mirrored then r.2.mirror c.w0 c.w1 c.w2 (c.data.take c.len) else r.2)

/-- A table command of a ring or window reaches the front: it waits, or runs and is answered. `data` is the operand the
host read brought, `ok` whether it succeeded; `ecc` and `slot` what the table's words held (R153); `full` whether the
sieve's index cannot place the rule (R176). -/
def State.tableCmd (s : State) (op src : Nat) (data : List Byte) (ok : Bool) (ecc slot : Nat) (full : Bool) : State :=
  if src < 65536 then
    match s.tblDesc src op with
    | none => s
    | some d =>
      let c := tcmdOf d.w0 d.w1 d.w2 data
      if s.blocked src d.wait c then s
      else if s.mustWait c then s.markWait src d
      else
        let r := s.tableDo src c ok ecc slot full
        r.2.tableReply src d r.1
  else
    let p := src - 65536
    let c := s.winCmd p
    if 8 ≤ p ∨ (s.tcwStart p).isNone ∨ c.op ≠ op ∨ s.blocked src (s.tcwWait p) c then s
    else if s.mustWait c then s.setTcw p (s.tcwStart p) (some ((s.tcwWait p).getD s.ns))
    else
      let r := s.tableDo src c true ecc slot full
      r.2.winReply p r.1

/-- R88: tTCW passes; the command ends with no effect. -/
def State.tcwTimeout (s : State) (p : Nat) : State :=
  match s.tcwStart p with
  | none => s
  | some t => (s.reach (t + 100000)).winReply p { status := 8 }

/-- R164: tGENQ passes for a ring's waiting command. -/
def State.genQueueTimeout (s : State) (r : Nat) : State :=
  match (s.ring r).descs.find? fun d => d.wait.isSome && !d.begun && d.comp.isNone && d.op != opGENWAIT &&
      s.mustWait (tcmdOf d.w0 d.w1 d.w2 []) with
  | none => s
  | some d => (s.reach ((d.wait.getD 0) + 20000000)).complete r d.idx (comp 0x48 0 0)

/-! ### EM_REHASH (R136, R137) -/

/-- EM_REHASH starts. -/
def State.rehashCmd (s : State) (src : Nat) (seeds : Nat) (ok : Bool) : State :=
  match s.tblDesc src opREHASH with
  | none => s
  | some d =>
    let c := tcmdOf d.w0 d.w1 d.w2 (leBytes seeds 8)
    if s.blocked src d.wait c then s
    else if s.mustWait c then s.markWait src d
    else
      let s := s.countTable src c
      let fail (st : Nat) : State := s.tableReply src d { status := st }
      match s.cmdCheck c with
      | some st => fail st
      | none =>
        if s.changeDenied src c then fail 4
        else if !ok then fail 3
        else if s.bit uTG F.EM_STATUS_REHASH_BUSY then (fail 0x45).mirror c.w0 c.w1 c.w2 c.data
        else
          let s := s.modGen fun g => { g with rehash := some (c.seg, seeds % 2 ^ 64, true) }
          (s.setF uTG F.EM_STATUS_REHASH_BUSY 1).setDesc src d.idx fun d => { d with begun := true }

/-- R136, R154: a rehash that reads an uncorrectable word ends with ECC, and the binding reverts. -/
def State.rehashEcc (s : State) : TReply × State :=
  ({ status := 0x46 }, (s.modGen fun g => { g with rehash := none }).setF uTG F.EM_STATUS_REHASH_BUSY 0)

/-- EM_REHASH ends: copied, or reverted with NOROOM or ECC; `ecc` and `slot` are what the words read held (R153). A rehash that
the twin link brought answers no ring. -/
def State.rehashDone (s : State) (ecc slot : Nat) : State :=
  match s.gen.rehash with
  | some (seg, seeds, true) =>
    let d? := s.hif.rings.findSome? fun r => (r.2.descs.find? fun d => d.begun && d.comp.isNone && d.op == opREHASH).map fun d => (r.1, d)
    let bad := ((s.segEntries seg s.stagingGen).map (·.1)).find? fun i => s.spoiled 0x10 i
    let ecc := if bad.isSome then 2 else ecc
    let s := s.wordEcc 0x10 ecc (bad.getD slot)
    match d? with
    | some (r, d) =>
      let x := if ecc = 2 then s.rehashEcc else s.rehashRun seg seeds (d.len = 8388616)
      let s := x.2.mirror d.w0 d.w1 d.w2 (leBytes seeds 8)
      s.tableReply r { d with w1 := d.w1 + 8 } x.1
    | none => (if ecc = 2 then s.rehashEcc else s.rehashRun seg seeds false).2
  | _ => s

/-! ### Commit (R163, R165, R174) -/

/-- Operand and ARG of COMMIT and GEN_ABORT fit Table 6 of chapter 7. -/
def genCmdOk (d : Desc) (operand : Nat) : Bool := d.len == 8 && d.w2 == 0 && decide (operand < 65536)

/-- COMMIT or GEN_ABORT reaches the head of the generation queue; `go` is what it does when nothing refuses it. -/
def State.genCmd (s : State) (src op operand : Nat) (ok : Bool) (go : State → State) : State :=
  match s.tblDesc src op with
  | none => s
  | some d =>
    let c := tcmdOf d.w0 d.w1 d.w2 (leBytes operand 8)
    if s.blocked src d.wait c ∨ !s.genTurn d then s
    else if s.mustWait c then s.markWait src d
    else
      let s := s.countTable src c
      let fail (st : Nat) : State := s.tableReply src d { status := st }
      if d.len ≠ 8 ∨ d.w2 ≠ d.w2 / 2 ^ 64 * 2 ^ 64 then fail 1
      else if s.changeDenied src c then fail 4
      else if !ok then fail 3
      else if ¬ genCmdOk d operand then fail 1
      else if !s.fwdOn then fail 7
      else if operand ≠ s.getF uTG F.GEN_STATUS_COMMIT_SEQ then fail 0x49
      else if op = opCOMMIT ∧ s.footing then fail 0x4C
      else go (s.setDesc src d.idx fun d => { d with begun := true })

/-- COMMIT: it waits for running commands, and none starts meanwhile. -/
def State.commitCmd (s : State) (src operand : Nat) (ok : Bool) : State :=
  s.genCmd src opCOMMIT operand ok fun s => s.modGen fun g => { g with commitHead := some src }

/-- R163: no generational table has a command running, so the COMMIT is accepted; R174: a lead asks its peer. -/
def State.commitAccept (s : State) : State :=
  match s.gen.commitHead with
  | none => s
  | some src =>
    if (match s.gen.rehash with | some (_, _, b) => b | none => false) then s
    else
      let peer := s.mirroring
      let s := s.modGen fun g => { g with
        commitHead := none, commit := some (src, s.ns), alone := false
        twinOk := !peer, twinOkAt := s.ns}
      let s := s.setF uTG F.GEN_STATUS_STATE 1
      s.when peer fun s => s.twinSend 3 (beBytes (s.getF uTG F.GEN_STATUS_COMMIT_SEQ) 8)

/-- R174: the peer has not confirmed within tTWC. -/
def State.commitTwinTimeout (s : State) : State :=
  match s.gen.commit with
  | none => s
  | some (src, acc) =>
    if s.gen.twinOk then s
    else
      let s := (s.reach (acc + 5000000)).setF uTG F.GEN_STATUS_STATE 0
      let s := s.modGen fun g => { g with commit := none }
      let s := s.event 0x23 0x210 uTG (s.getF uTG F.GEN_STATUS_COMMIT_SEQ) 0
      s.endBegun src opCOMMIT (comp 0x4A 8 0)

/-- R380, R395: a COMMIT that has not switched ends with a status, and the state returns to OPEN. -/
def State.commitFail (s : State) (status : Nat) : State :=
  match s.gen.commit, s.gen.commitHead with
  | some (src, _), _ =>
    let s := s.setF uTG F.GEN_STATUS_STATE 0
    (s.modGen fun g => { g with commit := none }).endBegun src opCOMMIT (comp status (if status < 0x40 then 0 else 8) 0)
  | none, some src =>
    (s.modGen fun g => { g with commitHead := none }).endBegun src opCOMMIT (comp status (if status < 0x40 then 0 else 8) 0)
  | none, none => s

/-- Whether the switch falls on this boundary: tCSETUP has passed since acceptance or the peer's answer; a follower
switches once it has its GO (R174, R435). -/
def State.switchDue (s : State) : Bool :=
  match s.gen.commit with
  | some (_, acc) => s.gen.twinOk && decide (max acc s.gen.twinOkAt + 2000 ≤ s.ns)
  | none => s.twin.goAt && s.genState == 1

/-- Sieve indexes whose images differ between the generations: a switch changes their active image (R183). -/
def State.sieveChanged (s : State) : List Nat :=
  let norm (g i : Nat) : Nat := setBitsOf (s.ent 0x30 g i) 62 2 (if genValid (s.ent 0x30 g i) g then 1 else 0)
  (((s.entries 0x30 0).map (·.1) ++ (s.entries 0x30 1).map (·.1)).eraseDups).filter fun i => norm 0 i != norm 1 i

/-- The registers of a switch: every ADM stamps generation `new`, ACTIVE flips, COMMIT_SEQ counts, STATE is RETIRING. -/
def State.switchRegs (s : State) (new : Nat) : State :=
  let s := s.each (List.range 8) fun s n => s.setF (uADM n) F.ADM_GEN_STATUS_GEN new
  let s := (s.setF uTG F.GEN_STATUS_ACTIVE new).setF uTG F.GEN_STATUS_COMMIT_SEQ (s.getF uTG F.GEN_STATUS_COMMIT_SEQ + 1)
  let s := (s.setF uTG F.GEN_STATUS_STATE 2).setF uTG F.GEN_SWITCH_LO_TIME s.ns
  s.setF uTG F.GEN_SWITCH_HI_TIME (s.ns / 2 ^ 32)

/-- The horizon of the generation that retires (R167). -/
def State.startRetire (s : State) (old : Nat) : State :=
  { s with
    gen := { s.gen with commit := none, twinOk := false, horizon := s.ns + s.gen.maxDeadline.get (fun _ => 0) old
                        maxDeadline := s.gen.maxDeadline.put (fun _ => 0) (1 - old) 0 }
    twin := { s.twin with goAt := false } }

/-- T_b: every ADM stamps the staging generation, and the former one retires (R163, R167). -/
def State.commitSwitch (s : State) : State :=
  if !s.switchDue then s
  else
    let old := s.activeGen
    let alone := if s.gen.alone then 2 ^ 15 else 0
    let src := (s.gen.commit.map (·.1)).getD twinSrc
    let s := s.each s.sieveChanged fun s i => s.markWrote 0x30 i
    let s := (s.switchRegs (1 - old)).startRetire old
    let s := s.endBegun src opCOMMIT (comp 0 8 (s.getF uTG F.GEN_STATUS_COMMIT_SEQ * 2 ^ 16 + alone))
    s.when (s.getF uTG (inflightFld old) == 0) fun s => s.genRetire false

/-- R167: plinth time reaches the horizon plus tGRACE. -/
def State.horizonExpire (s : State) : State :=
  if s.genState = 2 then (s.reach (s.gen.horizon + 1000)).genRetire true else s

/-! ### Sweep (R169, R170) -/

/-- Both valid bits of an entry. -/
def bothValid (e : Nat) : Nat := setBitsOf e 62 2 3

/-- A keyed entry as the sweep leaves it: what is valid in the active generation becomes valid in both, the rest is freed,
but for a poisoned CAM slot (R192). -/
def sweptKeyed (active tid e : Nat) : Nat :=
  if genValid e active then bothValid e
  else if isCAM tid && camPoison e then setBitsOf e 62 2 0
  else 0

/-- Slot of the key of a stash entry in a bucket of the active generation. -/
def State.hasBucketCopy (s : State) (g slot e : Nat) : Bool :=
  (s.slotsOf 0x10 e g).any fun i => i != slot && i < 0xFFFF00

/-- R137: after a switch, a staged rehash's former area is cleared and becomes the rehash area, and stash entries whose copy
stands in the new area are freed; words of `bad` are left as found (R159). -/
def State.sweepRehash (s : State) (bad : List (Nat × Nat)) : State :=
  match s.gen.rehash, s.gen.rehashOld with
  | some (seg, _, _), some old =>
    let g := s.activeGen
    let dead := (s.entries 0x10 0).filter fun e =>
      !bad.contains (0x10, e.1) && (e.1 / 524288 == old && e.1 < 0xFFFF00 ||
      (0xFFFF00 ≤ e.1 && genValid e.2 g && s.emSegment (emType e.2) (emKeyOf (s.keyWide (emType e.2)) e.2) == seg &&
        s.hasBucketCopy g e.1 e.2))
    let s := s.each dead fun s e => s.putEnt 0x10 0 e.1 0
    s.setF uTG F.EM_STATUS_REHASH_AREA old
  | _, _ => s

/-- The slots of keyed tables that a sweep rewrites. GEN_ABORT, a command, writes them so (R156, R170). -/
def State.sweptSlots (s : State) (bad : List (Nat × Nat)) : List (Nat × Nat × Nat) :=
  s.tbl.filterMap fun k =>
    let tid := k.1 / 2 ^ 32
    if tblKeyed tid && !isLRN tid && !bad.contains (tid, k.1 % 2 ^ 31) && sweptKeyed s.activeGen tid k.2 != k.2 then
      some (tid, k.1 % 2 ^ 31, sweptKeyed s.activeGen tid k.2) else none

/-- The retired generation becomes a copy of the active one. Words of `bad`, as (table, slot), are left as found (R159). A
sieve index whose images the sweep makes alike counts as changed (R183). -/
def State.sweep (s : State) (bad : List (Nat × Nat)) : State :=
  let a := s.activeGen
  let r := 1 - a
  let s := s.each s.sieveChanged fun s i => s.markWrote 0x30 i
  let keyed (k e : Nat) : Nat :=
    let tid := k / 2 ^ 32
    if tblKeyed tid && !isLRN tid && !bad.contains (tid, k % 2 ^ 31) then sweptKeyed a tid e else e
  let s := { s with tbl := KMap.remap (fun _ => 0) keyed s.tbl }
  let s := s.each [0x01, 0x02, 0x30, 0x40] fun s tid =>
    let img := (s.entries tid a).filter fun e => !bad.contains (tid, e.1)
    let gone := tblKey tid r 0
    let s := { s with tbl := s.tbl.keep fun k => k < gone || gone + 2 ^ 31 ≤ k || bad.contains (tid, k - gone) }
    s.each img fun s e => s.setEnt tid r e.1 (setBitsOf e.2 62 2 (if genValid e.2 a then 1 + r else 0))
  s.each (List.range 8) fun s g =>
    let sd := s.emSeeds g a
    s.bindSeg g r (s.emArea g a) sd.1 sd.2

/-- The sweep ends; `bad` lists uncorrectable words it met, as (table, slot): reported, and left as found (R159). -/
def State.sweepEnd (s : State) (bad : List (Nat × Nat)) : State :=
  if s.genState ≠ 3 then s
  else
    let bad := bad ++ ((s.flt.badWords.map (·.2)).filter fun w => s.spoiled w.1 w.2 && !bad.contains w)
    let s := s.each bad fun s b => s.badWord uTG 0 b.1 (b.2 % 2 ^ 24)
    let s := s.when s.gen.abort.isSome fun s => s.each (s.sweptSlots bad) fun s x =>
      s.each (s.wroteUnits x.1 0 x.2.1 x.2.2) fun s u => s.markWrote u.1 u.2
    let s := (s.when s.gen.abort.isNone fun s => s.sweepRehash bad).sweep bad
    let staged := s.gen.rehash.isSome
    let abort := s.gen.abort
    let s := s.when staged fun s => s.setF uTG F.EM_STATUS_REHASH_BUSY 0
    let s := s.modGen fun g => { g with abort := none, rehash := none, rehashOld := none, openAt := s.ns }
    let s := s.setF uTG F.GEN_STATUS_STATE 0
    let s := s.event 0x22 0x210 uTG (s.getF uTG F.GEN_STATUS_COMMIT_SEQ) 0
    match abort with
    | some src => s.endBegun src opABORT (comp 0 8 0)
    | none => s

/-- The state becomes SWEEPING with no switch. -/
def State.startAbort (s : State) (src : Nat) : State :=
  (s.modGen fun g => { g with abort := some src }).setF uTG F.GEN_STATUS_STATE 3

/-- GEN_ABORT (R170); it waits for a rehash that runs. -/
def State.abortCmd (s : State) (src operand : Nat) (ok : Bool) : State :=
  if (match s.gen.rehash with | some (_, _, b) => b | none => false) then s
  else s.genCmd src opABORT operand ok fun s =>
    let d := ((s.ring src).descs.find? fun d => d.begun && d.comp.isNone && d.op == opABORT)
    let s := match d with | some d => s.mirror d.w0 d.w1 d.w2 (leBytes operand 8) | none => s
    s.startAbort src

/-- GEN_WAIT completes in the OPEN state. -/
def State.genWait (s : State) (src : Nat) : State :=
  match s.tblDesc src opGENWAIT with
  | none => s
  | some d =>
    let c := tcmdOf d.w0 d.w1 d.w2 []
    if s.blocked src d.wait c ∨ !s.genTurn d then s
    else if d.len ≠ 8 ∨ d.w2 % 2 ^ 64 ≠ 0 then (s.countTable src c).tableReply src d { status := 1 }
    else if !s.fwdOn then (s.countTable src c).tableReply src d { status := 7 }
    else if s.genState ≠ 0 then s.markWait src d
    else (s.countTable src c).tableReply src d { status := 0, data := leBytes s.gen.openAt 8 }

/-! ### Egress fences (R172, R173) -/

/-- Packets and copies in the device: courses, clusters, punts, basin and queues, MAC transmit, fabric. -/
def State.packets (s : State) : List Pkt :=
  (s.courses.flatMap fun c => c.2.hand.map (·.pkt) ++ c.2.recirc.map (·.pkt)) ++
  (s.eng.clusters.flatMap fun c => c.2.queued.map (·.pkt) ++ c.2.outst.map (·.job.pkt)) ++
  s.punts.map (·.pkt) ++ (s.bas.insts.filterMap fun i => i.2.map (·.pkt)) ++ s.bas.sending.map (·.pkt) ++
  (s.fab.flowsOut.flatMap fun f => f.2.ends.map (·.2)) ++ (s.fab.lanes.flatMap fun l => l.2.flatMap (·.ends))

/-- The largest age limit in force, in ns. -/
def State.maxAge (s : State) : Nat :=
  ((List.range 64).map fun p => s.getF uTMG (F.TM_PROF_AGE_AGE_US.i p) * 1000).foldl max 0

/-- Age limits have changed: A_max of the fences outstanding never falls. -/
def State.ageChanged (s : State) : State :=
  let m := s.maxAge
  s.modGen fun g => { g with fences := s.gen.fences.map fun f => { f with amax := max f.amax m } }

/-- EGRESS_FENCE takes its fence time. Earlier fences of the ring hold back only their completions. -/
def State.egressFence (s : State) (src : Nat) : State :=
  match s.tblDesc src opFENCE with
  | none => s
  | some d =>
    let ds := (s.ring src).descs
    let before := ds.takeWhile fun e => e.idx != d.idx
    if before.any fun e => e.comp.isNone && !(e.op == opFENCE && e.begun) then s
    else
      let c := tcmdOf d.w0 d.w1 d.w2 []
      let s := s.countTable src c
      if d.len ≠ 16 ∨ d.w2 % 2 ^ 64 ≠ 0 then s.tableReply src d { status := 1 }
      else if !s.fwdOn then s.tableReply src d { status := 7 }
      else if 64 ≤ s.gen.fences.length then s.tableReply src d { status := 0x4B }
      else
        let s := s.setDesc src d.idx fun d => { d with begun := true }
        let s := s.modGen fun g => { g with fences := s.gen.fences ++ [(⟨src, d.idx, s.ns, s.maxAge⟩ : FenceSt)] }
        s.setF uTG F.FENCE_STATUS_OUTSTANDING s.gen.fences.length

/-- The oldest fence completes. -/
def State.fenceEnd (s : State) (f : FenceSt) (bound : Bool) : State :=
  let s := s.modGen fun g => { g with fences := s.gen.fences.erase f }
  let s := s.setF uTG F.FENCE_STATUS_OUTSTANDING s.gen.fences.length
  match (s.ring f.ring).descs.find? fun d => d.idx == f.idx && d.begun && d.comp.isNone with
  | some d =>
    let us := min ((s.ns - f.tf) / 1000) (2 ^ 31 - 1)
    s.tableReply f.ring d { status := 0, info := us + (if bound then 2 ^ 31 else 0), data := wordsBytes [f.tf, s.ns] }
  | none => s

/-- No packet admitted before T_f remains. -/
def State.fenceClear (s : State) (f : FenceSt) : Bool := s.packets.all fun p => f.tf ≤ p.adm.admitAt

/-- EGRESS_FENCE_DONE: the first fence is clear. -/
def State.egressFenceDone (s : State) : State :=
  match s.gen.fences with
  | [] => s
  | f :: _ => if s.fenceClear f then s.fenceEnd f false else s

/-- EGRESS_FENCE_BOUND: plinth time reaches T_f + A_max + tGRACE of the first fence. -/
def State.egressFenceBound (s : State) : State :=
  match s.gen.fences with
  | [] => s
  | f :: _ => (s.reach (f.tf + f.amax + 1000)).fenceEnd f true

/-! ### Shadow compare (R155, R156, R183) -/

/-- Shadow units of a table, and their size in bytes. -/
def shadowUnits (t : Nat) : Nat × Nat :=
  match t with
  | 0x10 => (4719616, 16) | 0x12 => (12582912, 4) | 0x18 => (1048576, 16) | 0x19 => (65536, 16) | 0x1A => (3932160, 4)
  | 0x30 => (262144, 48)
  | _ => (0, 0)

/-- Entry that covers a shadow unit: its table, its slot, its first unit and its bytes. -/
def State.shadowEnt (s : State) (t u : Nat) : Nat × Nat × Nat × List Byte :=
  match t with
  | 0x10 =>
    if 4718592 ≤ u then
      let i := stashSlot ((u - 4718592) / 4)
      (0x10, i, (u - 4718592) / 4 * 4 + 4718592, leBytes (s.ent 0x10 0 i) 64)
    else if s.areaWide (u / 524288) then (0x10, u / 4 * 4, u / 4 * 4, leBytes (s.ent 0x10 0 (u / 4 * 4)) 64)
    else (0x10, u, u, leBytes (s.ent 0x10 0 u) 16)
  | 0x12 =>
    (match s.lpmAt (u / 8 * 8) with
     | some (0x13, e) => (0x13, u / 8 * 8, u / 8 * 8, leBytes e 32)
     | _ => match s.lpmAt (u / 3 * 3) with
       | some (0x12, e) => (0x12, u / 3 * 3, u / 3 * 3, leBytes e 12)
       | _ => (0x12, u, u, leBytes 0 4))
  | 0x30 =>
    let e := s.ent 0x30 s.activeGen u
    if u < s.tblSize 0x30 then (0x30, u, u, leBytes (if genValid e s.activeGen then setBitsOf e 62 2 0 else 0) 48)
    else (0x31, u - s.tblSize 0x30, u, leBytes (setBitsOf (s.ent 0x31 0 (u - s.tblSize 0x30)) 62 2 0) 48)
  | _ => (t, u, u, leBytes (s.ent t 0 u) (shadowUnits t).2)

/-- Bits of a unit's bytes that the compare leaves out: HIT (bit 61 of word 0x00) of EM and LPM entries, bits [63:62] of
a sieve rule. -/
def shadowMask (t : Nat) (first : Bool) (bs : List Byte) : List Byte :=
  if !first then bs
  else if t = 0x10 ∨ t = 0x12 ∨ t = 0x13 then bs.modify 7 fun b => BitVec.ofNat 8 (setBitsOf b.toNat 5 1 0)
  else if t = 0x30 then bs.modify 7 fun b => BitVec.ofNat 8 (setBitsOf b.toNat 6 2 0)
  else bs

/-- The registers of a table's compare: EN, SLICE_LOG2, POS, MISMATCH, ABANDON and the shadow's base, with the select value. -/
structure CmpRegs where
  sel : Nat
  en : Fld
  slice : Fld
  pos : Fld
  mis : Fld
  aband : Fld
  lo : Fld
  hi : Fld

def cmpRegs (t : Nat) : CmpRegs :=
  if t = 0x30 then ⟨0, F.SIV_CMP_CFG_EN, F.SIV_CMP_CFG_SLICE_LOG2, F.SIV_CMP_STATUS_POS, F.SIV_CMP_MISMATCH_COUNT, F.SIV_CMP_ABANDON_COUNT,
    F.SIV_SHADOW_LO_ADDR, F.SIV_SHADOW_HI_ADDR⟩
  else ⟨t, F.TBL_CMP_CFG_EN, F.TBL_CMP_CFG_SLICE_LOG2, F.TBL_CMP_STATUS_POS, F.TBL_CMP_MISMATCH_COUNT, F.TBL_CMP_ABANDON_COUNT,
    F.TBL_SHADOW_LO_ADDR, F.TBL_SHADOW_HI_ADDR⟩

/-- Host address of a shadow unit (R155, R183). -/
def State.shadowAt (s : State) (t u : Nat) : Nat :=
  let r := cmpRegs t
  s.getFS uTG r.sel r.lo * 4096 + s.getFS uTG r.sel r.hi * 2 ^ 32 + u * (shadowUnits t).2

/-- The unit was written in the current or the previous work period. -/
def State.freshUnit (s : State) (tid idx : Nat) : Bool :=
  let n := s.gen.wrote.get (fun _ => 0) (tblKey tid 0 idx)
  n != 0 && s.clk.wpNum ≤ n

/-- Compare one unit with its shadow bytes. -/
def State.compareUnit (s : State) (t u : Nat) (shadow : List Byte) : State :=
  let size := (shadowUnits t).2
  let (tid, idx, first, bytes) := s.shadowEnt t u
  let mine := sliceBytes bytes ((u - first) * size) size
  -- bits [63:61] lie in byte 7: in the second unit of an LPM entry of 4-byte units
  let top := if size = 4 then (tid = 0x12 ∨ tid = 0x13) ∧ u = first + 1 else u = first
  let mask (bs : List Byte) : List Byte := if size = 4 then (shadowMask tid top (List.replicate 4 0 ++ bs)).drop 4 else shadowMask t top bs
  if s.freshUnit tid idx ∨ ((t = 0x10 ∨ t = 0x12) ∧ s.freshUnit t u) ∨ mask mine = mask shadow then s
  else (s.addFS uTG (cmpRegs t).sel (cmpRegs t).mis 1).event 0x21 0x210 uTG (t * 2 ^ 32 + u) 0

/-- One slice of the compare of table `t`, read with PF0 requests: `data` is what the shadow holds from POS on, `ok` whether
its reads succeeded, `finished` whether they came before the period's end. Check unit CU56 runs the compares of R155, CU57 that of
the sieve (R386, its lists read in order: DEDUCED, log entry 79). -/
def State.compareSlice (s : State) (t : Nat) (data : List Byte) (ok finished : Bool) : State :=
  let r := cmpRegs t
  let (total, size) := shadowUnits t
  if total = 0 ∨ !s.up (uCU (if t = 0x30 then 57 else 56)) ∨ s.getFS uTG r.sel r.en = 0 ∨ s.gen.cmpAt.get (fun _ => 0) t = s.clk.wpNum + 1 then s
  else
    let s := s.modGen fun g => { g with cmpAt := s.gen.cmpAt.put (fun _ => 0) t (s.clk.wpNum + 1) }
    let pos := s.getFS uTG r.sel r.pos
    let n := min (64 * 2 ^ s.getFS uTG r.sel r.slice) (total - pos)
    let s := s.hostRead 1 (s.shadowAt t pos) (n * size)
    if !ok ∨ !finished then s.addFS uTG r.sel r.aband 1
    else
      let s := s.each (List.range n) fun s i => s.compareUnit t (pos + i) (sliceBytes data (i * size) size)
      s.setFS uTG r.sel r.pos (if total ≤ pos + n then 0 else pos + n)

/-! ### CAM scrub (R191, R192) -/

/-- The bank and table of an in-service bank position, with the entry a row belongs to; none where the bank holds none. -/
def State.scrubRow (s : State) (x : Nat) : Option (Nat × Nat × Nat) :=
  match camBanks[x / 4096]? with
  | none => none
  | some b =>
    let u := match s.flt.swapped.find? fun w => w.1 == b with | some w => w.2 | none => b
    if s.ust u ≠ 4 ∨ s.getF u F.CAM_BANK_CFG_EN = 0 then none
    else
      let t := s.getF u F.CAM_BANK_CFG_TABLE
      let w := s.camCfg t F.CAM_TBL_CFG_WIDTH_LOG2
      some (u, 0x38 + t, s.getF u F.CAM_BANK_CFG_POSITION * (4096 / 2 ^ w) + x % 4096 / 2 ^ w)

/-- Rows of the slice of `n` from row `pos` that lie in bank position `b`, as (first row, count). -/
def sliceIn (pos n b : Nat) : Nat × Nat :=
  let lo := max pos (4096 * b)
  (lo, min (pos + n) (4096 * (b + 1)) - lo)

/-- The copy of the rows of a slice in the positions that hold a bank without VERIFY, as (first row, bytes); none where a read
fails (R191, R331). -/
def State.scrubCopy (s : State) (pos n : Nat) (ecc : Nat) : Option (List (Nat × List Byte)) × State :=
  (List.range camBanks.length).foldl (fun (a : Option (List (Nat × List Byte)) × State) b =>
    let (lo, k) := sliceIn pos n b
    match a.1, a.2.scrubRow lo with
    | some l, some (u, _, _) =>
      if k = 0 ∨ a.2.getF u F.CAM_BANK_CFG_VERIFY = 1 then a
      else match a.2.dramRead (5 * 4096) (a.2.camCopyAt b (lo % 4096)) (10 * k) ecc with
        | (some bs, s) => (some (l ++ [(lo, bs)]), s)
        | (none, s) => (none, s)
    | _, _ => a) (some [], s)

/-- One row of a bank without VERIFY, key unit `x % 4096` of bank `u`: compared with the copy, and rewritten from it where they
differ or the row has flipped bits (R191). A row of a free slot that nothing has changed since its last write holds what the copy
holds; one of a bank reset since then reads 0, and once no row of an entry differs the entry is back in that bank. -/
def State.scrubKey (s : State) (u tid addr x : Nat) (copy : List (Nat × List Byte)) (flipped : Bool) : State :=
  let w := 2 ^ s.camCfg (tid - 0x38) F.CAM_TBL_CFG_WIDTH_LOG2
  match copy.find? fun c => decide (c.1 ≤ x) && decide (10 * (x - c.1) < c.2.length) with
  | none => s
  | some c =>
    let want := sliceBytes c.2 (10 * (x - c.1)) 10
    let mine := if s.slotFree tid addr then want else sliceBytes (camKeyOf (10 * w) (s.ent tid 0 addr)) (10 * (x % 4096 % w)) 10
    let k := 4096 * u + x % 4096
    let have_ := match s.flt.rowKeys.get (fun _ => none) k with | some v => leBytes v 10 | none => mine
    if have_ = want ∧ !flipped then s
    else
      let keys := s.flt.rowKeys.put (fun _ => none) k (if want = mine then none else some (leNat want))
      let whole := (List.range w).all fun i => (keys.get (fun _ => none) (k / w * w + i)).isNone
      let s := s.modFlt fun f => { f with
        rowKeys := keys, blank := if whole then s.flt.blank.filter fun b => b != (u, addr) else s.flt.blank }
      (s.addFS uCAMG (tid - 0x38) F.CAM_TBL_REPAIR_COUNT 1).report u 2 addr

/-- One row of a scrub slice: a bank that verifies by check bits poisons or reports its row, any other is compared with the
copy (R191). -/
def State.scrubOne (s : State) (x : Nat) (copy : List (Nat × List Byte)) (flip corr bad : Bool) : State :=
  match s.scrubRow x with
  | none => s
  | some (u, tid, addr) =>
    if s.getF u F.CAM_BANK_CFG_VERIFY = 1 then
      (if bad then s.poisonRow u tid addr (x % 4096) else if corr then s.report u 2 addr else s)
    else s.scrubKey u tid addr x copy flip

/-- One slice of the scrub. `finished`: it ended within its period; `flips`, `corr`, `bad`: rows of the slice, from POS,
in which the comparison found a flipped bit, that held a single-bit error and that were uncorrectable; `dram`: a read of
the copy met an uncorrectable word. The rows are read and compared at one moment, so no write falls between (R191; DEDUCED,
log entry 79). CU58 runs it (R386); in footing mode the CAM's clocks are gated (R380). -/
def State.camScrub (s : State) (finished dram : Bool) (flips corr bad : List Nat) : State :=
  if !s.up (uCU 58) ∨ s.footing ∨ s.getF uCAMG F.CAM_SCRUB_CFG_EN = 0 ∨ s.gen.cmpAt.get (fun _ => 0) 0x38 = s.clk.wpNum + 1 then s
  else
    let s := s.modGen fun g => { g with cmpAt := s.gen.cmpAt.put (fun _ => 0) 0x38 (s.clk.wpNum + 1) }
    if !finished then s.addF uCAMG F.CAM_SCRUB_ABANDON_COUNT 1
    else
      let pos := s.getF uCAMG F.CAM_SCRUB_STATUS_POS
      let total := 4096 * camBanks.length
      let n := min (64 * 2 ^ s.getF uCAMG F.CAM_SCRUB_CFG_SLICE_LOG2) (total - pos)
      match s.scrubCopy pos n (if dram then 2 else 0) with
      | (none, s) => s.addF uCAMG F.CAM_SCRUB_ABANDON_COUNT 1
      | (some copy, s) =>
        (s.each (List.range n) fun s i =>
          s.scrubOne (pos + i) copy (flips.contains i) (corr.contains i) (bad.contains i)).setF uCAMG F.CAM_SCRUB_STATUS_POS (if total ≤ pos + n then 0 else pos + n)

end Sys2Proof.Machine
end

