-- ==== Sys2Proof/Machine/Memory.lean ====
section
/-!
DEFINITION. The memory and field slot (R258–R260, Tables 8 and 9 of spec/11_microcode.md), with the threads' view of local
memory (R220, R231), channels, locks and the job port (R226, R227, R232–R236 of spec/10_engines.md), and the engines'
time-outs (R235, R236, R239, R240, R243). An operation takes effect at issue; it is in flight until
MEMORY_RESULT_RETURN, by which a load's result reaches its register.
-/
namespace Sys2Proof.Machine

/-! ### Addresses -/

/-- Where a thread's local address leads (Table 1 of chapter 10). -/
inductive LocalAt where
  | phys (off : Nat)
  | greg (thread reg byte : Nat)
  | start (thread : Nat)
  | bad
  deriving DecidableEq, Repr

/-- R220: `n` bytes at a local address of thread `t`. -/
def localAt (t a n : Nat) : LocalAt :=
  if a + n ≤ 0x6000 then .phys (0x6000 * t + a)
  else if 0x10000 ≤ a ∧ a + n ≤ 0x20000 then .phys (0x20000 + a)
  else if t ≠ 0 then .bad
  else if 0x20100 ≤ a ∧ a + n ≤ 0x20800 then .greg ((a - 0x20000) / 0x100) (a % 0x100 / 8) (a % 8)
  else if 0x20808 ≤ a ∧ a + n ≤ 0x20840 then .start ((a - 0x20800) / 8)
  else .bad

/-- The width of an access. -/
def uBytesN (w : Nat) : Nat := 2 ^ uSz w

/-- An operation joins those in flight (R259). -/
def State.startOp (s : State) (k : Nat) (m : MemOp) : State := s.setThread k { s.thread k with mem := (s.thread k).mem ++ [m] }

/-- A result on its way back to a register. -/
def State.startLoad (s : State) (k reg space : Nat) (v : DWord) : State := s.startOp k { reg := reg, value := v, space := space, since := s.clk.core }

/-- An uncorrectable word on its way back to a load (R258). -/
def State.startBad (s : State) (k reg space : Nat) : State :=
  s.startOp k { reg := reg, value := 0, space := space, since := s.clk.core, bad := true }

/-- A store in flight. -/
def State.startStore (s : State) (k space : Nat) : State :=
  s.startOp k { reg := 48, value := 0, space := space, since := s.clk.core, store := true }

/-! ### Local memory -/

/-- R220: thread `k` reads `n` bytes at local address `a`; none where that is a fault. `ecc` 0: clean, 1: corrected, 2:
uncorrectable. A START word has no value the spec states: a free value (log entry 1). -/
def State.localRead (s : State) (k a n ecc : Nat) : Option (List Byte) × State :=
  match localAt (thrOf k) a n with
  | .bad => (none, s)
  | .phys o =>
    if ecc = 2 then (none, s)
    else (some (s.lmemBytes (k / 8) o n), s.when (ecc == 1) fun s => s.report (engUid k) 0 o)
  | .greg _ _ _ =>
    let byte (b : Nat) : Byte := BitVec.ofNat 8 (bitsOf (s.opReg (k / 8 * 8 + b / 0x100) (b % 0x100 / 8)).toNat (8 * (b % 8)) 8)
    (some ((List.range n).map fun i => byte (a + i - 0x20000)), s)
  | .start _ =>
    let (v, s) := s.draw
    (some (leBytes (v % 2 ^ (8 * n)) n), s)

/-- LDL. `ecc` as `localRead` has it. -/
def State.ldl (s : State) (k ecc : Nat) (corrected : Bool) : State :=
  s.memSlot k 0x01 corrected fun s w =>
    let a := s.opAddr k w (uDisp w)
    if a % uBytesN w ≠ 0 then s.threadFault k
    else match s.localRead k a (uBytesN w) ecc with
      | (none, s) => s.threadFault k
      | (some b, s) => s.startLoad k (uReg w) 0 (BitVec.ofNat 64 (leNat b))

/-- STL: to a register or START word only by the master, of a STOPPED thread (R231). -/
def State.stl (s : State) (k : Nat) (corrected : Bool) : State :=
  s.memSlot k 0x02 corrected fun s w =>
    let a := s.opAddr k w (uDisp w)
    let n := uBytesN w
    let v := (s.operand k (uReg w)).toNat % 2 ^ (8 * n)
    let idle (t : Nat) : Bool := (s.thread (k / 8 * 8 + t)).st == 0
    if a % n ≠ 0 then s.threadFault k
    else match localAt (thrOf k) a n with
      | .bad => s.threadFault k
      | .phys o => (s.setLmemBytes (k / 8) o (leBytes v n)).startStore k 0
      | .greg t r b =>
        if !(idle t) then s.threadFault k
        else
          let j := k / 8 * 8 + t
          (s.setOpReg j r (BitVec.ofNat 64 (setBitsOf (s.opReg j r).toNat (8 * b) (8 * n) v))).startStore k 0
      | .start t =>
        if !(idle t) then s.threadFault k
        else
          let j := k / 8 * 8 + t
          (s.setThread j { s.thread j with st := 1, pc := v % 4096, start := v % 4096, elig := s.ecNow }).startStore k 0

/-! ### Packet window -/

/-- Change the window of the job a thread holds. -/
def State.setWin (s : State) (k : Nat) (f : List Byte → List Byte) : State :=
  let c := ecOf k
  let x := s.cluster c
  let g (j : OutJob) : OutJob := if j.thread = some (tidOf k) then { j with job := { j.job with win := f j.job.win } } else j
  s.setCluster c { x with outst := x.outst.map g }

/-- `n` bytes at a window offset lie inside the job's window. -/
def State.inWin (s : State) (k a n : Nat) : Bool :=
  match s.jobOf k with
  | some j => decide (a + n ≤ j.job.win.length)
  | none => false

/-- Bytes of the window. -/
def State.winAt (s : State) (k a n : Nat) : List Byte :=
  match s.jobOf k with
  | some j => sliceBytes j.job.win a n
  | none => []

/-- LDP: wire order, any alignment. -/
def State.ldp (s : State) (k : Nat) (corrected : Bool) : State :=
  s.memSlot k 0x03 corrected fun s w =>
    let a := s.opAddr k w (uDisp w)
    if !s.inWin k a (uBytesN w) then s.threadFault k
    else s.startLoad k (uReg w) 1 (BitVec.ofNat 64 (beNat (s.winAt k a (uBytesN w))))

/-- STP. -/
def State.stp (s : State) (k : Nat) (corrected : Bool) : State :=
  s.memSlot k 0x04 corrected fun s w =>
    let a := s.opAddr k w (uDisp w)
    if !s.inWin k a (uBytesN w) then s.threadFault k
    else (s.setWin k fun b => patchBytes b a (beBytes (s.operand k (uReg w)).toNat (uBytesN w))).startStore k 1

/-! The extract specification (Table 9 of chapter 11): byte, bit, length, and the bytes the field touches. -/
def fByte (w : Nat) : Nat := bitsOf w 14 14
def fBit (w : Nat) : Nat := bitsOf w 11 3
def fLen (w : Nat) : Nat := bitsOf w 5 6 + 1
def fSpan (w : Nat) : Nat := ceilDiv (fBit w + fLen w) 8

/-- EXT. -/
def State.ext (s : State) (k : Nat) (corrected : Bool) : State :=
  s.memSlot k 0x07 corrected fun s w =>
    let a := s.opAddr k w (fByte w)
    if !s.inWin k a (fSpan w) then s.threadFault k
    else
      let v := beNat (s.winAt k a (fSpan w))
      s.startLoad k (uReg w) 1 (BitVec.ofNat 64 (bitsOf v (8 * fSpan w - fBit w - fLen w) (fLen w)))

/-- INS. -/
def State.ins (s : State) (k : Nat) (corrected : Bool) : State :=
  s.memSlot k 0x08 corrected fun s w =>
    let a := s.opAddr k w (fByte w)
    if !s.inWin k a (fSpan w) then s.threadFault k
    else
      let v := beNat (s.winAt k a (fSpan w))
      let v := setBitsOf v (8 * fSpan w - fBit w - fLen w) (fLen w) (s.operand k (uReg w)).toNat
      (s.setWin k fun b => patchBytes b a (beBytes v (fSpan w))).startStore k 1

/-! ### DRAM window (R332) -/

/-- Source ID of a thread's DRAM requests. -/
def thrSrc (k : Nat) : Nat := 4 * 4096 + 136 * ecOf k + tidOf k

/-- LDD. `ecc` as R338 gives: 1 corrected, 2 uncorrectable, 3 and 4 parity. A word that cannot be read faults the thread when it
returns (R258). -/
def State.ldd (s : State) (k ecc : Nat) (corrected : Bool) : State :=
  s.memSlot k 0x05 corrected fun s w =>
    let o := s.opAddr k w (uDisp w)
    if o % uBytesN w ≠ 0 then s.threadFault k
    else match s.ecWindow (ecOf k) o (uBytesN w) with
      | none => s.threadFault k
      | some a =>
        match s.dramRead (thrSrc k) a (uBytesN w) ecc with
        | (none, s) => s.startBad k (uReg w) 2
        | (some b, s) => s.startOp k { reg := uReg w, value := BitVec.ofNat 64 (leNat b), space := 2, since := s.clk.core
                                       chan := (s.dramMap a).map (·.1) }

/-- STD. -/
def State.std (s : State) (k : Nat) (corrected : Bool) : State :=
  s.memSlot k 0x06 corrected fun s w =>
    let o := s.opAddr k w (uDisp w)
    if o % uBytesN w ≠ 0 then s.threadFault k
    else match s.ecWindow (ecOf k) o (uBytesN w) with
      | none => s.threadFault k
      | some a => (s.dramWrite (thrSrc k) a (leBytes (s.operand k (uReg w)).toNat (uBytesN w))).2.startStore k 2

/-! ### LOOKUP (R260) -/

/-- Bytes of a LOOKUP's key. -/
def State.keyLen (s : State) (t kt : Nat) : Nat :=
  if t = 0x10 then (if s.keyWide kt then 40 else 8) else if t = 0x12 then 6 else if t = 0x13 then 18 else s.camKeyLen (t - 0x38)

/-- The slot a key finds, with its RESULT. -/
def State.keyFind (s : State) (gen t kt : Nat) (key : List Byte) (slot cam : Nat) : Option (Nat × Nat × Nat) :=
  if t = 0x10 then (s.emFind gen kt key).map fun i => (i, emResult (s.ent 0x10 0 i), 0)
  else if t = 0x12 ∨ t = 0x13 then
    (s.lpmFind gen (t == 0x13) (leNat (key.take 2) % 4096) (beNat (key.drop 2))).map fun i => (i, lpmResult (s.ent t 0 i), 0)
  else if s.camCfg (t - 0x38) F.CAM_TBL_CFG_EN = 1 then
    match (s.liveReplicas (t - 0x38)).head? with
    | some r => (s.camMatch gen (t - 0x38) r key cam slot).map fun i => (i.1, camResult (s.ent t 0 i.1), i.2)
    | none => none
  else none

/-- What verification of a CAM match finds (Table 8 of chapter 8): 0 no error, 1 check bits, 2 a key bit, 3 uncorrectable.
Answers whether the match stands. -/
def State.verifyHit (s : State) (t a cam : Nat) : Bool × State :=
  let bank := (s.camBankOf (t - 0x38) ((s.liveReplicas (t - 0x38)).headD 0) a).getD uCAMG
  let fail (s : State) : State :=
    (s.addFS uCAMG (t - 0x38) F.CAM_TBL_VERIFY_FAIL_COUNT 1).event 0x25 0x210 bank (t * 2 ^ 32 + a) 0
  if s.getF bank F.CAM_BANK_CFG_VERIFY = 0 ∨ cam = 0 then (true, s)
  else if cam = 1 then (true, s.report bank 2 a)
  else if cam = 2 then (false, (fail s).report bank 2 a)
  else if cam = 3 then (false, (fail s).poisonRow bank t a (s.camUnit (t - 0x38) a))
  else (true, s)

/-- The words of its table that a search reads: an EM key's buckets, else the entry it finds. -/
def State.keyWords (s : State) (gen t kt : Nat) (key : List Byte) : List (Nat × Nat) :=
  if t = 0x10 then s.emWords gen kt key else ((s.keyFind gen t kt key 0 0).map fun x => (t, x.1)).toList

/-- The search of LOOKUP and the word it writes. -/
def State.lookupWord (s : State) (gen t kt : Nat) (key : List Byte) (ecc slot cam : Nat) : Nat × State :=
  let bad := if s.flt.badWords.isEmpty then none else ((s.keyWords gen t kt key).find? fun w => s.spoiled w.1 w.2).map (·.2)
  let ecc := if bad.isSome then 2 else ecc
  let s := s.wordEcc t ecc (bad.getD slot)
  if ecc = 2 then (2 ^ 61, s)
  else
    match s.keyFind gen t kt key slot cam with
    | none => (0, s)
    | some (i, r, cam) =>
      let (ok, s) := if isCAM t then s.verifyHit t i cam else (true, s)
      if ok then (2 ^ 63 + i % 2 ^ 24 * 2 ^ 24 + r % 2 ^ 24, s.setEntBit t i 61)
      else (if cam = 3 then 2 ^ 61 else 0, s)

/-- The word LOOKUP writes for a key: an orphan's search is not made. A thread with no job has no pinned generation: which
one is searched is a free value (log entry 1). -/
def State.lookupKey (s : State) (k t kt : Nat) (key : List Byte) (ecc slot cam : Nat) : Nat × State :=
  match s.jobOf k with
  | some j =>
    let p := j.job.pkt.adm
    if p.admitAt < s.gen.retired.get (fun _ => 0) p.gen then (2 ^ 62, s) else s.lookupWord p.gen t kt key ecc slot cam
  | none =>
    let (g, s) := s.draw
    s.lookupWord (g % 2) t kt key ecc slot cam

/-- LOOKUP. `lecc`: the key's local-memory words, as `localRead` has it. -/
def State.lookup (s : State) (k ecc slot cam lecc : Nat) (corrected : Bool) : State :=
  s.memSlot k 0x09 corrected fun s w =>
    let t := uLit w % 256
    let kt := uLit w / 256 % 256
    match s.localRead k (s.opAddr k w (uDisp w)) (s.keyLen t kt) lecc with
    | (none, s) => s.threadFault k
    | (some key, s) =>
      let r := s.lookupKey k t kt key ecc slot cam
      r.2.startLoad k (uReg w) 4 (BitVec.ofNat 64 r.1)

/-! ### Channels and locks (R232–R234) -/

/-- Set one condition bit. -/
def State.setCond (s : State) (k bit v : Nat) : State :=
  s.setThread k { s.thread k with cond := setBitsOf (s.thread k).cond bit 1 v }

/-- The thread's engine may write a channel. -/
def State.mayWrite (s : State) (k n : Nat) : Bool :=
  bitsOf (s.getF (uCSH (ecOf k)) (F.CSH_CHAN_CFG_WRITERS.i n)) (engOf k) 1 == 1

/-- CHRES. -/
def State.chres (s : State) (k : Nat) (corrected : Bool) : State :=
  s.memSlot k 0x0A corrected fun s w =>
    let n := uDisp w % 64
    let c := ecOf k
    let x := s.chan c n
    let t := tidOf k
    if !s.mayWrite k n then s.threadFault k
    else if 16 ≤ x.reserved.length + x.msgs.length ∨ 2 ≤ (x.reserved.filter (· == t)).length then s.setCond k 16 1
    else (s.setChan c n { x with reserved := x.reserved ++ [t] }).setCond k 16 0

/-- CHCMT. -/
def State.chcmt (s : State) (k : Nat) (corrected : Bool) : State :=
  s.memSlot k 0x0B corrected fun s w =>
    let n := uDisp w % 64
    let len := bitsOf (uDisp w) 8 3 + 1
    let c := ecOf k
    let x := s.chan c n
    let t := tidOf k
    if !s.mayWrite k n ∨ !x.reserved.contains t then s.threadFault k
    else
      let m := (List.range len).map fun i => s.operand k (uReg w + i)
      (s.setChan c n { x with reserved := x.reserved.erase t, msgs := x.msgs ++ [m] }).serveChan c n

/-- A thread begins to wait: its state (a halted thread stays HALTED), object and the register the wait fills. -/
def State.beginWait (s : State) (k st obj reg : Nat) : State :=
  s.setThread k { s.thread k with
    st := if (s.thread k).st = 6 then 6 else st, waitSt := st, waitObj := obj, waitAt := s.clk.core, waitReg := reg }

/-- CHRD: the oldest message, or WAIT_CHAN. -/
def State.chrd (s : State) (k : Nat) (corrected : Bool) : State :=
  s.memSlot k 0x0C corrected fun s w =>
    let n := uDisp w % 64
    let c := ecOf k
    let x := s.chan c n
    match x.msgs with
    | m :: ms =>
      let s := s.setChan c n { x with msgs := ms }
      let s := s.setOpReg k (uReg w) (BitVec.ofNat 64 m.length)
      (s.each m.zipIdx fun s v => s.setOpReg k (uReg w + 1 + v.2) v.1).setCond k 17 0
    | [] => (s.setChan c n { x with waiting := x.waiting ++ [tidOf k] }).beginWait k 3 n (uReg w)

/-- LOCK: granted at once, or WAIT_LOCK. -/
def State.lock (s : State) (k : Nat) (corrected : Bool) : State :=
  s.memSlot k 0x0D corrected fun s w =>
    let n := uDisp w % 256
    let c := ecOf k
    let x := s.lockSt c n
    match x.owner with
    | none => (s.setLock c n { x with owner := some (tidOf k) }).setCond k 18 0
    | some _ => (s.setLock c n { x with waiting := x.waiting ++ [tidOf k] }).beginWait k 4 n (uReg w)

/-- The locks whose UNLOCK no earlier store holds back, and the operations that stay in flight. -/
def dueUnlocks : List MemOp → List Nat × List MemOp
  | [] => ([], [])
  | m :: r =>
    if m.store then ([], m :: r)
    else if m.space = 5 then (m.reg :: (dueUnlocks r).1, (dueUnlocks r).2) else ((dueUnlocks r).1, m :: (dueUnlocks r).2)

/-- R259: UNLOCKs take effect once every earlier store of the thread has completed. -/
def State.settleUnlocks (s : State) (k : Nat) : State :=
  let d := dueUnlocks (s.thread k).mem
  (s.setThread k { s.thread k with mem := d.2 }).each d.1 fun s n => s.passLock (ecOf k) n

/-- UNLOCK: a fault where the thread does not hold the lock, or has released it already. -/
def State.unlock (s : State) (k : Nat) (corrected : Bool) : State :=
  s.memSlot k 0x0E corrected fun s w =>
    let n := uDisp w % 256
    if (s.lockSt (ecOf k) n).owner = some (tidOf k) ∧ !(s.thread k).mem.any (fun m => m.space == 5 && m.reg == n) then
      (s.startOp k { reg := n, value := 0, space := 5, since := s.clk.core }).settleUnlocks k
    else s.threadFault k

/-- SADD: the old value comes back as a load. -/
def State.sadd (s : State) (k : Nat) (corrected : Bool) : State :=
  s.memSlot k 0x11 corrected fun s w =>
    let j := uDisp w % 16
    let old := s.sreg (ecOf k) j
    (s.writeS k j true (s.operand k (uReg w))).startLoad k (uReg w) 3 old

/-! ### The job port -/

/-- JOBRD: WAIT_JOB; in a Draining engine a thread without a job becomes STOPPED (R246). -/
def State.jobrd (s : State) (k : Nat) (corrected : Bool) : State :=
  s.memSlot k 0x0F corrected fun s w =>
    if s.ust (engUid k) = 5 ∧ (s.jobOf k).isNone then s.stallNoted ((s.setThread k { s.thread k with st := 0 }).closeSample k) (ecOf k)
    else
      let c := ecOf k
      (s.setCluster c { s.cluster c with waiting := (s.cluster c).waiting ++ [tidOf k] }).beginWait k 2 0 (uReg w)

/-- Defined drop codes (Table 1 of chapter 16). -/
def dropCodes : List Nat :=
  (List.range 7).map (· + 1) ++ (List.range 7).map (· + 0x10) ++ (List.range 14).map (· + 0x20) ++ [0x30, 0x31] ++
  (List.range 7).map (· + 0x38) ++ (List.range 10).map (· + 0x40) ++ (List.range 4).map (· + 0x50) ++
  (List.range 4).map (· + 0x58) ++ (List.range 7).map (· + 0x60) ++ (List.range 32).map (· + 0xE0)

/-! Fields of a job ending (Table 4 of chapter 10). -/
def endKind (e : List Nat) : Nat := bitsOf (e.getD 0 0) 60 4
def endCode (e : List Nat) : Nat := bitsOf (e.getD 0 0) 52 8
def endCourse (e : List Nat) : Nat := bitsOf (e.getD 0 0) 49 3
def endProfile (e : List Nat) : Nat := bitsOf (e.getD 0 0) 43 6
def endTc (e : List Nat) : Nat := bitsOf (e.getD 0 0) 40 3
def endNhEn (e : List Nat) : Bool := bitsOf (e.getD 0 0) 39 1 == 1
def endRouted (e : List Nat) : Nat := bitsOf (e.getD 0 0) 38 1
def endNh (e : List Nat) : Nat := bitsOf (e.getD 0 0) 18 20
def endQueue (e : List Nat) : Nat := bitsOf (e.getD 0 0) 0 18
def endLen (e : List Nat) : Nat := bitsOf (e.getD 1 0) 0 14
def endUser (e : List Nat) : Nat := e.getD 2 0
def endRing (e : List Nat) : Nat := bitsOf (e.getD 3 0) 0 15

/-- Start of the new frame in its window. -/
def endStart (e : List Nat) : Int := 256 + signedOf (bitsOf (e.getD 1 0) 44 10) 10

/-- A course is Off, Retired or isolated. -/
def State.courseClosed (s : State) (n : Nat) : Bool :=
  s.closed (uADM n) || s.closed (uSIV n) || s.closed (uLKP n) || s.closed (uRSV n) || s.closed (uEGR n)

/-- R227: an ending passes the router's checks for a window of `n` bytes. -/
def State.endingOk (s : State) (e : List Nat) (n : Nat) : Bool :=
  bitsOf (e.getD 1 0) 54 10 == 0 && bitsOf (e.getD 1 0) 14 30 == 0 && bitsOf (e.getD 3 0) 15 49 == 0 &&
  decide (0 ≤ endStart e) && decide (endStart e + (endLen e : Int) ≤ (n : Int)) &&
  (match endKind e with
   | 1 => endCode e == 0 && 1 ≤ endLen e && endLen e ≤ 9212 && !s.courseClosed (endCourse e)
   | 2 => endCode e == 0 && 1 ≤ endLen e && endLen e ≤ 9212 && !s.closed (uTMQ (endQueue e / 65536))
   | 3 => 1 ≤ endLen e && endLen e ≤ 9212 && (s.ringLog (endRing e) == 0 || s.ringType (endRing e) == 2)
   | 4 => endLen e == 0 && dropCodes.contains (endCode e)
   | _ => false)

/-- The ending of job `j` reaches the router, which checks it. A DROP ending is released at once (R228). -/
def State.endWith (s : State) (k : Nat) (j : OutJob) (e : List Nat) : State :=
  let c := ecOf k
  if !s.endingOk e j.job.win.length then (s.abortJob k 0x3B).restart k
  else
    let s := s.setThread k { s.thread k with job := none }
    if endKind e = 4 then (s.endJob c j).dropCluster (endCode e) c j.seq j.job.pkt
    else
      let g (x : OutJob) : OutJob := if x = j then { x with thread := none, ending := some e } else x
      s.setCluster c { s.cluster c with outst := (s.cluster c).outst.map g }

/-- JOBEND: the ending at a local address goes to the router. `lecc`: its local-memory words, as `localRead` has it. -/
def State.jobend (s : State) (k lecc : Nat) (corrected : Bool) : State :=
  s.memSlot k 0x10 corrected fun s w =>
    match s.localRead k (s.opAddr k w (uDisp w)) 32 lecc with
    | (none, s) => s.threadFault k
    | (some b, s) => (match s.jobOf k with
      | some j => s.endWith k j ((List.range 4).map fun i => leNat (sliceBytes b (8 * i) 8))
      | none => s)

/-! ### Results and time-outs -/

/-- MEMORY_RESULT_RETURN: the oldest operation of a space (0 local, 1 packet, 2 DRAM, 3 s register, 4 lookup) completes: a load
in its register, or as a fault where its word is uncorrectable (R258). -/
def State.memReturn (s : State) (k space : Nat) : State :=
  let x := s.thread k
  match x.mem.find? fun m => m.space == space && m.space != 5 with
  | none => s
  | some m =>
    let s := s.setThread k { x with mem := x.mem.erase m }
    if m.bad then s.threadFault k
    else
      let s := (s.setOpReg k m.reg m.value).settleUnlocks k
      if x.st = 5 then s.wake k else s

/-- tCHW in EC cycles (Table 11 of chapter 10). -/
def chwCycles : Nat := 1048576

/-- WAIT_TIMEOUT: a wait or a memory operation of a thread, the older of the two, passes tCHW (R235). -/
def State.waitTimeout (s : State) (k : Nat) : State :=
  let x := s.thread k
  let c := ecOf k
  let t := tidOf k
  let kind := x.waitSt
  if kind ≠ 0 ∧ (x.mem.all fun m => decide (x.waitAt ≤ m.since)) then
    let s := s.reachCore (x.waitAt + cycTime chwCycles)
    let s := s.setCluster c { s.cluster c with waiting := (s.cluster c).waiting.erase t }
    let s := if kind = 3 then s.setChan c x.waitObj { s.chan c x.waitObj with waiting := (s.chan c x.waitObj).waiting.erase t } else s
    let s := if kind = 4 then s.setLock c x.waitObj { s.lockSt c x.waitObj with waiting := (s.lockSt c x.waitObj).waiting.erase t } else s
    let s := if kind = 4 then s else s.setOpReg k x.waitReg 0
    (s.setCond k (if kind = 2 then 19 else if kind = 3 then 17 else 18) 1).wake k
  else match x.mem with
    | [] => s
    | m :: ms => ((s.reachCore (m.since + cycTime chwCycles)).setThread k { x with mem := ms }).threadFault k

/-- JOB_BUDGET_EXPIRE (R236). -/
def State.budgetExpire (s : State) (k : Nat) : State :=
  let x := s.thread k
  if (s.jobOf k).isNone ∨ x.st = 6 then s
  else ((s.reachCore (x.budgetAt + cycTime x.budget)).abortJob k 0x39).restart k

/-- ADMIT: the master starts at ENG_CFG.ENTRY, with every g register of the engine 0 (R231). -/
def State.masterStart (s : State) (g : Nat) : State :=
  let entry := s.getF (engUid (8 * g)) F.ENG_CFG_ENTRY
  let s := s.each (List.range 8) fun s t => ((s.closeSample (8 * g + t)).endWaits (8 * g + t)).setThread (8 * g + t) {}
  let s := s.setEngine g { s.engine g with issuing := none }
  s.setThread (8 * g) { st := 1, pc := entry, start := entry, elig := s.ecNow }

/-- R240: threads 1–7 become STOPPED with their registers, and the master restarts at ENTRY with g0–g31 set to 0. -/
def State.stallRestart (s : State) (g : Nat) : State :=
  let entry := s.getF (engUid (8 * g)) F.ENG_CFG_ENTRY
  let s := s.each (List.range 8) fun s t =>
    (s.closeSample (8 * g + t)).setThread (8 * g + t) { g := (s.thread (8 * g + t)).g, cond := (s.thread (8 * g + t)).cond }
  let s := s.setEngine g { s.engine g with issuing := none }
  s.setThread (8 * g) { st := 1, pc := entry, start := entry, elig := s.ecNow }

/-- R239, R240: a stall is found: it is counted and reported with each thread's state and the object it waits for. -/
def State.stallTold (s : State) (c e : Nat) : State :=
  let g := 32 * c + e
  let u := uENG c e
  let ts := List.range 8
  let live := ts.filter fun t => (s.thread (8 * g + t)).st != 0
  let since := live.foldl (fun a t => max a (s.thread (8 * g + t)).waitAt) (s.engine g).stallFrom
  let s := s.reachCore (since + cycTime 4096)
  let word (w : Nat) (f : Thread → Nat) : Nat := ts.foldl (fun a t => a + f (s.thread (8 * g + t)) * 2 ^ (w * t)) 0
  let s := s.event 0x31 (0x200 + c) u (word 4 (·.st)) (word 8 (·.waitObj))
  (s.addF u F.ENG_STALLS_COUNT 1).addF (uEC c) F.EC_CTR_STALL 1

/-- ENGINE_STALL: tSTALL has passed with every live thread blocked (R239, R240). -/
def State.engineStall (s : State) (c e : Nat) : State :=
  let g := 32 * c + e
  let u := uENG c e
  if !s.stalled g ∨ !s.engineRuns u then s
  else
    let ts := List.range 8
    let s := s.stallTold c e
    if s.getF u F.ENG_CFG_STALL_HALT = 0 then
      let s := s.each ts fun s t => (s.abortJob (8 * g + t) 0x3C).freeHolds (8 * g + t)
      s.stallRestart g
    else
      let live := ts.filter fun t => (s.thread (8 * g + t)).st != 0
      let s := s.each ts fun s t =>
        (s.setThread (8 * g + t) { s.thread (8 * g + t) with st := 6, budget := s.budgetLeft (8 * g + t) }).closeSample (8 * g + t)
      s.each live fun s t => s.debugRecord (8 * g + t) 4 0 0

/-- STEP_END: a stepped thread has issued its microwords and halts (R243). -/
def State.stepEnd (s : State) (k : Nat) : State :=
  let x := s.thread k
  if x.st = 1 ∧ x.stepLeft = some 0 then
    ((s.setThread k { x with st := 6, stepLeft := none, budget := s.budgetLeft k }).closeSample k).debugRecord k 3 0 0
  else s

/-- ENGINE_SAMPLE_TIMEOUT: an open sample reaches 65,535 EC cycles (R364). -/
def State.sampleTimeout (s : State) (k : Nat) : State :=
  match (s.thread k).sample with
  | none => s
  | some p => (s.reachCore (cycTime (p.cyc + 65535))).closeSample k

end Sys2Proof.Machine
end

