-- ==== Sys2Proof/Machine/Router.lean ====
section
/-!
DEFINITION. The job router of a cluster (R223–R228 of spec/10_engines.md): acceptance, dispatch with the job record of
Table 3, release of endings; punts to host rings (R80, R224); and the debug commands (R241–R245).
-/
namespace Sys2Proof.Machine

/-! ### Acceptance (R223, R224) -/

/-- The job a copy becomes, with handle `h` (R226). -/
def newJob (e : QEnt) (p : Pkt) (h : Nat) : Job :=
  let n := jobCells p.frame.length
  { src := e.copy.src, course := p.adm.course, prio := (e.copy.queue % 65536 - 65504) % 8
    slow := if e.copy.src = 0 then p.adm.slowClass else 0, user := e.copy.user, cells := n, handle := h % 4096
    win := List.replicate 256 0 ++ p.frame ++ List.replicate (256 * n - 256 - p.frame.length) 0
    punt := none, pkt := p }

/-- A copy whose cells column 32 has read enters a cluster's packet buffer, as a job or as a punt. The first cell of its window
is the device's choice (log entry 1). -/
def State.jobEnter (s : State) (c : Nat) (e : QEnt) (p : Pkt) : State :=
  match e.copy.punt with
  | some r => s.setPunts (s.punts ++ [⟨r, e.copy.reason, 0, p, some c, jobCells p.frame.length, false⟩])
  | none => s.draw.2.setCluster c { s.draw.2.cluster c with queued := (s.draw.2.cluster c).queued ++ [newJob e p s.draw.1] }

/-- JOB_ACCEPT: the next packet from a cluster's internal port is read, `err` as its cells read (R284). -/
def State.jobAccept (s : State) (c err : Nat) : State :=
  match s.bas.router.get (fun _ => []) c with
  | [] => s
  | e :: rest =>
    if !s.routerReady c ∨ !s.fwdOn ∨ s.footing then s
    else match s.inst e.inst with
      | none => s.modBas fun b => { b with router := s.bas.router.put (fun _ => []) c rest }
      | some i =>
        match (s.modBas fun b => { b with router := s.bas.router.put (fun _ => []) c rest }).readOut 32 err e i with
        | (false, s) => s
        | (true, s) => s.jobEnter c e i.pkt

/-! ### Dispatch (R225, R226) -/

/-- The job record (Table 3): the key vector and result slots of a detour come from its job cell. -/
def jobRecord (j : Job) (act ring seq : Nat) : List Byte :=
  wordsBytes [j.src * 2 ^ 62 + j.course * 2 ^ 59 + j.prio * 2 ^ 56 + j.slow * 2 ^ 52 + act * 2 ^ 50 + ring * 2 ^ 35 + j.pkt.frame.length,
    seq * 2 ^ 48 + j.handle, j.user, 0] ++
  wordsBytes (admWords j.pkt) ++ (if j.src = 0 then (jobCell j.pkt).take 192 else List.replicate 192 0)

/-- R225: the thread of an Active engine, not halted, that has waited longest on its job port, the lower engine and thread on a
tie. -/
def State.longestWaiter (s : State) (c : Nat) : Option Nat :=
  let ok := (s.cluster c).waiting.filter fun t =>
    s.ust (uENG c (t / 8)) == 4 && (s.thread (256 * c + t)).st != 6 && s.engineRuns (uENG c (t / 8)) && (s.jobOf (256 * c + t)).isNone
  ok.foldl (fun (a : Option Nat) t => match a with
    | none => some t
    | some b =>
      let wt := (s.thread (256 * c + t)).waitAt
      let wb := (s.thread (256 * c + b)).waitAt
      if wt < wb ∨ (wt = wb ∧ t < b) then some t else some b) none

/-- Thread `t` of a cluster completes its job-port read with job `j` (R225, R226). -/
def State.giveJob (s : State) (c t : Nat) (j : Job) (rest : List Job) : State :=
  let x := s.cluster c
  let k := 256 * c + t
  let cfg := if j.src = 0 then j.slow else 16
  let act := s.getF (uEC c) (F.EC_JOB_CFG_A_PUNT.i cfg)
  let ring := s.getF (uEC c) (F.EC_JOB_CFG_B_RING.i cfg)
  let rec_ := jobRecord j act ring x.seq
  let s := s.setCluster c { x with
    queued := rest, seq := (x.seq + 1) % 65536, waiting := x.waiting.erase t
    outst := x.outst ++ [{ seq := x.seq, thread := some t, ending := none, act := act, ring := ring, job := j }] }
  let s := s.setLmemBytes (k / 8) (0x6000 * thrOf k) rec_
  let s := (s.setOpReg k (s.thread k).waitReg (BitVec.ofNat 64 (leNat (rec_.take 8)))).setCond k 19 0
  let s := s.setThread k { s.thread k with
    job := some x.seq, budget := s.getF (uEC c) (F.EC_JOB_CFG_A_BUDGET.i cfg), budgetAt := s.clk.core }
  (s.wake k).occur (uEC c) 0x100 j.prio none 0 1

/-- JOB_DISPATCH: the oldest queued job of a cluster. -/
def State.jobDispatch (s : State) (c : Nat) : State :=
  let x := s.cluster c
  match x.queued, s.longestWaiter c with
  | j :: rest, some t =>
    if 256 ≤ x.outst.length then s
    else if s.pastDeadline j.pkt then
      ((s.setCluster c { x with queued := rest }).addF (uEC c) F.EC_CTR_DEADLINE 1).dropCluster 0x10 c 0 j.pkt
    else s.giveJob c t j rest
  | _, _ => s

/-! ### Release (R228) -/

/-- The ending of a job may be released: every job of its ingress port dispatched before it has ended. -/
def releasable (before : List OutJob) (j : OutJob) : Bool :=
  j.ending.isSome && before.all fun b => b.job.pkt.adm.port != j.job.pkt.adm.port || b.ending.isSome

/-- The first job in dispatch order whose ending may be released. -/
def firstRelease : List OutJob → List OutJob → Option OutJob
  | _, [] => none
  | before, j :: r => if releasable before j then some j else firstRelease (before ++ [j]) r

/-- The packet with the frame an ending gives it. -/
def endedPkt (j : OutJob) (e : List Nat) : Pkt :=
  { j.job.pkt with frame := sliceBytes j.job.win (endStart e).toNat (endLen e) }

/-- RECIRC from cluster `c`: into the course's recirculation queue, or its partner's while it drains (R217, R378). -/
def State.recirculate (s : State) (c n profile : Nat) (p : Pkt) : State :=
  let n := if s.courseDraining n then partner n else n
  if 2048 ≤ (s.course n).recirc.length then s.dropIngress 0x16 (uADM n) p
  else s.setCourse n { s.course n with recirc := (s.course n).recirc ++ [(⟨p, profile, c⟩ : Recirc)] }

/-- A packet written into row 32 (R24, R79, R227): past its deadline it does not enter a port column. -/
def State.enterRow32 (s : State) (p : Pkt) (c : Copy) : State :=
  let col := portCol (s.queuePort c.queue)
  if col < 32 ∧ s.pastDeadline p then s.dropIngress 0x10 uBSN p
  else (s.placeAll 32 8 p [c]).2

/-- QUEUE: the packet's descriptor and its copy. -/
def State.queueEnding (s : State) (p : Pkt) (e : List Nat) : State :=
  let p := { p with l3Kind := 0, tc := endTc e, color := 0, edits := 0, lse01 := 0, lse23 := 0, ptp := endRouted e * 2 ^ 36, markDei := false }
  s.enterRow32 p { queue := endQueue e, src := 1, user := endUser e, nhEn := endNhEn e, nh := endNh e }

/-- JOB_RELEASE: the next ending of a cluster in release order takes effect, and its cells are freed. -/
def State.jobRelease (s : State) (c : Nat) : State :=
  match firstRelease [] (s.cluster c).outst with
  | none => s
  | some j =>
    let e := j.ending.getD []
    let p := endedPkt j e
    let s := s.endJob c j
    match endKind e with
    | 1 => s.recirculate c (endCourse e) (endProfile e) p
    | 2 => s.queueEnding p e
    | _ => s.setPunts (s.punts ++ [⟨endRing e, endCode e, endUser e, p, some c, j.job.cells, false⟩])

/-! ### Punts (R80) -/

/-- Buffers posted on a PUNT_BUF ring, in order. -/
def State.posted (s : State) (r : Nat) : List Desc :=
  (s.ring r).descs.filter fun d => d.op == 0x08 && d.wait.isSome && d.comp.isNone

/-- The punt header (Table 11 of chapter 3). -/
def puntHeader (x : PuntPkt) : List Byte :=
  let a := x.pkt.adm
  wordsBytes [a.admitAt, x.reason % 256 * 2 ^ 56 + a.gen % 2 * 2 ^ 55 + a.pass % 4 * 2 ^ 53 + a.port % 256 * 2 ^ 40 + x.pkt.frame.length,
    x.user, 0]

/-- Fill posted buffers in order; `first` until the first is filled. -/
def State.fillBufs (s : State) (r : Nat) : List Desc → List Byte → Bool → State
  | [], _, _ => s
  | d :: ds, bs, first =>
    if bs.isEmpty then s
    else
      let now := bs.take d.len
      let rest := bs.drop d.len
      let info := (if first then 2 ^ 31 else 0) + (if rest.isEmpty then 2 ^ 30 else 0)
      ((s.sendPunt ((s.ringOwner r).getD 1) d.w1 now).complete r d.idx (comp 0 now.length info)).fillBufs r ds rest false

/-- A punt that cannot be delivered: a sample only counts (R288), another packet is dropped. -/
def State.puntLost (s : State) (x : PuntPkt) (code : Nat) : State :=
  if x.sample then (s.addF uBSN F.BSN_SAMPLE_LOST_COUNT 1).addFS uHIF x.ring F.RING_LOST_COUNT 1
  else
    let s := if code = 0x3D then s.addFS uHIF x.ring F.RING_LOST_COUNT 1 else s
    ((s.drop code 747 (x.pkt.info uHIF)).leaveFlight x.pkt).mcDone x.pkt false

/-- PUNT_WRITE: the oldest punt that waits for a ring. -/
def State.puntWrite (s : State) (r : Nat) : State :=
  match s.punts.find? fun x => x.ring == r with
  | none => s
  | some x =>
    let s := s.setPunts (s.punts.erase x)
    let bytes := puntHeader x ++ x.pkt.frame
    let bufs := s.posted r
    if s.ringLog r = 0 ∨ s.ringType r ≠ 2 ∨ s.ringState r = 0 ∨ s.ringState r = 4 then s.puntLost x 0x3E
    else if !s.ringUp r 2 ∨ (bufs.map (·.len)).sum < bytes.length then s.puntLost x 0x3D
    else
      let s := s.fillBufs r bufs bytes true
      if x.sample then s else (s.leaveFlight x.pkt).mcDone x.pkt true

/-! ### Debug commands (R241–R245) -/

/-- Fields of a debug command's ARG. -/
def dbgUid (d : Desc) : Nat := bitsOf d.w2 50 14
def dbgMask (d : Desc) : Nat := bitsOf d.w2 40 8
def dbgArg (d : Desc) : Nat := bitsOf d.w2 0 32

/-- Threads a mask names. -/
def maskThreads (m : Nat) : List Nat := (List.range 8).filter fun t => bitsOf m t 1 == 1

/-- A debug command of ring `r` with opcode `op`: the checks of R245, then `go` with the engine's first thread. `form` says
whether ARG[31:0] and LEN fit Table 6, `one` whether the mask must name one thread (else: any, or none where `none_`), `halted`
whether the threads must be halted. -/
def State.debugCmd (s : State) (r op : Nat) (form : Desc → Bool) (masks : Nat → Bool) (halted : Bool) (go : Desc → Nat → State → State) : State :=
  match s.nextDesc r op with
  | none => s
  | some d =>
    let fail (st : Nat) : State := s.complete r d.idx (comp st 0 0)
    let u := dbgUid d
    let k := 256 * ((u - 0x400) / 64) + 8 * (u % 64 - 16)
    if s.ringType r ≠ 5 then s
    else if s.ringOwner r ≠ some 1 then fail 4
    else if kindOf u ≠ some .engine ∨ bitsOf d.w2 48 2 ≠ 0 ∨ bitsOf d.w2 32 8 ≠ 0 ∨ !masks (dbgMask d) ∨ !form d then fail 1
    else if !s.fwdOn then fail 7
    else if ¬ (s.ust u = 4 ∨ s.ust u = 5) ∨ s.getF u F.UCB_STATE_ISOLATED = 1 then fail 5
    else if halted ∧ !(maskThreads (dbgMask d)).all (fun t => (s.thread (k + t)).st == 6) then fail 0x45
    else go d k s

/-- One bit set. -/
def oneBit (m : Nat) : Bool := (maskThreads m).length == 1

/-- The named thread of a one-thread command. -/
def dbgThread (d : Desc) (k : Nat) : Nat := k + (maskThreads (dbgMask d)).headD 0

/-- A debug command ends well, writing bytes to ADDR. -/
def State.debugDone (s : State) (r : Nat) (d : Desc) (out : List Byte) : State :=
  (s.when (!out.isEmpty) fun s => s.send (.hostWrite ((s.ringOwner r).getD 0) d.w1 out)).complete r d.idx (comp 0 d.len 0)

/-- HALT (R241). -/
def State.dbgHalt (s : State) (r : Nat) : State :=
  s.debugCmd r 0x40 (fun d => dbgArg d == 0 && d.len == 8) (· != 0) false fun d k s =>
    let s := s.each (maskThreads (dbgMask d)) fun s t =>
      let was := (s.thread (k + t)).st
      let s := s.haltThread (k + t)
      if was ≠ 6 ∧ (s.thread (k + t)).st = 6 then s.debugRecord (k + t) 1 0 0 else s
    s.debugDone r d (leBytes s.ns 8)

/-- R242: the deadline check of a thread that is to run on, for `steps` microwords or without end; a job past its deadline is
aborted, and the thread runs on from its start address. -/
def State.resumeOne (s : State) (k : Nat) (steps : Option Nat) : State :=
  let s := s.setThread k { s.thread k with stepLeft := steps }
  if (match s.jobOf k with | some j => s.pastDeadline j.job.pkt | none => false) then
    let s := s.abortJob k 0x10
    (s.setThread k { s.thread k with st := 1 }).restart k
  else s.resumeThread k

/-- RESUME (R242). -/
def State.dbgResume (s : State) (r : Nat) : State :=
  s.debugCmd r 0x41 (fun d => dbgArg d == 0 && d.len == 8) (· != 0) true fun d k s =>
    (s.each (maskThreads (dbgMask d)) fun s t => s.resumeOne (k + t) none).debugDone r d (leBytes s.ns 8)

/-- STEP (R242, R243). -/
def State.dbgStep (s : State) (r : Nat) : State :=
  s.debugCmd r 0x42 (fun d => 1 ≤ dbgArg d && dbgArg d ≤ 65535 && d.len == 8) oneBit true fun d k s =>
    (s.resumeOne (dbgThread d k) (some (dbgArg d))).debugDone r d (leBytes s.ns 8)

/-- READ_GREGS. -/
def State.readGregs (s : State) (r : Nat) : State :=
  s.debugCmd r 0x43 (fun d => dbgArg d == 0 && d.len == 256) oneBit true fun d k s =>
    s.debugDone r d (wordsBytes ((List.range 32).map fun g => (s.opReg (dbgThread d k) g).toNat))

/-- WRITE_GREG; `data` is the value the host read brought, `ok` whether it succeeded. -/
def State.writeGreg (s : State) (r : Nat) (data : List Byte) (ok : Bool) : State :=
  s.debugCmd r 0x44 (fun d => dbgArg d < 32 && d.len == 8) oneBit true fun d k s =>
    if !ok then s.complete r d.idx (comp 3 0 0)
    else (s.setOpReg (dbgThread d k) (dbgArg d) (BitVec.ofNat 64 (leNat (sliceBytes data 0 8)))).debugDone r d []

/-- Offset and length of a local-memory command. -/
def lmemForm (d : Desc) : Bool :=
  dbgArg d % 8 == 0 && d.len % 8 == 0 && d.len ≤ 4096 && dbgArg d + d.len ≤ 0x40000

/-- READ_LMEM. -/
def State.readLmem (s : State) (r : Nat) : State :=
  s.debugCmd r 0x45 lmemForm (· == 0) false fun d k s => s.debugDone r d (s.lmemBytes (k / 8) (dbgArg d) d.len)

/-- WRITE_LMEM. -/
def State.writeLmem (s : State) (r : Nat) (data : List Byte) (ok : Bool) : State :=
  s.debugCmd r 0x46 lmemForm (· == 0) false fun d k s =>
    if !ok then s.complete r d.idx (comp 3 0 0)
    else (s.setLmemBytes (k / 8) (dbgArg d) (sliceBytes data 0 d.len)).debugDone r d []

/-- READ_CSTORE. -/
def State.readCstore (s : State) (r : Nat) : State :=
  s.debugCmd r 0x47 (fun d => dbgArg d < 4096 && d.len % 16 == 0 && d.len ≤ 4096 && 16 * dbgArg d + d.len ≤ 65536) (· == 0) false
    fun d k s => s.debugDone r d ((List.range (d.len / 16)).flatMap fun i => uBytes (s.cword (k / 8) (dbgArg d + i)))

end Sys2Proof.Machine
end

