-- ==== Sys2Proof/Machine/Units.lean ====
section
/-!
DEFINITION. Unit commands (spec/02_units_and_setup_space.md): what a unit and a group read as, which command is accepted
(Table 7, R47, R219), what each does to a unit (R46, R246, R280, R283, R309, R326, R342, R392), group commands (R50,
R51), their ends, and the hand-back of a course (R379).
-/
namespace Sys2Proof.Machine

/-! ### What units read as (R37, R47, R51, R52) -/

/-- UCB_TEST_RESULT of a unit as (DONE, PASS, CODE): a group's is read from its children (R51). -/
def State.testView (s : State) : Nat → Nat → Bool × Bool × Nat
  | 0, u => (s.bit u F.UCB_TEST_RESULT_DONE, s.bit u F.UCB_TEST_RESULT_PASS, s.getF u F.UCB_TEST_RESULT_CODE)
  | n + 1, u =>
    if !isGroup u then s.testView 0 u
    else
      let ks := (s.liveKids u).map (s.testView n)
      let code := match ks.find? fun k => !k.2.1 with | some k => k.2.2 | none => 0
      (ks.all (·.1), ks.all (·.2.1), code)

/-- R52: UCB_FAULT_SUM.CHILD. -/
def State.childSum (s : State) : Nat → Nat → Bool
  | 0, _ => false
  | n + 1, u => (children u).any fun c =>
      (List.range 16).any (fun i => bitsOf (s.getF c F.UCB_FAULT_SUM_SRC) i 1 == 1 && bitsOf (s.getF c F.UCB_FAULT_MASK_MASK) i 1 == 0) ||
      s.childSum n c

/-- R266: engines whose stores are being written. -/
def State.loading (s : State) : List Nat := match s.eng.load with | some l => l.engines | none => []

/-- R48, R266: a command runs on the unit or on an ancestor, or the engine's store is being written: UCB_CMD_STATUS.BUSY. -/
def State.unitBusy (s : State) (u : Nat) : Bool :=
  (s.flt.runs.any fun r => r.top == u || isAncestor r.top u) || s.loading.contains u

/-- R48: a command runs on the unit, an ancestor or a descendant: UCB_CMD is not accepted. -/
def State.cmdBusy (s : State) (u : Nat) : Bool :=
  s.unitBusy u || (s.flt.runs.any fun r => isAncestor u r.top) || s.loading.any fun e => isAncestor u e

/-- Engines of a unit's cluster that are Active. -/
def State.activeEngines (s : State) (u : Nat) : Nat :=
  ((List.range 17).filter fun e => s.ust (u - u % 64 + 0x10 + e) == 4).length

/-- Units of the FWD domain (chapter 18). -/
def inFWD (u : Nat) : Bool :=
  match kindOf u with
  | some k => !isCoreKind k && !([Kind.dev, .moverGroup, .mover, .checkGroup, .checkUnit].contains k)
  | none => false

/-- Table 7: 0 where the unit accepts the command, else the result it ends with. A FWD unit without power ends every
command with POWERDOWN (DEDUCED, log entry 40). -/
def State.cmdResult (s : State) (u cmd : Nat) : Nat :=
  let st := s.stateView treeDepth u
  let iso := s.bit u F.UCB_STATE_ISOLATED
  let full := kindOf u == some .engine && decide (16 ≤ s.activeEngines u)
  if s.refusal u ≠ 0 then s.refusal u
  else if inFWD u ∧ !s.fwdOn then 0x0A
  else match cmd with
    | 1 => if st = 0 ∨ st = 3 ∨ st = 6 ∨ iso then 0 else 1
    | 2 => if st = 3 then 0 else 1
    | 3 =>
      if st = 3 ∧ !(s.testView treeDepth u).2.1 then 2
      else if (st = 3 ∨ st = 5) ∧ !full then 0 else 1
    | 4 => if st = 4 then 0 else 1
    | 5 | 6 => if st ≠ 0 then 0 else 1
    | _ => 1

/-! ### Resets of registers (R392) -/

/-- A register word with the fields of a reset class (P 1, C 2, D 4, F 8, U 16) at their reset values. A register with no
table of its own, an MSI-X table, has the classes P, C, D and F. -/
def revertWord (cls k : Nat) (w : Word) : Word :=
  let r := regDflt k
  match regDefAt (keyUid k) (keyOff k) with
  | some d => BitVec.ofNat 32 (d.fields.foldl (fun a f =>
      if f.cls / cls % 2 = 1 then setBitsOf a f.lo f.w (bitsOf r.toNat f.lo f.w) else a) w.toNat)
  | none => if cls = 16 then w else r

/-- Revert the registers a predicate on keys selects. -/
def State.revertRegs (s : State) (cls : Nat) (p : Nat → Bool) : State :=
  { s with regs := s.regs.remap regDflt fun k w => if p k then revertWord cls k w else w }

/-- Keep the table entries a predicate on table and index accepts; the others become invalid. -/
def State.keepTbl (s : State) (p : Nat → Nat → Bool) : State :=
  { s with tbl := s.tbl.keep fun k => p (k / 2 ^ 32) (k % 2 ^ 31) }

/-- The bank position a bank serves: its own, or that of the bank it replaces; none for a spare that replaces none. -/
def State.servesAs (s : State) (u : Nat) : Option Nat :=
  match s.flt.swapped.find? fun w => w.2 == u with
  | some w => some w.1
  | none => if (s.flt.swapped.any fun w => w.1 == u) ∨ ((kindOf u == some .tableBank || kindOf u == some .camBank) && u % 32 == 17) then none
    else some u

/-- R392: a reset table bank loses the entries it serves. -/
def State.resetTable (s : State) (u : Nat) : State :=
  match s.servesAs u with
  | some v =>
    let b := (v - 0xC20) / 32 * 16 + (v - 0xC21) % 32
    (s.keepTbl fun tid idx => s.tableBank tid idx != some b).modFlt fun f => { f with badWords := s.flt.badWords.filter fun w => w.1 ≠ u }
  | none => s.modFlt fun f => { f with badWords := s.flt.badWords.filter fun w => w.1 ≠ u }

/-- R192: bank `u` is repaired: a poisoned entry that no other bank's row poisons frees its address. -/
def State.unpoison (s : State) (u t : Nat) : State :=
  let mine := ((s.flt.poison.filter fun p => p.1 == u).map (·.2.1)).eraseDups
  let s := s.modFlt fun f => { f with poison := s.flt.poison.filter fun p => p.1 != u }
  let free := mine.filter fun a => !(s.flt.poison.any fun p => p.2.1 == a && (s.tableBanks t).contains p.1)
  let s := s.each free fun s a => s.setEnt (0x38 + t) 0 a 0
  s.modFlt fun f => { f with blank := s.flt.blank.filter fun b => !(free.contains b.2 && (s.tableBanks t).contains b.1) }

/-- The rows of bank `u` all hold `v`, where they hold no entry's key. -/
def State.rowsAll (s : State) (u : Nat) (v : Option Nat) : State :=
  s.modFlt fun f => { f with rowKeys :=
    (s.flt.rowKeys.filter fun e => decide (e.1 / 4096 < u)) ++ (if v.isNone then [] else (List.range 4096).map fun i => (4096 * u + i, v)) ++
      (s.flt.rowKeys.filter fun e => decide (u < e.1 / 4096)) }

/-- R392: a reset CAM bank loses its rows, which read 0 until they are written, or rewritten from the copy (R191); an entry no
replica holds any longer is gone. -/
def State.resetCam (s : State) (u : Nat) : State :=
  let s := s.rowsAll u (if s.getF u F.CAM_BANK_CFG_VERIFY = 1 then none else some 0)
  let s := s.modFlt fun f => { f with badWords := s.flt.badWords.filter fun w => w.1 ≠ u }
  if s.getF u F.CAM_BANK_CFG_EN = 0 then s
  else
    let t := s.getF u F.CAM_BANK_CFG_TABLE
    let s := s.unpoison u t
    let per := 4096 / 2 ^ s.camCfg t F.CAM_TBL_CFG_WIDTH_LOG2
    let pos := s.getF u F.CAM_BANK_CFG_POSITION
    let others := (s.tableBanks t).filter fun v => v ≠ u && s.getF v F.CAM_BANK_CFG_POSITION == pos
    let mine := ((s.entries (0x38 + t) 0).map (·.1)).filter fun a => a / per == pos
    s.each mine fun s a =>
      if others.any fun v => !s.flt.blank.contains (v, a) then
        s.modFlt fun f => { f with blank := if s.flt.blank.contains (u, a) then s.flt.blank else s.flt.blank ++ [(u, a)] }
      else { s.setEnt (0x38 + t) 0 a 0 with flt := { s.flt with blank := s.flt.blank.filter fun b => b.2 ≠ a || !(others.contains b.1) } }

/-- R358, R392: the performance counters of a unit that has eight return to 0. -/
def State.clearPerf (s : State) (u : Nat) : State :=
  if nctr u = 8 then { s with ctrs := s.ctrs.keep fun i => !(perfIndex u 0 ≤ i && i < perfIndex u 0 + 8) } else s

/-- R392, U column: a unit's registers of class U and its own working state return to their reset values. -/
def State.resetUnit (s : State) (u : Nat) : State :=
  let s := s.revertRegs 16 fun k => keyUid k == u && k < 2 ^ 44
  let s := s.clearPerf u
  match kindOf u with
  | some .lane =>
    let p := (u - 0x200) / 16 * 8
    s.setPort p { s.port p with adaptAt := (s.port p).adaptAt.put (fun _ => 0) (u % 16) 0 }
  | some .mac =>
    let b := (u - 0x200) / 16
    let s := s.each ((List.range 8).map (8 * b + ·)) fun s p =>
      let s := s.setPort p { ({} : Port) with adaptAt := (s.port p).adaptAt, flush := (s.port p).flush }
      if (s.portQueues p).isEmpty then s else s.startFlush p
    s.setRx b []
  | some .rsv =>
    let n := (u - 0x50) / 8
    let s := s.keepTbl fun tid idx => !(tid == 0x45 && idx / 16384 == n)
    { s with meters := s.meters.keep fun k => !(k / 2 ^ 32 == 0x45 && k % 2 ^ 32 / 16384 == n) }
  | some .lrn => s.keepTbl fun tid _ => !(tid == 0x20 + (u - 0x50) / 8)
  | some .csh =>
    let c := (u - 0x400) / 64
    s.modEng fun e => { e with chans := s.eng.chans.keep (fun k => k / 64 ≠ c), locks := s.eng.locks.keep (fun k => k / 256 ≠ c) }
  | some .engine =>
    let g := 32 * ((u - 0x400) / 64) + (u % 64 - 16)
    s.modEng fun e => { e with
      engines := s.eng.engines.keep (fun k => k ≠ g), threads := s.eng.threads.keep (fun k => k / 8 ≠ g)
      lmem := s.eng.lmem.keep fun k => k / 2 ^ 18 ≠ g }
  | some .bpm => s.modBas fun b => { b with blocks := [], limbo := [], chan := [] }
  | some .tableBank => s.resetTable u
  | some .camBank => s.resetCam u
  | some .tmq =>
    let q := u - 0x1001
    let s := s.keepTbl fun tid idx => !((tid == 0x50 && idx / 65536 == q) || (tid == 0x51 && idx / 16384 == q) ||
      (tid == 0x52 && idx / 1024 == q) || (tid == 0x46 && idx / 8192 == q))
    let per (lvl : Nat) : Nat := if lvl = 0 then 65536 else if lvl = 1 then 16384 else if lvl = 2 then 1024 else 128
    { s with
      meters := s.meters.keep (fun k => !(k / 2 ^ 32 == 0x46 && k % 2 ^ 32 / 8192 == q))
      bas := { s.bas with
        tags := s.bas.tags.keep (fun k => k % 2 ^ 20 / per (k / 2 ^ 20) ≠ q), tel := s.bas.tel.keep fun k => k / 65536 ≠ q } }
  | some .dmc =>
    let ch := u - 0x1101
    s.modDram fun d => { d with
      bytes := s.dram.bytes.keep (fun k => k / 2 ^ 36 ≠ ch), lost := s.dram.lost.keep (fun k => k / 2 ^ 24 ≠ ch)
      banks := s.dram.banks.keep (fun k => k / 64 ≠ ch), scrub := s.dram.scrub.keep (fun k => k ≠ ch)
      down := s.dram.down.filter (fun k => k / 2 ≠ ch), slow := s.dram.slow.filter (fun k => k ≠ ch), selfRef := s.dram.selfRef.filter (fun k => k / 2 ≠ ch) }
  | some .fab => { s with fab := { ({} : Fab) with modeSet := s.fab.modeSet } }
  | some .twinLane => s.modTwin fun w => { w with
      lanes := s.twin.lanes.keep (fun k => k ≠ u - 0x10), adaptAt := s.twin.adaptAt.keep fun k => k ≠ u - 0x10 }
  | some .checkUnit => s.modFlt fun f => { f with cus := s.flt.cus.keep fun k => k ≠ u - 0x1301 }
  | _ => s

/-! ### What a unit holds, and its discard (R46) -/

/-- An engine's number from its UID. -/
def engNo (u : Nat) : Nat := 32 * ((u - 0x400) / 64) + (u % 64 - 16)

/-- Requests in flight on a channel (R342): engine loads and entry-page reads. -/
def State.chanBusy (s : State) (ch : Nat) : Bool :=
  (s.eng.threads.any fun t => t.2.mem.any fun m => m.chan == some ch) ||
  s.bas.queues.any fun q => match s.headPage q.1, s.pageAsked q.1 with
    | some pg, some _ => (s.dramMap (s.pageAddr (q.1 / 65536) pg)).any fun c => c.1 == ch
    | _, _ => false

/-- The unit holds a packet, job or request that its drain waits for. -/
def State.holds (s : State) (u : Nat) : Bool :=
  match kindOf u with
  | some .mac => s.bas.sending.any fun x => x.port / 8 == (u - 0x200) / 16 && x.started
  | some .adm | some .siv | some .lkp | some .rsv | some .egr =>
    let c := s.course ((u - 0x50) / 8)
    !c.inject.isEmpty || !c.hand.isEmpty || !c.recirc.isEmpty
  | some .engine => (List.range 8).any fun t => (s.thread (8 * engNo u + t)).st ≠ 0
  | some .crosspoint => s.xpUsed ((u - 0x2000) / 64) (u % 64) ≠ 0
  | some .bpm => !s.bas.blocks.isEmpty
  | some .dmc => (s.bas.blocks.any fun b => b.ch == u - 0x1101) || s.chanBusy (u - 0x1101)
  | some .tmq => !(s.busyQueues (u - 0x1001)).isEmpty
  | some .fab => s.fab.lanes.any (fun l => !l.2.isEmpty) || s.fab.flowsOut.any fun f => !f.2.bytes.isEmpty
  | some .twinLane => !(s.twin.lanes.get (fun _ => []) (u - 0x10)).isEmpty
  | some .mover => (s.mover (u - 0x1201)).isSome
  | some .checkUnit => s.bit u F.CU_STATUS_BUSY
  | _ => false

/-- DRAIN of these kinds ends at once (R99, Table 7 of chapter 17). -/
def drainsAtOnce (u : Nat) : Bool :=
  match kindOf u with
  | some .lane | some .twinLane | some .lrn | some .tableBank | some .camBank => true
  | _ => false

/-- A twin lane leaves the up set; its queue is lost and recovered by resending (R430). -/
def State.twinLaneOut (s : State) (l : Nat) : State :=
  let s := s.setF uTWN F.TWN_STATUS_LANES_UP (setBitsOf (s.getF uTWN F.TWN_STATUS_LANES_UP) l 1 0)
  s.modTwin fun w => { w with lanes := s.twin.lanes.put (fun _ => []) l [] }

/-- Packets of a cluster's router and packet buffer, discarded (R46, R247). -/
def State.discardRouter (s : State) (c : Nat) : State :=
  let x := s.cluster c
  let s := s.setCluster c { x with queued := [], outst := [] }
  let s := s.each x.queued fun s j => s.dropCluster 0x60 c 0 j.pkt
  let s := s.each x.outst fun s j => s.dropCluster 0x60 c j.seq j.job.pkt
  let mine := s.punts.filter fun p => p.cluster == some c
  let s := s.setPunts (s.punts.filter fun p => p.cluster ≠ some c)
  s.each mine fun s p => s.dropCluster 0x60 c 0 p.pkt

/-- R46: the unit discards what it holds. -/
def State.discardUnit (s : State) (u : Nat) : State :=
  match kindOf u with
  | some .mac =>
    let b := (u - 0x200) / 16
    let l := s.rxBlock b
    (((s.setRx b []).each l fun s f => s.drop 0x60 f.port { uid := u, inPort := some f.port, len := f.frame.length })).macGone b true
  | some .adm =>
    let n := (u - 0x50) / 8
    let x := s.course n
    let s := s.setCourse n { x with inject := [] }
    s.each x.inject fun s f => (s.drop 0x60 (256 + n) { uid := u, inPort := some (256 + n), len := f.frame.length }).injectLost f 5
  | some .rsv =>
    let n := (u - 0x50) / 8
    let x := s.course n
    let s := s.setCourse n { x with hand := [], recirc := [] }
    let s := s.each x.hand fun s h => s.dropIngress 0x60 u h.pkt
    s.each x.recirc fun s r => s.dropIngress 0x60 u r.pkt
  | some .engine =>
    s.each ((List.range 8).map (8 * engNo u + ·)) fun s k =>
      (((s.abortJob k 0x60).freeHolds k).closeSample k).setThread k {}
  | some .crosspoint => s.loseXp ((u - 0x2000) / 64) (u % 64)
  | some .bpm => s.loseBlocks fun _ => true
  | some .dmc => (s.loseChannel (u - 0x1101)).failLoads (u - 0x1101)
  | some .tmq => s.tmRetire (u - 0x1001)
  | some .fab => s.fabDiscard
  | some .twinLane => s.twinLaneOut (u - 0x10)
  | some .mover => s.moverStop (u - 0x1201)
  | some .checkUnit => s.setF u F.CU_STATUS_BUSY 0
  | _ => s

/-- What follows once a lane has left Active (R99). -/
def State.afterLeave (s : State) (u : Nat) : State :=
  match kindOf u with
  | some .lane => (s.laneLeft u).fabLaneOut u
  | some .twinLane => s.twinLaneOut (u - 0x10)
  | _ => s

/-- RETIRE of one unit (R46). -/
def State.retireUnit (s : State) (u : Nat) : State := ((s.discardUnit u).setUst u 6).afterLeave u

/-- ISOLATED sets; a change of it stamps UCB_STATE_TIME. -/
def State.setIsolated (s : State) (u : Nat) : State :=
  if s.bit u F.UCB_STATE_ISOLATED then s else (s.setF u F.UCB_STATE_ISOLATED 1).stampState u

/-- ISOLATE of one unit (R46). -/
def State.isolateUnit (s : State) (u : Nat) : State :=
  ((s.discardUnit u).setIsolated u).afterLeave u

/-- DRAIN of one unit begins: an engine's threads that wait on the job port stop (R246); a MAC keeps the frames its ports
transmit (R99). -/
def State.drainUnit (s : State) (u : Nat) : State :=
  let s := if kindOf u = some .mac then
      s.each ((List.range 8).map ((u - 0x200) / 16 * 8 + ·)) fun s p => s.txBegin p
    else s
  let s := s.setUst u 5
  let s := match kindOf u with
    | some .engine => s.each ((List.range 8).map (8 * engNo u + ·)) fun s k =>
        if (s.thread k).st = 2 then
          let s := s.setCluster (ecOf k) { s.cluster (ecOf k) with waiting := (s.cluster (ecOf k)).waiting.filter (· ≠ tidOf k) }
          s.stallNoted ((s.setThread k { s.thread k with st := 0, waitSt := 0 }).closeSample k) (ecOf k)
        else s
    | _ => s
  s.afterLeave u

/-- A drained unit reads Ready; with a MAC's drain the ports of its block go down (R99). -/
def State.drained (s : State) (u : Nat) : State :=
  let s := s.setUst u 3
  match kindOf u with
  | some .mac => s.macGone ((u - 0x200) / 16) false
  | _ => s

/-- R379: course `n` is back in service: it holds the port blocks of which its partner has headers before hand-off. -/
def State.handBack (s : State) (n : Nat) : State :=
  let ahead (b : Nat) : Bool := (s.course (partner n)).hand.any fun h => !h.pkt.adm.host && h.pkt.adm.port / 8 == b
  if s.courseUp n then
    s.setCourse n { s.course n with
      heldAt := some s.ns, heldBlocks := ((List.range 4).map (4 * n + ·)).filter ahead }
  else s

/-- ADMIT of one unit. -/
def State.admitUnit (s : State) (u : Nat) : State :=
  let s := s.setUst u 4
  match kindOf u with
  | some .lane => s.laneBack u
  | some .engine => s.masterStart (engNo u)
  | some .csh =>
    let c := (u - 0x400) / 64
    s.setCluster c { s.cluster c with closed := false }
  | some .adm | some .siv | some .lkp | some .rsv | some .egr => s.handBack ((u - 0x50) / 8)
  | _ => s

/-! ### Running commands (R45, R50, R51) -/

/-- A command begins on a leaf: its result where it ends at once. -/
def State.leafBegin (s : State) (u cmd : Nat) : Option Nat × State :=
  match cmd with
  | 1 => (none, (((s.setUst u 1).resetUnit u).setF u F.UCB_STATE_STATE 1).stampState u)
  | 2 => (none, s.setUst u 2)
  | 3 => (some 0, s.admitUnit u)
  | 4 => if drainsAtOnce u then (some 0, (s.drainUnit u).drained u) else (none, s.drainUnit u)
  | 5 => (some 0, s.retireUnit u)
  | _ => (some 0, s.isolateUnit u)

def State.setRun (s : State) (r : URun) : State :=
  s.modFlt fun f => { f with runs := (s.flt.runs.filter fun x => x.top ≠ r.top) ++ [r] }

def State.runOf (s : State) (top : Nat) : Option URun := s.flt.runs.find? fun r => r.top == top

/-- The run whose leaf's part runs on a unit. -/
def State.leafRun (s : State) (u cmd : Nat) : Option URun := s.flt.runs.find? fun r => r.leaf == some u && r.cmd == cmd

/-- The part of a command on unit `u` ends: its status is written (R45, R50); the unit addressed raises EVT_UNIT_CMD. -/
def State.finish (s : State) (run : URun) (u result failed : Nat) : State :=
  let s := (s.setF u F.UCB_CMD_STATUS_TAG run.tag).setF u F.UCB_CMD_STATUS_RESULT result
  let s := s.setF u F.UCB_CMD_STATUS_FAILED_UID (if isGroup u then failed else 0)
  if run.stack.isEmpty then
    (s.modFlt fun f => { f with runs := s.flt.runs.filter fun x => x.top ≠ run.top }).event 0x02 0x231 u (run.tag * 256 + result) 0
  else s.setRun { run with leaf := none, ended := some (result, if isGroup u ∧ failed ≠ 0 then failed else u) }

/-- What a command does to a group as such: an ISOLATE or RESET to it sets or clears its ISOLATED and resets its own
registers (R51); a cluster addressed by DRAIN, RETIRE or ISOLATE leaves service (R221). -/
def State.groupBegin (s : State) (run : URun) (u : Nat) : State :=
  let s := if run.cmd = 1 then ((s.clearPerf u).revertRegs 16 fun k => keyUid k == u && k < 2 ^ 44).stampState u
    else if run.cmd = 6 then s.setIsolated u else s
  if kindOf u = some .cluster ∧ run.top = u ∧ 4 ≤ run.cmd then
    let c := (u - 0x400) / 64
    s.setCluster c { s.cluster c with closed := true }
  else s

/-- Apply a running command to a unit: refused, ended at once, or begun. -/
def State.applyCmd (s : State) (run : URun) (u : Nat) : State :=
  let r := s.cmdResult u run.cmd
  if r ≠ 0 then s.finish run u r 0
  else if isGroup u then
    let todo := if run.cmd = 4 then drainOrder u else children u
    (s.groupBegin run u).setRun { run with stack := { uid := u, todo := todo, failed := none, since := s.ns } :: run.stack, leaf := none, ended := none }
  else match s.leafBegin u run.cmd with
    | (some r, s) => s.finish run u r 0
    | (none, s) => s.setRun { run with leaf := some u, since := s.ns, ended := none }

/-- R50: children a group skips. -/
def State.skips (s : State) (cmd c : Nat) : Bool :=
  s.refusal c ≠ 0 ||
  (match cmd with
   | 3 => s.stateView treeDepth c == 4
   | 4 => s.stateView treeDepth c == 3
   | 5 => s.stateView treeDepth c == 6
   | 6 => s.bit c F.UCB_STATE_ISOLATED
   | _ => false)

/-- R247: a draining cluster first serves what its router holds. -/
def State.routerBusy (s : State) (u : Nat) : Bool :=
  let c := (u - 0x400) / 64
  !(s.cluster c).queued.isEmpty || !(s.bas.router.get (fun _ => []) c).isEmpty ||
    (List.range 8).any fun p => !(s.queue (internalQueue c p)).isEmpty

/-- GROUP_CMD_ADVANCE: once the current child's part has ended, the innermost group applies the command to its next
child, or its own part ends (R50, R51). -/
def State.groupAdvance (s : State) (top : Nat) : State :=
  match s.runOf top with
  | none => s
  | some run =>
    match run.stack with
    | [] => s
    | f :: rest =>
      let fail := match run.ended with | some (r, w) => if r ≠ 0 then some w else none | none => none
      let failed := f.failed.or fail
      let todo := if failed.isSome ∧ run.cmd < 5 then [] else f.todo.dropWhile (s.skips run.cmd)
      if run.leaf.isSome ∨ (run.cmd = 4 ∧ kindOf f.uid = some .cluster ∧ !f.passed ∧ s.routerBusy f.uid ∧ failed.isNone) then s
      else match todo with
        | c :: cs => s.applyCmd { run with stack := { f with todo := cs, failed := failed, passed := true } :: rest, ended := none } c
        | [] =>
          let s := if kindOf f.uid = some .cluster ∧ 5 ≤ run.cmd then s.discardRouter ((f.uid - 0x400) / 64) else s
          let run := { run with stack := rest, ended := none }
          s.finish run f.uid (if failed.isSome then 8 else 0) (failed.getD 0)

/-- A write of UCB_CMD that passes its checks: the command is taken up. -/
def State.unitCmd (s : State) (u cmd tag : Nat) : State := s.applyCmd ⟨u, cmd, tag, [], none, s.ns, none⟩ u

/-! ### Ends of a leaf's part -/

/-- tRESET and tTEST in ns (Table 9). -/
def tReset (u : Nat) : Nat :=
  match kindOf u with | some .lane | some .twinLane => 250000000 | some .dmc => 1505000000 | _ => 1000000
def tTest (u : Nat) : Nat :=
  match kindOf u with | some .lane | some .twinLane => 50000000 | some .dmc => 200000000 | _ => 20000000

/-- A module configuration of Table 1 of chapter 15, as DMC_CFG reads it. -/
def moduleOk (cfg : Nat) : Bool :=
  [16, 32, 48, 64].contains (cfg % 128) && (cfg / 2 ^ 24 % 4 == 1 || cfg / 2 ^ 24 % 4 == 2)

/-- UNIT_RESET_DONE. `late`: tRESET passes first; `cfg`: DMC_CFG as the module's SPD gives it; `train`: step and lane of a
training that fails (R328). -/
def State.resetDone (s : State) (u : Nat) (late : Bool) (cfg train : Nat) : State :=
  match s.leafRun u 1 with
  | none => s
  | some run =>
    let s := if late then s.reach (run.since + tReset u) else s
    let dmc := kindOf u == some .dmc
    let bad := late || (dmc && (!moduleOk cfg || train / 128 % 256 ≠ 0))
    let s := if dmc ∧ bad then
        (s.setF u F.DMC_TRAIN_STATUS_STEP (if train / 128 % 256 ≠ 0 then train / 128 else 1)).setF u F.DMC_TRAIN_STATUS_LANE train
      else if dmc then
        let s := s.modDram fun d => { d with slow := s.dram.slow.filter (· ≠ u - 0x1101) ++ (if bitsOf cfg 31 1 = 1 then [u - 0x1101] else []) }
        ((s.setF u F.DMC_CFG_RANKS (cfg / 2 ^ 24)).setF u F.DMC_CFG_WIDTH (cfg / 2 ^ 23)).setF u F.DMC_CFG_CAP_GIB cfg
      else if bad then s
      else if kindOf u = some .lane ∨ kindOf u = some .twinLane then s.setF u F.LANE_STATUS_ADAPTED 1 else s
    if bad then (s.setUst u 6).finish run u 5 0 else (s.setUst u 3).finish run u 0 0

/-- Spare rows of an array (R377). -/
def spareRows (u arr : Nat) : Nat := if 65536 ≤ Config.arrayBytes u arr then 4 else 0

/-- Key of a row, array · 65,536 + row, of a unit in the repair map. -/
def repairKey (u r : Nat) : Nat := u * 2 ^ 32 + r % 2 ^ 32

/-- Spare rows of an array that rows are mapped to. -/
def State.sparesUsed (s : State) (u arr : Nat) : Nat :=
  s.flt.repairs.foldl (fun n e => if e.1 / 65536 = u * 65536 + arr then max n e.2 else n) 0

/-- R377: each failing row (array · 65,536 + row) is mapped to the next spare row of its array, and the repair map keeps which;
whether each could be mapped. A mapped row that fails again takes the next one. -/
def State.mapRows (s : State) (u : Nat) (rows : List Nat) : Bool × State :=
  rows.foldl (fun a r =>
    let arr := r / 65536 % 65536
    let n := a.2.sparesUsed u arr
    if n < spareRows u arr then (a.1, a.2.modFlt fun f => { f with repairs := a.2.flt.repairs.put (fun _ => 0) (repairKey u r) (n + 1) })
    else (false, a.2)) (true, s)

/-- R267: what TEST of an engine finds of its control store: 0 for nothing wrong. -/
def State.storeTest (s : State) (u : Nat) : Nat :=
  let g := engNo u
  let store := (s.eng.cs.filter fun e => e.1 / 4096 == g).map fun e => (e.1 % 4096, e.2)
  if s.getF u F.ENG_UCODE_ENTRY_LOADED = 0 then 0x0200
  else if storeCrc store ≠ s.getF u F.ENG_UCODE_CRC_LO_CRC + s.getF u F.ENG_UCODE_CRC_HI_CRC * 2 ^ 32 then 0x0201 else 0

/-- UNIT_TEST_DONE. `code`: the first failing check the test finds besides those the model computes; `rows`: the rows
it finds failing, each array · 65,536 + row (R377); `late`: tTEST passes first. -/
def State.testDone (s : State) (u code : Nat) (rows : List Nat) (late : Bool) : State :=
  match s.leafRun u 2 with
  | none => s
  | some run =>
    let (mapped, s) := s.mapRows u rows
    let eng := kindOf u == some .engine
    let own := if eng then s.storeTest u else 0
    let code := if own ≠ 0 then own else if code ≠ 0 then code % 65536 else if mapped then 0 else if eng then 0x0202 else 0x0100
    let s := if eng then (s.modEng fun e => { e with lmem := s.eng.lmem.keep fun k => k / 2 ^ 18 ≠ engNo u }) else s
    let s := if late then s.reach (run.since + tTest u) else s
    let s := (s.setF u F.UCB_TEST_RESULT_DONE 1).setF u F.UCB_TEST_RESULT_PASS 0
    if late then (s.setUst u 6).finish run u 5 0
    else if code ≠ 0 then
      ((s.setF u F.UCB_TEST_RESULT_CODE code).setUst u 6).finish run u 6 0
    else
      let s := if eng then s.setF u F.ENG_CFG_ENTRY (s.getF u F.ENG_UCODE_ENTRY_ENTRY) else s
      (((s.setF u F.UCB_TEST_RESULT_PASS 1).setF u F.UCB_TEST_RESULT_CODE 0).setUst u 3).finish run u 0 0

/-- UNIT_DRAIN_DONE: a Draining unit that holds nothing becomes Ready, with its command if that still runs (R464). -/
def State.drainDone (s : State) (u : Nat) : State :=
  if isGroup u ∨ s.ust u ≠ 5 ∨ s.holds u then s
  else
    let s := s.drained u
    match s.leafRun u 4 with
    | some run => s.finish run u 0 0
    | none => s

/-- DRAIN_LIMIT_EXPIRE: the unit's UCB_DRAIN_LIMIT passes; it stays Draining (R464). A cluster's limit bounds the wait for
its router (R247). -/
def State.drainLimit (s : State) (u : Nat) : State :=
  let due (since : Nat) : Nat := since + s.getF u F.UCB_DRAIN_LIMIT_LIMIT_US * 1000
  match s.leafRun u 4 with
  | some run => (s.reach (due run.since)).finish run u 7 0
  | none =>
    match s.flt.runs.find? fun r => r.cmd == 4 && r.leaf.isNone && (match r.stack with | f :: _ => f.uid == u && !f.passed | [] => false) with
    | some run =>
      if kindOf u = some .cluster ∧ s.routerBusy u then
        (s.reach (due ((run.stack.head?.map (·.since)).getD 0))).finish { run with stack := run.stack.drop 1, ended := none } u 7 0
      else s
    | none => s

/-! ### Ends from elsewhere (R49, R396) -/

/-- The units below the one addressed whose part of a command is running: the leaf, then the groups above it (R50). -/
def runParts (r : URun) : List Nat := (r.leaf.toList ++ r.stack.map (·.uid)).filter (· ≠ r.top)

/-- R50: parts of a command end with a result: each unit's TAG and RESULT, and FAILED_UID of a group. -/
def State.endParts (s : State) (run : URun) (us : List Nat) (result : Nat) : State :=
  s.each us fun s u =>
    ((s.setF u F.UCB_CMD_STATUS_TAG run.tag).setF u F.UCB_CMD_STATUS_RESULT result).setF u F.UCB_CMD_STATUS_FAILED_UID 0

/-- A TEST that a run's leaf was running has ended, and did not pass (Table 3 of chapter 2). -/
def State.testCut (s : State) (r : URun) : State :=
  match r.leaf with
  | some l => if r.cmd = 2 then (s.setF l F.UCB_TEST_RESULT_DONE 1).setF l F.UCB_TEST_RESULT_PASS 0 else s
  | none => s

/-- R49: unit `u` is retired by a reaction while a command runs on it, within it or above it. -/
def State.preempt (s : State) (u : Nat) : State :=
  s.each s.flt.runs fun s r =>
    if r.top = u ∨ isAncestor u r.top then ((s.testCut r).endParts r (runParts r) 9).finish { r with stack := [], leaf := none } r.top 9 0
    else
      let hit := (match r.leaf with | some l => l == u || isAncestor u l | none => false) || r.stack.any fun f => f.uid == u
      if hit then ((s.testCut r).endParts r ((runParts r).filter (isAncestor u)) 9).finish { r with leaf := none, stack := r.stack.dropWhile fun f => f.uid == u || isAncestor u f.uid } u 9 0 else s

/-- Every running command ends with a result: PREEMPTED at footing entry, POWERDOWN with the power (R49, R396). The spec does
not say what STATE a unit then reads whose RESET or TEST has been preempted by footing entry: it stays in Reset or Test until
a RETIRE or ISOLATE (DESIGN CHOICE, log entry 63). -/
def State.endRuns (s : State) (result : Nat) : State :=
  s.each s.flt.runs fun s r => ((s.testCut r).endParts r (runParts r) result).finish { r with stack := [], leaf := none } r.top result 0

/-- R369: a reaction retires a unit, with every descendant of a group. -/
def State.retireTree : Nat → State → Nat → State
  | 0, s, u => if s.ust u = 0 then s else s.retireUnit u
  | n + 1, s, u =>
    if !isGroup u then (if s.ust u = 0 then s else s.retireUnit u)
    else
      let s := s.each (s.liveKids u) fun s c => s.retireTree n c
      if kindOf u = some .cluster then
        let c := (u - 0x400) / 64
        (s.discardRouter c).setCluster c { (s.discardRouter c).cluster c with closed := true }
      else s

/-! ### Hand-back (R379) -/

/-- COURSE_HANDBACK: blocks whose earlier headers have all passed hand-off in the partner are released. -/
def State.courseHandback (s : State) (n : Nat) : State :=
  let x := s.course n
  let ahead (b : Nat) : Bool := (s.course (partner n)).hand.any fun h => !h.pkt.adm.host && h.pkt.adm.port / 8 == b
  let left := x.heldBlocks.filter ahead
  s.setCourse n { x with heldBlocks := left, heldAt := if left.isEmpty then none else x.heldAt }

/-- HANDBACK_TIMEOUT: tHAND passes; the held headers are released with EVT_HANDBACK_LATE for each block. -/
def State.handbackTimeout (s : State) (n : Nat) : State :=
  match (s.course n).heldAt with
  | none => s
  | some t =>
    let s := (s.reach (t + 600000)).courseHandback n
    let late := (s.course n).heldBlocks
    let s := s.setCourse n { s.course n with heldBlocks := [], heldAt := none }
    s.each late fun s b => s.event 0x89 0x301 (uCRS n) (b * 256 + n) 0

end Sys2Proof.Machine
end

