-- ==== Sys2Proof/Machine/Faults.lean ====
section
/-!
DEFINITION. The fault collector (R365–R373), spares and substitution (R374–R377), entry to and exit from footing mode
(R380, R383), what the device-wide resets take (R389–R392), the reactions to fault reports, crossing faults (R30, R31)
and the check units (R384–R386).
-/
namespace Sys2Proof.Machine

/-! ### Power state and footing mode -/

/-- R393, R394: a change of DEV_POWER_STATUS.STATE, with EVT_POWER_STATE. -/
def State.setPower (s : State) (st : Nat) : State :=
  let s := (s.setF uDEV F.DEV_POWER_STATUS_STATE st).setF uDEV F.DEV_POWER_STATUS_BUSY (if 3 ≤ st ∧ st ≤ 5 then 1 else 0)
  s.event 0xA4 0x403 uPLN st 0

/-- R380 step 2: what is in the ingress passes, in column 32, in the clusters and in recirculation is dropped. -/
def State.footDrops (s : State) : State :=
  let s := s.each (List.range 8) fun s n =>
    let x := s.course n
    let s := s.setCourse n { x with hand := [], recirc := [] }
    let s := s.each x.hand fun s h => s.dropIngress 0x62 (uRSV n) h.pkt
    s.each x.recirc fun s r => s.dropIngress 0x62 (uRSV n) r.pkt
  s.each (List.range 16) fun s c =>
    let x := s.cluster c
    let col := s.bas.router.get (fun _ => []) c
    let s := s.modBas fun b => { b with router := s.bas.router.put (fun _ => []) c [] }
    let s := s.each col fun s e => match s.inst e.inst with
      | some i => (s.readCopy e 32).dropCluster 0x62 c 0 i.pkt
      | none => s
    let s := s.setCluster c { x with queued := [], outst := [], waiting := [] }
    let s := s.each x.queued fun s j => s.dropCluster 0x62 c 0 j.pkt
    s.each x.outst fun s j => s.dropCluster 0x62 c j.seq j.job.pkt

/-- Channels of the DRAM reads under way: engine loads, fetches from deep-buffer blocks, entry pages. -/
def State.heldReads (s : State) : List (Option Nat) :=
  (s.eng.threads.flatMap fun t => (t.2.mem.filter fun m => m.chan.isSome && !m.bad).map (·.chan)) ++
  (s.bas.queues.flatMap fun q => (q.2.filter fun e => e.fetch.isSome && !e.back).map fun e => (s.inst e.inst).map (·.ch)) ++
  ((s.bas.queues.filter fun q => (s.pageAsked q.1).isSome).map fun q =>
    (s.headPage q.1).bind fun pg => (s.dramMap (s.pageAddr (q.1 / 65536) pg)).map (·.1))

/-- The ranks of every Active DMC enter self-refresh (R340, R380). -/
def State.dmcSleep (s : State) : State :=
  let ranks := ((List.range 12).filter fun ch => s.ust (uDMC ch) == 4).flatMap fun ch => [2 * ch, 2 * ch + 1]
  (s.modDram fun d => { d with selfRef := ranks }).modPwr fun p => { p with dmcDrainAt := none }

/-- R396: at the limit of a DMC's drain each read it still holds ends in the error of R331: a load faults, a fetch loses its
entry, a page loses its entries. -/
def State.forceReads (s : State) : State :=
  let n := s.heldReads.length
  if n = 0 then s
  else
    let s := s.each s.heldReads fun s c => s.dramOff c
    let s := s.each (List.range 12) fun s c => s.failLoads c
    let s := s.each s.bas.queues fun s q => s.each (q.2.filter fun e => e.fetch.isSome && !e.back) fun s e => s.basinDrop 0x47 q.1 e
    let s := s.each (s.bas.queues.filter fun q => (s.pageAsked q.1).isSome) fun s q => match s.headPage q.1 with
      | some pg => s.pageLose q.1 pg
      | none => s
    (s.addF uDEV F.DEV_DRAIN_FORCED_COUNT n).event 0xA5 0x403 uPLN 0 n

/-- R380: entry to footing mode from the Active power state (R393, DEDUCED, log entry 42). Causes: 1 severity 3, 2 warden
lost, 3 thermal, 4 command. -/
def State.footEnter (s : State) (cause : Nat) : State :=
  if s.footing ∨ s.getF uDEV F.DEV_POWER_STATUS_STATE ≠ 0 then s
  else
    let s := s.footDrops.tmFooting
    let s := (s.setF uFLT F.FOOT_STATUS_ACTIVE 1).setF uFLT F.FOOT_STATUS_CAUSE cause
    let s := (s.commitFail 0x4C).endRuns 9
    let s := if s.heldReads.isEmpty then s.dmcSleep else s.modPwr fun p => { p with dmcDrainAt := some s.ns }
    ((s.event 0x81 0x301 uFLT cause s.ns).setPower 1).footYield

/-- FOOT_CMD EXIT accepted (R383). -/
def State.footExit (s : State) : State := s.setF uFLT F.FOOT_STATUS_EXIT_PENDING 1

/-- FOOTING_UNGATE_DONE (R383): engines restart as ADMIT restarts them, DMCs leave self-refresh; those in `bad` fail the
verification of their training and are Retired. -/
def State.ungateDone (s : State) (bad : List Nat) : State :=
  if !s.bit uFLT F.FOOT_STATUS_EXIT_PENDING ∨ s.flt.ready then s
  else
    let engines := (List.range 16).flatMap fun c => (List.range 17).map fun e => uENG c e
    let s := s.each engines fun s u => if s.up u then s.masterStart (engNo u) else s
    let s := (s.modDram fun d => { d with selfRef := [] }).modPwr fun p => { p with dmcDrainAt := none }
    let s := s.each bad fun s d => if d < 12 ∧ s.ust (uDMC d) = 4 then s.retireUnit (uDMC d) else s
    s.modFlt fun f => { f with ready := true }

/-- R383, R412: the first boundary after the units are ready ends footing mode; a drain toward Banked or Plinth-only that has
begun since goes on (Table 3 of chapter 18). -/
def State.footSwitch (s : State) : State :=
  if s.bit uFLT F.FOOT_STATUS_EXIT_PENDING ∧ s.flt.ready then
    let s := (s.setF uFLT F.FOOT_STATUS_ACTIVE 0).setF uFLT F.FOOT_STATUS_EXIT_PENDING 0
    let s := s.modFlt fun f => { f with ready := false }
    let s := s.event 0x82 0x301 uFLT 0 s.ns
    if s.getF uDEV F.DEV_POWER_STATUS_STATE = 1 then s.setPower 0 else s
  else s

/-! ### Device-wide resets (R389–R392) -/

/-- What a device soft reset keeps beside the register classes (Table 2): straps as sampled, the PCI Express link and
configuration space, of which the registers show the link and each VF Enable (`Hif.pci` holds the rest). -/
def State.keepLink (s old : State) (cls : Nat) : State :=
  let s := (s.setF uHIF F.HIF_LINK_SPLIT (old.getF uHIF F.HIF_LINK_SPLIT)).setF uTWN F.TWN_STATUS_TWIN_ID
    (old.getF uTWN F.TWN_STATUS_TWIN_ID)
  if cls = 4 then
    let s := s.each [F.HIF_LINK_WIDTH1, F.HIF_LINK_GEN1, F.HIF_LINK_WIDTH0, F.HIF_LINK_GEN0] fun s f => s.setF uHIF f (old.getF uHIF f)
    s.each masters fun s m => if isPF m then s else s.setFS uHIF m F.HIF_FN_STATUS_VF_EN (old.getFS uHIF m F.HIF_FN_STATUS_VF_EN)
  else s

/-- The bits of `new` that a cut has blown beside those of `old`: which is a free value. -/
def State.partBlown (s : State) (old new : Nat) : Nat × State :=
  let (d, s) := s.draw
  (old ||| (new &&& d), s)

/-- R417: power is lost, or the warden reset, while fuses are blown: each bit is blown or not. The key comes first and its slot
counts as present only once it is whole, so that the same image finishes the update (DEDUCED, log entry 104). -/
def State.fuseCut (s : State) : State :=
  match s.sec.fusing with
  | none => s
  | some f =>
    let s := match f.enrol with
      | some (k, key) =>
        let (v, s) := s.partBlown (leNat (s.sec.opPub.get (fun _ => []) k)) (leNat key)
        s.modSec fun c => { c with opPub := s.sec.opPub.put (fun _ => []) k (leBytes v 96) }
      | none => s
    let (r, s) := s.partBlown (s.getF uWDN F.SEC_KEYS_REVOKED) f.revoke
    let (o, s) := s.partBlown (s.getF uWDN F.SEC_KEYS_OP_REVOKED) f.opRevoke
    let (d, s) := s.draw
    let n := s.getF uWDN F.SEC_ARB_COUNT
    let s := ((s.setF uWDN F.SEC_KEYS_REVOKED r).setF uWDN F.SEC_KEYS_OP_REVOKED o).setF uWDN F.SEC_ARB_COUNT (n + d % (f.count - n + 1))
    s.modSec fun c => { c with fusing := none }

/-- R429: a reset closes an open session; its EVT_SECURE_CLOSE waits for the reset's end. -/
def State.closeRecord (s : State) : List Byte :=
  if s.bit uBAR4 F.MB_AUTH_STATUS_OPEN then s.eventRec 0xC5 0x410 uWDN (s.getF uBAR4 F.MB_AUTH_CTL_OP_SLOT) 0 else s.sec.closed

/-- What a reset of class P (1), C (2) or D (4) takes of the state. Fuses, flash, plinth time, wear, history and straps
stand as Table 2 gives. -/
def State.wipe (s : State) (cls : Nat) : State :=
  let s := s.fuseCut.driveHold false
  let note := s.closeRecord
  let s := (s.revertRegs cls fun _ => true).keepLink s cls
  let p := s.pwr
  { s with
    clk := if cls = 1 then {} else s.clk
    ctrs := [], latch := if cls = 1 then [] else s.latch.keep fun k => keyUid k == uPLN, claims := []
    hif := if cls = 4 then { pci := s.hif.pci } else {}
    flt := { hist := if cls = 1 then [] else s.flt.hist, repairs := if cls = 4 then s.flt.repairs else [] }
    pwr := { ({} : Pwr) with
      mode := p.mode, resetAt := if cls = 1 then 0 else s.ns, resetBy := p.resetBy
      supplyWarn := p.supplyWarn, railTries := p.railTries, coreEn := p.coreEn, coreOffAt := p.coreOffAt
      outUntil := p.outUntil, smbAddr := p.smbAddr, smbSel := p.smbSel, alertOn := p.alertOn, alertAns := p.alertAns
      tapIr := p.tapIr, tapCells := p.tapCells, lowRails := p.lowRails, enAt := p.enAt, coreClkLost := p.coreClkLost
      coreLow := p.coreLow, coreOkAt := p.coreOkAt, hot120 := p.hot120, hot125 := p.hot125 }
    ports := [], rx := [], courses := [], tbl := [], meters := [], gen := {}, bas := {}, eng := {}, punts := []
    reports := [], tal := {}, dram := {}, fab := { ({} : Fab) with modeSet := s.fab.modeSet && cls == 4 }, twin := {}
    sec := { ({} : Sec) with
      vendorPub := s.sec.vendorPub, opPub := s.sec.opPub, slotImg := s.sec.slotImg, bootCfg := s.sec.bootCfg
      bootPtr := s.sec.bootPtr, signs := s.sec.signs, closed := note } }

/-- Set bits of PLN_RESET_CAUSE. -/
def State.cause (s : State) (bits : Nat) : State :=
  s.setF uPLN F.PLN_RESET_CAUSE_CAUSE (s.getF uPLN F.PLN_RESET_CAUSE_CAUSE ||| bits)

/-- A chip-class reset starts and is held; `bits` are its cause bits (R389, R390). -/
def State.chipReset (s : State) (bits : Nat) : State :=
  let by_ := if s.pwr.mode = 1 then s.pwr.resetBy ||| bits else bits
  let s := (s.wipe 2).cause bits
  s.modPwr fun p => { p with mode := 1, resetBy := by_ }

/-- R391: a device soft reset starts, unless a chip-class reset is held (R390). -/
def State.softReset (s : State) (bits : Nat) : State :=
  if s.pwr.mode = 1 ∨ s.pwr.mode = 3 then s
  else
    let s := (s.wipe 4).cause bits
    s.modPwr fun p => { p with mode := 2, resetBy := bits }

/-! ### Spares and substitution (R374–R376) -/

/-- EVT_SPARE_NONE. -/
def State.spareNone (s : State) (u : Nat) : State := s.event 0x84 0x301 u u 0

/-- R374: after engine `u` has been retired by a reaction. -/
def State.spareEngine (s : State) (u : Nat) : State :=
  let sp := u - u % 64 + 0x20
  if u = sp then s
  else
    let crc (x : Nat) : Nat := s.getF x F.ENG_UCODE_CRC_LO_CRC + s.getF x F.ENG_UCODE_CRC_HI_CRC * 2 ^ 32
    if s.bit uFLT F.FLT_CFG_AUTO_ENGINE ∧ s.ust sp = 3 ∧ s.bit sp F.UCB_TEST_RESULT_PASS ∧ crc sp = crc u then s.unitCmd sp 3 0
    else s.spareNone u

/-- R375, R376: the bank of a group that is Ready with PASS = 1 and out of service. -/
def State.spareBank (s : State) (u : Nat) : Option Nat :=
  (children (parentOf u)).find? fun b =>
    s.ust b == 3 && s.bit b F.UCB_TEST_RESULT_PASS && b != u && !(s.flt.subst.any fun x => x.2 == b)

/-- R375: a substitution starts, if the bank's group has a spare; answers the ACTION. -/
def State.substStart (s : State) (u : Nat) : Nat × State :=
  let auto := if kindOf u = some .camBank then F.FLT_CFG_AUTO_CAM else F.FLT_CFG_AUTO_TABLE
  if s.flt.subst.any fun x => x.1 == u then (6, s)
  else match s.spareBank u with
    | some sp =>
      if s.bit uFLT auto then (3, (s.modFlt fun f => { f with subst := s.flt.subst ++ [(u, sp)] }))
      else (1, s.spareNone u)
    | none => (1, s.spareNone u)

/-- SUBSTITUTION_END: the copy of bank `u` ends and the spare takes the bank's place; `bad`: the words uncorrectable at their
source, each table · 2^32 + address (log entry 78), which stand as uncorrectable in the spare (step 3), as do those that stood
so in the bank. A CAM copy pauses in footing mode. -/
def State.substEnd (s : State) (u : Nat) (bad : List Nat) : State :=
  match s.flt.subst.find? fun x => x.1 == u with
  | none => s
  | some (_, sp) =>
    let cam := kindOf u == some .camBank
    if cam ∧ s.footing then s
    else
      let s := s.modFlt fun f => { f with subst := s.flt.subst.filter fun x => x.1 ≠ u }
      let left := (s.flt.badWords.filter fun w => w.1 == u).map (·.2)
      let bad := bad.map (fun a => (a / 2 ^ 32, a % 2 ^ 32)) ++ left
      let s := s.each bad fun s w => s.event 0x85 0x301 u u w.2
      let s := s.modFlt fun f => { f with
        badWords := s.flt.badWords.filter (fun w => w.1 ≠ u && w.1 ≠ sp) ++ bad.map fun w => (sp, w.1, w.2) }
      let pos := (s.servesAs u).getD u
      let sw := (s.flt.swapped.filter fun w => w.1 ≠ pos) ++ (if pos = sp then [] else [(pos, sp)])
      let s := s.modFlt fun f => { f with
        swapped := sw, blank := (s.flt.blank.filter fun (b : Nat × Nat) => b.1 ≠ sp).map fun (b : Nat × Nat) => if b.1 = u then (sp, b.2) else b }
      let s := if cam then
          let k (x : Nat) : Nat := regKey x 0 F.CAM_BANK_CFG_EN.off
          let s := s.modFlt fun f => { f with
            poison := s.flt.poison.map fun (p : Nat × Nat × Nat) => if p.1 = u then (sp, p.2) else p
            rowKeys := s.flt.rowKeys.keep fun k => k / 4096 ≠ u && k / 4096 ≠ sp }
          let s := s.setF sp F.CAM_BANK_POISONED_COUNT (s.getF u F.CAM_BANK_POISONED_COUNT)
          (s.wr (k sp) (s.rd (k u))).wr (k u) (regDflt (k u))
        else s
      (((s.setUst sp 4).retireUnit u).preempt u).event 0x83 0x301 sp u 0

/-! ### Reactions (R368–R373) -/

/-- R372: a history record, or its count while the queue is frozen; a severity 3 or 4 freezes it. -/
def State.addHist (s : State) (r : Report) (sev action : Nat) : State :=
  if s.bit uFLT F.FLT_HIST_STATUS_FROZEN then s.addF uFLT F.FLT_HIST_LOST_COUNT 1
  else
    let h := s.flt.hist ++ [⟨s.ns, r.uid, r.src, sev, action, r.detail⟩]
    let s := s.modFlt fun f => { f with hist := h.drop (h.length - 32) }
    if 3 ≤ sev then (s.setF uFLT F.FLT_HIST_STATUS_FROZEN 1).event 0x88 0x300 uFLT 0 0 else s

/-- EVT_FAULT (Table 9). -/
def State.evtFault (s : State) (r : Report) (sev action : Nat) : State :=
  s.event 0x80 0x300 r.uid (action * 2 ^ 8 + r.src * 2 ^ 4 + sev) r.detail

/-- The unit whose tree a Degrading reaction retires (Table 4). -/
def retireTarget (u : Nat) : Nat :=
  match kindOf u with
  | some .adm | some .siv | some .lkp | some .rsv | some .egr => u - u % 8
  | some .csh => u - u % 64
  | _ => u

/-- The unit is out of service, or a substitution is already retiring it: its reports are recorded with ACTION 6, and its
severity-2 reaction is not made (R371). -/
def State.outOf (s : State) (u : Nat) : Bool :=
  let st := s.stateView treeDepth u
  st == 0 || st == 6 || s.bit u F.UCB_STATE_ISOLATED || s.flt.subst.any fun x => x.1 == u

/-- R369: the Degrading action; answers the ACTION. -/
def State.degrade (s : State) (u : Nat) : Nat × State :=
  if s.outOf u then (6, s)
  else match kindOf u with
    | some .tableBank | some .camBank => s.substStart u
    | some .engine => (2, ((s.retireUnit u).preempt u).spareEngine u)
    | _ =>
      let t := retireTarget u
      (2, (s.retireTree treeDepth t).preempt t)

/-- Whether a severity-4 reaction has begun: it supersedes those after it. -/
def State.resetBegun (s : State) : Bool := s.pwr.mode != 0

/-- FLT's reaction to one report (R368–R373). -/
def State.reactOne (s : State) (r : Report) : State :=
  let sev := s.sevOf r.uid r.src
  let as_ (a : Nat) : Nat := if s.outOf r.uid then 6 else a
  if s.resetBegun then s
  else match sev with
    | 0 => s.addHist r 0 (as_ 0)
    | 1 => (s.addHist r 1 (as_ 1)).evtFault r 1 (as_ 1)
    | 2 =>
      let a := s.degrade r.uid
      (a.2.addHist r 2 a.1).evtFault r 2 a.1
    | 3 =>
      if s.footing then (s.addHist r 3 6).evtFault r 3 6
      else
        let cause := if r.uid = uPLN ∧ r.src = 0 then 2 else if r.uid = uPLN ∧ r.src = 1 then 3 else 1
        (((s.addHist r 3 (as_ 4)).setF uFLT F.FLT_STATUS_FATAL_SEEN 1).evtFault r 3 (as_ 4)).footEnter cause
    | _ =>
      let s := (s.addHist r sev (as_ 5)).setF uFLT F.FLT_STATUS_FATAL_SEEN 1
      if r.uid = uPLN ∧ (r.src = 2 ∨ r.src = 4) then s else s.softReset 0x40

/-- R371: reports of one command in ascending UID, then source. -/
def reportBefore (a b : Report) : Bool := decide (a.uid < b.uid) || (a.uid == b.uid && decide (a.src ≤ b.src))

/-- Insert a report in order. -/
def insertReport (r : Report) : List Report → List Report
  | [] => [r]
  | x :: l => if reportBefore r x then r :: x :: l else x :: insertReport r l

/-- FLT reacts to the reports a command has made. -/
def State.react (s : State) : State :=
  if s.reports.isEmpty then s
  else
    let l := s.reports.foldr insertReport []
    ({ s with reports := [] }).each l fun s r => s.reactOne r

/-- FAULT_REPORT: a fault source of a unit with fault lines reports (R365, R368). -/
def State.faultReport (s : State) (u src detail : Nat) : State :=
  if (kindOf u).any (fun k => (srcDefault k (src % 16)).isSome) then s.report u (src % 16) detail else s

/-- RAIL_MISMATCH (R365). -/
def State.railMismatch (s : State) (u : Nat) : State := s.report u 15 0

/-- R373: FAULT_N is low. -/
def State.faultPin (s : State) : Bool :=
  s.bit uFLT F.FLT_STATUS_FATAL_SEEN ||
  s.regs.any fun e =>
    keyOff e.1 == 0x18 && e.1 < 2 ^ 26 &&
    (let u := keyUid e.1
     (List.range 16).any fun i => bitsOf e.2.toNat i 1 == 1 && bitsOf (s.getF u F.UCB_FAULT_MASK_MASK) i 1 == 0 &&
       decide (s.getF uFLT F.FLT_CFG_PIN_LEVEL ≤ s.sevOf u i))

/-- HIST_UNFREEZE, a write of 1 to FROZEN: it clears FROZEN and empties the queue (R372). -/
def State.histUnfreeze (s : State) : State :=
  (s.modFlt fun f => { f with hist := [] }).setF uFLT F.FLT_HIST_STATUS_FROZEN 0

/-! ### Crossings (R30–R32) -/

/-- The first `n` elements of a list that satisfy `p`, and the others. -/
def takeWhere {α : Type} (p : α → Bool) : Nat → List α → List α × List α
  | 0, l => ([], l)
  | _ + 1, [] => ([], [])
  | n + 1, x :: r =>
    if p x then (x :: (takeWhere p n r).1, (takeWhere p n r).2)
    else ((takeWhere p (n + 1) r).1, x :: (takeWhere p (n + 1) r).2)

/-- Copies read out of the basin into column `col` are discarded in a crossing of unit `u`. -/
def State.crossCopies (s : State) (u col : Nat) (es : List QEnt) : List DropInfo × State :=
  let gone := es.filterMap fun e => (s.inst e.inst).map (·.pkt)
  let s := s.each es fun s e => s.readCopy e col
  (gone.map (·.info u), s.each gone fun s p => (s.leaveFlight p).mcDone p false)

/-- The first `n` packets of the crossing from unit `u` into unit `rx`, taken off: from a MAC, its block's receive buffer;
from RSV, the headers that wait for hand-off; from BSN toward a cluster, column 32 of its router, toward an EGR, the copies
dequeued for its course's egress pass, toward FAB, those of the fabric ports; from EGR, the frames a MAC holds and has not
started; from a cluster toward an ADM, that course's recirculations, else its punts to host rings; from HIF, the frames the
host injects into an ADM. FAB hands its packets over at once and holds none. -/
def State.crossingPkts (s : State) (u rx n : Nat) : List DropInfo × State :=
  match kindOf u with
  | some .mac =>
    let b := (u - 0x200) / 16
    let l := s.rxBlock b
    ((l.take n).map fun f => { uid := u, inPort := some f.port, len := f.frame.length }, s.setRx b (l.drop n))
  | some .rsv =>
    let c := (u - 0x50) / 8
    let x := s.course c
    let gone := (x.hand.take n).map (·.pkt)
    let s := s.setCourse c { x with hand := x.hand.drop n }
    (gone.map (·.info u), s.each gone fun s p => s.leaveFlight p)
  | some .bsn =>
    (match kindOf rx with
     | some .cluster | some .csh | some .engine =>
       let c := (rx - 0x400) / 64
       let l := s.bas.router.get (fun _ => []) c
       (s.modBas fun b => { b with router := s.bas.router.put (fun _ => []) c (l.drop n) }).crossCopies u 32 (l.take n)
     | some .egr =>
       let w := takeWhere (fun (x : EgItem) => !s.isFabricPort x.port && s.serving (x.port / 32) == some ((rx - 0x50) / 8)) n s.bas.egress
       let s := s.modBas fun b => { b with egress := w.2 }
       w.1.foldl (fun (a : List DropInfo × State) x =>
         let r := a.2.crossCopies u x.col [x.ent]
         (a.1 ++ r.1, r.2)) ([], s)
     | some .fab =>
       let w := takeWhere (fun (x : EgItem) => s.isFabricPort x.port) n s.bas.egress
       let s := s.modBas fun b => { b with egress := w.2 }
       w.1.foldl (fun (a : List DropInfo × State) x =>
         let r := a.2.crossCopies u x.col [x.ent]
         (a.1 ++ r.1, r.2)) ([], s)
     | _ => ([], s))
  | some .egr =>
    let w := takeWhere (fun (x : TxItem) => x.port / 8 == (rx - 0x200) / 16 && !x.started) n s.bas.sending
    let s := s.setSending w.2
    (w.1.map fun x => { x.pkt.info u with egPort := some x.port, queue := some x.queue, len := x.data.length },
      s.each w.1 fun s x => s.mcDone x.pkt false)
  | some .cluster | some .csh | some .engine =>
    if kindOf rx = some .adm then
      let c := (rx - 0x50) / 8
      let x := s.course c
      let w := takeWhere (fun (r : Recirc) => r.cluster == (u - 0x400) / 64) n x.recirc
      let gone := w.1.map (·.pkt)
      let s := s.setCourse c { x with recirc := w.2 }
      (gone.map (·.info u), s.each gone fun s p => s.leaveFlight p)
    else
      let w := takeWhere (fun (x : PuntPkt) => x.cluster == some ((u - 0x400) / 64)) n s.punts
      (w.1.map fun x => x.pkt.info u, (s.setPunts w.2).each w.1 fun s x => (s.leaveFlight x.pkt).mcDone x.pkt false)
  | some .hif =>
    if kindOf rx = some .adm then
      let c := (rx - 0x50) / 8
      let x := s.course c
      ((x.inject.take n).map fun f => { uid := u, inPort := some (256 + c), len := f.frame.length },
        (s.setCourse c { x with inject := x.inject.drop n }).each (x.inject.take n) fun s f => s.injectLost f 5)
    else ([], s)
  | _ => ([], s)

/-- CROSSING_TIMEOUT: crossing `x` from unit `from_` into unit `u` has been without progress for tXTO with `n` entries in
it. A closed crossing has no timer (R32). -/
def State.crossingTimeout (s : State) (u from_ x n : Nat) : State :=
  if s.closed u then s
  else
    let (gone, s) := s.crossingPkts from_ u n
    let s := s.each gone fun s i => s.drop 0x61 747 { i with detail := x % 65536 }
    let s := s.modFlt fun f => { f with
      crossed := s.flt.crossed.put (fun _ => 0) from_ (s.flt.crossed.get (fun _ => 0) from_ + (n - gone.length)) }
    s.report u 14 x

/-! ### Check units (R384, R385) -/

def State.cu (s : State) (u : Nat) : CuRun := s.flt.cus.get (fun _ => {}) u
def State.setCu (s : State) (u : Nat) (x : CuRun) : State :=
  s.modFlt fun f => { f with cus := s.flt.cus.put (fun _ => {}) u x }

/-- A check unit runs in a mode: Active, EN, powered and not in footing (movers, not check units, are gated there). -/
def State.cuRuns (s : State) (u mode : Nat) : Bool :=
  s.up (uCU u) && s.bit (uCU u) F.CU_CFG_EN && s.getF (uCU u) F.CU_CFG_MODE == mode

/-- The end of a scan: CU_RESULT, DONE, the comparison. -/
def State.scanEnd (s : State) (u : Nat) (error : Bool) : State :=
  let w := uCU u
  let c := if s.bit w F.CU_CFG_ALG then (s.cu u).crc else (s.cu u).crc ^^^ 0xFFFFFFFF
  let same := c == s.getF w F.CU_EXPECT_LO + s.getF w F.CU_EXPECT_HI * 2 ^ 32
  let s := (s.setF w F.CU_RESULT_LO c).setF w F.CU_RESULT_HI (c / 2 ^ 32)
  let s := ((s.setF w F.CU_STATUS_BUSY 0).setF w F.CU_STATUS_DONE 1).setF w F.CU_STATUS_MATCH (if same ∧ !error then 1 else 0)
  let s := s.setF w F.CU_STATUS_ERROR (if error then 1 else 0)
  if error ∨ !same then
    (((s.addF w F.CU_MISMATCH 1).report w 0 0).event 0x86 (0x340 + u) w (if error then 1 else 0) c)
  else s

/-- R384, R412: scans that start at a boundary. -/
def State.cuStart (s : State) (u : Nat) : State :=
  let w := uCU u
  let x := s.cu u
  let p := s.getF w F.CU_CFG_PERIODS
  if s.cuRuns u 0 ∧ !s.bit w F.CU_STATUS_BUSY ∧ (!x.started ∨ (p ≠ 0 ∧ x.startWp + p ≤ s.clk.wpNum)) then
    let crc := if s.bit w F.CU_CFG_ALG then 0 else 0xFFFFFFFF
    let s := s.setCu u { x with started := true, startWp := s.clk.wpNum, pos := 0, crc := crc }
    let s := (s.setF w F.CU_STATUS_BUSY 1).setF w F.CU_STATUS_DONE 0
    if s.getF w F.CU_LEN_WORDS = 0 then s.scanEnd u false else s
  else s

/-- Continue a scan's CRC over bytes. -/
def scanCrc (alg : Bool) (c : Nat) (bs : List Byte) : Nat :=
  if alg then (crc64 (BitVec.ofNat 64 c) bs).toNat else (bs.foldl crc32Byte (BitVec.ofNat 32 c)).toNat

/-- CHECK_UNIT_SCAN: one slice. `data`, `ok`: the bytes of host memory and whether their read succeeds; `finished`: the
slice ends within its period. -/
def State.cuScan (s : State) (u : Nat) (data : List Byte) (ok finished : Bool) : State :=
  let w := uCU u
  let x := s.cu u
  if !s.cuRuns u 0 ∨ !s.bit w F.CU_STATUS_BUSY ∨ x.slicedAt = s.clk.wpNum + 1 then s
  else
    let s := s.setCu u { x with slicedAt := s.clk.wpNum + 1 }
    if !finished then s.addF w F.CU_ABANDON 1
    else
      let n := min (8192 * 2 ^ s.getF w F.CU_CFG_SLICE_LOG2) (s.getF w F.CU_LEN_WORDS - x.pos)
      let a := s.getF w F.CU_ADDR_LO_ADDR * 8 + s.getF w F.CU_ADDR_HI_ADDR * 2 ^ 32 + 8 * x.pos
      let (bs, s) : Option (List Byte) × State :=
        if s.bit w F.CU_CFG_SPACE then (if ok then some (sliceBytes data 0 (8 * n)) else none, s.hostRead 1 a (8 * n))
        else s.dramRead (9 * 4096 + u) a (8 * n) (if ok then 0 else 2)
      match bs with
      | none => s.scanEnd u true
      | some bs =>
        let s := s.setCu u { s.cu u with pos := x.pos + n, crc := scanCrc (s.bit w F.CU_CFG_ALG) x.crc bs }
        if s.getF w F.CU_LEN_WORDS ≤ x.pos + n then s.scanEnd u false else s

/-- EVT_ALIVE with source 1 (R385). -/
def State.evtAlive (s : State) (u kind n : Nat) : State :=
  (s.report (uCU u) 1 0).event 0x87 (0x340 + u) (uCU u) (kind * 2 ^ 16 + s.getF (uCU u) F.CU_ALIVE_LAST_COUNT) n

/-- R385: a message of a stream with alive count `n`, in every check unit that watches it. -/
def State.aliveMessage (s : State) (stream n : Nat) : State :=
  s.each ((List.range 64).filter fun u => s.cuRuns u 1 && s.getF (uCU u) F.CU_ALIVE_CFG_STREAM == stream) fun s u =>
    let w := uCU u
    let g := (n + 65536 - s.getF w F.CU_ALIVE_LAST_COUNT) % 65536
    let x := s.cu u
    let s := s.setCu u { x with seen := true, msgAt := s.ns }
    let s := if !x.seen ∨ g = 1 then s
      else if g = 0 then (s.addF w F.CU_ALIVE_REPEAT 1).evtAlive u 0 n
      else (s.addF w F.CU_ALIVE_MISSING (g - 1)).evtAlive u 1 n
    s.setF w F.CU_ALIVE_LAST_COUNT n

/-- ALIVE_TIMEOUT: TIMEOUT_US pass without a message. -/
def State.aliveTimeout (s : State) (u : Nat) : State :=
  if s.cuRuns u 1 then
    let x := s.cu u
    let s := s.reach (x.msgAt + s.getF (uCU u) F.CU_ALIVE_CFG_TIMEOUT_US * 1000)
    ((s.setCu u { x with msgAt := s.ns }).addF (uCU u) F.CU_ALIVE_STALE 1).evtAlive u 2 0
  else s

end Sys2Proof.Machine
end

