-- ==== Sys2Proof/Machine/Mailbox.lean ====
section
/-!
DEFINITION. The mailboxes of BAR4, the word protocol with its services, the measurement report and the secure session
(R422, R424–R429 of spec/19_security_and_mailboxes.md).
-/
namespace Sys2Proof.Machine

/-- The warden runs: not switching, not in recovery, no reset held (R427). -/
def State.wardenUp (s : State) : Bool := s.running && s.sec.switching.isNone && !(s.bit uWDN F.WDN_FW_STATUS_RECOVERY)

/-- An event of source 0x410 (Table 9). -/
def State.secEvent (s : State) (code arg0 arg1 : Nat) : State := s.event code 0x410 uWDN arg0 arg1

/-- A flag of channel `k`. -/
def State.mbFlag (s : State) (k : Nat) (f : Fld) : Bool := s.bit uBAR4 (f.i k)

/-- PF0 has the secure session open, so it is a secure master (R9, R429). -/
def State.secureOpen (s : State) : Bool := s.bit uBAR4 F.MB_AUTH_STATUS_OPEN

/-- Note the time at which both FULL flags of a channel came to be 1; CROSSED clears when either is 0 (R426). -/
def State.mbBoth (s : State) (k : Nat) : State :=
  let set (s : State) (t : Nat) : State := s.modSec fun c => { c with bothAt := s.sec.bothAt.put (fun _ => 0) k t }
  if s.mbFlag k F.MB_STATUS_OUT_FULL ∧ s.mbFlag k F.MB_STATUS_IN_FULL then
    (if s.sec.bothAt.get (fun _ => 0) k = 0 then set s (s.ns + 1) else s)
  else (set s 0).setF uBAR4 (F.MB_STATUS_CROSSED.i k) 0

/-- A discarded write (R424); `dir` 1 inbound. -/
def State.mbOverrun (s : State) (k dir : Nat) : State :=
  (s.addF uBAR4 (F.MB_DROPPED_COUNT.i k) 1).secEvent 0xC1 (dir * 32 + k) 0

/-- R424: the host writes an outbound word. -/
def State.mbOutWrite (s : State) (k v : Nat) : State :=
  if s.mbFlag k F.MB_STATUS_OUT_FULL then s.mbOverrun k 0
  else ((s.setF uBAR4 (F.MB_OUT_DATA.i k) v).setF uBAR4 (F.MB_STATUS_OUT_FULL.i k) 1).mbBoth k

/-- R424: the host acknowledges an inbound word. -/
def State.mbInAck (s : State) (k : Nat) : State := (s.setF uBAR4 (F.MB_STATUS_IN_FULL.i k) 0).mbBoth k

/-- A word the warden writes; a header is followed by the check unit of the channel's stream (R385, R428). -/
def State.mbIn (s : State) (k w : Nat) : State :=
  if s.mbFlag k F.MB_STATUS_IN_FULL then s.mbOverrun k 1
  else
    let left := s.sec.inLeft.get (fun _ => 0) k
    let s := ((s.setF uBAR4 (F.MB_IN_DATA.i k) w).setF uBAR4 (F.MB_STATUS_IN_FULL.i k) 1).mbBoth k
    let s := s.when (s.mbFlag k F.MB_CFG_NOTIFY) fun s => s.secEvent 0xC2 k 0
    let put (s : State) (n : Nat) : State := s.modSec fun c => { c with inLeft := s.sec.inLeft.put (fun _ => 0) k n }
    if left = 0 then (put s (w % 256)).aliveMessage (0x10 + k) (bitsOf w 16 16) else put s (left - 1)

/-- Reply words of a channel that wait. -/
def State.replies (s : State) (k : Nat) : List Nat := s.sec.replyQ.get (fun _ => []) k
def State.setReplies (s : State) (k : Nat) (l : List Nat) : State :=
  s.modSec fun c => { c with replyQ := s.sec.replyQ.put (fun _ => []) k l }

/-- MB_IN_WRITE: the warden writes a word of its own, or the next word of its reply, which waits for the flag. -/
def State.mbInWrite (s : State) (k : Nat) (own : Option Nat) : State :=
  if !s.wardenUp ∨ 32 ≤ k then s
  else match own with
    | some w => s.mbIn k (w % 2 ^ 32)
    | none =>
      match s.replies k with
      | [] => s
      | w :: rest => if s.mbFlag k F.MB_STATUS_IN_FULL then s else (s.setReplies k rest).mbIn k w

/-- Queue a message of the warden on a channel: header, then its data words (R428). -/
def State.reply (s : State) (k op : Nat) (ws : List Nat) : State :=
  let a := s.sec.aliveIn.get (fun _ => 0) k
  let s := s.modSec fun c => { c with aliveIn := s.sec.aliveIn.put (fun _ => 0) k ((a + 1) % 65536) }
  s.setReplies k (s.replies k ++ (a * 65536 + (op ||| 0x80) % 256 * 256 + ws.length) :: ws)

def State.mbReq (s : State) (k : Nat) : Option MbReq := s.sec.req.get (fun _ => none) k
def State.setReq (s : State) (k : Nat) (x : Option MbReq) : State :=
  s.modSec fun c => { c with req := s.sec.req.put (fun _ => none) k x }

/-- A request read whole. -/
def MbReq.whole (x : MbReq) : Bool := x.len ≤ x.words.length

/-- R428: the host's ALIVE on a channel. -/
def State.hostAlive (s : State) (k n : Nat) : State :=
  let was := s.sec.hostAlive.get (fun _ => 0) k
  let s := s.modSec fun c => { c with hostAlive := s.sec.hostAlive.put (fun _ => 0) k (n + 1) }
  if was = 0 ∨ n = was % 65536 then s
  else s.secEvent 0xC3 ((if n + 1 = was then 0 else 1) * 65536 + k) n

/-- Services of Table 6 as (OPCODE, request LEN). -/
def serviceLen (op : Nat) : Option Nat := if op = 0x01 ∨ op = 0x02 then some 0 else if op = 0x10 then some 8 else none

/-- A whole request no service takes is answered at once: UNKNOWN, or BAD_LEN. -/
def State.mbAnswer (s : State) (k : Nat) : State :=
  match s.mbReq k with
  | none => s
  | some x =>
    if !x.whole then s
    else match serviceLen x.op with
      | none => (s.setReq k none).reply k x.op [3]
      | some n => if x.len = n then s else (s.setReq k none).reply k x.op [2]

/-- MB_OUT_ACK: the warden reads an outbound word. It reads no further while a request waits to be served or its reply
waits for the host, save where the channel is crossed and it yields (R426). -/
def State.mbOutAck (s : State) (k : Nat) : State :=
  if !s.wardenUp ∨ 32 ≤ k ∨ !s.mbFlag k F.MB_STATUS_OUT_FULL then s
  else if ((s.mbReq k).map MbReq.whole).getD false ∨ (!(s.replies k).isEmpty ∧ !s.mbFlag k F.MB_STATUS_CROSSED) then s
  else
    let w := s.getF uBAR4 (F.MB_OUT_DATA.i k)
    let s := (s.setF uBAR4 (F.MB_STATUS_OUT_FULL.i k) 0).mbBoth k
    match s.mbReq k with
    | none => ((s.hostAlive k (bitsOf w 16 16)).setReq k (some ⟨bitsOf w 8 8, w % 256, []⟩)).mbAnswer k
    | some x => (s.setReq k (some { x with words := x.words ++ [w] })).mbAnswer k

/-- An event of Table 9 that the warden is told of too (R426). -/
def State.secEventBoth (s : State) (code arg0 arg1 : Nat) : State :=
  (s.secEvent code arg0 arg1).send (.warden (s.eventRec code 0x410 uWDN arg0 arg1))

/-- MB_CROSS_TIMEOUT (R426); the timer stands while the warden switches (R421). -/
def State.mbCross (s : State) (k : Nat) : State :=
  let t := s.sec.bothAt.get (fun _ => 0) k
  if 32 ≤ k ∨ t = 0 ∨ s.sec.switching.isSome ∨ s.mbFlag k F.MB_STATUS_CROSSED then s
  else
    ((s.reach (t - 1 + s.getF uBAR4 F.MB_CROSS_TIME_US * 1000)).setF uBAR4 (F.MB_STATUS_CROSSED.i k) 1).secEventBoth 0xC0 k 0

/-- A service answers its request on a channel (R428). -/
def State.serve (s : State) (k op : Nat) (words : State → MbReq → List Nat) (after : State → State) : State :=
  match s.mbReq k with
  | none => s
  | some x =>
    if !s.wardenUp ∨ x.op ≠ op ∨ !x.whole then s
    else (after s).setReq k none |>.reply k op (words s x)

/-- PING. -/
def State.ping (s : State) (k : Nat) : State := s.serve k 0x01 (fun _ _ => [0]) id

/-- STATUS. -/
def State.fwStatus (s : State) (k : Nat) : State :=
  s.serve k 0x02 (fun s _ => [0, s.getF uWDN F.WDN_FW_STATUS_RECOVERY * 2 + s.getF uWDN F.WDN_FW_STATUS_SLOT, s.getF uWDN F.SEC_ARB_COUNT]) id

/-! ### Measurement (R422) -/

def State.measure (s : State) (i : Nat) : List Byte := s.sec.meas.get (fun _ => List.replicate 48 0) i
def State.setMeasure (s : State) (i : Nat) (d : List Byte) : State :=
  s.modSec fun c => { c with meas := s.sec.meas.put (fun _ => List.replicate 48 0) i (sliceBytes d 0 48) }

/-- Extend MEAS`i` with a digest. -/
def State.extend (s : State) (i : Nat) (d : List Byte) : State := s.setMeasure i (sha384 (s.measure i ++ d))

/-- The device's DEVICE_ID. -/
def State.deviceId (s : State) : Nat := s.getF uWDN F.SEC_DEVICE_ID_LO + s.getF uWDN F.SEC_DEVICE_ID_HI * 2 ^ 32

/-- An identity-key signature of a digest: r then s, 96 bytes (R416). -/
def State.sign (s : State) (d : List Byte) : List Byte := sliceBytes (Config.identitySign s.sec.signs d) 0 96
def State.signed (s : State) : State := s.modSec fun c => { c with signs := s.sec.signs + 1 }

/-- The measurement report (Table 4). -/
def State.attestation (s : State) (nonce : List Byte) : List Byte :=
  let k (f : Fld) := s.getF uWDN f
  let ops := k F.SEC_KEYS_OP_PRESENT &&& (3 - k F.SEC_KEYS_OP_REVOKED)
  let body := wordsBytes [2 ^ 48, s.deviceId, s.ns,
    k F.WDN_FW_STATUS_SLOT * 2 ^ 19 + s.getF uDEV F.DEV_SETUP_LOCK_LOCK * 2 ^ 18 + ops * 2 ^ 16 + k F.SEC_KEYS_REVOKED * 2 ^ 12 +
      k F.SEC_KEYS_PRESENT * 2 ^ 8 + k F.SEC_ARB_COUNT] ++ sliceBytes nonce 0 32 ++ (List.range 8).flatMap s.measure
  body ++ s.sign (sha384 body)

/-- 32-bit words of bytes in address order. -/
def words32 (bs : List Byte) : List Nat := (List.range (bs.length / 4)).map fun i => leNat (sliceBytes bs (4 * i) 4)

/-- ATTEST, on the secure channels. -/
def State.attest (s : State) (k : Nat) : State :=
  if k < 16 then s.serve k 0x10 (fun s x => 0 :: words32 (s.attestation (x.words.flatMap fun w => leBytes w 4))) State.signed
  else s.serve k 0x10 (fun _ _ => [1]) id

/-! ### The secure session (R429) -/

/-- Empty a channel: both words discarded. -/
def State.mbEmpty (s : State) (k : Nat) : State :=
  let s := ((s.setF uBAR4 (F.MB_STATUS_OUT_FULL.i k) 0).setF uBAR4 (F.MB_STATUS_IN_FULL.i k) 0).mbBoth k
  { ((s.setReq k none).setReplies k []) with sec := { ((s.setReq k none).setReplies k []).sec with
      inLeft := s.sec.inLeft.put (fun _ => 0) k 0 } }

/-- Close an open session: channels 0–15 are emptied. -/
def State.closeSession (s : State) : State :=
  if s.secureOpen then
    ((s.setF uBAR4 F.MB_AUTH_STATUS_OPEN 0).each (List.range 16) fun s k => s.mbEmpty k).secEvent 0xC5
      (s.getF uBAR4 F.MB_AUTH_CTL_OP_SLOT) 0
  else s

/-- A fresh challenge: free values (log entry 1). -/
def State.newChallenge (s : State) : State :=
  s.each (List.range 12) fun s i => let (v, s) := s.draw; s.setF uBAR4 (F.MB_CHAL_DATA.i i) v

/-- The challenge's bytes. -/
def State.challengeBytes (s : State) : List Byte := (List.range 12).flatMap fun i => leBytes (s.getF uBAR4 (F.MB_CHAL_DATA.i i)) 4

/-- GO may be written. -/
def State.authFree (s : State) : Bool :=
  !s.secureOpen && !(s.bit uBAR4 F.MB_AUTH_STATUS_BUSY) && !(s.bit uBAR4 F.MB_AUTH_STATUS_LOCKOUT)

/-- GO: verification starts. -/
def State.authGo (s : State) : State := s.setF uBAR4 F.MB_AUTH_STATUS_BUSY 1

/-- AUTH_VERIFY_DONE: the signature over SHA-384(MB_CHAL ‖ DEVICE_ID ‖ OP_SLOT) under operator slot OP_SLOT's key. -/
def State.authDone (s : State) : State :=
  if !s.bit uBAR4 F.MB_AUTH_STATUS_BUSY ∨ !s.running ∨ s.sec.switching.isSome then s
  else
    let slot := s.getF uBAR4 F.MB_AUTH_CTL_OP_SLOT
    let key := s.sec.opPub.get (fun _ => []) slot
    let sig := (List.range 24).flatMap fun i => leBytes (s.getF uBAR4 (F.MB_AUTH_SIG_DATA.i i)) 4
    let digest := sha384 (s.challengeBytes ++ leBytes s.deviceId 8 ++ leBytes slot 1)
    let ok := bitsOf (s.getF uWDN F.SEC_KEYS_OP_PRESENT) slot 1 == 1 && bitsOf (s.getF uWDN F.SEC_KEYS_OP_REVOKED) slot 1 == 0 &&
      ecdsaVerify key digest sig
    let s := (s.setF uBAR4 F.MB_AUTH_STATUS_BUSY 0).newChallenge
    if ok then
      let s := (s.setF uBAR4 F.MB_AUTH_STATUS_OPEN 1).setF uBAR4 F.MB_AUTH_STATUS_FAILS 0
      (s.modSec fun c => { c with failRun := 0 }).secEvent 0xC4 slot 0
    else
      let n := min 255 (s.getF uBAR4 F.MB_AUTH_STATUS_FAILS + 1)
      let run := s.sec.failRun + 1
      let s := s.setF uBAR4 F.MB_AUTH_STATUS_FAILS n
      let s := s.modSec fun c => { c with failRun := run, lockTill := if run % 3 = 0 then s.ns + 1000000000 else s.sec.lockTill }
      (s.when (run % 3 == 0) fun s => s.setF uBAR4 F.MB_AUTH_STATUS_LOCKOUT 1).secEvent 0xC6 n 0

/-- LOCKOUT_END. -/
def State.lockoutEnd (s : State) : State :=
  if s.bit uBAR4 F.MB_AUTH_STATUS_LOCKOUT then (s.reach s.sec.lockTill).setF uBAR4 F.MB_AUTH_STATUS_LOCKOUT 0 else s

/-- R425: an FLR of PF0 empties every channel and closes the session. -/
def State.mbFlr (s : State) : State :=
  let s := (s.closeSession).each (List.range 32) fun s k => s.mbEmpty k
  s.modSec fun c => { c with failRun := 0, lockTill := 0 }

end Sys2Proof.Machine
end

