-- ==== Sys2Proof/Machine/RingCmds.lean ====
section
/-!
DEFINITION. Rings (spec/03_host_rings.md): enable and disable, doorbells, descriptors as they are read (R76), chains,
write-backs, interrupts' timers, the commands INJECT, BUFFER, CFG_WRITE, NOP and FENCE, function-level reset, host links.
-/
namespace Sys2Proof.Machine

/-! ### Enabling and disabling (R66, R67, R71, R83) -/

/-- Change a ring's context. -/
def State.modRing (s : State) (r : Nat) (f : Ring → Ring) : State := s.setRing r (f (s.ring r))

/-- A ring that is enabled: RING_LOG2 non-zero. -/
def State.ringOn (s : State) (r : Nat) : Bool := s.ringLog r != 0

/-- R67: `cq` is a reporting ring for a ring of type `t` owned by `m`. -/
def State.reportOk (s : State) (cq t m : Nat) : Bool :=
  s.ringOn cq && s.ringType cq == (if t = 3 then 0x13 else 0x08) && s.ringOwner cq == some m

/-- R71: the ring may be enabled with 2^`n` entries. A ring that is still Flushing has RING_LOG2 0 and may not be enabled again
before it is Disabled (DESIGN CHOICE, log entry 71). -/
def State.enableOk (s : State) (r n : Nat) : Bool :=
  let t := s.ringType r
  let c := ringClass t
  let g (f : Fld) := s.getFS uHIF r f
  6 ≤ n && n ≤ 16 && c != 0 && s.ringState r == 0 && (g F.RING_CFG_MODE == 0 || c == 1) &&
  (match s.ringOwner r with
   | none => false
   | some m =>
     (if c = 1 then s.reportOk (g F.RING_CQ_CQ) t m && g F.RING_INT_EN == 0 else g F.RING_CQ_CQ == 0) &&
     g F.RING_INT_VECTOR < tableSize m && (t != 1 || s.getFS uHIF m F.HIF_FN_CFG_INJECT == 1) &&
     (t != 4 || m == 1 || m == 3) && (t != 6 || m == 1)) &&
  (g F.RING_CFG_MODE == 1 || s.ringAddr r F.RING_BASE_LO_ADDR F.RING_BASE_HI_ADDR % 4096 == 0)

/-- R87: the backlog goes to PF0's default event ring, in production order. -/
def State.drainBacklog (s : State) (r : Nat) : State :=
  if s.defaultRing 1 = some r then
    (s.modHif fun h => { h with backlog := [] }).each s.hif.backlog fun s d => s.recordNow r 0x10 d
  else s

/-- RING_ENABLE: the ring runs from index 0, armed if its interrupt is enabled (R86), with PHASE 1 (R69). A chain ring, which
has CI = PI, is Parked (R85). -/
def State.enableRing (s : State) (r n : Nat) : State :=
  let st := if s.getFS uHIF r F.RING_CFG_MODE = 1 then 2 else 1
  let s := s.setRing r { log := n, armed := s.getFS uHIF r F.RING_INT_EN == 1, next := s.ringAddr r F.RING_BASE_LO_ADDR F.RING_BASE_HI_ADDR }
  let s := ((s.setFS uHIF r F.RING_SIZE_RING_LOG2 n).setFS uHIF r F.RING_STATUS_STATE st).setFS uHIF r F.RING_STATUS_REASON 0
  (s.setFS uHIF r F.RING_STATUS_DEV_INDEX 0).drainBacklog r

/-- SQs that report to a ring. -/
def State.reporters (s : State) (cq : Nat) : List Nat :=
  (s.hif.rings.map (·.1)).filter fun r => r != cq && ringClass (s.ringType r) == 1 && s.getFS uHIF r F.RING_CQ_CQ == cq && s.ringState r != 0

/-- R83: a running or parked SQ halts. -/
def State.haltRing (s : State) (r reason : Nat) : State :=
  if s.ringState r = 1 ∨ s.ringState r = 2 then
    let s := (s.setFS uHIF r F.RING_STATUS_STATE 3).setFS uHIF r F.RING_STATUS_REASON reason
    (s.modRing r fun x => { x with reread := none, fullAt := none }).eventFn ((s.ringOwner r).getD 0) 0x05 uHIF (reason * 65536 + r) 0
  else s

/-- A mover's run whose descriptor belonged to ring `r`, without its place in the ring. -/
def mvForget (s : State) (r m : Nat) (x : Option MvRun) : Option MvRun :=
  if s.getF (uMV m) F.MV_CFG_RING = r then x.map (fun x => { x with idx := 2 ^ 20 }) else x

/-- Nothing that is under way may complete into a later life of the ring. -/
def State.forgetRing (s : State) (r : Nat) : State :=
  let gone : Nat := 2 ^ 20
  let f1 (c : CfgSet) : CfgSet := if c.ring = r then { c with live := false } else c
  let f2 (f : FenceSt) : FenceSt := if f.ring = r then { f with idx := gone } else f
  let f3 (l : ULoad) : ULoad := if l.ring = r then { l with idx := gone } else l
  let f4 (w : SwRun) : SwRun := if w.ring = r then { w with idx := gone } else w
  let f5 (i : ImgRun) : ImgRun := { i with src := i.src.map fun x => if x.1 = r then (r, gone) else x }
  let f6 (i : Inject) : Inject := if i.ring = r then { i with idx := gone } else i
  { s with
    courses := s.courses.remap (fun _ => {}) fun _ c => { c with inject := c.inject.map f6 }
    hif := { s.hif with cfg := s.hif.cfg.map f1 }
    gen := { s.gen with fences := s.gen.fences.map f2 }
    dram := { s.dram with mv := s.dram.mv.remap (fun _ => none) (mvForget s r) }
    eng := { s.eng with load := s.eng.load.map f3 }
    sec := { s.sec with switching := s.sec.switching.map f4, image := s.sec.image.map f5 } }

/-- The ring becomes Disabled. -/
def State.ringDisabled (s : State) (r : Nat) : State :=
  let s := (((s.forgetRing r).setRing r {}).setFS uHIF r F.RING_STATUS_STATE 0).setFS uHIF r F.RING_STATUS_REASON 0
  s.setFS uHIF r F.RING_STATUS_DEV_INDEX 0

/-- A descriptor held that has not started: no opcode begun, or a posted buffer that nothing fills. -/
def Desc.unstarted (d : Desc) : Bool := !d.begun && d.comp.isNone

/-- RING_DISABLE: RING_LOG2 := 0. SQs that report to the ring halt with CQ_OFF, and unstarted descriptors are FLUSHED. -/
def State.disableRing (s : State) (r : Nat) : State :=
  let s := ((s.setFS uHIF r F.RING_SIZE_RING_LOG2 0).setFS uHIF r F.RING_STATUS_STATE 4).setFS uHIF r F.RING_STATUS_REASON 0
  let s := s.modRing r fun x => { x with
    flushAt := some s.ns, fullAt := none, reread := none
    descs := x.descs.map fun d => if d.unstarted then { d with comp := some (comp 6 0 0) } else d }
  let s := s.flushComps ((s.ring r).descs.length + 1) r
  s.each (s.reporters r) fun s q => (s.haltRing q 4).flushComps ((s.ring q).descs.length + 1) q

/-- Descriptors announced and not yet read. -/
def State.unread (s : State) (r : Nat) : Nat :=
  let x := s.ring r
  if ringClass (s.ringType r) = 1 then (x.host + 2 ^ (x.log + 1) - s.ringIndex r) % 2 ^ (x.log + 1) else 0

/-- The reporting ring of an SQ can take a completion. -/
def State.reportUp (s : State) (r : Nat) : Bool :=
  s.ringUp (s.getFS uHIF r F.RING_CQ_CQ) (if s.ringType r = 3 then 0x13 else 0x08)

/-- RING_FLUSH_END: what was outstanding has ended. -/
def State.flushEnd (s : State) (r : Nat) : State :=
  if s.ringState r = 4 ∧ (s.ring r).descs = [] ∧ (s.unread r = 0 ∨ !s.reportUp r) then s.ringDisabled r else s

/-- RING_FLUSH_TIMEOUT: tFLUSH passes; completions not written are abandoned. -/
def State.flushTimeout (s : State) (r : Nat) : State :=
  match (s.ring r).flushAt with
  | none => s
  | some t =>
    if s.ringState r ≠ 4 then s
    else
      let s := s.reach (t + 60000000)
      let n := (s.ring r).descs.length + (if s.reportUp r then s.unread r else 0)
      (if (s.ring r).flr then s else s.addFS uHIF (s.getFS uHIF r F.RING_CQ_CQ) F.RING_LOST_COUNT n).ringDisabled r

/-! ### Doorbells (R73, R74) -/

/-- R74: the reason for which a doorbell with data `v` to ring `r` is rejected, in the order of R462; 0 for none. -/
def State.doorbellReason (s : State) (r : Option Nat) (v : Nat) : Nat :=
  match r with
  | none => 0xC
  | some r =>
    if !s.ringOn r then 0xC
    else
      let n := s.ringLog r
      let sq := ringClass (s.ringType r) == 1
      let idx := v % 2 ^ 17
      let m := 2 ^ (n + 1)
      if bitsOf v 32 32 ≠ 0 ∨ bitsOf v 17 14 ≠ 0 then 2
      else if m ≤ idx ∨ (sq ∧ bitsOf v 31 1 = 1) then 1
      else
        let dev := s.ringIndex r
        let cur := (s.ring r).host
        if sq then
          (if (cur + m - dev) % m ≤ (idx + m - dev) % m ∧ (idx + m - dev) % m ≤ 2 ^ n then 0 else 0xB)
        else (if (dev + m - idx) % m ≤ (dev + m - cur) % m then 0 else 0xB)

/-- The ring of function-local number `i` of a function. -/
def State.localRing (s : State) (m i : Nat) : Option Nat :=
  if i < s.getFS uHIF m F.HIF_FN_RINGS_COUNT then some (s.getFS uHIF m F.HIF_FN_RINGS_BASE + i) else none

/-- Bytes of a function's BAR2 (Table 2). -/
def bar2Size (m : Nat) : Nat := if isPF m then 0x80000 else 0x20000

/-- Doorbells a function has (Table 2). -/
def doorbells (m : Nat) : Nat := if isPF m then 32768 else 8192

/-- R85: a parked ring goes on. `link` is the tail's word at 0x18 as re-read, `ok` whether the read succeeded. -/
def State.unpark (s : State) (r link : Nat) (ok : Bool) : State :=
  let x := s.ring r
  if s.ringState r ≠ 2 ∨ s.unread r = 0 then s
  else if !x.endSeen then s.setFS uHIF r F.RING_STATUS_STATE 1
  else if !ok then s.haltRing r 1
  else if link % 2 = 0 then
    (s.setRing r { x with endSeen := false, next := link / 32 * 32, reread := none }).setFS uHIF r F.RING_STATUS_STATE 1
  else s.setRing r { x with reread := some (x.reread.getD s.ns) }

/-- A doorbell to an SQ. -/
def State.bellSq (s : State) (r idx link : Nat) (ok : Bool) : State :=
  (s.modRing r fun x => { x with host := idx }).unpark r link ok

/-- A ring that CQ_FULL halted goes on. One in chain mode parks where it would have parked (R85). Where END had been seen and PI
was raised meanwhile, the tail's word is re-read; a doorbell in Halted re-reads nothing, so the re-read is the one tCHN later
(DEDUCED, log entry 72). -/
def State.resumeRing (s : State) (q : Nat) : State :=
  let x := s.ring q
  let park := s.getFS uHIF q F.RING_CFG_MODE == 1 && (x.endSeen || s.unread q == 0)
  let s := (s.setFS uHIF q F.RING_STATUS_STATE (if park then 2 else 1)).setFS uHIF q F.RING_STATUS_REASON 0
  if x.endSeen ∧ s.unread q ≠ 0 then s.setRing q { x with reread := some s.ns } else s

/-- A doorbell to a CQ or RQ: the host's CI; SQs that waited for space go on; ARM (R86). -/
def State.bellCq (s : State) (r idx : Nat) (arm : Bool) : State :=
  let s := s.modRing r fun x => { x with host := idx }
  let s := s.each (s.reporters r) fun s q =>
    let s := if s.ringState q = 3 ∧ s.getFS uHIF q F.RING_STATUS_REASON = 2 ∧ !s.ringFull r then
      s.resumeRing q else s
    s.flushComps ((s.ring q).descs.length + 1) q
  if arm then
    let s := s.modRing r fun x => { x with armed := true }
    if s.getFS uHIF r F.RING_INT_EN = 1 ∧ s.ringIndex r ≠ idx then s.ringInterrupt r (s.getFS uHIF r F.RING_INT_VECTOR) else s
  else s

/-- A doorbell of function `m` at index `i` of its doorbell pages, accepted or rejected. Past those pages BAR2 of a PF is
reserved (R65). -/
def State.doorbell (s : State) (m i v link : Nat) (ok : Bool) : State :=
  if bar2Size m ≤ 0x10000 + 8 * i ∨ !masters.contains m ∨ !s.fnEnabled m then s
  else if !s.running then s.abortTo m
  else if !s.fnLive m then s
  else
    let s := s.occur uHIF 0x102 0 (some m) (0x10000 + 8 * i) 1
    let r := s.localRing m i
    let why := if doorbells m ≤ i then 2 else s.doorbellReason r v
    if why ≠ 0 then s.evtRange 2 (0x10000 + 8 * i) m why v
    else match r with
      | none => s
      | some r =>
        if ringClass (s.ringType r) = 1 then s.bellSq r (v % 2 ^ 17) link ok
        else s.bellCq r (v % 2 ^ 17) (bitsOf v 31 1 == 1)

/-! ### Descriptors (R76, R85) -/

/-- Opcodes of a ring type (Table 8). -/
def opOfType (t op : Nat) : Bool :=
  op == 0 || op == 0xFE || (t == 1 && (op == 1 || op == 2)) || (t == 2 && op == 8) || (t == 3 && 0x20 ≤ op && op ≤ 0x2D) ||
  (t == 4 && 0x30 ≤ op && op ≤ 0x35) || (t == 5 && 0x40 ≤ op && op ≤ 0x47) || (t == 6 && 0x50 ≤ op && op ≤ 0x55)

/-- A reserved bit of ARG is set (check 3 of R76). -/
def argRsvd (op a : Nat) : Bool :=
  if op = 1 then decide (2 ^ 18 ≤ a)
  else if op = 2 then decide (2 ^ 43 ≤ a)
  else if op = 0x28 then a % 2 ^ 51 != 0
  else if 0x20 ≤ op ∧ op ≤ 0x2D then bitsOf a 24 29 != 0
  else if op = 0x31 then decide (2 ^ 33 ≤ a)
  else if op = 0x32 then decide (2 ≤ a)
  else if 0x33 ≤ op ∧ op ≤ 0x35 then a != 0
  else if 0x40 ≤ op ∧ op ≤ 0x47 then
    bitsOf a 48 2 != 0 || bitsOf a 32 8 != 0 ||
    (if op = 0x40 ∨ op = 0x41 ∨ op = 0x43 then bitsOf a 0 32 != 0 else if op = 0x42 then bitsOf a 16 16 != 0
     else if op = 0x44 then bitsOf a 5 27 != 0 else if op = 0x47 then bitsOf a 12 20 != 0 else bitsOf a 18 14 != 0)
  else if op = 0x54 ∨ op = 0x55 then a != 0
  else false

/-- Ranges of two byte ranges of one length meet. -/
def overlap (a b n : Nat) : Bool := decide (a < b + n) && decide (b < a + n)

/-- The limits of an opcode hold (check 5 of R76); those of table and debug commands are checked as they run. -/
def limitsOk (op len addr a : Nat) : Bool :=
  if op = 1 then len ≤ 9212 && a < 8
  else if op = 2 then len ≤ 9212 && (bitsOf a 21 1 == 1 || bitsOf a 22 21 == 0)
  else if op = 8 then addr % 64 == 0 && len % 64 == 0 && 256 ≤ len && len ≤ 16384
  else if op = 0x30 then len % 16 == 0 && len ≤ 4096
  else if op = 0x31 then len ≤ 131072 && bitsOf a 0 16 != 0 && bitsOf a 16 17 != 0
  else if op = 0x52 then len ≤ 67108864 && !overlap addr a len
  else if op = 0x53 then len ≤ 67108864 && len % 8 == 0 && addr % 8 == 0
  else if op = 0x50 ∨ op = 0x51 then len ≤ 67108864
  else if op = 0x54 ∨ op = 0x55 ∨ op = 0xFE then len == 8
  else true

/-- The first check of R76 that decides, as a completion status. -/
def State.descCheck (s : State) (r w0 w1 w2 w3 : Nat) : Option Nat :=
  let op := bitsOf w0 56 8
  let len := bitsOf w0 0 32
  if bitsOf w0 32 8 ≠ 0 ∨ (if s.getFS uHIF r F.RING_CFG_MODE = 1 then bitsOf w3 1 4 ≠ 0 else w3 % 2 ^ 64 ≠ 0) then some 1
  else if !opOfType (s.ringType r) op then some 2
  else if argRsvd op (w2 % 2 ^ 64) then some 1
  else if len = 0 then some 0
  else if !limitsOk op len (w1 % 2 ^ 64) (w2 % 2 ^ 64) then some 1
  else none

/-- DESCRIPTOR_READ: the next descriptor of an SQ arrives, or its read failed. While the ring flushes it is FLUSHED. -/
def State.descRead (s : State) (r w0 w1 w2 w3 : Nat) (ok : Bool) : State :=
  let x := s.ring r
  let st := s.ringState r
  if ¬ (st = 1 ∨ st = 4) ∨ s.unread r = 0 ∨ x.flr ∨ (st = 1 ∧ !s.ringRead r) ∨ !s.running ∨ !s.fnLive ((s.ringOwner r).getD 0) then s
  else if !ok then (if st = 1 then s.haltRing r 1 else s)
  else
    let ci := s.ringIndex r
    let c := if st = 4 then some 6 else s.descCheck r w0 w1 w2 w3
    let d : Desc := { w0 := w0 % 2 ^ 64, w1 := w1 % 2 ^ 64, w2 := w2 % 2 ^ 64, w3 := w3 % 2 ^ 64, idx := ci, seq := s.hif.reads, comp := c.map (comp · 0 0) }
    let s := (s.modHif fun h => { h with reads := s.hif.reads + 1 }).setFS uHIF r F.RING_STATUS_DEV_INDEX ((ci + 1) % 2 ^ (x.log + 1))
    let chain := s.getFS uHIF r F.RING_CFG_MODE == 1
    let s := s.setRing r { x with
      descs := x.descs ++ [d], sinceWb := x.sinceWb + 1, tail := x.next, endSeen := chain && w3 % 2 == 1
      next := if chain && w3 % 2 == 0 then w3 % 2 ^ 64 / 32 * 32 else x.next }
    let s := if chain ∧ st = 1 ∧ (w3 % 2 = 1 ∨ s.unread r = 0) then s.setFS uHIF r F.RING_STATUS_STATE 2 else s
    let s := if 16 ≤ x.sinceWb + 1 ∨ s.unread r = 0 then s.writeBack r else s
    s.flushComps ((s.ring r).descs.length + 1) r

/-- CHAIN_REREAD: tCHN after a re-read found END still set. The ring halts with reason LINK (R85); the completion with STATUS
LINK is that of the descriptor at the device's CI, which was announced and is not linked: nothing of it has been read, so its
TAG is 0, and CI passes it (DESIGN CHOICE, log entry 72). -/
def State.chainReread (s : State) (r link : Nat) (ok : Bool) : State :=
  match (s.ring r).reread with
  | none => s
  | some t =>
    let s := s.reach (t + 1000)
    if !ok ∨ link % 2 = 0 then (s.modRing r fun x => { x with reread := none }).unpark r link ok
    else
      let x := s.ring r
      let d : Desc := { w0 := 0, w1 := 0, w2 := 0, w3 := 0, idx := s.ringIndex r, comp := some (comp 9 0 0) }
      let s := (s.setRing r { x with descs := x.descs ++ [d] }).setFS uHIF r F.RING_STATUS_DEV_INDEX ((s.ringIndex r + 1) % 2 ^ (x.log + 1))
      (s.haltRing r 3).flushComps ((s.ring r).descs.length + 1) r

/-- WRITE_BACK (R75). -/
def State.wbRow (s : State) (r : Nat) : State :=
  if s.ringOn r ∧ s.running ∧ s.fnLive ((s.ringOwner r).getD 0) then s.writeBack r else s

/-- CQ_WAIT_TIMEOUT: a completion has waited tCQW. -/
def State.cqWait (s : State) (r : Nat) : State :=
  match (s.ring r).fullAt with
  | none => s
  | some t => if s.ringState r = 1 ∨ s.ringState r = 2 then (s.reach (t + 1000000)).haltRing r 2 else s

/-- RING_MOD_TIMER (R86), with the settings under which the entries became pending (R71). -/
def State.modTimer (s : State) (r : Nat) : State :=
  let x := s.ring r
  if s.ringOn r ∧ x.armed ∧ x.pend ≠ 0 then (s.reach (x.pendAt + x.time * 1000)).ringInterrupt r x.vec else s

/-! ### NOP, FENCE, BUFFER, CFG_WRITE, inject -/

/-- NOP. -/
def State.nopDesc (s : State) (r : Nat) : State :=
  match s.nextDesc r 0 with
  | none => s
  | some d => s.complete r d.idx (comp 0 0 0)

/-- A descriptor has taken effect: completed, or a posted buffer. -/
def Desc.effected (d : Desc) : Bool := d.comp.isSome || (d.op == 8 && d.wait.isSome)

/-- FENCE: T_F is taken once every earlier descriptor of the ring has taken effect, and a marker follows every record made
so far (R357). -/
def State.fence (s : State) (r : Nat) : State :=
  match s.nextDesc r 0xFE with
  | none => s
  | some d =>
    if ((s.ring r).descs.takeWhile fun e => e.idx != d.idx).any fun e => !e.effected then s
    else
      let m := (s.ringOwner r).getD 0
      let s := (s.send (.hostWrite m d.w1 (leBytes s.ns 8))).setDesc r d.idx fun d => { d with begun := true }
      s.hold (.fence r m (s.eventRec 0x08 0xFFF uHIF (bitsOf d.w0 40 16) s.ns))

/-- Deliver a held record or event (R84, R87, R463). -/
def State.deliver (s : State) : Held → State
  | .record r t d => if t = 0x10 then s.eventTo r d else s.recordNow r t d
  | .event m d => s.defaultTo m d
  | .fence _ _ _ => s

/-- Write the records held up to the next marker. What the deliveries themselves report waits behind those still held. -/
def State.letGo : Nat → State → State
  | 0, s => s
  | n + 1, s => match s.hif.held with
    | [] => s
    | .fence _ _ _ :: _ => s
    | x :: rest => ((s.modHif fun h => { h with held := rest }).deliver x).letGo n

/-- FENCE_DONE: the records before the oldest marker have been written; EVT_FENCE follows them, and the records held behind it
follow that. -/
def State.fenceDone (s : State) : State :=
  match s.hif.held with
  | .fence r m e :: rest =>
    let s := ((s.modHif fun h => { h with held := rest }).defaultTo m e).endBegun r 0xFE (comp 0 8 0)
    s.letGo (2 * s.hif.held.length)
  | _ => s

/-- BUFFER: a receive buffer is posted (R80). -/
def State.postBuffer (s : State) (r : Nat) : State :=
  match s.nextDesc r 8 with
  | none => s
  | some d => s.setDesc r d.idx fun d => { d with wait := some s.ns }

/-- An entry of a CFG_WRITE (R81): word 0x00 and word 0x08. -/
def cfgEntries (bs : List Byte) : List (Nat × Nat) :=
  (List.range (bs.length / 16)).map fun i => (leNat (sliceBytes bs (16 * i) 8), leNat (sliceBytes bs (16 * i + 8) 8))

def cfgUid (e : Nat × Nat) : Nat := bitsOf e.1 48 14

/-- CFG_WRITE: its entries wait for a boundary. A follower refuses entries that name a mirrored UID (R434). -/
def State.cfgWrite (s : State) (r : Nat) (data : List Byte) (ok : Bool) : State :=
  match s.nextDesc r 0x30 with
  | none => s
  | some d =>
    let bs := sliceBytes data 0 d.len
    if !ok then s.complete r d.idx (comp 3 0 0)
    else if s.isFollower ∧ ((cfgEntries bs).any fun e => mirroredUid (cfgUid e)) then s.complete r d.idx (comp 4 0 0)
    else
      let s := s.setDesc r d.idx fun d => { d with begun := true }
      s.modHif fun h => { h with cfg := s.hif.cfg ++ [(⟨r, d.idx, true, bs⟩ : CfgSet)] }

/-- INJECT_COURSE (R78): the frame, padded, waits for its course to admit it, and its completion with it. -/
def State.injectCourse (s : State) (r : Nat) (data : List Byte) (ok : Bool) : State :=
  match s.nextDesc r 1 with
  | none => s
  | some d =>
    let n := bitsOf d.w2 0 3
    if !s.fwdOn then s.complete r d.idx (comp 7 0 0)
    else if !s.taking then s
    else if [uADM n, uSIV n, uLKP n, uRSV n, uEGR n].any s.closed then s.complete r d.idx (comp 5 0 0)
    else if !ok then s.complete r d.idx (comp 3 0 0)
    else
      let s := s.setCourse n { s.course n with
        inject := (s.course n).inject ++ [(⟨r, d.idx, d.len, padFrame (sliceBytes data 0 d.len)⟩ : Inject)] }
      s.setDesc r d.idx fun d => { d with begun := true }

/-- INGRESS_PORT of a packet injected toward a queue (R79). -/
def State.injectPort (s : State) (q : Nat) : Nat :=
  let p := s.queuePort q
  if p < 256 then 256 + (s.serving (p / 32)).getD (p / 32) else 256

/-- INJECT_QUEUE (R79): the packet enters row 32. -/
def State.injectQueue (s : State) (r : Nat) (data : List Byte) (ok : Bool) : State :=
  match s.nextDesc r 2 with
  | none => s
  | some d =>
    let q := bitsOf d.w2 0 18
    if !s.fwdOn then s.complete r d.idx (comp 7 0 0)
    else if !s.taking then s
    else if s.closed (uTMQ (q / 65536)) then s.complete r d.idx (comp 5 0 0)
    else if !ok then s.complete r d.idx (comp 3 0 0)
    else
      let a : Adm := { admitAt := s.ns, deadline := 500000, gen := s.getF (uADM 0) F.ADM_GEN_STATUS_GEN, pass := 1, host := true
                       port := s.injectPort q, course := s.portCourse (s.injectPort q) }
      let p : Pkt := { frame := padFrame (sliceBytes data 0 d.len), adm := a, tc := bitsOf d.w2 18 3
                       ptp := bitsOf d.w2 22 1 * 2 ^ 36, counted := false }
      let c : Copy := { queue := q, src := 2, nhEn := bitsOf d.w2 21 1 == 1, nh := bitsOf d.w2 23 20 }
      (s.enterRow32 p c).complete r d.idx (comp 0 d.len 0)

/-! ### Function-level reset and host links (R63, R89, R90) -/

/-- VFs of PF `p`. -/
def vfsOf (p : Nat) : List Nat := (List.range 15).map fun i => 16 + 15 * p + i

/-- R90: an inject whose frame is only partly read is dropped before admission. -/
def State.abortInjects (s : State) (r : Nat) : State :=
  s.each ((s.ring r).descs.filter fun d => d.unstarted && (d.op == 1 || d.op == 2)) fun s d =>
    if d.op = 1 then s.drop 0x66 (256 + bitsOf d.w2 0 3) { uid := uHIF, inPort := some (256 + bitsOf d.w2 0 3), len := d.len }
    else s.drop 0x66 747 { uid := uHIF, len := d.len }

/-- A window command already accepted completes in the table; its result is not written (R90). One that has to wait does so
in window `p` + 4; another runs at once, on clean words and with room in the sieve's index (DESIGN CHOICE, log entry 95). -/
def State.windowEnds (s : State) (p : Nat) : State :=
  let c := s.winCmd p
  match s.tcwStart p with
  | none => s
  | some t =>
    if s.blocked (65536 + p) (s.tcwWait p) c ∨ s.mustWait c then
      let offs := 0xA000 :: (List.range 32).map fun i => 0xA040 + 4 * i
      let s := s.each offs fun s o => s.wr (regKey (uTCW (p + 4)) 0 o) (s.rd (regKey (uTCW p) 0 o))
      (s.setTcw (p + 4) (some t) (s.tcwWait p)).setTcw p none none
    else ((s.tableDo (65536 + p) c true 0 0 false).2).setTcw p none none

/-- What a ring holds that an FLR leaves to complete (R90): table commands that change a table, CFG_WRITEs that have been
read. -/
def State.acceptedDescs (s : State) (r : Nat) : List Desc :=
  let t := s.ringType r
  (s.ring r).descs.filter fun d => d.comp.isNone &&
    (t == 3 && (tcmdOf d.w0 d.w1 d.w2 []).changes && (!d.begun || d.op == opREHASH) || t == 4 && d.op == 0x30 && !d.begun)

/-- They go on in the context of the ring's number + 32,768, whose completions are not written. -/
def State.orphanDescs (s : State) (r : Nat) : State :=
  match s.acceptedDescs r with
  | [] => s
  | ds =>
    let x := s.ring (r + 32768)
    let k := 2 ^ 18 * (1 + (x.descs.map fun d => d.idx / 2 ^ 18).foldl max 0)
    s.setRing (r + 32768) { x with flr := true, typ := s.ringType r, descs := x.descs ++ ds.map fun d => { d with idx := d.idx + k } }

/-- Clear a function as an FLR clears it: class F and configuration space revert, its rings stop, claims are released. -/
def State.clearFn (s : State) (m : Nat) : State :=
  let rs := (s.hif.rings.map (·.1)).filter fun r => s.ownsRing m r
  let s := s.setPci m {}
  let s := s.each rs fun s r =>
    let s := ((s.abortInjects r).orphanDescs r).forgetRing r
    let busy := s.ringState r != 0
    let s := s.setRing r (if busy then { log := (s.ring r).log, flr := true, flushAt := some s.ns } else {})
    s.setFS uHIF r F.RING_STATUS_STATE (if busy then 4 else 0)
  let s := s.when (isPF m) fun s => s.windowEnds (m - 1)
  let s := s.when (m == 1) fun s => s.mbFlr
  let mine (k : Nat) : Bool :=
    (keyUid k == uHIF && 0x104 ≤ keyOff k && keyOff k ≤ 0x12C && s.ownsRing m (keySel k)) ||
    (isPF m && keyUid k == uTCW (m - 1)) || keyUid k == uMSIX m || (m == 1 && keyUid k == uBAR4)
  let st := rs.map fun r => (r, s.ringState r)
  let s := s.revertRegs 8 mine
  let s := s.each st fun s x => s.setFS uHIF x.1 F.RING_STATUS_STATE x.2
  let s := s.when (m == 1) fun s => s.newChallenge
  { s with claims := s.claims.filter fun e => match e.2 with | some c => c.owner != m | none => true }

/-- The function and, under a PF, its VFs, whose VF Enable is cleared. -/
def State.clearTree (s : State) (m : Nat) : State :=
  let s := s.clearFn m
  if isPF m then s.each (vfsOf (m - 1)) fun s v => (s.clearFn v).setFS uHIF v F.HIF_FN_STATUS_VF_EN 0 else s

/-- FLR of a function. -/
def State.flr (s : State) (m : Nat) : State :=
  if !masters.contains m ∨ !s.fnEnabled m ∨ s.getFS uHIF m F.HIF_FN_STATUS_FLR_ACTIVE = 1 then s
  else
    let s := (s.clearTree m).setFS uHIF m F.HIF_FN_STATUS_FLR_ACTIVE 1
    s.modHif fun h => { h with flr := s.hif.flr ++ [(m, s.ns)] }

/-- Rings of a function, and of its VFs, that an FLR stopped become Disabled. -/
def State.stopRings (s : State) (m : Nat) : State :=
  s.each ((s.hif.rings.map (·.1)).filter fun r =>
    (s.ring r).flr && (s.ownsRing m r || (isPF m && (vfsOf (m - 1)).any fun v => s.ownsRing v r))) fun s r => s.ringDisabled r

/-- FLR_END. -/
def State.flrEnd (s : State) (m : Nat) : State :=
  if s.getFS uHIF m F.HIF_FN_STATUS_FLR_ACTIVE = 0 then s
  else
    let s := (s.stopRings m).setFS uHIF m F.HIF_FN_STATUS_FLR_ACTIVE 0
    let s := s.modHif fun h => { h with flr := s.hif.flr.filter fun x => x.1 != m }
    let s := if m = 1 then s.send (.warden (s.eventRec 0x07 0xFFF uHIF m 0)) else s
    s.eventFn 1 0x07 uHIF m 0

/-- VF_ENABLE_CLEAR: PF `p` clears its VF Enable (R461). Where it is 0 already nothing changes: rings prepared for a VF stay. -/
def State.vfClear (s : State) (p : Nat) : State :=
  if 4 ≤ p ∨ !((vfsOf p).any s.fnEnabled) then s
  else (s.each (vfsOf p) fun s v => ((s.clearFn v).stopRings v).setFS uHIF v F.HIF_FN_STATUS_VF_EN 0)

/-- PF `p` sets its VF Enable, which enables all 15 of its VFs: the spec names no NumVFs (DESIGN CHOICE, log entry 93). -/
def State.vfSet (s : State) (p : Nat) : State := s.each (vfsOf p) fun s v => s.setFS uHIF v F.HIF_FN_STATUS_VF_EN 1

/-- PFs on a link (R62). -/
def State.linkPfs (s : State) (l : Nat) : List Nat :=
  if s.bit uHIF F.HIF_LINK_SPLIT then (if l = 0 then [1, 2] else [3, 4]) else if l = 0 then [1, 2, 3, 4] else []

/-- HOST_LINK_DOWN: the functions of a link are cleared; the warden and, in split mode, the other link are told (R63). -/
def State.hostLinkDown (s : State) (l : Nat) : State :=
  if !s.running ∨ 2 ≤ l ∨ s.linkPfs l = [] then s
  else
    let s := s.each (s.linkPfs l) fun s m => (s.clearTree m).stopRings m
    let s := if l = 0 then (s.setF uHIF F.HIF_LINK_WIDTH0 0).setF uHIF F.HIF_LINK_GEN0 0
      else (s.setF uHIF F.HIF_LINK_WIDTH1 0).setF uHIF F.HIF_LINK_GEN1 0
    let s := s.send (.warden (s.eventRec 0x04 0xFFF uHIF l 0))
    if s.bit uHIF F.HIF_LINK_SPLIT then s.eventFn (if l = 0 then 3 else 1) 0x04 uHIF l 0 else s

/-- HOST_LINK_UP at a rate (1–5) and a width. -/
def State.hostLinkUp (s : State) (l gen width : Nat) : State :=
  let most := if s.bit uHIF F.HIF_LINK_SPLIT then 8 else 16
  if !s.running ∨ 2 ≤ l ∨ s.linkPfs l = [] ∨ ¬ (1 ≤ gen ∧ gen ≤ 5) ∨ !([1, 2, 4, 8, 16].contains width) ∨ most < width then s
  else if l = 0 then (s.setF uHIF F.HIF_LINK_WIDTH0 width).setF uHIF F.HIF_LINK_GEN0 gen
  else (s.setF uHIF F.HIF_LINK_WIDTH1 width).setF uHIF F.HIF_LINK_GEN1 gen

/-! ### Claims (R56–R59) -/

def State.claim (s : State) (k : Nat) : Option Claim := s.claims.get (fun _ => none) k
def State.setClaim (s : State) (k : Nat) (c : Option Claim) : State := { s with claims := s.claims.put (fun _ => none) k c }

/-- A read of CLAIM_PEEK. -/
def State.claimPeek (s : State) (k : Nat) : Nat := match s.claim k with | none => 0 | some c => 0x8000 ||| c.owner

/-- CLAIM_EXPIRE: the hold limit passes (R59). The warden, which has no event ring, is told nothing (DESIGN CHOICE, log entry
67). -/
def State.claimExpire (s : State) (k : Nat) : State :=
  match s.claim k with
  | none => s
  | some c =>
    let s := (s.reach (c.since + s.getF uDEV F.DEV_CLAIM_HOLD_LIMIT_MS * 1000000)).setClaim k none
    if c.owner = 0 then s else s.eventFn c.owner 0x03 uHIF (c.owner * 256 + k) 0

end Sys2Proof.Machine
end

