-- ==== Sys2Proof/Machine/RegView.lean ====
section
/-!
DEFINITION. What a register reads as (R40–R44): the control block, counters shown by a LO and HI pair with their latches,
registers that show state held elsewhere, and the effects of a read (R10, Table 3 of spec/00_scope.md).
-/
namespace Sys2Proof.Machine

/-- The select value of the register at an offset: 0 where it is not indirect. -/
def State.selOf (s : State) (u off : Nat) : Nat :=
  match regDefAt u off with
  | some d => if d.sel = 0 then 0 else (s.rd (regKey u 0 d.sel)).toNat
  | none => 0

/-- The register as the file holds it, under the select value in force. -/
def State.raw (s : State) (u off : Nat) : Nat := (s.rd (regKey u (s.selOf u off) off)).toNat

/-! ### Clocks (R459, R468) -/

/-- Lane rate in units of 10 Mb/s, and the clock it gives, of a port mode. -/
def modeMHz (mode : Nat) : Nat :=
  if mode = 0 then 0 else if mode ≤ 4 then 1660 else if mode = 5 then 830 else if mode = 6 then 402 else 161

/-- The clock of a rate in units of 10 Mb/s, where the five standard values stand for exact rates. -/
def rateMHz (r : Nat) : Nat :=
  if r = 10625 then 1660 else if r = 5312 then 830 else if r = 2578 then 402 else if r = 1031 then 161
  else if r = 11250 then 1757 else r * 10 / 64

/-- LANE_STATUS.RATE_10M of a lane: its test rate under test, the fabric's or its block's rate otherwise; 0 while stopped. -/
def State.laneRate (s : State) (u : Nat) : Nat :=
  if s.ust u = 0 then 0
  else if kindOf u = some .twinLane then 11250
  else if s.bit u F.LANE_TEST_EN then s.getF u F.LANE_TEST_RATE_10M
  else if s.lineCard ∧ 16 ≤ (u - 0x200) / 16 then 11250
  else modeRate10M (s.macMode ((u - 0x200) / 16))

/-- R380 step 4: units whose clock footing mode gates. -/
def footGated (u : Nat) : Bool :=
  match kindOf u with
  | some k => [Kind.engine, .camBank, .siv, .dmc, .mover].contains k
  | none => false

/-- R459: the clock of a leaf is gated. -/
def State.leafGated (s : State) (u : Nat) : Bool :=
  s.ust u == 0 || (s.footing && !s.flt.ready && footGated u) || (inFWD u && !s.fwdOn)

/-- UCB_CLK.GATED. -/
def State.gated (s : State) : Nat → Nat → Bool
  | 0, u => s.leafGated u
  | n + 1, u => if isGroup u then (children u).all (s.gated n) else s.leafGated u

/-- MHz of an island whose clock is a single figure (Table 7 of spec/01_architecture.md). -/
def islandMHz (i : Nat) : Nat :=
  if i = 0 then 250 else if i = 3 then 1600 else if 4 ≤ i ∧ i < 12 then 1350 else if 12 ≤ i ∧ i < 28 then 2200
  else if 28 ≤ i ∧ i < 32 then 1500 else if 32 ≤ i ∧ i < 44 then 1600 else if 76 ≤ i then 1757 else 1000

/-- UCB_CLK.FREQ_MHZ while the clock runs. -/
def State.clockMHz (s : State) (u : Nat) : Nat :=
  match kindOf u with
  | some .twinLane => 1757
  | some .dmc => if s.dram.slow.contains (u - 0x1101) then 1200 else 1600
  | some .lane => if s.bit u F.LANE_TEST_EN then rateMHz (s.getF u F.LANE_TEST_RATE_10M) else rateMHz (s.laneRate u)
  | some .mac | some .portBlock => modeMHz (s.macMode ((u - 0x200) / 16))
  | some .hif =>
    let g := max (s.getF uHIF F.HIF_LINK_GEN0) (s.getF uHIF F.HIF_LINK_GEN1)
    if g = 5 then 1000 else if g = 4 then 500 else 250
  | _ => islandMHz (islandOf u)

/-! ### The control block (R43, R44) -/

/-- A word of the control block. OFFSET and BASE of a unit without sources or counters read 0 (DESIGN CHOICE, log entry 65). -/
def State.ucbView (s : State) (u off : Nat) : Nat :=
  let b (p : Bool) (n : Nat) : Nat := if p then 2 ^ n else 0
  match kindOf u with
  | none => 0
  | some k =>
    if off = 0x00 then k.code * 2 ^ 24 + u
    else if off = 0x04 then b (u == uDEV) 31 + parentOf u
    else if off = 0x08 then (children u).length * 2 ^ 16 + (childRanges u).length
    else if off = 0x0C then b (s.bit u F.UCB_STATE_ISOLATED) 16 + s.stateView treeDepth u
    else if off = 0x14 then setBitsOf (s.raw u 0x14) 31 1 (if s.unitBusy u then 1 else 0)
    else if off = 0x18 then b (s.childSum treeDepth u) 31 + s.getF u F.UCB_FAULT_SUM_SRC
    else if off = 0x20 then nsrc u * 2 ^ 16 + (if nsrc u = 0 then 0 else 0xE00)
    else if off = 0x24 then
      let g := s.gated treeDepth u
      b g 24 + islandOf u * 2 ^ 16 + (if g then 0 else s.clockMHz u)
    else if off = 0x28 then nctr u * 2 ^ 28 + (if nctr u = 0 then 0 else 8 * tallyPos u)
    else if off = 0x30 then
      let t := s.testView treeDepth u
      b t.1 31 + b t.2.1 30 + t.2.2
    else if off = 0x34 then
      (match s.regs.find (regKey u 0 0x34) with
       | some w => w.toNat
       | none => s.pwr.resetAt % 2 ^ 32)
    else s.raw u off

/-- An entry of the child range list. -/
def rangeView (u off : Nat) : Nat :=
  match (childRanges u)[(off - 0xF00) / 4]? with
  | some (first, stride, count) => stride * 2 ^ 24 + count * 2 ^ 16 + first
  | none => 0

/-! ### Counters of 64 and 48 bits with a latch -/

/-- Tally index of the counter whose LO register stands at an offset. -/
def State.ctrAt (s : State) (u off : Nat) : Option Nat :=
  if nctr u = 8 ∧ 0xE80 ≤ off ∧ off < 0xF00 ∧ off % 16 = 8 then some (perfIndex u ((off - 0xE80) / 16))
  else match kindOf u with
    | some .mac =>
      if 0x400 ≤ off ∧ off < 0xE00 ∧ off % 8 = 0 then
        some (0x10000 + 40 * (8 * ((u - 0x200) / 16) + (off - 0x400) / 0x140) + (off - 0x400) % 0x140 / 8)
      else none
    | some .adm =>
      let n := (u - 0x50) / 8
      if off % 8 ≠ 0 then none
      else if 0x400 ≤ off ∧ off < 0x500 then some (malCtr n ((off - 0x400) / 8))
      else if 0x500 ≤ off ∧ off < 0x580 then some (slowCtr n ((off - 0x500) / 8)) else none
    | some .tal =>
      if off = 0x144 then some (0x14000 + 256 * s.getF uTAL F.TAL_DROP_SEL_SCOPE + s.getF uTAL F.TAL_DROP_SEL_CODE) else none
    | _ => none

/-- What a read of a LO register latches for the HI registers after it: (offset, value). -/
def State.latches (s : State) (u off : Nat) : List (Nat × Nat) :=
  if u = uPLN ∧ off = 0x100 then [(0x104, s.ns / 2 ^ 32), (0x108, s.frac)]
  else match s.ctrAt u off with
    | some i => [(off + 4, (s.ctr i).toNat / 2 ^ 32)]
    | none => []

/-- The register reads what a LO register latched. -/
def State.isLatched (s : State) (u off : Nat) : Bool :=
  (u == uPLN && (off == 0x104 || off == 0x108)) || (decide (4 ≤ off) && (s.ctrAt u (off - 4)).isSome)

/-- A latched value. -/
def State.latched (s : State) (u off : Nat) : Nat := (s.latch.get (fun _ => 0) (regKey u 0 off)).toNat

/-! ### Registers that show state held elsewhere -/

/-- The history record selected, in words of 32 bits (R372, Table 5 of spec/17_faults_and_repair.md). -/
def State.histWord (s : State) (i w : Nat) : Nat :=
  match s.flt.hist[i]? with
  | none => 0
  | some h =>
    let d := h.uid * 2 ^ 50 + h.src * 2 ^ 46 + h.sev * 2 ^ 43 + h.action * 2 ^ 40 + h.detail % 2 ^ 36
    bitsOf (h.time + d * 2 ^ 64) (32 * w) 32

/-- Entries of a table valid in either generation. -/
def State.validCount (s : State) (tid : Nat) : Nat :=
  ((s.entries tid 0).filter fun e => genValid e.2 0 || genValid e.2 1).length

/-- Sieve rules as (index, group) that are valid in either generation, or enabled. -/
def State.sieveRules (s : State) : List (Nat × Nat) :=
  let ing := ((s.entries 0x30 0).filter fun e => genValid e.2 0) ++ ((s.entries 0x30 1).filter fun e => genValid e.2 1)
  ((ing.map fun e => (e.1, sivGroup e.2)).eraseDups) ++
    ((s.entries 0x31 0).filter fun e => bitsOf e.2 63 1 == 1).map fun e => (e.1, sivGroup e.2)

/-- Pointers of the sieve's index in use (R177): one for each image, which both generations share where they hold the same rule. -/
def State.sievePointers (s : State) : Nat :=
  let at_ (g : Nat) : Nat := ((s.entries 0x30 g).filter fun e => genValid e.2 g).length
  let both := ((s.entries 0x30 0).filter fun e => genValid e.2 0 && genValid (s.ent 0x30 1 e.1) 1 &&
    setBitsOf e.2 62 2 0 == setBitsOf (s.ent 0x30 1 e.1) 62 2 0).length
  at_ 0 + at_ 1 - both + ((s.entries 0x31 0).filter fun e => bitsOf e.2 63 1 == 1).length

/-- The generation whose staged units GEN_STAGED counts: the one not active while changes can be staged, the one being
left after a switch. -/
def State.stagedGen (s : State) : Nat :=
  if s.genState = 2 ∨ (s.genState = 3 ∧ s.gen.abort.isNone) then s.activeGen else s.stagingGen

/-- Registers of the table group that show other state. -/
def State.tgView (s : State) (off : Nat) : Option Nat :=
  if off = 0x128 then some s.stashed.length
  else if off = 0x81C then some (s.stagedUnits (s.getF uTG F.GEN_STAGED_SEL_TABLE) s.stagedGen)
  else if off = 0x824 then some s.gen.fences.length
  else if off = 0xAF0 then some ((s.sieveRules.filter fun e => e.2 == s.getF uTG F.SIV_GRP_SEL_GROUP).length)
  else if off = 0xB04 then some s.sievePointers
  else none

/-- Registers of an engine that show other state. -/
def State.engView (s : State) (u off : Nat) : Option Nat :=
  let g := engNo u
  let mask (p : Thread → Bool) : Nat := ((List.range 8).map fun t => if p (s.thread (8 * g + t)) then 2 ^ t else 0).sum
  if off = 0x108 then some (mask (fun x => x.job.isSome) * 2 ^ 24 + mask (fun x => x.st == 6) * 2 ^ 16)
  else if 0x110 ≤ off ∧ off < 0x130 then
    let x := s.thread (8 * g + (off - 0x110) / 4)
    some (x.st * 2 ^ 28 + x.waitObj % 256 * 2 ^ 20 + x.pc % 4096)
  else if off = 0x30C ∨ off = 0x310 then
    let e := ((s.engine g).samples.get (fun _ => 0) (s.getF u F.ENG_SAMP_IDX_INDEX)).toNat
    some (if off = 0x30C then e % 2 ^ 32 else e / 2 ^ 32)
  else none

/-- Registers of PLN that show other state. -/
def State.plnView (s : State) (off : Nat) : Option Nat :=
  if off = 0x100 then some (s.ns % 2 ^ 32)
  else if off = 0x11C then some ((s.clk.slew.tdiv 65536000 % (2 ^ 32 : Nat)).toNat)
  else if off = 0x124 then some (s.clk.wpNum % 2 ^ 32)
  else if off = 0x128 then some (s.clk.wpNum / 2 ^ 32 % 2 ^ 32)
  else if off = 0x144 then
    some (s.getF uPLN F.PLN_GOV_STATUS_SATURATED * 2 ^ 31 + (if s.pwr.spent then 2 ^ 30 else 0) + s.pwr.allow / 2)
  else none

/-- Registers of the other kinds that show other state; none where the file holds the register's value. -/
def State.kindView (s : State) (u off : Nat) : Option Nat :=
  let b (p : Bool) (n : Nat) : Nat := if p then 2 ^ n else 0
  match kindOf u with
  | some .pln => s.plnView off
  | some .hif =>
    if off = 0x14C then
      let m := s.getF uHIF F.HIF_FN_SEL_MASTER
      some (b (s.fnEnabled m) 1 + s.getFS uHIF m F.HIF_FN_STATUS_FLR_ACTIVE)
    else none
  | some .flt =>
    if off = 0x104 then some (setBitsOf (s.raw u off) 0 1 (if s.faultPin then 1 else 0))
    else if off = 0x108 then some (s.getF uFLT F.FLT_HIST_STATUS_FROZEN * 2 ^ 31 + s.flt.hist.length)
    else if 0x114 ≤ off ∧ off ≤ 0x120 then some (s.histWord (s.getF uFLT F.FLT_HIST_SEL_INDEX) ((off - 0x114) / 4))
    else none
  | some .mac =>
    if 0x200 ≤ off ∧ off < 0x400 ∧ off % 0x40 = 0x1C then
      let p := 8 * ((u - 0x200) / 16) + (off - 0x200) / 0x40
      let one (r : Nat) : Nat := if s.pausedBy p r then 2 ^ r else 0
      some (setBitsOf (s.raw u off) 16 8 (if s.pausedBy p 8 then 0xFF else ((List.range 8).map one).sum))
    else none
  | some .lane | some .twinLane => if off = 0x100 then some (setBitsOf (s.raw u off) 0 14 (s.laneRate u)) else none
  | some .tableGroup => s.tgView off
  | some .lrn =>
    if off = 0x10C then some ((s.entries (0x20 + (u - 0x50) / 8) 0).filter fun e => bitsOf e.2 63 1 == 1).length else none
  | some .camGroup =>
    let t := s.getF uCAMG F.CAM_TBL_SEL_TABLE
    let live := if s.camCfg t F.CAM_TBL_CFG_EN = 1 then (s.liveReplicas t).length else 0
    if off = 0x108 then some (b (s.camCfg t F.CAM_TBL_CFG_EN == 1 && live != s.replicas t) 31 + live)
    else if off = 0x10C then some (s.validCount (0x38 + t)) else none
  | some .rsv => if off = 0x10C then some (s.course ((u - 0x50) / 8)).recirc.length else none
  | some .cluster =>
    let c := (u - 0x400) / 64
    if off = 0x104 then some (s.freeCells c * 2 ^ 16 + (s.cluster c).queued.length)
    else if off = 0x108 then some (s.cluster c).outst.length else none
  | some .csh =>
    let c := (u - 0x400) / 64
    if 0x200 ≤ off ∧ off < 0x300 then
      let x := s.chan c ((off - 0x200) / 4)
      some (x.msgs.length * 2 ^ 8 + x.reserved.length)
    else if 0x300 ≤ off ∧ off < 0x700 then
      (match (s.lockSt c ((off - 0x300) / 4)).owner with | some o => some (2 ^ 31 + o) | none => some 0)
    else none
  | some .engine => s.engView u off
  | some .bsn =>
    if 0x604 ≤ off ∧ off ≤ 0x624 then some (s.occ (s.getF uBSN F.BSN_OCC_SEL_PORT) ((off - 0x604) / 4)) else none
  | some .bpm =>
    if off = 0x118 then some (setBitsOf (s.raw u off) 31 1 (if s.chOnline (s.selOf u off) then 1 else 0))
    else if 0x140 ≤ off ∧ off < 0x14C then
      let p := (off - 0x140) / 4
      some ((((List.range 12).filter s.chOnline).map fun ch => s.poolBlocks ch p - (s.usedBlocks ch p).length).sum)
    else none
  | some .crosspoint =>
    if off = 0x10C then some (xpSize ((u - 0x2000) / 64) (u % 64))
    else if off = 0x104 then some (max (s.raw u off) (s.getF u F.XP_STATUS_USED_CELLS)) else none
  | some .fab =>
    if 0x150 ≤ off ∧ off < 0x160 then
      let i := (off - 0x150) / 4
      let one (j : Nat) : Nat := if s.ns < s.fab.xoffTill.get (fun _ => 0) (32 * i + j) then 2 ^ j else 0
      some (((List.range 32).map one).sum)
    else none
  | _ => none

/-- What the register at an offset of a BAR0 window reads as (R34, R42, R44). -/
def State.regView (s : State) (u off : Nat) : Nat :=
  if (kindOf u).isNone then 0
  else if off < 0x100 then s.ucbView u off
  else if 0xF00 ≤ off then rangeView u off
  else if s.isLatched u off then s.latched u off
  else match s.ctrAt u off with
    | some i => (s.ctr i).toNat % 2 ^ 32
    | none =>
      match s.kindView u off with
      | some v => v % 2 ^ 32
      | none => s.raw u off

/-- Clear the RC fields of a register word. -/
def clearRC (d : RegDef) (w : Nat) : Nat :=
  d.fields.foldl (fun w f => if f.acc = .rc then setBitsOf w f.lo f.w 0 else w) w

/-- The effects of a read of a register: RC fields clear (R10), a LO register latches its upper bits, ENG_SAMP_DATA_HI
advances ENG_SAMP_IDX (R364). -/
def State.readEffect (s : State) (u off : Nat) : State :=
  let s := s.each (s.latches u off) fun s l =>
    { s with latch := s.latch.put (fun _ => 0) (regKey u 0 l.1) (BitVec.ofNat 32 l.2) }
  let s := match regDefAt u off with
    | some d =>
      let k := regKey u (s.selOf u off) off
      if d.fields.any fun f => f.acc == .rc then s.wr k (BitVec.ofNat 32 (clearRC d (s.rd k).toNat)) else s
    | none => s
  if kindOf u = some .engine ∧ off = 0x310 then s.addF u F.ENG_SAMP_IDX_INDEX 1
  else s

end Sys2Proof.Machine
end

