-- ==== Sys2Proof/Machine/RegCheck.lean ====
section
/-!
DEFINITION. The checks across fields that a register write must pass beside each field's own range (R7, R53 and the rules
cited at each check). `s` is the state before the write, `t` the state with the written value in place, `sel` the select
value of an indirect register, `new` the word written; old and new values of the fields are read from `s` and `t`.
-/
namespace Sys2Proof.Machine

/-- An implication as a check. -/
def ifThen (a b : Bool) : Bool := !a || b

/-- R463: where the write sets an enable, or changes the ring while it is enabled, the ring named must be enabled and of
type `ty`. -/
def namesRing (s t : State) (u sel : Nat) (en ring : Fld) (ty : Nat) : Bool :=
  let e (x : State) : Bool := x.getFS u sel en == 1
  let r (x : State) : Nat := x.getFS u sel ring
  ifThen (e t && (!e s || r s != r t)) (s.ringOn (r t) && s.ringType (r t) == ty)

/-! ### Performance counters (R359, R360) -/

/-- An event of Table 10 for a unit: whether it counts occupancy, and whether it offers the class, the privilege and
master, and the range filter. Event 0 names no event. -/
def eventKind (u ev : Nat) : Option (Bool × Bool × Bool × Bool) :=
  let count (c m r : Bool) : Option (Bool × Bool × Bool × Bool) := some (false, c, m, r)
  let level : Option (Bool × Bool × Bool × Bool) := some (true, false, false, false)
  match ev with
  | 0 | 1 | 2 | 3 => count false false false
  | 4 => level
  | 5 => count true false false
  | _ =>
    match kindOf u, ev with
    | some .adm, 0x100 | some .adm, 0x101 | some .lkp, 0x100 | some .lkp, 0x101 | some .rsv, 0x100 | some .egr, 0x100
    | some .engine, 0x100 | some .cluster, 0x100 | some .bsn, 0x100 | some .tmq, 0x100 => count true false false
    | some .engine, 0x101 => count false false false
    | some .lkp, 0x102 | some .rsv, 0x101 | some .engine, 0x102 | some .cluster, 0x101 | some .bsn, 0x101
    | some .tmq, 0x101 | some .dmc, 0x102 => level
    | some .dmc, 0x100 | some .dmc, 0x101 => count true false true
    | some .hif, 0x100 | some .hif, 0x101 | some .tableGroup, 0x100 => count true true true
    | some .hif, 0x102 => count false true false
    | some .mover, 0x100 => count false false true
    | _, _ => none

/-- PMC_CTL of counter `k`. -/
def pmcCtlOk (t : State) (u k : Nat) : Bool :=
  let g (f : Fld) : Nat := t.getF u (f.i k)
  let mode := g F.PMC_CTL_MODE
  let filters := g F.PMC_CTL_CLASS + g F.PMC_CTL_CLASS_EN + g F.PMC_CTL_RANGE_EN + g F.PMC_CTL_RANGE + g F.PMC_CTL_PRIV_EN +
    g F.PMC_CTL_PRIV + g F.PMC_CTL_MASTER_EN
  ifThen (g F.PMC_CTL_CHAIN == 1) (k % 2 == 1 && g F.PMC_CTL_EVENT == 0 && mode == 0) && (mode == 1 || filters == 0) &&
  (match eventKind u (g F.PMC_CTL_EVENT) with
   | none => false
   | some (level, cls, who, range) =>
     (mode == 2) == level && ifThen (g F.PMC_CTL_CLASS_EN == 1) cls && ifThen (g F.PMC_CTL_RANGE_EN == 1) range &&
     ifThen (g F.PMC_CTL_PRIV_EN == 1 || g F.PMC_CTL_MASTER_EN == 1) who)

/-- The registers of the performance counters. -/
def pmcOk (s t : State) (u off : Nat) : Bool :=
  let k := (off - 0xE80) / 16
  let mode := t.getF u (F.PMC_CTL_MODE.i k)
  match (off - 0xE80) % 16 with
  | 0 => pmcCtlOk t u k
  | 4 => (mode == 1 || t.getF u (F.PMC_ARG_MASTER.i k) == 0) && (mode == 2 || t.getF u (F.PMC_ARG_THRESH.i k) == 0)
  | _ => s.getF u (F.PMC_CTL_EN.i k) == 0

/-! ### Rings and functions (R66, R71, R72, R463) -/

/-- R72: a function's ring range. -/
def fnRingsOk (s t : State) (m : Nat) : Bool :=
  let base (x : Nat) : Nat := t.getFS uHIF x F.HIF_FN_RINGS_BASE
  let count (x : Nat) : Nat := t.getFS uHIF x F.HIF_FN_RINGS_COUNT
  let owned := (s.hif.rings.map (·.1)).filter fun r => s.ringOwner r == some m && s.ringOn r
  decide (base m + count m ≤ 32768) && decide (count m ≤ (if isPF m then 32768 else 8192)) && owned.isEmpty &&
  masters.all fun x => x == m || count x == 0 || count m == 0 ||
    decide (base x + count x ≤ base m) || decide (base m + count m ≤ base x)

/-- Registers of HIF. -/
def hifOk (s t : State) (sel off : Nat) : Bool :=
  let g (f : Fld) : Nat := t.getFS uHIF sel f
  match off with
  | 0x104 => !s.ringOn sel
  | 0x108 =>
    let n := g F.RING_SIZE_RING_LOG2
    if n = s.ringLog sel then n == 0 || (6 ≤ n && n ≤ 16)
    else if s.ringOn sel then n == 0 else s.enableOk sel n
  | 0x10C | 0x110 | 0x114 | 0x118 | 0x11C => !s.ringOn sel
  | 0x120 =>
    let en := g F.RING_INT_EN
    let v := g F.RING_INT_VECTOR
    match s.ringOwner sel with
    | none => en == 0 && v == 0
    | some m => decide (v < tableSize m) && !(en == 1 && ringClass (s.ringType sel) == 1)
  | 0x140 => masters.contains (t.getF uHIF F.HIF_FN_SEL_MASTER)
  | 0x144 => fnRingsOk s t sel
  | 0x164 =>
    let live (x : State) : Bool := x.getFS uHIF sel F.HIF_EVT_ROUTE_EN == 1 && x.getFS uHIF sel F.HIF_EVT_ROUTE_DEFAULT == 0
    let r (x : State) : Nat := x.getFS uHIF sel F.HIF_EVT_ROUTE_RING
    ifThen (live t && (!live s || r s != r t)) (s.ringOn (r t) && s.ringType (r t) == 0x10)
  | _ => true

/-! ### Table group and CAM (R130–R132, R162, R176–R192, R196, R463) -/

/-- R130: the segments of a key definition lie in the key view and total at most `max`. -/
def segsOk (segs : List (Nat × Nat)) (max : Nat) : Bool :=
  (segs.all fun x => decide (x.1 + x.2 ≤ 160)) && decide (segTotal segs ≤ max)

/-- R130: no enabled lookup of profile `p` names a key type without bytes. -/
def lookupsNamed (t : State) (p : Nat) : Bool :=
  let some_ (k : Nat) : Bool := segTotal (t.keySegs k) != 0
  let g (f : Fld) : Nat := t.getF uTG (f.i p)
  ifThen (g F.LKP_SET_A_EM0_EN == 1) (some_ (g F.LKP_SET_A_EM0_TYPE)) && ifThen (g F.LKP_SET_A_EM1_EN == 1) (some_ (g F.LKP_SET_A_EM1_TYPE)) &&
    ifThen (g F.LKP_CAM_SET_EN == 1) (some_ (g F.LKP_CAM_SET_KEY_TYPE))

/-- LKP_KEYDEF of key type `k`. -/
def keydefOk (t : State) (k : Nat) : Bool :=
  segsOk (t.keySegs k) (if t.keyWide k then 40 else 8) && (List.range 64).all (lookupsNamed t)

/-- LKP_SET_A of profile `p`. -/
def lkpSetOk (t : State) (p : Nat) : Bool :=
  let af := t.getF uTG (F.LKP_SET_A_LPM_AF.i p)
  let o := t.getF uTG (F.LKP_SET_A_LPM_ADDR_OFF.i p)
  lookupsNamed t p && decide (o ≤ (if af = 1 then 156 else if af = 2 then 144 else 0))

/-- LKP_CAM_SET of profile `p` (R186). -/
def camSetOk (t : State) (p : Nat) : Bool :=
  let g (f : Fld) : Nat := t.getF uTG (f.i p)
  let c := g F.LKP_CAM_SET_TABLE
  let n := segTotal (t.keySegs (g F.LKP_CAM_SET_KEY_TYPE))
  ifThen (g F.LKP_CAM_SET_EN == 1) (t.camCfg c F.CAM_TBL_CFG_EN == 1 && n != 0 && decide (n ≤ t.camKeyLen c))

/-- SIV_KEYDEF `k` (R182). -/
def sivKeydefOk (s t : State) (k : Nat) : Bool :=
  segsOk (t.sieveSegs k) 40 && !(s.sieveRules.any fun r => s.getFS uTG r.2 F.SIV_GRP_CFG_KEYDEF == k)

/-- Registers of the table group. -/
def tgOk (s t : State) (sel off : Nat) : Bool :=
  let noRules : Bool := !(s.sieveRules.any fun r => r.2 == sel)
  if off = 0x100 then [0x10, 0x12, 0x18, 0x19, 0x1A].contains (t.getF uTG F.TBL_SEL_TABLE)
  else if off = 0x120 then s.validCount 0x10 == 0
  else if 0x200 ≤ off ∧ off < 0x400 then keydefOk t ((off - 0x200) / 8)
  else if 0x400 ≤ off ∧ off < 0x600 then off % 8 != 0 || lkpSetOk t ((off - 0x400) / 8)
  else if 0x700 ≤ off ∧ off < 0x800 then camSetOk t ((off - 0x700) / 4)
  else if off = 0x818 then
    let x := t.getF uTG F.GEN_STAGED_SEL_TABLE
    tblGen x && x != 0x13
  else if 0x900 ≤ off ∧ off < 0x980 then sivKeydefOk s t ((off - 0x900) / 8)
  else if 0x980 ≤ off ∧ off < 0xAC0 then
    let i := (off - 0x980) / 4
    ifThen (t.getF uTG (F.SIV_SET_EN.i i) == 1) (segTotal (t.sieveSegs (t.getF uTG (F.SIV_SET_KEYDEF.i i))) != 0)
  else if 0xAC4 ≤ off ∧ off < 0xAF0 then noRules
  else if off = 0xB00 then s.sieveRules.isEmpty
  else if off = 0xB40 then decide (t.getF uTG F.RSV_LRN_NH_BASE_BASE ≤ 1048320)
  else if off = 0xB44 then namesRing s t uTG 0 F.RSV_TTL_CFG_PUNT F.RSV_TTL_CFG_RING 2
  else if 0xC00 ≤ off ∧ off < 0xE00 then
    let p := (off - 0xC00) / 8
    if off % 8 = 0 then resultOk (t.getF uTG (F.RSV_SET_A_MISS_RESULT.i p))
    else (List.range 6).all fun j => bitsOf (t.getF uTG (F.RSV_SET_B_ORDER.i p)) (3 * j) 3 != 7
  else true

/-- R184: the replicas of CAM table `t` have banks at positions 0 to N − 1, exactly once each, the same N in all. -/
def State.camPlaced (s : State) (t : Nat) : Bool :=
  let at_ (r : Nat) : List Nat := (s.replicaBanks t r).map fun u => s.getF u F.CAM_BANK_CFG_POSITION
  let n := (at_ 0).length
  n != 0 && (List.range (s.replicas t)).all fun r => (at_ r).length == n && (List.range n).all fun p => (at_ r).contains p

/-- CAM_TBL_CFG of table `sel` (R184). -/
def camTblOk (s t : State) (sel off : Nat) : Bool :=
  if off = 0x104 then s.camCfg sel F.CAM_TBL_CFG_EN == 0 && ifThen (t.camCfg sel F.CAM_TBL_CFG_EN == 1) (t.camPlaced sel)
  else true

/-- CAM_BANK_CFG (R184, R192): no bank of an enabled table changes or joins, at most 8 banks verify. -/
def camBankOk (s t : State) (u off : Nat) : Bool :=
  let used (x : State) : Bool :=
    x.bit u F.CAM_BANK_CFG_EN && s.camCfg (x.getF u F.CAM_BANK_CFG_TABLE) F.CAM_TBL_CFG_EN == 1
  let verify := (camBanks ++ (List.range 4).map fun h => uCB h 16).filter fun b => t.bit b F.CAM_BANK_CFG_VERIFY
  off != 0x100 || (!used s && !used t && decide (verify.length ≤ 8))

/-! ### DRAM, deep buffer, pages (R274, R308, R329, R341, R343) -/

/-- Bytes of a channel's deep-buffer region. -/
def State.deepLen (s : State) (ch : Nat) : Nat := s.poolBlocks ch 0 * 256 + s.poolBlocks ch 1 * 2048 + s.poolBlocks ch 2 * 10240

def State.capBytes (s : State) (ch : Nat) : Nat := s.getF (uDMC ch) F.DMC_CFG_CAP_GIB * 2 ^ 30

/-- R329: the share of member channel `ch` is clear of its deep-buffer region. -/
def State.shareClear (s : State) (ch : Nat) : Bool :=
  let b := s.getF (uDMC ch) F.DMC_ILV_BASE_BASE_GIB * 2 ^ 30
  let n := s.getF uDRM F.DRM_ILV_CFG_SIZE_GIB * 2 ^ 30
  s.deepLen ch == 0 || decide (b + n ≤ s.deepBase ch) || decide (s.deepBase ch + s.deepLen ch ≤ b)

/-- R329: the share of member channel `ch` stays in its DRAM and clear of its deep-buffer region. -/
def State.shareOk (s : State) (ch : Nat) : Bool :=
  decide ((s.getF (uDMC ch) F.DMC_ILV_BASE_BASE_GIB + s.getF uDRM F.DRM_ILV_CFG_SIZE_GIB) * 2 ^ 30 ≤ s.capBytes ch) && s.shareClear ch

/-- R329: a write to DRM_ILV_CFG or a member's DMC_ILV_BASE that gives the shares of `moved`. -/
def ilvOk (s t : State) (moved : List Nat) : Bool :=
  let ch := t.ilvChannels
  !((s.ilvChannels ++ ch).any fun c => s.ust (uDMC c) == 4) && (moved.filter ch.contains).all t.shareOk &&
    (ch.isEmpty == (t.getF uDRM F.DRM_ILV_CFG_SIZE_GIB == 0))

/-- R274, R329: a write to a channel's deep-buffer region. -/
def deepOk (s t : State) (ch : Nat) : Bool :=
  let same : Bool := s.deepBase ch == t.deepBase ch && (List.range 3).all fun p => s.poolBlocks ch p == t.poolBlocks ch p
  same || (s.getFS uBPM ch F.BPM_CH_STATUS_USED == 0 &&
    (t.deepLen ch == 0 || (decide (t.deepLen ch ≤ 2 ^ 33) && decide (t.deepBase ch + t.deepLen ch ≤ t.capBytes ch))) &&
    ifThen (t.ilvChannels.contains ch) (t.shareClear ch))

/-- Bytes of the interleaved space (R330). -/
def State.ilvBytes (s : State) : Nat := s.ilvChannels.length * s.getF uDRM F.DRM_ILV_CFG_SIZE_GIB * 2 ^ 30

/-- Registers of a TMQ (R308, R463, Table 7 of spec/13_traffic_manager.md). -/
def tmqOk (s t : State) (u off : Nat) : Bool :=
  let g (f : Fld) : Nat := t.getF u f
  if off = 0x100 ∨ off = 0x104 ∨ off = 0x108 then
    let n := g F.TMQ_PAGE_COUNT_PAGES * 256
    s.getF u F.TMQ_PAGE_USED_PAGES == 0 &&
      (n == 0 || decide (g F.TMQ_PAGE_BASE_LO_ADDR * 4096 + g F.TMQ_PAGE_BASE_HI_ADDR * 2 ^ 32 + n ≤ s.ilvBytes))
  else if off = 0x114 then namesRing s t u 0 F.TMQ_TELEM_CFG_EN F.TMQ_TELEM_CFG_RING 0x15
  else if 0x200 ≤ off ∧ off < 0x600 then
    let l := (off - 0x200) / 16
    let on : Bool := g (F.TMQ_PORT_CFG_SHAPE_EN.i l) == 1
    let within (v lo hi : Nat) : Bool := if on then decide (lo ≤ v) && decide (v ≤ hi) else v == 0
    if off % 16 = 4 then within (g (F.TMQ_PORT_RATE_RATE_KBPS.i l)) 1 1600000000
    else if off % 16 = 8 then within (g (F.TMQ_PORT_BURST_BYTES.i l)) 64 16777216
    else true
  else true

/-- Registers of a DMC (R329, R341). -/
def dmcOk (s t : State) (u off new : Nat) : Bool :=
  let ch := u - 0x1101
  if off = 0x108 then ifThen (s.ilvChannels.contains ch) (ilvOk s t [ch])
  else if off = 0x200 then
    ifThen (bitsOf new 31 1 == 1) (!s.bit u F.DMC_TRN_CTL_GO && (s.ust u == 2 || s.ust u == 3))
  else true

/-- Registers of a mover (R343, R347). -/
def moverOk (s t : State) (u off : Nat) : Bool :=
  let g (f : Fld) : Nat := t.getF u f
  if off = 0x100 then
    let r := g F.MV_CFG_RING
    s.ringType r == 6 && (List.range 32).all fun m => uMV m == u || s.getF (uMV m) F.MV_CFG_RING != r
  else if off = 0x104 then
    let mode := g F.MV_TRIG_MODE
    (mode == 2 || g F.MV_TRIG_SRC == 0) && (mode == 1) == (g F.MV_TRIG_PERIOD != 0)
  else true

/-! ### Ports, lanes, fabric, basin (R94, R96, R97, R233, R311, R463) -/

/-- Registers of a MAC. -/
def macOk (s t : State) (u off : Nat) : Bool :=
  let b := (u - 0x200) / 16
  if off = 0x100 then
    !((List.range 8).any fun i => s.mac (8 * b + i) F.PORT_CTL_ADMIN_UP == 1) &&
      !(s.lineCard && decide (16 ≤ b) && t.macMode b != 0)
  else if 0x200 ≤ off ∧ off < 0x400 then
    let p := 8 * b + (off - 0x200) / 0x40
    if off % 0x40 = 0 then
      ifThen (t.mac p F.PORT_CTL_ADMIN_UP == 1) (s.portExists p && (modeFec (s.macMode b)).contains (t.mac p F.PORT_CTL_FEC))
    else if off % 0x40 = 0x10 then decide (t.mac p F.PORT_FC_THR_XON_CELLS < t.mac p F.PORT_FC_THR_XOFF_CELLS)
    else true
  else true

/-- R311: FAB_MODE. -/
def fabModeOk (s : State) : Bool :=
  let off (u : Nat) : Bool := s.stateView treeDepth u == 0
  !s.fab.modeSet && (List.range 32).all (fun p => off (uPB p)) && (List.range 8).all (fun n => off (uCRS n)) &&
    (List.range 4).all fun q => off (uTMQ q)

/-- Registers of BSN. -/
def bsnOk (s t : State) (off : Nat) : Bool :=
  if 0x100 ≤ off ∧ off < 0x200 then
    let v := (off - 0x100) / 16
    decide (t.getF uBSN (F.BSN_VC_CFG_LOW_CELLS.i v) < t.getF uBSN (F.BSN_VC_CFG_HIGH_CELLS.i v))
  else if off = 0x644 then namesRing s t uBSN 0 F.BSN_CAPTURE_CFG_EN F.BSN_CAPTURE_CFG_RING 0x17
  else if off = 0x650 ∨ off = 0x654 then namesRing s t uBSN 0 F.BSN_SAMPLE_CFG_EN F.BSN_SAMPLE_RING_RING 2
  else true

/-- Depth limits of a queue profile (Table 2 of spec/13_traffic_manager.md). -/
def profOk (t : State) (off : Nat) : Bool :=
  let g (f : Fld) : Nat := t.getF uTMG (f.i ((off - 0x100) / 0x20))
  if off % 0x20 < 8 ∨ 0x10 < off % 0x20 then true
  else decide (g F.TM_PROF_LIM_Y_CELLS ≤ g F.TM_PROF_LIM_G_CELLS) && decide (g F.TM_PROF_LIM_R_CELLS ≤ g F.TM_PROF_LIM_Y_CELLS)

/-! ### DEV, PLN, FLT, TAL, TWN, check units (R361–R367, R380–R386, R394, R402–R408, R442) -/

/-- R394: a power command fits the state. -/
def powerCmdOk (s : State) (cmd : Nat) : Bool :=
  let st := s.getF uDEV F.DEV_POWER_STATUS_STATE
  match cmd with
  | 1 => st == 2
  | 2 => st == 0 || st == 1
  | 3 => st == 0 || st == 1 || st == 2
  | _ => false

/-- R383: FOOT_CMD EXIT is held up by an unmasked source of severity 3 or by a standing cause of PLN source 0 or 1. -/
def State.exitHeld (s : State) : Bool :=
  let bad (u : Nat) : Bool := (List.range 16).any fun i =>
    bitsOf (s.getF u F.UCB_FAULT_SUM_SRC) i 1 == 1 && bitsOf (s.getF u F.UCB_FAULT_MASK_MASK) i 1 == 0 && s.sevOf u i == 3
  s.pwr.wdnLost || s.pwr.thermFoot || ((s.regs.filter fun e => decide (e.1 < 2 ^ 26) && e.1 % 4096 == 0x18).any fun e => bad (e.1 / 4096))

/-- FOOT_CMD (R380, R383). -/
def footCmdOk (s : State) (cmd : Nat) : Bool :=
  if cmd = 1 then !s.footing else s.footing && !s.bit uFLT F.FOOT_STATUS_EXIT_PENDING && !s.exitHeld

/-- TWN_CMD (R442). -/
def twnCmdOk (s : State) (cmd : Nat) : Bool :=
  match cmd with
  | 1 => s.twnState == 0 && s.getF uTWN F.TWN_CFG_MODE != 0
  | 2 => s.twnState != 0
  | 3 => s.twnState == 4 && s.twnRole == 2
  | 4 => s.twnState == 3 && s.twnRole == 1
  | _ => false

/-- PLN_TSET as a time. -/
def State.tset (s : State) : Nat := s.getF uPLN F.PLN_TSET_LO + s.getF uPLN F.PLN_TSET_HI * 2 ^ 32

/-- TIME of comparator `k`. -/
def State.cmpTime (s : State) (k : Nat) : Nat := s.getF uPLN (F.PLN_CMP_LO_TIME.i k) + s.getF uPLN (F.PLN_CMP_HI_TIME.i k) * 2 ^ 32

/-- PLN_CMP_CTL of comparator `k` (R408). -/
def cmpOk (t : State) (k : Nat) : Bool :=
  let w := t.getF uPLN (F.PLN_CMP_CTL_WIDTH_US.i k)
  let per := t.getF uPLN (F.PLN_CMP_PERIOD_NS.i k)
  (t.getF uPLN (F.PLN_CMP_CTL_OUT.i k) == 0) == (w == 0) &&
    ifThen (t.getF uPLN (F.PLN_CMP_CTL_EN.i k) == 1) (decide (t.ns ≤ t.cmpTime k) && (per == 0 || decide (w * 1000 < per)))

/-- Registers of PLN; `new` is the value written. -/
def plnOk (s t : State) (off new : Nat) : Bool :=
  let v := signedOf new 32
  match off with
  | 0x114 => ifThen (bitsOf new 31 1 == 1)
      (!s.bit uPLN F.PLN_TIME_CTL_DONE && (List.range 8).all (fun n => s.stateView treeDepth (uCRS n) == 0) && decide (s.clk.now ≤ s.tset * 65536))
  | 0x118 => decide (-500000 ≤ v) && decide (v ≤ 500000)
  | 0x11C => s.clk.slew == 0 && decide (-1000000000 ≤ v) && decide (v ≤ 1000000000)
  | 0x140 => decide (t.getF uPLN F.PLN_GOV_CFG_LIMIT_W ≤ t.getF uPLN F.PLN_GOV_CFG_PEAK_W)
  | _ => if 0x200 ≤ off ∧ off < 0x280 ∧ off % 16 = 12 then cmpOk t ((off - 0x200) / 16) else true

/-- Registers of TAL. -/
def talOk (s t : State) (off : Nat) : Bool :=
  match off with
  | 0x100 => namesRing s t uTAL 0 F.TAL_CFG_EN F.TAL_CFG_RING 0x14
  | 0x108 => namesRing s t uTAL 0 F.TAL_CINDER_CFG_EN F.TAL_CINDER_CFG_RING 0x11
  | 0x140 => decide (t.getF uTAL F.TAL_DROP_SEL_SCOPE ≤ 747)
  | 0x150 | 0x154 =>
    decide (t.getF uTAL F.TAL_FLOW_BASE_LO_ADDR * 4096 + t.getF uTAL F.TAL_FLOW_BASE_HI_ADDR * 2 ^ 32 + 2 ^ 25 ≤ s.ilvBytes)
  | _ => true

/-- Registers of a check unit (R384–R386). -/
def cuOk (s t : State) (u off : Nat) : Bool :=
  if off = 0x100 then decide (u < 0x1301 + 56) && ifThen (s.bit u F.CU_CFG_EN) (!t.bit u F.CU_CFG_EN)
  else if off = 0x140 then
    let x := t.getF u F.CU_ALIVE_CFG_STREAM
    decide (u < 0x1301 + 56) && (decide (x ≤ 1) || (decide (0x10 ≤ x) && decide (x ≤ 0x2F)))
  else true

/-- A severity (R367). -/
def sevOk (t : State) (u src : Nat) : Bool :=
  match kindOf u with
  | none => true
  | some k =>
    let v := t.sevOf u src
    match srcDefault k src with
    | none => v == 0
    | some (_, floor) => decide (floor ≤ v) && !(v == 2 && (isCoreKind k || k == .bsn || k == .tableGroup))

/-- R53: no mask bit for a source of severity 3 or 4. -/
def maskOk (t : State) (u : Nat) : Bool :=
  (List.range 16).all fun i => ifThen (bitsOf (t.getF u F.UCB_FAULT_MASK_MASK) i 1 == 1) (decide (t.sevOf u i < 3))

/-- Every check across fields for a write of `new` to a BAR0 register. -/
def crossOk (s t : State) (u sel off new : Nat) : Bool :=
  if off = 0x1C then maskOk t u
  else if nsrc u = 16 ∧ 0xE00 ≤ off ∧ off < 0xE80 then off % 8 != 0 || sevOk t u ((off - 0xE00) / 8)
  else if nctr u = 8 ∧ 0xE80 ≤ off ∧ off < 0xF00 then pmcOk s t u off
  else if off < 0x100 then true
  else match kindOf u with
    | some .dev => if off = 0x10C then powerCmdOk s (new % 4) else true
    | some .pln => plnOk s t off new
    | some .hif => hifOk s t sel off
    | some .flt => if off = 0x140 then footCmdOk s (new % 4) else if off = 0x148 then !s.keyWide (t.getF uFLT F.FOOT_CFG_KEY_TYPE) else true
    | some .tal => talOk s t off
    | some .twn => if off = 0x114 then twnCmdOk s (new % 8) else true
    | some .mac => macOk s t u off
    | some .lane | some .twinLane => if off = 0x10C then ifThen (t.bit u F.LANE_TEST_EN) (s.ust u == 3) else true
    | some .tableGroup => tgOk s t sel off
    | some .lrn => if off = 0x100 ∨ off = 0x108 then namesRing s t u 0 F.LRN_CFG_EN F.LRN_RING_RING 0x12 else true
    | some .camGroup => camTblOk s t sel off
    | some .camBank => camBankOk s t u off
    | some .cluster =>
      if off = 0x100 then
        namesRing s t u 0 F.EC_DEBUG_RING_EN F.EC_DEBUG_RING_RING 0x16 &&
          ifThen (t.bit u F.EC_DEBUG_RING_EN && !(s.bit u F.EC_DEBUG_RING_EN && s.getF u F.EC_DEBUG_RING_RING == t.getF u F.EC_DEBUG_RING_RING))
            (s.ringOwner (t.getF u F.EC_DEBUG_RING_RING) == some 1)
      else if 0x140 ≤ off ∧ off < 0x1C8 then
        let k := (off - 0x140) / 8
        namesRing s t u 0 (F.EC_JOB_CFG_A_PUNT.i k) (F.EC_JOB_CFG_B_RING.i k) 2
      else true
    | some .csh =>
      if 0x100 ≤ off ∧ off < 0x200 then
        let x := s.chan ((u - 0x400) / 64) ((off - 0x100) / 4)
        x.reserved.isEmpty && x.msgs.isEmpty
      else true
    | some .bsn => bsnOk s t off
    | some .bpm => if 0x104 ≤ off ∧ off < 0x118 then deepOk s t sel else true
    | some .tmGroup => if 0x100 ≤ off ∧ off < 0x900 then profOk t off else true
    | some .tmq => tmqOk s t u off
    | some .fab =>
      if off = 0x100 then fabModeOk s
      else if off = 0x110 then decide (t.getF uFAB F.FAB_RX_THR_XON_CELLS < t.getF uFAB F.FAB_RX_THR_XOFF_CELLS)
      else true
    | some .dramGroup => if off = 0x100 then ilvOk s t (List.range 12) else true
    | some .dmc => dmcOk s t u off new
    | some .mover => moverOk s t u off
    | some .checkUnit => cuOk s t u off
    | _ => true

end Sys2Proof.Machine
end

