-- ==== Sys2Proof/Machine/Twin.lean ====
section
/-!
DEFINITION. The Evoa twin: messages received and their order (R430, R431), heartbeat and loss (R432, R433), what a follower
applies (R434–R436), pairing and resynchronisation (R437), TWIN_HOLD and takeover (R438–R442). A message comes as the bytes
that arrive. The bodies of SNAPSHOT and RESYNC_ENTRY and the numbering of HELLO are DESIGN CHOICES (log entry 43).
-/
namespace Sys2Proof.Machine

/-- TWIN_ID of the strap. -/
def State.twinId (s : State) : Nat := s.getF uTWN F.TWN_STATUS_TWIN_ID

/-- Heartbeats are exchanged: RESYNC and PAIRED. -/
def State.twinPaired (s : State) : Bool := s.twnState == 2 || s.twnState == 3

/-! ### Sending -/

/-- Send the messages that wait, and then the snapshot's, while the store has room (R431, R436). -/
def State.twinPump (s : State) : State :=
  let room := 4096 - s.twin.store.length
  let a := s.twin.todo.take room
  let b := s.twin.snap.take (room - a.length)
  let s := s.modTwin fun w => { w with todo := w.todo.drop a.length, snap := w.snap.drop b.length }
  let s := s.each a fun s m => s.twinPush m.1 m.2
  s.each b fun s m => s.twinPush 6 m

/-- R436: what is left of a sample is abandoned and counted. -/
def State.dropSnap (s : State) : State :=
  (s.addF uTWN F.TWN_SNAP_ABANDON s.twin.snap.length).modTwin fun w => { w with snap := [] }

/-- R433: the peer is lost. Messages received in order still take effect; a COMMIT that waits switches alone (R174); a
follower's window starts (R440). -/
def State.twinLose (s : State) (reason : Nat) : State :=
  if !s.twinPaired then s
  else
    let missed := (s.ns - s.twin.lastHb - 1) / 10000
    let s := ((s.addF uTWN F.TWN_HB_MISSED missed).setF uTWN F.TWN_STATUS_STATE 4).dropSnap
    let keep (m : TwinMsg) : Bool := m.seq ≤ s.twin.got && (m.type == 1 || m.type == 2 || m.type == 6)
    let s := s.modTwin fun w => { w with
      todo := [], store := [], held := w.held.filter keep, okSent := none
      window := if s.twnRole = 2 then some s.ns else none, low := false, released := false }
    let s := s.event 0xE1 0x420 uTWN reason s.twin.lastHb
    if s.gen.commit.isSome ∧ !s.gen.twinOk then
      s.modGen fun g => { g with alone := true, twinOk := true, twinOkAt := s.ns }
    else s

/-- Resend every message kept, from the oldest; the eighth resend of one declares the peer lost (R431). -/
def State.twinResend (s : State) : State :=
  let ms := s.twin.store
  let s := s.modTwin fun w => { w with store := w.store.map fun m => { m with resent := m.resent + 1 }, ackAt := s.ns }
  let s := s.each ms fun s m =>
    let a := s.twin.alive
    let s := s.modTwin fun w => { w with alive := w.alive + 1 }
    (s.addF uTWN F.TWN_RETRANS 1).twinPut (twinBytes m.type a m.seq s.twin.got m.body) false
  if ms.any fun m => 7 ≤ m.resent then s.twinLose 1 else s

/-- TWIN_RESEND_TIMEOUT: tRETX without any advance of ACK. -/
def State.twinRetx (s : State) : State :=
  if s.twinPaired ∧ !s.twin.store.isEmpty then (s.reach (s.twin.ackAt + 20000)).twinResend else s

/-- HEARTBEAT_SEND at the next multiple of tHB (R432). -/
def State.heartbeatSend (s : State) : State :=
  if !s.twinPaired then s
  else
    let s := s.reach ((s.ns / 10000 + 1) * 10000)
    let w := s.getF uDEV F.DEV_POWER_STATUS_STATE
    let b := s.twnRole * 2 ^ 126 + s.getF uTWN F.TWN_STATUS_HOLD_OUT * 2 ^ 125 + (if s.footing then 2 ^ 124 else 0) + w * 2 ^ 121 +
      s.getF uTG F.GEN_STATUS_COMMIT_SEQ * 2 ^ 96 + s.clk.wpNum % 2 ^ 32 * 2 ^ 64
    let s := s.twinSendPlain 0 s.twin.hbAlive (beBytes b 16)
    s.modTwin fun w => { w with hbAlive := w.hbAlive + 1 }

/-- TWIN_LOST: tLOST without a valid HEARTBEAT (R433). -/
def State.twinTimeout (s : State) : State :=
  if s.twinPaired then (s.reach (s.twin.lastHb + 30000)).twinLose 0 else s

/-! ### Pairing (R437, R442) -/

/-- The HELLO payload's low 24 bits. -/
def State.helloBits (s : State) : Nat :=
  s.getF uPLN F.PLN_WP_CFG_PERIOD_US * 256 + s.getF uTWN F.TWN_CFG_MODE * 64 + s.getF uTWN F.TWN_CFG_LEAD_PREF * 32 +
    s.twinId * 16 + s.getF uTWN F.TWN_STATUS_HOLD_OUT * 8

/-- Send HELLO: message 1 of a pairing, repeated as it is (log entry 43). -/
def State.sendHello (s : State) : State :=
  let a := s.twin.alive
  let s := s.modTwin fun w => { w with alive := w.alive + 1, helloAt := s.ns }
  s.twinPut (twinBytes 9 a 1 s.twin.got (beBytes s.helloBits 8)) false

/-- The link starts or stops: what belongs to the pairing is forgotten, not the lanes, the ALIVE counts, the squelch, nor a
COMMIT_GO whose switch is still to come (R435). -/
def State.twinFresh (s : State) : State :=
  let s := s.dropSnap
  let w := s.twin
  { s with twin := { ({} : Twin) with
    lanes := w.lanes, alive := w.alive, hbAlive := w.hbAlive, squelched := w.squelched, goAt := w.goAt, adaptAt := w.adaptAt } }

/-- PAIR. A standby that pairs anew is squelched no more, until its role is decided (R442). -/
def State.pair (s : State) : State :=
  let s := s.twinFresh.modTwin fun w => { w with next := 2, squelched := false }
  (s.setF uTWN F.TWN_STATUS_STATE 1).sendHello

/-- HELLO_RESEND. -/
def State.helloResend (s : State) : State :=
  if s.twnState = 1 then (s.reach (s.twin.helloAt + 10000)).sendHello else s

/-- Pairing ends: EVT_TWIN_PAIRED with a failure code and the role. -/
def State.evtPaired (s : State) (code : Nat) : State := s.event 0xE0 0x420 uTWN (s.twnRole * 16 + code) 0

/-- Whether this device leads beside a peer whose HELLO bits are `b`. -/
def State.leads (s : State) (b : Nat) : Bool :=
  let mine := s.getF uTWN F.TWN_STATUS_HOLD_OUT
  let pref := s.getF uTWN F.TWN_CFG_LEAD_PREF
  if mine ≠ bitsOf b 3 1 then mine == 1
  else if pref ≠ bitsOf b 5 1 then pref == 1
  else s.twinId == 0

/-- Tables of the mirror set. -/
def mirrorTids : List Nat := (List.range 0x59).filter mirroredTable

/-- The follower's mirrored tables become empty in both generations, nothing staged. -/
def State.clearMirrored (s : State) : State :=
  let s := s.keepTbl fun t _ => !mirroredTable t
  let s := s.each (List.range 8) fun s g =>
    (s.setF uTG (F.EM_SEG_AREA_A.i g) g).setF uTG (F.EM_SEG_AREA_B.i g) g
  let s := (s.setF uTG F.EM_STATUS_REHASH_BUSY 0).setF uTG F.GEN_STATUS_STATE 0
  (s.modGen fun g => { g with commit := none, commitHead := none, abort := none, rehash := none, rehashOld := none, seeds := [] }).modTwin
    fun w => { w with goAt := false }

/-- A RESYNC_ENTRY body: table and index, then the image's bytes (log entry 43). -/
def resyncBody (tid idx : Nat) (image : List Byte) : Nat × List Byte :=
  (7, beBytes (tid * 2 ^ 56 + idx) 8 ++ linkImage tid image)

/-- Table 0 of a RESYNC_ENTRY, index 0–7: a segment's area and seeds. -/
def State.resyncSegs (s : State) : List (Nat × List Byte) :=
  let a := s.activeGen
  (List.range 8).map fun g =>
    let sd := s.emSeeds g a
    resyncBody 0 g (leBytes (s.emArea g a + sd.1 * 2 ^ 32 + sd.2 * 2 ^ 64) 16)

/-- Table 0, index 8: the lead's ACTIVE and COMMIT_SEQ, which the follower takes after the entries. -/
def State.resyncTail (s : State) : Nat × List Byte :=
  resyncBody 0 8 (leBytes (s.activeGen + s.getF uTG F.GEN_STATUS_COMMIT_SEQ * 2 ^ 32) 8)

/-- The lead's active entries of the mirror set. -/
def State.resyncEntries (s : State) : List (Nat × List Byte) :=
  let a := s.activeGen
  mirrorTids.flatMap fun t =>
    let body (i img : Nat) := resyncBody t i (s.entBytes t img)
    if tblKeyed t then (((s.entries t 0).filter fun e => genValid e.2 a).map fun e => body e.1 (bareImage t e.2))
    else if tblGen t then (((s.entries t a).filter fun e => genValid e.2 a).map fun e => body e.1 (setBitsOf e.2 62 2 0))
    else (s.entries t 0).map fun e => body e.1 e.2

/-- A TABLE_CMD message. -/
def cmdBody (op arg len : Nat) (data : List Byte) : Nat × List Byte := (1, cmdMsg (op * 2 ^ 56 + len) 0 arg data)

/-- Staged changes of a keyed table as commands. -/
def State.stagedKeyed (s : State) (t : Nat) : List (Nat × List Byte) :=
  let a := s.activeGen
  let g := 1 - a
  (s.entries t 0).filterMap fun e =>
    let img := bareImage t e.2
    let b := s.entBytes t img
    let twin := (s.slotsOf t img (if genValid e.2 g then a else g)).map fun i => bareImage t (s.ent t 0 i)
    if genValid e.2 g = genValid e.2 a then none
    else if genValid e.2 g then
      (if twin.isEmpty then some (cmdBody opINSERT (t * 2 ^ 56) b.length b)
       else if twin.contains img then none
       else some (cmdBody opWRITE (t * 2 ^ 56) b.length b))
    else if twin.isEmpty then some (cmdBody opDELETE (t * 2 ^ 56) b.length b)
    else none

/-- Staged changes of an indexed table as commands. -/
def State.stagedIndexed (s : State) (t : Nat) : List (Nat × List Byte) :=
  let a := s.activeGen
  let g := 1 - a
  let w := ((s.entries t g).filter fun e => genValid e.2 g && !(genValid (s.ent t a e.1) a &&
    setBitsOf (s.ent t a e.1) 62 2 0 == setBitsOf e.2 62 2 0)).map fun e =>
      let b := s.entBytes t (setBitsOf e.2 62 2 0)
      cmdBody opWRITE (t * 2 ^ 56 + e.1) b.length b
  let d := ((s.entries t a).filter fun e => genValid e.2 a && !genValid (s.ent t g e.1) g).map fun e =>
    cmdBody opINVAL (t * 2 ^ 56 + e.1) 8 []
  w ++ d

/-- Everything the lead's resynchronisation sends. -/
def State.resyncAll (s : State) : List (Nat × List Byte) :=
  let rehash := match s.gen.rehash with
    | some (seg, seeds, false) => [cmdBody opREHASH (0x10 * 2 ^ 56 + seg * 2 ^ 51) 8 (leBytes seeds 8)]
    | _ => []
  s.resyncSegs ++ s.resyncEntries ++ [s.resyncTail] ++ rehash ++
    (mirrorTids.flatMap fun t => if !tblGen t then [] else if tblKeyed t then s.stagedKeyed t else s.stagedIndexed t) ++ [(8, [])]

/-- The role is decided: the lead drives TWIN_HOLD and resynchronises; the follower clears its tables and, in protect mode,
squelches its port lanes (R437–R439). -/
def State.startResync (s : State) (lead : Bool) : State :=
  let s := (s.setF uTWN F.TWN_STATUS_STATE 2).setF uTWN F.TWN_STATUS_ROLE (if lead then 1 else 2)
  let protect := s.getF uTWN F.TWN_CFG_MODE == 1
  let s := s.modTwin fun w => { w with got := max w.got 1, lastHb := s.ns, ackAt := s.ns, squelched := protect && !lead }
  if lead then
    let s := s.driveHold true
    (s.modTwin fun w => { w with todo := s.resyncAll }).twinPump
  else s.clearMirrored

/-- Why pairing with a peer whose HELLO bits are `b` fails; 0 where it does not (Table 6). -/
def State.helloCode (s : State) (b : Nat) : Nat :=
  let mode := s.getF uTWN F.TWN_CFG_MODE
  if mode = 0 ∨ bitsOf b 6 2 ≠ mode then 1
  else if bitsOf b 4 1 = s.twinId then 2
  else if bitsOf b 8 16 ≠ s.getF uPLN F.PLN_WP_CFG_PERIOD_US then 3
  else if !s.leads b ∧ (List.range 8).any s.courseUp then 4 else 0

/-- R437: a HELLO with ACK `ack` reaches a device that pairs, or one that no longer does. A peer that has received no HELLO
yet (ACK 0) is answered, so that it pairs too; the answer acknowledges the peer's (log entry 43). -/
def State.helloIn (s : State) (b ack : Nat) : State :=
  let answer (s : State) : State := if ack = 0 then (s.modTwin fun w => { w with got := max w.got 1 }).sendHello else s
  if s.twnState ≠ 1 then (if s.twinPaired then answer s else s)
  else if s.helloCode b ≠ 0 then ((answer s).setF uTWN F.TWN_STATUS_STATE 0).evtPaired (s.helloCode b)
  else (answer s).startResync (s.leads b)

/-- UNPAIR: mirroring and heartbeats stop; TWIN_HOLD, the ports and the squelch stay as they are. -/
def State.unpair (s : State) : State :=
  (s.twinFresh.setF uTWN F.TWN_STATUS_STATE 0).setF uTWN F.TWN_STATUS_ROLE 0

/-! ### TWIN_HOLD and takeover (R439–R441) -/

/-- A back-off window starts. -/
def State.startWindow (s : State) : State := s.modTwin fun w => { w with window := some s.ns, low := false, released := true }

/-- The filtered TWIN_HOLD line changes level; within a window it was then low at some sample. -/
def State.holdEdge (s : State) (high : Bool) : State :=
  let s := s.setF uTWN F.TWN_STATUS_HOLD_IN (if high then 1 else 0)
  match s.twin.window with
  | some t => if t ≤ s.ns then s.modTwin fun w => { w with low := true } else s
  | none => s

/-- R440: the follower becomes lead. -/
def State.takeOver (s : State) : State :=
  let by_ := if s.twin.released then 1 else 0
  let s := s.driveHold true
  let s := (s.setF uTWN F.TWN_STATUS_ROLE 1).addF uTWN F.TWN_TAKEOVERS 1
  let s := s.modTwin fun w => { w with window := none, squelched := false, okSent := none }
  s.event 0xE2 0x420 uTWN by_ 0

/-- TAKEOVER_WINDOW_END: tHOLDW passes. -/
def State.windowEnd (s : State) : State :=
  match s.twin.window with
  | none => s
  | some t =>
    if s.twnRole ≠ 2 then s.modTwin fun w => { w with window := none }
    else
      let s := s.reach (t + 2000 + 4000 * s.twinId)
      if s.twin.low ∨ s.getF uTWN F.TWN_STATUS_HOLD_IN = 0 then
        let again := if s.twnState = 4 then some (t + 10000) else none
        (s.modTwin fun w => { w with window := again, low := false }).event 0xE3 0x420 uTWN 0 0
      else s.takeOver

/-- TWN_CMD RELEASE on a paired lead (R441). -/
def State.twnRelease (s : State) : State := if s.twnRole = 1 ∧ s.twnState = 3 then s.twinGiveUp else s

/-- A RELEASE reaches a follower (R440). -/
def State.releaseIn (s : State) : State := if s.twnRole = 2 then s.startWindow else s

/-! ### Taking effect in SEQ order (R431, R434–R437) -/

/-- EVT_TWIN_DIVERGED. -/
def State.diverge (s : State) (seq mine lead : Nat) : State :=
  (s.modTwin fun w => { w with diverged := true }).event 0xE4 0x420 uTWN (mine * 256 + lead) seq

/-- R164 holds a mirrored command on the follower. -/
def State.mirrorWaits (s : State) (c : TCmd) : Bool :=
  (s.genState != 0 && ((tblGen c.tid && c.changes) || c.op == opABORT)) || s.gen.abort.isSome

/-- A mirrored command takes effect; its status. -/
def State.mirrorRun (s : State) (c : TCmd) : Nat × State :=
  if c.op = opABORT then
    (if bitsOf (leNat (c.data.take 8)) 0 16 ≠ s.getF uTG F.GEN_STATUS_COMMIT_SEQ then (0x49, s) else (0, s.startAbort twinSrc))
  else match s.cmdCheck c with
    | some st => (st, s)
    | none =>
      if c.op = opREHASH then
        (if s.bit uTG F.EM_STATUS_REHASH_BUSY then (0x45, s)
         else
           let r := (s.setF uTG F.EM_STATUS_REHASH_BUSY 1).rehashRun c.seg (leNat (c.data.take 8)) false
           (r.1.status, r.2))
      else
        let r := s.tableRun c false
        (r.1.status, r.2)

/-- A TABLE_CMD message. -/
def State.applyCmdMsg (s : State) (m : TwinMsg) : Option State :=
  let w (i : Nat) := beNat (sliceBytes m.body (8 * i) 8)
  let c := tcmdOf (w 0) (w 1) (w 2) (linkOperand (bitsOf (w 0) 56 8) (bitsOf (w 2) 56 8) (m.body.drop 32))
  if s.mirrorWaits c then none
  else
    let s := s.modTwin fun w => { w with waitAt := none }
    let r := s.mirrorRun c
    some (if r.1 = m.resent then r.2 else r.2.diverge m.seq r.1 m.resent)

/-- A RESYNC_ENTRY message: written valid in both generations, outside the staging limit. -/
def State.applyResync (s : State) (m : TwinMsg) : State :=
  let h := beNat (m.body.take 8)
  let t := bitsOf h 56 8
  let i := bitsOf h 0 32
  let img := leNat (linkImage t (m.body.drop 8))
  if t = 0 then
    if i < 8 then
      (s.bindSeg i 0 (img % 2 ^ 32) (bitsOf img 32 32) (bitsOf img 64 32)).bindSeg i 1 (img % 2 ^ 32) (bitsOf img 32 32) (bitsOf img 64 32)
    else
      let s := s.each (List.range 8) fun s n => s.setF (uADM n) F.ADM_GEN_STATUS_GEN (img % 2)
      (s.setF uTG F.GEN_STATUS_ACTIVE (img % 2)).setF uTG F.GEN_STATUS_COMMIT_SEQ (bitsOf img 32 16)
  else if !mirroredTable t then s
  else if tblKeyed t then s.putKeyed t i (bothValid img)
  else if tblGen t then (s.putEnt t 0 i (img + validBit 0)).putEnt t 1 i (img + validBit 1)
  else (s.idxWrite t i img false).2

/-- COMMIT_REQ: every earlier message has taken effect. A follower that has diverged, is in footing mode or counts another
COMMIT_SEQ does not confirm (R434, R435). -/
def State.applyReq (s : State) (m : TwinMsg) : Option State :=
  let q := beNat m.body % 65536
  if s.genState ≠ 0 then none
  else if s.twin.diverged ∨ s.footing ∨ q ≠ s.getF uTG F.GEN_STATUS_COMMIT_SEQ then some s
  else some ((s.modTwin fun w => { w with okSent := some q }).twinSend 4 (beBytes q 8))

/-- COMMIT_OK at the lead: the switch is scheduled and COMMIT_GO sent (R174, R435). -/
def State.applyOk (s : State) (m : TwinMsg) : State :=
  let q := beNat m.body % 65536
  if s.gen.commit.isSome ∧ !s.gen.twinOk ∧ q = s.getF uTG F.GEN_STATUS_COMMIT_SEQ then
    (s.modGen fun g => { g with twinOk := true, twinOkAt := s.ns }).twinSend 5 (beBytes q 8)
  else s

/-- COMMIT_GO at the follower: it switches at its next boundary. -/
def State.applyGo (s : State) (m : TwinMsg) : State :=
  if s.twin.okSent = some (beNat m.body % 65536) then
    (s.modTwin fun w => { w with okSent := none, goAt := true }).setF uTG F.GEN_STATUS_STATE 1
  else s

/-- SNAPSHOT: values go to the snapshot region; the last run of a sample sets TWN_SNAP_STATUS (R436). -/
def State.applySnap (s : State) (m : TwinMsg) : State :=
  let h := beNat (m.body.take 8)
  let i := bitsOf h 0 19
  let base := s.getF uTWN F.TWN_SNAP_BASE_LO_ADDR * 8 + s.getF uTWN F.TWN_SNAP_BASE_HI_ADDR * 2 ^ 32
  let vals := m.body.drop 8
  let n := min (vals.length / 8) (0x42C00 - i)
  let bs := (List.range n).flatMap fun k => (sliceBytes vals (8 * k) 8).reverse
  let s := if n = 0 then s else (s.dramWrite (8 * 4096) (base + 8 * i) bs).2
  if bitsOf h 31 1 = 1 then s.setF uTWN F.TWN_SNAP_STATUS_PERIOD (bitsOf h 32 32) else s

/-- A message takes effect; none where it waits. CFG_ENTRIES wait for the boundary. -/
def State.applyMsg (s : State) (m : TwinMsg) : Option State :=
  match m.type with
  | 1 => s.applyCmdMsg m
  | 2 => none
  | 3 => s.applyReq m
  | 4 => some (s.applyOk m)
  | 5 => some (s.applyGo m)
  | 6 => some (s.applySnap m)
  | 7 => some (s.applyResync m)
  | 8 => some ((s.setF uTWN F.TWN_STATUS_STATE 3).evtPaired 0)
  | 10 => some s.releaseIn
  | _ => some s

/-- Messages received in order take effect until one waits. -/
def State.twinApply : Nat → State → State
  | 0, s => s
  | n + 1, s =>
    match s.twin.held with
    | [] => s
    | m :: r =>
      if s.twin.got < m.seq then s
      else match s.applyMsg m with
        | none => s.modTwin fun w => { w with waitAt := some (w.waitAt.getD s.ns) }
        | some t => (t.modTwin fun w => { w with held := r, waitAt := none }).twinApply n

/-- What has been received takes effect as far as it may. -/
def State.twinRun (s : State) : State := s.twinApply (s.twin.held.length + 1)

/-- R164: a mirrored command has waited tGENQ for OPEN. -/
def State.mirrorTimeout (s : State) : State :=
  match s.twin.held, s.twin.waitAt with
  | m :: r, some t =>
    if m.type = 1 then
      let s := s.reach (t + 20000000)
      let s := s.modTwin fun w => { w with held := r, waitAt := none }
      (if m.resent = 0x48 then s else s.diverge m.seq 0x48 m.resent).twinRun
    else s
  | _, _ => s

/-! ### Receiving (R430–R433) -/

/-- A valid header and CRC: TYPE, ALIVE, SEQ, ACK and the payload. -/
structure TwinHdr where
  type : Nat
  alive : Nat
  seq : Nat
  ack : Nat
  body : List Byte
  deriving DecidableEq, Repr

/-- Read a message; none where its CRC is wrong or its header breaks Table 1 or Table 2. -/
def readTwin (m : List Byte) : Option TwinHdr :=
  let n := m.length
  let h := beNat (m.take 8)
  let a := beNat ((m.drop 8).take 8)
  let type := bitsOf h 60 4
  let body := (m.drop 16).take (n - 20)
  if n < 20 ∨ (crc32c 0xFFFFFFFF#32 (m.take (n - 4))).toNat ≠ beNat (m.drop (n - 4)) then none
  else if bitsOf h 48 12 ≠ n - 20 ∨ 1024 < n - 20 ∨ a % 2 ^ 32 ≠ 0 ∨ 12 ≤ type ∨ ((type = 0 ∨ type = 11) ∧ h % 2 ^ 32 ≠ 0) then none
  else some ⟨type, bitsOf h 32 16, bitsOf h 0 32, bitsOf a 32 32, body⟩

/-- ACK covers messages: they are no longer kept, and held ones follow. A lead whose resynchronisation is acknowledged to its
end is PAIRED (R437). -/
def State.ackIn (s : State) (ack : Nat) : State :=
  let left := s.twin.store.filter fun m => ack < m.seq
  let s := if left.length = s.twin.store.length then s else s.modTwin fun w => { w with store := left, ackAt := s.ns }
  let s := s.twinPump
  if s.twnState = 2 ∧ s.twnRole = 1 ∧ s.twin.store.isEmpty ∧ s.twin.todo.isEmpty then (s.setF uTWN F.TWN_STATUS_STATE 3).evtPaired 0
  else s

/-- A HEARTBEAT (R432, R433). -/
def State.heartbeatIn (s : State) (b : List Byte) : State :=
  let n := beNat b
  let s := s.modTwin fun w => { w with lastHb := s.ns }
  let s := ((s.setF uTWN F.TWN_PEER_ROLE (bitsOf n 126 2)).setF uTWN F.TWN_PEER_FOOTING (bitsOf n 124 1)).setF uTWN
    F.TWN_PEER_PEER_SEQ (bitsOf n 96 16)
  if [2, 3, 5].contains (bitsOf n 121 3) then s.twinLose 2 else s

/-- Put a message among those held, SEQ rising. -/
def insertMsg (m : TwinMsg) : List TwinMsg → List TwinMsg
  | [] => [m]
  | h :: r => if m.seq < h.seq then m :: h :: r else h :: insertMsg m r

/-- The highest SEQ received in order. -/
def advanceGot : List TwinMsg → Nat → Nat
  | [], n => n
  | m :: r, n => advanceGot r (if m.seq = n + 1 then n + 1 else n)

/-- A numbered message: a repeat has no effect; a gap sends NAK once and holds what follows (R431). `lead` is the lead's
status of a mirrored command (R434). -/
def State.numbered (s : State) (h : TwinHdr) (lead : Nat) : State :=
  let w := s.twin
  if h.seq ≤ w.got ∨ w.held.any (fun m => m.seq == h.seq) then s
  else
    let held := insertMsg ⟨h.seq, h.type, h.body, lead⟩ w.held
    let got := advanceGot held w.got
    let gap := held.any fun m => got < m.seq
    let s := s.modTwin fun w => { w with held := held, got := got, nakked := gap && w.nakked }
    let s := if gap ∧ !s.twin.nakked ∧ s.twinPaired then
        (s.modTwin fun w => { w with nakked := true, alive := w.alive + 1 }).twinSendPlain 11 s.twin.alive (beBytes (got + 1) 4)
      else s
    s.twinRun

/-- A message arrives; `type` is the TYPE of the command's row and `lead` the status R434 compares. -/
def State.twinIn (s : State) (type : Nat) (m : List Byte) (lead : Nat) : State :=
  if !s.fwdOn then s
  else match readTwin m with
    | none => s.addF uTWN F.TWN_CRC_ERR 1
    | some h =>
      if s.twnState = 0 ∨ h.type ≠ type then s
      else
        let s := s.aliveMessage (if h.type = 0 then 0 else 1) h.alive
        if s.twnState = 4 then s
        else
          let s := if s.twnState = 1 then s else s.ackIn h.ack
          if h.type = 0 then (if s.twinPaired then s.heartbeatIn h.body else s)
          else if h.type = 11 then (if s.twinPaired then s.twinResend else s)
          else if h.type = 9 then s.helloIn (beNat h.body) h.ack
          else s.numbered h lead

/-- TWIN_LANE_DOWN and TWIN_LANE_UP (R430). -/
def State.twinLaneDown (s : State) (l : Nat) : State := if l < 8 then s.twinLaneOut l else s
def State.twinLaneUp (s : State) (l : Nat) : State :=
  if l < 8 ∧ s.laneOk (0x10 + l) then s.setF uTWN F.TWN_STATUS_LANES_UP (setBitsOf (s.getF uTWN F.TWN_STATUS_LANES_UP) l 1 1) else s

/-- R395, R439: the link goes down with FWD, TWIN_HOLD is released, mirroring ends, and a switch that a COMMIT_GO promised is
off: the generation state returns to OPEN. -/
def State.twinOff (s : State) : State :=
  let s := s.driveHold false
  let s := s.each (List.range 8) fun s l => s.twinLaneOut l
  let s := if s.twin.goAt then s.setF uTG F.GEN_STATUS_STATE 0 else s
  let s := s.twinFresh.modTwin fun w => { w with lanes := [], goAt := false }
  (s.setF uTWN F.TWN_STATUS_STATE 0).setF uTWN F.TWN_STATUS_ROLE 0

end Sys2Proof.Machine
end

