-- ==== Sys2Proof/Machine/Power.lean ====
section
/-!
DEFINITION. Power states and their drains (R393–R399), supply, temperature and governor (R400–R403), wear (R404), the
timebase, comparators and captures (R405–R411), and the start of resets (R389, R390, R445).
-/
namespace Sys2Proof.Machine

/-! ### Banked and Plinth-only (R394–R398) -/

/-- DEV_POWER_CMD, accepted: 1 ACTIVE powers FWD and begins the exit from Banked, 2 BANKED and 3 PLINTH_ONLY begin a drain
at the next boundary. -/
def State.powerCmd (s : State) (cmd : Nat) : State :=
  match cmd with
  | 1 => (s.modPwr fun p => { p with fwdOff := false, drainAt := none }).setPower 4
  | 2 => s.setPower 3
  | 3 => s.setPower 5
  | _ => s

/-- R395, R412: the drain begins at the boundary. -/
def State.startDrain (s : State) : State :=
  let st := s.getF uDEV F.DEV_POWER_STATUS_STATE
  if (st = 3 ∨ st = 5) ∧ s.pwr.drainAt.isNone then (s.modPwr fun p => { p with drainAt := some s.ns }) else s

/-- Drop information of a queue entry. -/
def State.entInfo (s : State) (q : Nat) (e : QEnt) : DropInfo :=
  let p := s.queuePort q
  let k := match s.inst e.inst with | some x => x.pkt | none => {}
  { k.info uDEV with egPort := some p, queue := some q }

/-- Every packet and copy the device holds, as its drop information (R396). Of an incoming fabric flow that is the packet in
progress and, for each cell in the reorder buffer, the packet that starts in it. -/
def State.heldPackets (s : State) : List DropInfo :=
  (s.rx.flatMap fun b => b.2.map fun f => { uid := uDEV, inPort := some f.port, len := f.frame.length }) ++
  (s.courses.flatMap fun c =>
    c.2.inject.map (fun f => { uid := uDEV, inPort := some (256 + c.1), len := f.frame.length }) ++
    c.2.hand.map (fun h => h.pkt.info uDEV) ++ c.2.recirc.map fun r => r.pkt.info uDEV) ++
  (s.eng.clusters.flatMap fun c => c.2.queued.map (fun j => j.pkt.info uDEV) ++ c.2.outst.map fun j => j.job.pkt.info uDEV) ++
  (s.punts.map fun p => p.pkt.info uDEV) ++
  (s.bas.queues.flatMap fun q => q.2.map fun e => s.entInfo q.1 e) ++
  (s.bas.router.flatMap fun c => c.2.map fun e => s.entInfo e.copy.queue e) ++
  (s.bas.egress.map fun g => s.entInfo g.ent.copy.queue g.ent) ++
  (s.bas.sending.map fun x => { x.pkt.info uDEV with egPort := some x.port, queue := some x.queue }) ++
  (s.fab.flowsOut.flatMap fun f => f.2.ends.map fun e => e.2.info uDEV) ++
  (s.fab.lanes.flatMap fun l => l.2.flatMap fun c => c.ends.map fun p => p.info uDEV) ++
  (s.fab.flowsIn.flatMap fun f =>
    (if f.2.buf.isEmpty then [] else [{ uid := uDEV }]) ++ (f.2.held.filter fun c => c.first ≠ 255).map fun _ => { uid := uDEV })

/-- Descriptors that FWD holds, by ring and index: in a mover, in a rehash, a GEN_ABORT or an EGRESS_FENCE, in a microcode load
or as a frame not yet admitted. -/
def State.fwdDescs (s : State) : List (Nat × Nat) :=
  (s.courses.flatMap fun c => c.2.inject.map fun f => (f.ring, f.idx)) ++
  (s.dram.mv.filterMap fun m => m.2.map fun x => (s.getF (uMV m.1) F.MV_CFG_RING, x.idx)) ++
  (s.hif.rings.flatMap fun r => (r.2.descs.filter fun d =>
    d.begun && d.comp.isNone && (d.op == opREHASH || d.op == opABORT || d.op == opFENCE)).map fun d => (r.1, d.idx)) ++
  (match s.eng.load with | some l => [(l.ring, l.idx)] | none => [])

/-- Descriptors in progress: on the way to Plinth-only, which takes CTL too, every one that a ring has read and that has not
completed. -/
def State.heldDescs (s : State) : List (Nat × Nat) :=
  s.fwdDescs ++
    (if s.getF uDEV F.DEV_POWER_STATUS_STATE = 5 then
      (s.hif.rings.flatMap fun r => (r.2.descs.filter fun d => d.comp.isNone).map fun d => (r.1, d.idx)).filter fun x => !s.fwdDescs.contains x
     else [])

/-- Transfers held. -/
def State.heldCount (s : State) : Nat :=
  s.heldPackets.length + s.heldDescs.length + s.heldReads.length + s.flt.runs.length

/-- R396: what is left at the limit is completed, counted and reported. A DRAM read ends with the error of R331; a frame in
transmission is cut, and dropped as the others are; a mover that waited at a GATE waits no longer. -/
def State.forceDrain (s : State) : State :=
  let n := s.heldCount
  if n = 0 then s
  else
    let s := s.each s.heldReads fun s c => s.dramOff c
    let s := s.each s.heldPackets fun s i => s.drop 0x64 747 i
    let s := s.each ((s.bas.sending.filter (·.started)).map (·.port)) fun s p => (s.txStop p).2
    let s := s.setSending []
    let s := s.each s.heldDescs fun s d => s.complete d.1 d.2 (comp 7 0 0)
    let s := s.each (s.dram.mv.map (·.1)) fun s m => (s.setMover m none).setF (uMV m) F.MV_STATUS_GATED 0
    let s := (s.modGen fun g => { g with fences := [] }).setF uTG F.FENCE_STATUS_OUTSTANDING 0
    let s := s.endRuns 0x0A
    (s.addF uDEV F.DEV_DRAIN_FORCED_COUNT n).event 0xA5 0x403 uPLN 0 n

/-- Leaves of a unit's tree. -/
def leavesOf : Nat → Nat → List Nat
  | 0, u => [u]
  | n + 1, u => if isGroup u then (children u).flatMap (leavesOf n) else [u]

/-- The leaves of FWD. -/
def fwdLeaves : List Nat := (leavesOf treeDepth uDEV).filter inFWD

/-- R392, Banked column: a register field of a FWD unit that holds working state or a count, and so reverts. -/
def bankedReverts (k : Kind) (off : Nat) (acc : Access) : Bool :=
  match acc with
  | .rc => true
  | .ro =>
    match k with
    | .lrn | .rsv | .cluster | .csh | .bpm | .crosspoint | .tmq | .fab => true
    | .engine => decide (0x108 ≤ off) && !(decide (0x200 ≤ off) && decide (off < 0x218))
    | .bsn => off != 0x640
    | _ => false
  | _ => false

/-- Registers on the way to Banked: working state and counts of FWD, and the RC counts of every other unit, but those of class P
alone, which belong to the history and the wear counters that Table 2 keeps. -/
def State.bankRegs (s : State) : State :=
  let f (k : Nat) (w : Word) : Word :=
    let u := keyUid k
    match (if decide (k < 2 ^ 44) && decide (0x100 ≤ keyOff k) then kindOf u else none), regDefAt u (keyOff k) with
    | some kd, some d => BitVec.ofNat 32 (d.fields.foldl (fun a x =>
        if (inFWD u && bankedReverts kd (keyOff k) x.acc) || (x.acc == .rc && x.cls / 4 % 2 == 1) then setBitsOf a x.lo x.w (bitsOf (regDflt k).toNat x.lo x.w) else a) w.toNat)
    | _, _ => w
  { s with regs := s.regs.remap regDflt f }

/-- R392, Banked column: working state and counts revert; tables, CAM arrays, control stores, generation state, registers
and DRAM contents stay. -/
def State.bankWipe (s : State) : State :=
  let s := (s.bankRegs.setF uTG F.GEN_INFLIGHT_A_COUNT 0).setF uTG F.GEN_INFLIGHT_B_COUNT 0
  let s := if s.genState = 2 then s.genRetire false else s
  let s := s.keepTbl fun t _ => !(isLRN t || isMeter t || isTM t)
  let ranks := ((List.range 12).filter fun ch => s.ust (uDMC ch) == 4).flatMap fun ch => [2 * ch, 2 * ch + 1]
  { s with
    ctrs := s.ctrs.keep (fun i => 0x14000 ≤ i), latch := [], rx := [], courses := [], meters := [], bas := {}
    eng := { ({} : Engines) with cs := s.eng.cs }, punts := []
    dram := { s.dram with banks := [], down := [], selfRef := ranks, mv := [] }
    fab := { ({} : Fab) with modeSet := s.fab.modeSet } }

/-- FWD is switched off (R395 steps 3 and 4): ports go down with reason LANE, a COMMIT ends with POWERDOWN, the twin link
goes down, units read Off. In state 5 every domain but PLN follows (R399). -/
def State.powerOff (s : State) : State :=
  let st := s.getF uDEV F.DEV_POWER_STATUS_STATE
  let s := if s.pwr.fwdOff then s
    else
      let s := s.each (List.range 32) fun s b => s.macGone b true
      let s := (s.commitFail 7).twinOff
      let up := fwdLeaves.filter fun u => [3, 4, 5].contains (s.ust u)
      let ret := fwdLeaves.filter fun u => s.ust u == 6
      let on := fwdLeaves.filter fun u => s.ust u != 0
      let s := s.modPwr fun p => { p with wasUp := up, wasRet := ret, fwdOff := true }
      let s := s.bankWipe
      let s := s.each on fun s u => s.setUst u 0
      let s := (s.setF uFLT F.FOOT_STATUS_ACTIVE 0).setF uFLT F.FOOT_STATUS_EXIT_PENDING 0
      s.modFlt fun f => { f with ready := false, subst := [] }
  let s := s.modPwr fun p => { p with drainAt := none, dmcDrainAt := none }
  if st = 5 then (s.modPwr fun p => { p with mode := 3, coreEn := false }).drivePin 4 false else s.setPower 2

/-- POWER_DRAIN_DONE: nothing is held any more, by the device on its way to Banked or Plinth-only, else by the DMCs on their way
to self-refresh in footing mode. -/
def State.powerDrainDone (s : State) : State :=
  if !s.running then s
  else if s.pwr.drainAt.isSome then (if s.heldCount ≠ 0 then s else s.powerOff)
  else if s.pwr.dmcDrainAt.isSome ∧ s.heldReads.isEmpty then s.dmcSleep
  else s

/-- POWER_DRAIN_TIMEOUT. -/
def State.powerDrainTimeout (s : State) : State :=
  let limit := s.getF uDEV F.DEV_DRAIN_TIMEOUT_US * 1000
  match (if s.running then s.pwr.drainAt else none), (if s.running then s.pwr.dmcDrainAt else none) with
  | some t, _ => (s.reach (t + limit)).forceDrain.powerOff
  | none, some t => (s.reach (t + limit)).forceReads.dmcSleep
  | none, none => s

/-- BANKED_EXIT_DONE (R398): `bad` lists units whose self-test failed, with its CODE, `dmcs` the DMCs whose training did not
verify. -/
def State.bankedExit (s : State) (bad : List (Nat × Nat)) (dmcs : List Nat) : State :=
  if !s.running ∨ s.getF uDEV F.DEV_POWER_STATUS_STATE ≠ 4 then s
  else
    let s := s.modDram fun d => { d with selfRef := [] }
    let s := s.each s.pwr.wasRet fun s u => s.setUst u 6
    let s := s.each s.pwr.wasUp fun s u =>
      if dmcs.any fun d => uDMC d == u then s.setUst u 6
      else
        let s := s.setF u F.UCB_TEST_RESULT_DONE 1
        match bad.find? fun b => b.1 == u with
        | some b => (((s.setF u F.UCB_TEST_RESULT_PASS 0).setF u F.UCB_TEST_RESULT_CODE b.2).setF u F.UCB_CMD_STATUS_RESULT 6).setUst u 6
        | none => ((s.setF u F.UCB_TEST_RESULT_PASS 1).setF u F.UCB_TEST_RESULT_CODE 0).setUst u 3
    (s.modPwr fun p => { p with wasUp := [], wasRet := [] }).setPower 0

/-! ### Resets begin (R389, R390, R399) -/

/-- R452 step 2: CORE_PWR_EN is driven high, and every rail is to be valid within tRAIL; until a RESET_RELEASE shows them, the
rails but VDD_IO, which may rise earlier, count as low. -/
def State.coreOn (s : State) : State :=
  (s.modPwr fun p => { p with coreEn := true, enAt := some s.ns, lowRails := 0x17 }).drivePin 4 true

/-- A chip-class reset; out of Plinth-only it is a wake, and CORE_PWR_EN is driven again. -/
def State.chipResetNow (s : State) (bits : Nat) : State :=
  if s.pwr.mode = 3 then s.coreOn.chipReset (bits ||| 0x80) else s.chipReset bits

/-- POWER_ON_RESET: every setting but fuses and flash returns to its power-on state; the reset is held. SMB_ADDR is sampled as
VDD_PLN has been valid for tPOR (R449): what the straps then read is a free value, since no row of the table brings it (log
entry 52). -/
def State.powerOnReset (s : State) : State :=
  let (d, t) := (s.wipe 1).draw
  { t with pwr := { ({} : Pwr) with mode := 1, resetBy := 1, smbAddr := d % 4 } }.coreOn

/-- WAKE (R399). -/
def State.wakeUp (s : State) : State := if s.pwr.mode = 3 then s.chipResetNow 0x80 else s

/-! ### Supply (R400) -/

/-- VDD_CORE falls below 95 % of its target. -/
def State.coreFell (s : State) : State := s.modPwr fun p => { p with coreLow := true }

/-- SUPPLY_WARN: VDD_CORE, sampled at `mv`, has been below 95 % of target for 1 µs. -/
def State.supplyLow (s : State) (mv : Nat) : State :=
  if s.pwr.mode = 3 ∨ s.pwr.supplyWarn ∨ s.getF uPLN F.PLN_SUPPLY_TARGET_MV * 95 ≤ mv * 100 then s
  else
    let s := s.setF uPLN F.PLN_SUPPLY_VDD_MV mv
    let s := ((s.coreFell.modPwr fun p => { p with supplyWarn := true }).addF uPLN F.PLN_SUPPLY_WARNS_COUNT 1)
    (s.event 0xA3 0x402 uPLN mv (s.getF uPLN F.PLN_SUPPLY_TARGET_MV)).report uPLN 3 mv

/-- SUPPLY_WARN_END: VDD_CORE is back above 95 % of its target. -/
def State.supplyOk (s : State) (mv : Nat) : State :=
  if mv * 100 < s.getF uPLN F.PLN_SUPPLY_TARGET_MV * 95 then s
  else
    (s.modPwr fun p => { p with
      supplyWarn := false, coreLow := false, coreOkAt := if s.pwr.coreLow then s.ns else s.pwr.coreOkAt }).setF uPLN F.PLN_SUPPLY_VDD_MV mv

/-- BROWN_OUT: below 91 % of target for 200 ns. -/
def State.brownOut (s : State) (mv : Nat) : State :=
  if s.pwr.mode = 3 ∨ s.getF uPLN F.PLN_SUPPLY_TARGET_MV * 91 ≤ mv * 100 then s
  else
    let s := ((s.setF uPLN F.PLN_SUPPLY_VDD_MV mv).report uPLN 4 mv).react
    ((s.addF uPLN F.PLN_WEAR_BROWNOUTS 1).chipReset 0x10).coreFell

/-! ### Temperature (R190, R401, R402) -/

/-- The step a hot device cools to: from `n`, each step of (rise, return) is left below its return value, but not below
`up`. -/
def coolTo (steps : List (Int × Int)) (tj : Int) (up : Nat) : Nat → Nat
  | 0 => 0
  | n + 1 => if n + 1 ≤ up ∨ (steps.getD n (0, 0)).2 ≤ tj then n + 1 else coolTo steps tj up n

/-- The step in force at `tj`, from step `cur`. -/
def thermStep (steps : List (Int × Int)) (cur : Nat) (tj : Int) : Nat :=
  let up := (steps.filter fun x => decide (x.1 ≤ tj)).length
  max up (coolTo steps tj up cur)

/-- Table 6 of spec/08_classifier_and_cam.md and Table 4 of spec/18_resets_power_time.md, in 1/16 °C. -/
def camSteps : List (Int × Int) := [(1600, 1568), (1680, 1648), (1760, 1728), (1840, 1808)]
def issueSteps : List (Int × Int) := [(1680, 1648), (1728, 1696), (1776, 1744), (1824, 1792)]

/-- Change a part of CAM_RATE; a change of DIV_LOG2 raises EVT_CAM_RATE (R190). -/
def State.setCamRate (s : State) (f : Fld) (v : Nat) : State :=
  let old := s.getF uCAMG F.CAM_RATE_DIV_LOG2
  let s := s.setF uCAMG f v
  let d := max (s.getF uCAMG F.CAM_RATE_THERM_LOG2) (s.getF uCAMG F.CAM_RATE_GOV_LOG2)
  if d = old then s else (s.setF uCAMG F.CAM_RATE_DIV_LOG2 d).event 0x24 0x210 uCAMG d 0

/-- ISSUE_8THS is the smaller of its two parts (R402). -/
def State.trimIssue (s : State) : State :=
  s.setF uPLN F.PLN_TRIM_ISSUE_8THS (min (s.getF uPLN F.PLN_TRIM_THERM_ISSUE_8THS) (s.getF uPLN F.PLN_TRIM_GOV_ISSUE_8THS))

/-- The steps of Table 4 up to the warning. -/
def State.thermSteps (s : State) (tj : Int) : State :=
  let s := s.setCamRate F.CAM_RATE_THERM_LOG2 (thermStep camSteps (s.getF uCAMG F.CAM_RATE_THERM_LOG2) tj)
  let old := s.getF uPLN F.PLN_TRIM_THERM_ISSUE_8THS
  let new := 8 - thermStep issueSteps (8 - old) tj
  let s := if new = old then s
    else
      let s := (s.setF uPLN F.PLN_TRIM_THERM_ISSUE_8THS new).trimIssue
      s.event 0xA1 0x400 uPLN (s.getF uPLN F.PLN_TRIM_ISSUE_8THS) 0
  if 1760 ≤ tj ∧ !s.pwr.warned then
    (s.modPwr fun p => { p with warned := true }).event 0xA0 0x400 uPLN (s.getF uPLN F.PLN_THERM_TJ) 0
  else if tj < 1728 then (s.modPwr fun p => { p with warned := false }) else s

/-- THERMAL_SAMPLE: the hottest sensor and its reading in 1/16 °C (R401). A trip in Plinth-only is a chip reset like any other, so
that the device powers up again, but no wake (DEDUCED, log entry 5). -/
def State.thermSample (s : State) (tj : Int) (sensor : Nat) : State :=
  let s := s.reach (s.pwr.thermAt + 10000)
  let s := (s.setF uPLN F.PLN_THERM_TJ (tj % 65536).toNat).setF uPLN F.PLN_THERM_SENSOR (sensor % 32)
  let h120 := if 1920 ≤ tj then s.pwr.hot120 + 1 else 0
  let h125 := if 2000 ≤ tj then s.pwr.hot125 + 1 else 0
  let s := s.modPwr fun p => { p with thermAt := s.ns, hot120 := h120, hot125 := h125 }
  if (s.pwr.mode = 1 ∨ s.pwr.mode = 3) ∧ (h125 ≠ 2 ∨ (s.pwr.mode = 1 ∧ bitsOf s.pwr.resetBy 5 1 = 1)) then s
  else if h125 = 2 then
    let s := (s.report uPLN 2 (tj % 65536).toNat).react.addF uPLN F.PLN_WEAR_TRIPS 1
    (if s.pwr.mode = 3 then s.coreOn else s).chipReset 0x20
  else
    let s := if s.pwr.mode = 0 then s.thermSteps tj else s
    if tj < 1840 then s.modPwr fun p => { p with thermFoot := false }
    else if 3 ≤ h120 ∧ !s.pwr.thermFoot ∧ s.pwr.mode = 0 then
      (s.modPwr fun p => { p with thermFoot := true }).report uPLN 1 (tj % 65536).toNat
    else s

/-! ### The governor (R403) -/

/-- GOV_ISSUE_8THS, CAM_RATE.GOV_LOG2 and BSN_VENT_GOV.PCT of a level (Table 5). -/
def govTable : List (Nat × Nat × Nat) :=
  [(8, 0, 100), (8, 0, 50), (7, 1, 50), (6, 1, 50), (5, 2, 25), (4, 2, 25), (3, 3, 25), (2, 3, 12), (1, 4, 12)]

/-- A level takes force; the fields that change raise their events. -/
def State.setLevel (s : State) (level mw : Nat) : State :=
  let r := govTable.getD level (1, 4, 12)
  let sat := s.getF uPLN F.PLN_GOV_STATUS_SATURATED
  let s := (s.setF uPLN F.PLN_TRIM_GOV_LEVEL level).event 0xA2 0x401 uPLN (sat * 16 + level) mw
  let s := ((s.setF uPLN F.PLN_TRIM_GOV_ISSUE_8THS r.1).trimIssue).setCamRate F.CAM_RATE_GOV_LOG2 r.2.1
  if s.getF uBSN F.BSN_VENT_GOV_PCT = r.2.2 then s
  else (s.setF uBSN F.BSN_VENT_GOV_PCT r.2.2).event 0x40 0x228 uBSN r.2.2 0

/-- Allowance and SPENT after a sample, in half µs. -/
def govAllow (allow : Nat) (spent over_ : Bool) : Nat × Bool :=
  let a := if over_ then allow - 20 else min 100000 (allow + 1)
  let sp := spent || a == 0
  (a, if sp && a == 100000 then false else sp)

/-- The next level. -/
def govLevel (level floor mw cap since : Nat) : Nat × Bool :=
  if cap < mw ∧ 100000 ≤ since then (min 8 (level + 1), true)
  else if mw + 20000 ≤ cap ∧ 1000000 ≤ since then (max floor (level - 1), true)
  else (level, false)

/-- Allowance and SPENT after a sample of `mw`. -/
def State.govSpend (s : State) (mw : Nat) : Nat × Bool :=
  govAllow s.pwr.allow s.pwr.spent (decide (s.getF uPLN F.PLN_GOV_CFG_LIMIT_W * 1000 < mw))

/-- The power in mW the governor holds after a sample of `mw`: PEAK_W, and LIMIT_W while the allowance is spent. -/
def State.govCap (s : State) (mw : Nat) : Nat :=
  if (s.govSpend mw).2 then s.getF uPLN F.PLN_GOV_CFG_LIMIT_W * 1000 else s.getF uPLN F.PLN_GOV_CFG_PEAK_W * 1000

/-- The lowest level: 4 during a supply warning. -/
def State.govFloor (s : State) : Nat := if s.pwr.supplyWarn then 4 else 0

/-- The level after a sample, and whether it is a step. -/
def State.govStep (s : State) (mw : Nat) : Nat × Bool :=
  govLevel (s.getF uPLN F.PLN_TRIM_GOV_LEVEL) s.govFloor mw (s.govCap mw) (s.ns - s.pwr.stepAt)
def State.govNew (s : State) (mw : Nat) : Nat := max (s.govStep mw).1 s.govFloor

/-- The governor's own state after a sample. -/
def State.govKeep (s : State) (mw : Nat) : State :=
  s.modPwr fun p => { p with
    govAt := s.ns, allow := (s.govSpend mw).1, spent := (s.govSpend mw).2, samples := (mw :: s.pwr.samples).take 1000
    stepAt := if (s.govStep mw).2 && (s.govStep mw).1 != s.getF uPLN F.PLN_TRIM_GOV_LEVEL then s.ns else s.pwr.stepAt }

/-- The registers a sample writes. -/
def State.govShow (s : State) (mw : Nat) : State :=
  let l := (mw :: s.pwr.samples).take 1000
  let t := ((s.govKeep mw).setF uPLN F.PLN_POWER_MW mw).setF uPLN F.PLN_POWER_AVG_MW (l.sum / l.length)
  let t := (t.setF uPLN F.PLN_GOV_STATUS_ALLOW_US ((s.govSpend mw).1 / 2)).setF uPLN F.PLN_GOV_STATUS_SPENT (if (s.govSpend mw).2 then 1 else 0)
  t.setF uPLN F.PLN_GOV_STATUS_SATURATED (if s.govNew mw = 8 ∧ s.govCap mw < mw then 1 else 0)

/-- A sample, at its time. -/
def State.govTake (s : State) (mw : Nat) : State :=
  if s.govNew mw = s.getF uPLN F.PLN_TRIM_GOV_LEVEL then s.govShow mw else (s.govShow mw).setLevel (s.govNew mw) mw

/-- GOVERNOR_SAMPLE: VDD_CORE power in mW. -/
def State.govSample (s : State) (mw : Nat) : State :=
  if s.pwr.mode ≠ 0 then s else (s.reach (s.pwr.govAt + 10000)).govTake mw

/-! ### Wear (R404) -/

/-- WEAR_SECOND: the bins of powered time and of Tj. -/
def State.wearSecond (s : State) : State :=
  let s := s.reachCore ((s.clk.core / 65536000000000 + 1) * 65536000000000)
  let tj := signedOf (s.getF uPLN F.PLN_THERM_TJ) 16
  let s := if s.pwr.mode = 3 ∨ s.pwr.fwdOff then s else s.addF uPLN (F.PLN_WEAR_SECONDS.i 0) 1
  if tj < 1600 then s
  else s.addF uPLN (F.PLN_WEAR_SECONDS.i (if tj < 1680 then 1 else if tj < 1760 then 2 else if tj < 1840 then 3 else if tj < 1920 then 4 else 5)) 1

/-! ### Time (R405–R411) -/

/-- Replace a comparator's TIME. -/
def State.setCmpTime (s : State) (k t : Nat) : State :=
  (s.setF uPLN (F.PLN_CMP_LO_TIME.i k) (t % 2 ^ 32)).setF uPLN (F.PLN_CMP_HI_TIME.i k) (t / 2 ^ 32)

/-- PPS_OUT pulses that have ended go low. -/
def State.ppsDrain (s : State) : State :=
  s.each [1, 2] fun s o =>
    let t := s.pwr.outUntil.get (fun _ => 0) o
    if t = 0 ∨ s.ns < t then s
    else (s.modPwr fun p => { p with outUntil := s.pwr.outUntil.put (fun _ => 0) o 0 }).drivePin (o + 1) false

/-- A comparator fires: pin, event, wake (R408). -/
def State.cmpAct (s : State) (k : Nat) : State :=
  let s := s.ppsDrain
  let t := s.cmpTime k
  let out := s.getF uPLN (F.PLN_CMP_CTL_OUT.i k)
  let till := s.ns + s.getF uPLN (F.PLN_CMP_CTL_WIDTH_US.i k) * 1000
  let s := if out = 0 then s
    else
      let cur := s.pwr.outUntil.get (fun _ => 0) out
      let s := if cur = 0 then s.drivePin (out + 1) true else s
      s.modPwr fun p => { p with outUntil := s.pwr.outUntil.put (fun _ => 0) out (max cur till) }
  let s := if s.getF uPLN (F.PLN_CMP_CTL_EVT.i k) = 1 then s.event 0xA7 (0x404 + k) uPLN k t else s
  if s.getF uPLN (F.PLN_CMP_CTL_WAKE.i k) = 1 then s.wakeUp else s

/-- After firing: TIME passes `now` by whole periods, or EN clears. -/
def State.cmpRearm (s : State) (k : Nat) (past : Bool) : State :=
  let p := s.getF uPLN (F.PLN_CMP_PERIOD_NS.i k)
  let t := s.cmpTime k
  if p = 0 then s.setF uPLN (F.PLN_CMP_CTL_EN.i k) 0
  else s.setCmpTime k (if past then t + ((s.ns - t) / p + 1) * p else t + p)

/-- TIME_COMPARATOR_FIRE: plinth time reaches the TIME of an enabled comparator. -/
def State.cmpFire (s : State) (k : Nat) : State :=
  if 8 ≤ k ∨ s.getF uPLN (F.PLN_CMP_CTL_EN.i k) = 0 then s
  else ((s.reach (s.cmpTime k)).cmpAct k).cmpRearm k false

/-- PLN_TIME_CTL.SET, accepted (R405, R411). -/
def State.timeSet (s : State) : State :=
  let new := s.tset
  let passed := (List.range 8).filter fun k =>
    s.getF uPLN (F.PLN_CMP_CTL_EN.i k) == 1 && decide (s.ns < s.cmpTime k) && decide (s.cmpTime k ≤ new)
  let s := s.modClk fun c => { c with now := new * 65536, acc := 0, nextWp := (new + s.getF uPLN F.PLN_WP_CFG_PERIOD_US * 1000) * 65536 }
  let s := s.setF uPLN F.PLN_TIME_CTL_DONE 1
  s.each passed fun s k => (s.cmpAct k).cmpRearm k true

/-- A write to PLN_SLEW.NS, accepted (R406). -/
def State.slewBy (s : State) (ns : Int) : State := s.modClk fun c => { c with slew := ns * 65536000 }

/-- SLEW_ABSORBED: the remainder is absorbed at 1,000 ppm. -/
def State.slewDone (s : State) : State :=
  let d := s.clk.slew.natAbs
  if d = 0 then s
  else
    let ppb := signedOf (s.getF uPLN F.PLN_FREQ_PPB) 32
    let acc : Int := (s.clk.acc : Int) + d * (1000000000 + ppb) + s.clk.slew * 1000000
    s.modClk fun c => { c with
      now := s.clk.now + (acc / 1000000000).toNat, acc := (acc % 1000000000).toNat, slew := 0, core := s.clk.core + d }

/-- PPS_EDGE: an edge on PPS_IN `i` that has passed the filter (R409), which has delayed it by 20 ns: CAP stamps the edge at the
ball (R448). -/
def State.ppsEdge (s : State) (i : Nat) (falling : Bool) : State :=
  if 2 ≤ i ∨ s.getF uPLN (F.PLN_CAP_CTL_EN.i i) = 0 ∨ (s.getF uPLN (F.PLN_CAP_CTL_EDGE.i i) = 1) ≠ (falling = true) then s
  else
    let at_ := s.ns - 20
    let s := (s.setF uPLN (F.PLN_CAP_LO_NS.i i) (at_ % 2 ^ 32)).setF uPLN (F.PLN_CAP_HI_NS.i i) (at_ / 2 ^ 32)
    let s := (s.setF uPLN (F.PLN_CAP_CTL_FRAC.i i) s.frac).addF uPLN (F.PLN_CAP_COUNT_COUNT.i i) 1
    if s.getF uPLN (F.PLN_CAP_CTL_EVT.i i) = 1 then s.event 0xA8 (0x40C + i) uPLN i at_ else s

/-- WARDEN_LOST (R28): PLN source 0 and EVT_WARDEN_LOST. -/
def State.wardenLost (s : State) : State :=
  if !s.running then s
  else ((s.modPwr fun p => { p with wdnLost := true }).event 0x48 0x231 uPLN 0 0).report uPLN 0 0

end Sys2Proof.Machine
end

