-- ==== Sys2Proof/Machine/RegWrite.lean ====
section
/-!
DEFINITION. Register accesses of the host and the warden: the checks of a write and their order (R7, R8, R34, R39–R42, R45,
R48, R54, R55, R462), what a write does beside setting its register, accesses to BAR2 (R41, R56–R58, R65, R73, R88) and to
BAR4 (R424, R427, R429), reads (R10, R40), accesses to a domain without power (R391, R397), and configuration writes
(R81, R82).
-/
namespace Sys2Proof.Machine

/-! ### What a write leaves in a register (Table 3 of spec/00_scope.md) -/

/-- The mask of `w` bits at `lo`. -/
def fieldMask (lo w : Nat) : Nat := (2 ^ w - 1) * 2 ^ lo

/-- The bits of a register its fields cover; the others are reserved. -/
def RegDef.covered (d : RegDef) : Nat := (d.fields.map fun f => fieldMask f.lo f.w).sum

/-- The bits of fields with one of some access codes. -/
def RegDef.bitsWith (d : RegDef) (p : Access → Bool) : Nat :=
  ((d.fields.filter fun f => p f.acc).map fun f => fieldMask f.lo f.w).sum

/-- A write of the bits under `mask` to one field, by its access code. -/
def mergeField (a : Access) (old v mask : Nat) : Nat :=
  match a with
  | .ro | .rc => old
  | .wo => 0
  | .w1c => old - (old &&& (v &&& mask))
  | .w1s => old ||| (v &&& mask)
  | .rw | .rwl | .rws => (old - (old &&& mask)) ||| (v &&& mask)

/-- A register's word after a write of the bits under `mask`. -/
def mergeWord (d : RegDef) (old v mask : Nat) : Nat :=
  d.fields.foldl (fun a f => setBitsOf a f.lo f.w
    (mergeField f.acc (bitsOf old f.lo f.w) (bitsOf v f.lo f.w) (bitsOf mask f.lo f.w))) 0

/-- The word a write asks for: the bits under `mask` as written, the others as they are, and 0 in action bits. -/
def written (d : RegDef) (old v mask : Nat) : Nat :=
  d.fields.foldl (fun a f =>
    let x := bitsOf (v &&& mask) f.lo f.w
    let o := bitsOf old f.lo f.w
    let m := bitsOf mask f.lo f.w
    setBitsOf a f.lo f.w (if [Access.w1s, .w1c, .wo].contains f.acc then x else (o - (o &&& m)) ||| x)) 0

/-- A field a write sets to a value that must be in range. -/
def ranged (a : Access) : Bool := [Access.rw, .rwl, .rws, .wo].contains a

/-- Every field the write touches is in its range (R7). -/
def fieldsOk (d : RegDef) (new mask : Nat) : Bool :=
  d.fields.all fun f => !ranged f.acc || bitsOf mask f.lo f.w == 0 ||
    (decide (f.min ≤ bitsOf new f.lo f.w) && decide (bitsOf new f.lo f.w ≤ f.max))

/-- R66: a TYPE written into RING_CFG is one of Table 4 of chapter 3. -/
def ringTypeOk (u off new mask : Nat) : Bool :=
  !(u == uHIF && off == 0x104 && bitsOf mask 0 8 != 0) || ringClass (bitsOf new 0 8) != 0

/-! ### BAR0 writes -/

/-- All 32 bits. -/
def allBits : Nat := 2 ^ 32 - 1

/-- R397: a FWD unit without power; its control block stays reachable. -/
def State.domainOff (s : State) (u off : Nat) : Bool := inFWD u && !s.fwdOn && decide (0x100 ≤ off)

/-- A register of the child range list of a group (R43). -/
def inRangeList (u off : Nat) : Bool := decide (0xF00 ≤ off) && decide ((off - 0xF00) / 4 < (childRanges u).length)

/-- The word a masked write merges with: the counter itself behind PMC_VAL, the register otherwise. -/
def State.oldWord (s : State) (u sel off : Nat) : Nat :=
  if nctr u = 8 ∧ 0xE80 ≤ off ∧ off < 0xF00 ∧ 8 ≤ off % 16 then
    let c := (s.ctr (perfIndex u ((off - 0xE80) / 16))).toNat
    if off % 16 = 8 then c % 2 ^ 32 else c / 2 ^ 32 % 2 ^ 16
  else (s.rd (regKey u sel off)).toNat

/-- The state with the register's written word in place. -/
def State.withWritten (s : State) (u sel off v mask : Nat) : State :=
  match regDefAt u off with
  | some d =>
    let k := regKey u sel off
    s.wr k (BitVec.ofNat 32 (mergeWord d (s.rd k).toNat v mask))
  | none => s

/-- RSVD_BIT, VALUE or none for a write of the bits under `mask`: the reserved bits, then each field, then the checks across
fields (R7, R42, R53). -/
def State.valueReason (s : State) (u sel off v mask : Nat) : Nat :=
  match regDefAt u off with
  | none =>
    let rsvd := if inRangeList u off then 0xC000 else allBits
    if v &&& mask &&& rsvd = 0 then 0 else 2
  | some d =>
    let w := v &&& mask
    let new := written d (s.oldWord u sel off) v mask
    if w - (w &&& d.covered) ≠ 0 then 2
    else if ringTypeOk u off new mask && fieldsOk d new mask && crossOk s (s.withWritten u sel off v mask) u sel off new then 0 else 1

/-- R8: the register holds an RWL field. -/
def lockable (u off : Nat) : Bool :=
  match regDefAt u off with
  | some d => d.fields.any fun f => f.acc == .rwl
  | none => false

/-- R462: the first cause that rejects a 4-byte write of master `m` to BAR0; 0 for none. -/
def State.bar0Reason (s : State) (m u off v : Nat) : Nat :=
  if (kindOf u).isNone then 5
  else if 2 ≤ m then 6
  else if u = uDEV ∧ off = 0x100 ∧ m ≠ 1 then 0xA
  else if s.bit uDEV F.DEV_SETUP_LOCK_LOCK ∧ lockable u off then 3
  else if off = 0x10 ∧ s.cmdBusy u then 8
  else s.valueReason u (s.selOf u off) off v allBits

/-! ### What a write starts -/

/-- Offsets of the RWL registers of a window, ascending. -/
def rwlOffsets (u : Nat) : List Nat := ((List.range 1024).map fun i => 4 * i).filter (lockable u)

/-- R422: MEAS6 is extended with the digest over every RWL register of BAR0. -/
def State.measureLock (s : State) : State :=
  s.extend 6 (sha384 ((List.range 16384).flatMap fun u => (rwlOffsets u).flatMap fun off => leBytes (s.regView u off) 4))

/-- A field of a word that stands in a register. -/
def inWord (w : Nat) (f : Fld) : Nat := bitsOf w f.lo f.w

/-- Writes to DEV: the lock is measured into MEAS6 (R422), the soft reset key, power commands. -/
def State.devEffect (s0 : State) (off v : Nat) (t : State) : State :=
  match off with
  | 0x100 =>
    if v % 2 = 1 ∧ s0.bit uDEV F.DEV_SETUP_LOCK_LOCK = false then t.measureLock else t
  | 0x108 => t.softReset 0x08
  | 0x10C => t.powerCmd (v % 4)
  | _ => t

/-- Writes to PLN; PLN_SLEW is held as the remainder, not as a register. -/
def State.plnEffect (s0 : State) (off v : Nat) (t : State) : State :=
  match off with
  | 0x114 => if bitsOf v 31 1 = 1 then t.timeSet else t
  | 0x11C => (t.wr (regKey uPLN 0 0x11C) (s0.rd (regKey uPLN 0 0x11C))).slewBy (signedOf v 32)
  | _ => t

/-- RING_SIZE enables or disables its ring. -/
def State.hifEffect (s0 : State) (sel off v : Nat) (t : State) : State :=
  if off = 0x108 ∧ v ≠ s0.ringLog sel then
    let t := t.setFS uHIF sel F.RING_SIZE_RING_LOG2 (s0.ringLog sel)
    if v = 0 then t.disableRing sel else t.enableRing sel v
  else t

/-- FLT_HIST_STATUS and FOOT_CMD. -/
def State.fltEffect (t : State) (off v : Nat) : State :=
  match off with
  | 0x108 =>
    if bitsOf v 31 1 = 1 then t.histUnfreeze else t
  | 0x140 => if v % 4 = 1 then t.footEnter 4 else t.footExit
  | _ => t

/-- R311: FAB_MODE is written; line-card mode gives CRS0–CRS3 the home clusters of R37. -/
def State.fabModeSet (s : State) : State :=
  let s := s.modFab fun f => { f with modeSet := true }
  if s.lineCard then
    s.each (List.range 4) fun s n =>
      s.wr (regKey (uRSV n) 0 0x400) (BitVec.ofNat 32
        (setBitsOf (s.rd (regKey (uRSV n) 0 0x400)).toNat 0 20 (4 * 2 ^ 16 + (((List.range 4).map fun j => (4 * n + j) * 16 ^ j).sum))))
  else s

/-- R441, R442: TWN_CFG in mode 0 ends the squelch; TWN_CMD. -/
def State.twnEffect (off v : Nat) (t : State) : State :=
  match off with
  | 0x100 => if t.getF uTWN F.TWN_CFG_MODE = 0 then t.modTwin fun w => { w with squelched := false } else t
  | 0x114 =>
    (match v % 8 with
     | 1 => t.pair
     | 2 => t.unpair
     | 3 => t.startWindow
     | _ => t.twnRelease)
  | _ => t

/-- PORT_CTL.ADMIN_UP of a port (R94, R99). -/
def State.macEffect (s0 : State) (u off : Nat) (t : State) : State :=
  if 0x200 ≤ off ∧ off < 0x400 ∧ off % 0x40 = 0 then
    let p := 8 * ((u - 0x200) / 16) + (off - 0x200) / 0x40
    let was := s0.mac p F.PORT_CTL_ADMIN_UP
    let is := t.mac p F.PORT_CTL_ADMIN_UP
    if is = 1 then t.adminUp p else if was = 1 ∧ is = 0 then t.adminDown p else t
  else t

/-- A port shaper whose settings change starts from its reset credit (R301). -/
def State.tmqEffect (s0 : State) (u off : Nat) (t : State) : State :=
  if 0x200 ≤ off ∧ off < 0x600 then
    let l := (off - 0x200) / 16
    let g (s : State) : Nat × Nat × Nat :=
      (s.getF u (F.TMQ_PORT_CFG_SHAPE_EN.i l), s.getF u (F.TMQ_PORT_RATE_RATE_KBPS.i l), s.getF u (F.TMQ_PORT_BURST_BYTES.i l))
    if g s0 = g t then t else t.resetCredit 3 (tmPortKey (u - uTMQ 0) l) (t.getF u (F.TMQ_PORT_CFG_RESET_FILL.i l) == 1)
  else t

/-- R364: sampling that starts begins an empty buffer. -/
def State.engEffect (s0 : State) (u off : Nat) (t : State) : State :=
  if off = 0x300 ∧ s0.getF u F.ENG_SAMP_CFG_EN = 0 ∧ t.getF u F.ENG_SAMP_CFG_EN = 1 then
    ((t.setF u F.ENG_SAMP_STATUS_FULL 0).setF u F.ENG_SAMP_STATUS_NEXT 0).setF u F.ENG_SAMP_STATUS_COUNT 0
  else t

/-- R384, R385: a check unit starts afresh, or stops. -/
def State.cuEffect (s0 : State) (u off : Nat) (t : State) : State :=
  if off = 0x100 then
    if t.getF u F.CU_CFG_EN = 0 then t.setF u F.CU_STATUS_BUSY 0
    else if s0.getF u F.CU_CFG_EN = 0 then t.setCu u { msgAt := t.ns }
    else t
  else t

/-- R360: a write to half a counter's value; the other half stays as `t` has it, so that an 8-byte write sets both. -/
def State.pmcEffect (t : State) (u off v : Nat) : State :=
  let k := (off - 0xE80) / 16
  let c := (t.ctr (perfIndex u k)).toNat
  let put (n : Nat) : State := { t with ctrs := t.ctrs.put (fun _ => 0) (perfIndex u k) (BitVec.ofNat 64 n) }
  if off % 16 = 8 then put (c / 2 ^ 32 * 2 ^ 32 + v)
  else if off % 16 = 12 then put (v % 2 ^ 16 * 2 ^ 32 + c % 2 ^ 32)
  else t

/-- What an accepted write to BAR0 does beside setting its register: `s0` is the state before it, `t` the state with the
word in place, `v` the word written. -/
def State.regEffect (s0 : State) (u sel off v : Nat) (t : State) : State :=
  if off = 0x10 then t.unitCmd u (v % 8) (v / 256 % 256)
  else if nctr u = 8 ∧ 0xE80 ≤ off ∧ off < 0xF00 then t.pmcEffect u off v
  else if off < 0x100 then t
  else match kindOf u with
    | some .dev => s0.devEffect off v t
    | some .pln => s0.plnEffect off v t
    | some .hif => s0.hifEffect sel off v t
    | some .flt => t.fltEffect off v
    | some .tal => if off = 0x100 ∧ s0.bit uTAL F.TAL_CFG_EN = false ∧ t.bit uTAL F.TAL_CFG_EN then
        (t.modTal fun x => { x with firstAll := true }) else t
    | some .twn => t.twnEffect off v
    | some .mac => s0.macEffect u off t
    | some .twinLane =>
      if off = 0x104 ∧ v % 2 = 1 then t.readapt u
      else if off = 0x10C ∧ t.bit u F.LANE_TEST_EN then t.twinLaneOut (u - 0x10) else t
    | some .lane =>
      if off = 0x104 ∧ v % 2 = 1 then t.readapt u
      else if off = 0x10C then (if t.bit u F.LANE_TEST_EN then t.laneLeft u else t.laneBack u) else t
    | some .engine => s0.engEffect u off t
    | some .csh => s0.stallNoted t ((u - 0x400) / 64)
    | some .tableGroup => if off = 0xB00 then t.sieveSplit (s0.getF uTG F.SIV_CFG_EGRESS_COUNT) else t
    | some .tmGroup => if 0x100 ≤ off ∧ off < 0x900 ∧ off % 0x20 = 0 then t.ageChanged else t
    | some .tmq => s0.tmqEffect u off t
    | some .fab => if off = 0x100 then t.fabModeSet else t
    | some .dmc => if off = 0x200 ∧ bitsOf v 31 1 = 1 then t.trainGo (u - uDMC 0) else t
    | some .checkUnit => s0.cuEffect u off t
    | _ => t

/-- A register's offset within BAR0. -/
def bar0Off (u off : Nat) : Nat := u * 4096 + off

/-- R462: the causes in the order in which they count. -/
def reasonRank (r : Nat) : Nat := [7, 5, 6, 0xA, 9, 4, 3, 8, 0xC, 2, 1, 0xB].idxOf r

/-- A write to BAR0, 4 or 8 bytes (R40). -/
def State.bar0Write (s : State) (m a size data : Nat) : State :=
  let u := a / 4096
  let off := a % 4096
  if (size ≠ 4 ∧ size ≠ 8) ∨ a % size ≠ 0 then
    (if s.domainOff u off then s.evtDomainOff 0 a m else s.evtRange 0 a m 7 data)
  else if s.domainOff u off then s.evtDomainOff 0 a m
  else
    let lo := data % 2 ^ 32
    let hi := data / 2 ^ 32 % 2 ^ 32
    let sel := s.selOf u off
    let t := s.withWritten u sel off lo allBits
    let r := s.bar0Reason m u off lo
    if size = 4 then
      if r ≠ 0 then s.evtRange 0 a m r data else s.regEffect u sel off lo t
    else
      let q := t.bar0Reason m u (off + 4) hi
      if r = 0 ∧ q = 0 then
        let sel2 := t.selOf u (off + 4)
        t.regEffect u sel2 (off + 4) hi (s.regEffect u sel off lo (t.withWritten u sel2 (off + 4) hi allBits))
      else if q = 0 ∨ (r ≠ 0 ∧ reasonRank r ≤ reasonRank q) then s.evtRange 0 a m r data
      else s.evtRange 0 (a + 4) m q data

/-! ### BAR2 (Table 3 of spec/03_host_rings.md) -/

/-- R58: a write to a claim register; 0 where it releases the claim. A free claim has no owner: a write to it is rejected as
another master's (DESIGN CHOICE, log entry 64). -/
def State.claimReason (s : State) (m k v : Nat) : Nat :=
  match s.claim k with
  | some c => if c.owner ≠ m then 9 else if v ≠ 0 then 1 else 0
  | none => 9

/-- A word of a function's MSI-X table, which its mask bit sends what waits (R86). -/
def State.msixWrite (s : State) (m off v : Nat) : State :=
  let k := regKey (uMSIX m) 0 off
  let s := s.wr k (BitVec.ofNat 32 (if off % 16 = 12 then v % 2 else v))
  let n := (off - 0x1000) / 16
  let p := regKey (uMSIX m) 0 (0x9000 + n / 32 * 4)
  if off % 16 = 12 ∧ v % 2 = 0 ∧ bitsOf (s.rd p).toNat (n % 32) 1 = 1 then
    (s.wr p (BitVec.ofNat 32 (setBitsOf (s.rd p).toNat (n % 32) 1 0))).send (.msix m n)
  else s

/-- The cause that rejects a 4-byte write to BAR2 below the doorbell pages; 0 for none (R58, R65, R88). -/
def State.bar2Reason (s : State) (m off v : Nat) : Nat :=
  if off < 0x100 then s.claimReason m (off / 4) v
  else if off < 0x200 then 0
  else if off < 0x1000 then 2
  else if off < 0x9000 then
    if tableSize m ≤ (off - 0x1000) / 16 then 2 else if off % 16 = 12 ∧ 2 ≤ v then 2 else 0
  else if off < 0xA000 then 0
  else if off < 0xB000 ∧ isPF m then
    if (regDefAt (uTCW (m - 1)) off).isSome ∧ s.bit (uTCW (m - 1)) F.TCW_STATUS_BUSY then 8
    else match regDefAt (uTCW (m - 1)) off with
      | none => 2
      | some d => if v - (v &&& d.covered) ≠ 0 then 2 else if fieldsOk d v allBits then 0 else 1
  else 2

/-- R88: a write to TCW_CMD starts the window's command, which stands in the register until it ends. -/
def State.tcwStartCmd (s : State) (p v : Nat) : State :=
  let u := uTCW p
  let s := (s.wr (regKey u 0 0xA000) (BitVec.ofNat 32 v)).setF u F.TCW_STATUS_BUSY 1
  (s.setF u F.TCW_STATUS_TAG (v / 2 ^ 24)).setTcw p (some s.ns) none

/-- An accepted 4-byte write to BAR2 below the doorbell pages. -/
def State.bar2Do (s : State) (m off v : Nat) : State :=
  if off < 0x100 then s.setClaim (off / 4) none
  else if off < 0x1000 then s
  else if off < 0x9000 then s.msixWrite m off v
  else if off < 0xA000 then s
  else if off = 0xA000 then s.tcwStartCmd (m - 1) v
  else s.withWritten (uTCW (m - 1)) 0 off v allBits

/-- A write to BAR2 (R40, R65). -/
def State.bar2Write (s : State) (m a size data : Nat) : State :=
  if bar2Size m ≤ a ∨ !s.fnLive m then s
  else if (size ≠ 4 ∧ size ≠ 8) ∨ a % size ≠ 0 ∨ (size = 4 ∧ 0x10000 ≤ a ∧ a < 0x10000 + 8 * doorbells m) then s.evtRange 2 a m 7 data
  else if size = 4 ∧ 0x10000 ≤ a then s.evtRange 2 a m 2 data
  else if 0x10000 ≤ a then s.doorbell m ((a - 0x10000) / 8) data 1 true
  else
    let lo := data % 2 ^ 32
    let hi := data / 2 ^ 32 % 2 ^ 32
    let r := s.bar2Reason m a lo
    if size = 4 then
      if r ≠ 0 then s.evtRange 2 a m r data else s.bar2Do m a lo
    else
      let t := if r = 0 then s.bar2Do m a lo else s
      let q := (if a = 0xA000 then s else t).bar2Reason m (a + 4) hi
      if r = 0 ∧ q = 0 then t.bar2Do m (a + 4) hi
      else if q = 0 ∨ (r ≠ 0 ∧ reasonRank r ≤ reasonRank q) then s.evtRange 2 a m r data
      else s.evtRange 2 (a + 4) m q data

/-! ### BAR4 (Table 5 of spec/19_security_and_mailboxes.md) -/

/-- The channel a BAR4 register belongs to. -/
def mbChannel (off : Nat) : Option Nat :=
  if off < 0x200 then some (off / 16) else if off < 0x280 then some ((off - 0x200) / 4) else none

/-- R429: a register of a secure channel, which only a secure master may touch. -/
def State.mbClosed (s : State) (off : Nat) : Bool :=
  match mbChannel off with
  | some k => decide (k < 16) && !s.secureOpen
  | none => false

/-- The cause that rejects a 4-byte write of PF0 to BAR4; 0 for none. -/
def State.bar4Reason (s : State) (off v : Nat) : Nat :=
  if s.mbClosed off then 4
  else match regDefAt uBAR4 off with
    | none => if v = 0 then 0 else 2
    | some d =>
      if v - (v &&& d.covered) ≠ 0 then 2
      else if !fieldsOk d v allBits ∨ (off = 0x4C0 ∧ bitsOf v 31 1 = 1 ∧ !s.authFree) then 1 else 0

/-- An accepted 4-byte write to BAR4. -/
def State.bar4Do (s : State) (off v : Nat) : State :=
  if off < 0x200 then
    (match off % 16 with
     | 0 => s.mbOutWrite (off / 16) v
     | 8 => if bitsOf v 30 1 = 1 then s.mbInAck (off / 16) else s
     | _ => s)
  else
    let s := s.withWritten uBAR4 0 off v allBits
    if off = 0x4C0 then
      let s := if bitsOf v 31 1 = 1 then s.authGo else s
      if bitsOf v 30 1 = 1 then s.closeSession else s
    else s

/-- A write to BAR4. -/
def State.bar4Write (s : State) (a size data : Nat) : State :=
  if (size ≠ 4 ∧ size ≠ 8) ∨ a % size ≠ 0 then s.evtRange 4 a 1 7 data
  else
    let lo := data % 2 ^ 32
    let hi := data / 2 ^ 32 % 2 ^ 32
    let r := s.bar4Reason a lo
    if size = 4 then
      if r ≠ 0 then s.evtRange 4 a 1 r data else s.bar4Do a lo
    else
      let q := s.bar4Reason (a + 4) hi
      if r = 0 ∧ q = 0 then (s.bar4Do a lo).bar4Do (a + 4) hi
      else if q = 0 ∨ (r ≠ 0 ∧ reasonRank r ≤ reasonRank q) then s.evtRange 4 a 1 r data
      else s.evtRange 4 (a + 4) 1 q data

/-! ### Accesses of a master (R39, R391, R397, R427) -/

/-- BAR size in bytes as an access decodes it; 0 where the master has no such BAR (R39, R422). The warden reaches BAR0 and
the claim page by its own path (R41). -/
def barSize (m bar : Nat) : Nat :=
  if bar = 0 then (if m ≤ 4 then 2 ^ 26 else 0)
  else if bar = 2 then (if m = 0 then 0x1000 else if masters.contains m then bar2Size m else 0)
  else if bar = 4 then (if m = 1 then 0x1000 else 0)
  else 0

/-- The function of a master takes accesses: the warden's always, another's while it is enabled and no FLR is in progress
(R89, R461). -/
def State.reaches (s : State) (m : Nat) : Bool := m == 0 || s.fnLive m

/-- An access while the device does not run (R391, R397, R427); in a chip-class reset and in Plinth-only the link is down, and
nothing answers (R399). -/
def State.refuseAccess (s : State) (m bar a : Nat) : State :=
  if s.pwr.mode = 1 ∨ s.pwr.mode = 3 then s
  else
    let s := if bar = 4 then s.eventDefault 1 (s.eventRec 0xA6 0x403 uPLN (4 * 2 ^ 61 + a * 2 ^ 35 + m * 2 ^ 28) 0) else s
    s.abortTo m

/-! The function's configuration space, as BAR number 7: what R60 and R461 give state of it, in nine words with the bits of PCI
Express (PRESUMED, log entry 70). Word 0 has VF Enable in bit 0, word 1 is Device Control, word 2 Device Control 2, word 3
AER's Capabilities and Control, words 4–6 its uncorrectable status, mask and severity, words 7 and 8 its correctable status and
mask; a status bit is cleared by writing 1. A VF uses the settings of its PF. -/

/-- A configuration read. -/
def State.pciRead (s : State) (m a : Nat) : Nat :=
  let x := s.pci (pfOf m)
  let b (p : Bool) (n : Nat) : Nat := if p then 2 ^ n else 0
  match a with
  | 0 => if isPF m ∧ (vfsOf (m - 1)).any s.fnEnabled then 1 else 0
  | 1 => b x.relaxed 4 + x.mps * 2 ^ 5 + x.mrrs * 2 ^ 12
  | 2 => b x.tag10 12
  | 3 => b x.ecrcGen 6 + b x.ecrcCheck 8
  | 4 => x.uncStatus
  | 5 => x.uncMask
  | 6 => x.uncSev
  | 7 => x.corStatus
  | 8 => x.corMask
  | _ => 0

/-- A configuration write of words 1–8 in a PF. A size that R60 does not support leaves its field. -/
def State.pciWrite (s : State) (m a v : Nat) : State :=
  let x := s.pci m
  if !isPF m then s
  else match a with
    | 1 => s.setPci m { x with
        relaxed := bitsOf v 4 1 == 1
        mps := if bitsOf v 5 3 ≤ 2 then bitsOf v 5 3 else x.mps
        mrrs := if bitsOf v 12 3 ≤ 5 then bitsOf v 12 3 else x.mrrs }
    | 2 => s.setPci m { x with tag10 := bitsOf v 12 1 == 1 }
    | 3 => s.setPci m { x with ecrcGen := bitsOf v 6 1 == 1, ecrcCheck := bitsOf v 8 1 == 1 }
    | 4 => s.setPci m { x with uncStatus := x.uncStatus - (x.uncStatus &&& v) }
    | 5 => s.setPci m { x with uncMask := v % 2 ^ 32 }
    | 6 => s.setPci m { x with uncSev := v % 2 ^ 32 }
    | 7 => s.setPci m { x with corStatus := x.corStatus - (x.corStatus &&& v) }
    | 8 => s.setPci m { x with corMask := v % 2 ^ 32 }
    | _ => s

/-- A write to a BAR by a master, of `size` bytes at `a`. BAR number 7 is the function's configuration space. On its internal path
to the claim registers the warden's write of any size but 4 is PARTIAL, one of 4 bytes goes to the register it falls in, and one
at 0x100–0xFFF is ignored (DESIGN CHOICE, log entry 96). -/
def State.busWrite (s : State) (m bar a size data : Nat) : State :=
  if bar = 7 then
    (if s.pwr.mode = 1 ∨ s.pwr.mode = 3 ∨ !masters.contains m then s else if a ≠ 0 then s.pciWrite m a data
     else if isPF m then (if data % 2 = 1 then s.vfSet (m - 1) else s.vfClear (m - 1)) else s)
  else if barSize m bar ≤ a ∨ !s.reaches m then s
  else if !s.running then s.refuseAccess m bar a
  else
    let s := s.occur uHIF 0x101 bar (some m) a 1
    match bar with
    | 0 => s.bar0Write m a size data
    | 2 => if m = 0 then (if size = 4 ∧ a < 0x100 ∧ s.claimReason 0 (a / 4) data = 0 then s.setClaim (a / 4) none else
          if a < 0x100 then s.evtRange 2 a 0 (if size ≠ 4 then 7 else s.claimReason 0 (a / 4) data) data else s)
        else s.bar2Write m a size data
    | _ => s.bar4Write a size data

/-! ### Reads -/

/-- Read a claim register: grants a free claim (R56). -/
def State.claimTake (s : State) (m k : Nat) : Nat × State :=
  match s.claim k with
  | none => (0, s.setClaim k (some ⟨m, s.ns⟩))
  | some c => (if c.owner = m then 0 else 0x8000 ||| c.owner, s)

/-- A 4-byte register of a BAR as a read returns it, and the state after the read's effects. -/
def State.readReg (s : State) (m bar a : Nat) : Nat × State :=
  if bar = 0 then
    let u := a / 4096
    let off := a % 4096
    (s.regView u off, if (kindOf u).isSome then s.readEffect u off else s)
  else if bar = 2 then
    if a < 0x100 then s.claimTake m (a / 4)
    else if a < 0x200 then (s.claimPeek ((a - 0x100) / 4), s)
    else if a < 0x1000 then (0, s)
    else if a < 0x9000 then (if (a - 0x1000) / 16 < tableSize m then (s.rd (regKey (uMSIX m) 0 a)).toNat else 0, s)
    else if a < 0xA000 then ((s.rd (regKey (uMSIX m) 0 a)).toNat, s)
    else if a < 0xB000 ∧ isPF m ∧ a ≠ 0xA000 ∧ (regDefAt (uTCW (m - 1)) a).isSome then
      ((s.rd (regKey (uTCW (m - 1)) 0 a)).toNat, s)
    else (0, s)
  else if s.mbClosed a ∨ (regDefAt uBAR4 a).isNone then (0, s)
  else ((s.rd (regKey uBAR4 0 a)).toNat, s.readEffect uBAR4 a)

/-- The registers an access of `size` bytes at `a` covers, ascending (R40). -/
def coveredRegs (a size : Nat) : List Nat :=
  (List.range ((a + size + 3) / 4 - a / 4)).map fun i => (a / 4 + i) * 4

/-- Read registers in ascending order: their words joined, and the state after. -/
def State.readRegs (s : State) (m bar : Nat) : List Nat → Nat × State
  | [] => (0, s)
  | r :: rest =>
    let x := s.readReg m bar r
    let y := x.2.readRegs m bar rest
    (x.1 + y.1 * 2 ^ 32, y.2)

/-- A read of a BAR by a master: the addressed bytes, or Completer Abort where a register covered lies in a domain without
power (R40, R397). BAR number 7 is the function's configuration space. -/
def State.busRead (s : State) (m bar a size : Nat) : State :=
  if bar = 7 then (if s.pwr.mode = 1 ∨ s.pwr.mode = 3 ∨ !masters.contains m ∨ !s.fnEnabled m then s else s.send (.data (s.pciRead m a)))
  else if barSize m bar ≤ a ∨ !s.reaches m ∨ size = 0 ∨ 4096 < size then s
  else if !s.running then s.refuseAccess m bar a
  else
    let s := s.occur uHIF 0x100 bar (some m) a 1
    let regs := coveredRegs a size
    let off := if bar = 0 then regs.find? fun r => s.domainOff (r / 4096) (r % 4096) else none
    match off with
    | some r => (s.evtDomainOff 0 r m).abortTo m
    | none =>
      let x := s.readRegs m bar regs
      x.2.send (.data (bitsOf x.1 (8 * (a % 4)) (8 * size)))

/-! ### Configuration writes (R81, R82) -/

/-- A register whose instance SEL names in an entry. -/
def selAllowed (u off : Nat) : Bool :=
  u == uHIF && ((0x104 ≤ off && off < 0x130) || (0x144 ≤ off && off < 0x150) || off == 0x164)

/-- The select value of an entry is in the range of the register it replaces (R7, R81). -/
def selInRange (u off sel : Nat) : Bool :=
  if !selAllowed u off then true
  else if 0x144 ≤ off && off < 0x150 then masters.contains sel
  else if off = 0x164 then decide (sel < 4096) else true

/-- The cause that fails an entry; 0 for none. -/
def State.entryReason (s : State) (e : Nat × Nat) : Nat :=
  let u := cfgUid e
  let off := bitsOf e.1 32 12
  let v := bitsOf e.1 0 32
  let sel := bitsOf e.2 48 15
  let mask := bitsOf e.2 0 32
  let rsvd := bitsOf e.1 62 2 + bitsOf e.1 44 4 + bitsOf e.2 63 1 + bitsOf e.2 32 16
  if mask = 0 then (if rsvd ≠ 0 then 2 else 0)
  else if (kindOf u).isNone then 5
  else if rsvd ≠ 0 then 2
  else
    let inst := if selAllowed u off then sel else s.selOf u off
    match regDefAt u off with
    | none => if inRangeList u off ∧ mask &&& 0xC000 = 0 then 1 else if off % 4 ≠ 0 then 1 else 2
    | some d =>
      if mask - (mask &&& d.covered) ≠ 0 then 2
      else if (!selAllowed u off && sel != 0) || !selInRange u off sel || off % 4 != 0 || off == 0x10 || (u == uDEV && off == 0x100) ||
          mask &&& d.bitsWith (fun a => [Access.ro, .rc, .wo, .w1c].contains a) != 0 then 1
      else s.valueReason u inst off v mask

/-- Apply an entry that passed. -/
def State.entryApply (s : State) (e : Nat × Nat) : State :=
  let u := cfgUid e
  let off := bitsOf e.1 32 12
  let v := bitsOf e.1 0 32
  let mask := bitsOf e.2 0 32
  if mask = 0 then s
  else
    let inst := if selAllowed u off then bitsOf e.2 48 15 else s.selOf u off
    match regDefAt u off with
    | some d => s.regEffect u inst off (written d (s.oldWord u inst off) v mask) (s.withWritten u inst off v mask)
    | none => s

/-- How a set of entries ends: applied, or failed at an entry with a reason (0 for a target without power). -/
inductive CfgEnd where
  | done (s : State)
  | failed (reason index : Nat)

/-- Apply entries in order; the first that fails ends the set. -/
def State.entries_ (s : State) : List (Nat × Nat) → Nat → CfgEnd
  | [], _ => .done s
  | e :: rest, i =>
    if bitsOf e.2 0 32 ≠ 0 ∧ s.domainOff (cfgUid e) (bitsOf e.1 32 12) then .failed 0 i
    else
      let r := s.entryReason e
      if r ≠ 0 then .failed r i else (s.entryApply e).entries_ rest (i + 1)

/-- R434: a lead sends the mirrored entries of a descriptor, 64 a message; the last message of a descriptor holds fewer (log
entry 43). -/
def State.mirrorCfg (s : State) (es : List (Nat × Nat)) : State :=
  let ms := es.filter fun e => mirroredUid (cfgUid e)
  if s.mirroring ∧ ms ≠ [] then
    s.each (List.range (ms.length / 64 + 1)) fun s i =>
      s.twinSend 2 (((ms.drop (64 * i)).take 64).flatMap fun e => linkWords (wordsBytes [e.1, e.2]))
  else s

/-- Apply the entries of one CFG_WRITE descriptor and complete it. -/
def State.cfgSet (s : State) (c : CfgSet) : State :=
  let es := cfgEntries c.data
  let fin (s : State) (x : Comp) : State := if c.live then s.complete c.ring c.idx x else s
  match s.entries_ es 0 with
  | .done t => fin (t.mirrorCfg es) (comp 0 c.data.length 0)
  | .failed r i => if r = 0 then fin s (comp 7 0 0) else fin s (comp 1 0 (r * 2 ^ 16 + i))

/-- Sets in the order of R82: rings ascending, each ring in ring order. -/
def insertCfg (c : CfgSet) : List CfgSet → List CfgSet
  | [] => [c]
  | d :: r => if c.ring < d.ring then c :: d :: r else d :: insertCfg c r

/-- R431: a set with mirrored entries waits while the store of a mirroring lead is full. -/
def State.cfgHeld (s : State) (c : CfgSet) : Bool :=
  s.mirroring && s.twinFull && (cfgEntries c.data).any fun e => mirroredUid (cfgUid e)

/-- Apply the sets that fit `room` entries; the first that does not fit, or is held, and every one after it wait. -/
def State.cfgRun (s : State) : List CfgSet → Nat → State
  | [], _ => s
  | c :: rest, room =>
    let n := c.data.length / 16
    if room < n ∨ s.cfgHeld c then s.modHif fun h => { h with cfg := c :: rest }
    else (s.cfgSet c).cfgRun rest (room - n)

/-- R82: CFG_WRITE_APPLY at a boundary, with `room` entries left of its 4,096. -/
def State.cfgApply (s : State) (room : Nat) : State :=
  let l := s.hif.cfg.foldl (fun a c => insertCfg c a) []
  (s.modHif fun h => { h with cfg := [] }).cfgRun l room

/-- The CFG_ENTRIES messages of one descriptor, next in order and whole, and those that follow them. -/
def cfgGroup (got : Nat) : List TwinMsg → Option (List TwinMsg × List TwinMsg)
  | [] => none
  | m :: rest =>
    if m.type ≠ 2 ∨ got < m.seq then none
    else if m.body.length < 1024 then some ([m], rest)
    else (cfgGroup got rest).map fun x => (m :: x.1, x.2)

/-- R434: a follower applies the descriptors of CFG_ENTRIES messages that are next in order, whole or not at all, at its own
boundary, while they fit `room` entries; the room they leave. -/
def State.cfgMessages : Nat → State → Nat → Nat × State
  | 0, s, room => (room, s)
  | n + 1, s, room =>
    match cfgGroup s.twin.got s.twin.held with
    | none => (room, s)
    | some (ms, rest) =>
      let es := cfgEntries (linkWords (ms.flatMap (·.body)))
      if room < es.length then (room, s)
      else
        let s := s.modTwin fun w => { w with held := rest, waitAt := none }
        match s.entries_ es 0 with
        | .done t => t.cfgMessages n (room - es.length)
        | .failed r _ => (s.diverge ((ms.map (·.seq)).headD 0) (if r = 0 then 7 else 1) 0).cfgMessages n (room - es.length)

end Sys2Proof.Machine
end

