-- ==== Sys2Proof/Machine/Security.lean ====
section
/-!
DEFINITION. Bexvex images (R414, R415), the boot chain and the end of resets (R391, R418, R449), configuration images (R419),
image descriptors (R420, R421), microcode loads (R264–R266), the fuse update (R417) and SPDM (R423; message formats PRESUMED
from DMTF DSP0274 1.2, log entry 50).
-/
namespace Sys2Proof.Machine

/-! ### Images (Tables 1 and 2) -/

/-- An 8-byte word of an image. -/
def imgWord (b : List Byte) (off : Nat) : Nat := leNat (sliceBytes b off 8)
def imgType (b : List Byte) : Nat := bitsOf (imgWord b 0) 8 8
def imgSlot (b : List Byte) : Nat := bitsOf (imgWord b 0) 4 2
def imgSvn (b : List Byte) : Nat := bitsOf (imgWord b 8) 56 8
def imgLen (b : List Byte) : Nat := bitsOf (imgWord b 8) 0 32
def imgPayload (b : List Byte) : List Byte := b.drop 256
def imgDigest (b : List Byte) : List Byte := sliceBytes b 0x20 48

/-- The payload limit of a TYPE (reason 1); an invalid TYPE has none and fails under reason 3. -/
def imgLimit (type : Nat) : Nat :=
  if type = 1 then 4194304 else if type = 2 then 66080 else if type = 3 then 1048576 else if type = 4 then 112 else 2 ^ 32

/-- The checks of Table 2 in order, true where they pass. -/
def State.imgChecks (s : State) (b : List Byte) (type : Nat) : List Bool :=
  let w0 := imgWord b 0
  let zero (off n : Nat) : Bool := (sliceBytes b off n).all (· == 0)
  [ decide (256 ≤ b.length) && b.length == 256 + imgLen b && imgLen b != 0 && decide (imgLen b ≤ imgLimit (imgType b)),
    bitsOf w0 32 32 == 0x58425658 && bitsOf w0 16 16 == 1 && bitsOf w0 6 2 == 0 && bitsOf w0 0 4 == 0 &&
      bitsOf (imgWord b 8) 32 24 == 0 && imgWord b 0x18 == 0 && zero 0x50 48 && zero 0xE0 32,
    imgType b == type,
    bitsOf (s.getF uWDN F.SEC_KEYS_PRESENT) (imgSlot b) 1 == 1,
    bitsOf (s.getF uWDN F.SEC_KEYS_REVOKED) (imgSlot b) 1 == 0,
    decide (s.getF uWDN F.SEC_ARB_COUNT ≤ imgSvn b),
    imgDigest b == sha384 (imgPayload b),
    ecdsaVerify (s.sec.vendorPub.get (fun _ => []) (imgSlot b)) (sha384 (sliceBytes b 0 128)) (sliceBytes b 0x80 96) ]

/-- The first check of a list that fails, counted from 1; 0 where all pass. -/
def firstFail (l : List Bool) : Nat := if l.all id then 0 else (l.takeWhile id).length + 1

/-- R415: 0 where the image is authentic for a use, else the reason. -/
def State.imgReason (s : State) (b : List Byte) (type : Nat) : Nat := firstFail (s.imgChecks b type)

/-! ### Microcode loads (R264–R266) -/

/-- Engines that ARG names, ascending. -/
def namedEngines (arg : Nat) : List Nat :=
  ((List.range 16).filter fun c => bitsOf arg c 1 == 1).flatMap fun c =>
    ((List.range 17).filter fun e => bitsOf arg (16 + e) 1 == 1).map fun e => uENG c e

/-- An engine may take a store: Off, Ready or Retired, and not BUSY (Table 13). -/
def State.takesStore (s : State) (u : Nat) : Bool := [0, 3, 6].contains (s.ust u) && !(s.unitBusy u)

/-- Start a load of an image into engines, or the status and INFO with which it fails (Table 13). -/
def State.loadStart (s : State) (img : List Byte) (us : List Nat) (ring idx : Nat) : Except (Nat × Nat) State :=
  let why := s.imgReason img 2
  if why ≠ 0 then .error (0x47, why)
  else match loadCheck (imgPayload img), readPayload (imgPayload img) with
    | some (n, a), _ => .error (0x46, n * 2 ^ 24 + a)
    | none, none => .error (0x46, 2 ^ 24)
    | none, some p =>
      match us.find? fun u => !(s.takesStore u) with
      | some u => .error (0x45, u)
      | none => .ok ((s.modEng fun e => { e with load := some ⟨ring, idx, us, p.id, p.crc, p.entry, payloadStore p⟩ }).extend 4 (imgDigest img))

/-- The warden may take up an image descriptor: it runs, and none is under way (R264, R420). -/
def State.wardenFree (s : State) : Bool :=
  s.running && s.eng.load.isNone && s.sec.switching.isNone && s.sec.image.isNone && s.sec.fusing.isNone

/-- Opcodes of the image descriptors the warden takes up, one at a time and in the order it reads them (R264, R420); in
recovery WARDEN_LOAD alone (R418). -/
def State.imgOps (s : State) : List Nat :=
  if s.bit uWDN F.WDN_FW_STATUS_RECOVERY then [0x32] else [0x31, 0x32, 0x33, 0x34, 0x35]

/-- UCODE_LOAD. -/
def State.ucodeLoad (s : State) (r : Nat) (data : List Byte) (ok : Bool) : State :=
  match s.nextDesc r 0x31 with
  | none => s
  | some d =>
    if !s.wardenFree ∨ !s.imgOps.contains 0x31 ∨ !s.firstRead s.imgOps d then s
    else if !s.fwdOn then s.complete r d.idx (comp 7 0 0)
    else if !ok then s.complete r d.idx (comp 3 0 0)
    else match s.loadStart (sliceBytes data 0 d.len) (namedEngines d.w2) r d.idx with
      | .error (st, info) => s.complete r d.idx (comp st 0 info)
      | .ok t => t.setDesc r d.idx fun d => { d with begun := true }

/-- One engine's store and registers after a load (R266). -/
def State.loadEngine (s : State) (l : ULoad) (u : Nat) : State :=
  let s := s.modEng fun e => { e with
    cs := (List.range 4096).foldl (fun m a => m.put (fun _ => 0) (4096 * engNo u + a) (l.store.get (fun _ => 0) a)) s.eng.cs }
  let s := (s.setF u F.ENG_UCODE_ID_LO_ID (l.id % 2 ^ 32)).setF u F.ENG_UCODE_ID_HI_ID (l.id / 2 ^ 32)
  let s := (s.setF u F.ENG_UCODE_CRC_LO_CRC (l.crc % 2 ^ 32)).setF u F.ENG_UCODE_CRC_HI_CRC (l.crc / 2 ^ 32)
  let s := (s.setF u F.ENG_UCODE_ENTRY_LOADED 1).setF u F.ENG_UCODE_ENTRY_ENTRY l.entry
  (s.setF u F.UCB_TEST_RESULT_DONE 0).setF u F.UCB_TEST_RESULT_PASS 0

/-- UCODE_LOAD_DONE. -/
def State.ucodeDone (s : State) : State :=
  match s.eng.load with
  | none => s
  | some l =>
    if !s.running then s
    else
      let s := s.each l.engines fun s u => s.loadEngine l u
      (s.modEng fun e => { e with load := none }).complete l.ring l.idx (comp 0 0 l.engines.length)

/-! ### Configuration images (R418, R419) -/

/-- Where a load or image that no descriptor asked for would complete. -/
def noDesc : Nat := 2 ^ 20

def cfgNEntry (payload : List Byte) : Nat := bitsOf (imgWord payload 0) 32 16
def cfgUcodeOff (payload : List Byte) : Nat := bitsOf (imgWord payload 0) 0 32

/-- The form of a configuration payload. -/
def cfgFormOk (payload : List Byte) : Bool :=
  let w := imgWord payload 0
  let last := 8 + 16 * cfgNEntry payload
  let u := cfgUcodeOff payload
  decide (last ≤ payload.length) && bitsOf w 48 16 == 1 &&
    (u == 0 || (u % 8 == 0 && decide (last ≤ u) && decide (u + 256 + imgLen (payload.drop u) ≤ payload.length)))

/-- The entries of part `k`. -/
def cfgPart (payload : List Byte) (k : Nat) : List (Nat × Nat) :=
  cfgEntries (sliceBytes payload (8 + 65536 * k) (16 * min 4096 (cfgNEntry payload - 4096 * k)))

/-- EVT_BOOT_CONFIG (Table 9). -/
def State.evtBoot (s : State) (reason arg1 : Nat) : State := s.event 0xC7 0x411 uWDN reason arg1

/-- The image in progress ends: its completion, or the boot configuration's event where it failed with `info`. -/
def State.imageEnd (s : State) (i : ImgRun) (failed : Option Nat) : State :=
  let s := s.modSec fun c => { c with image := none }
  match i.src, failed with
  | some (r, x), none =>
    let n := match (s.ring r).descs.find? fun d => d.idx == x with | some d => d.len | none => 0
    s.complete r x (comp 0 n 0)
  | some (r, x), some info => s.complete r x (comp 1 0 info)
  | none, some info => s.evtBoot 9 info
  | none, none => s

/-- The microcode image a configuration payload embeds is loaded to every engine; one that fails its checks is not. -/
def State.embedded (s : State) (payload : List Byte) : State :=
  let u := cfgUcodeOff payload
  if u = 0 then s
  else
    let img := sliceBytes payload u (256 + imgLen (payload.drop u))
    match s.loadStart img (namedEngines (2 ^ 33 - 1)) noDesc noDesc with
    | .ok t => t
    | .error _ => s

/-- CONFIG_PART_APPLY (R419) at a boundary: the next part of the image in progress; answers the entries it takes. -/
def State.partApply (s : State) : Nat × State :=
  match s.sec.image with
  | none => (0, s)
  | some i =>
    let es := cfgPart i.payload i.part
    let last : Bool := decide (cfgNEntry i.payload ≤ 4096 * (i.part + 1))
    if !cfgFormOk i.payload then (0, s.imageEnd i (some (2 ^ 16)))
    else match s.entries_ es 0 with
      | .failed r x => (es.length, s.imageEnd i (some (i.part * 2 ^ 20 + (if r = 0 then 1 else r) * 2 ^ 16 + x)))
      | .done t =>
        if last then (es.length, (t.imageEnd i none).embedded i.payload)
        else (es.length, (t.modSec fun c => { c with image := some { i with part := i.part + 1 } }))

/-! ### The boot chain (R418) -/

/-- MEAS2. -/
def State.fuseDigest (s : State) : List Byte :=
  Config.fuseDigest ((List.range 4).map fun k => s.sec.vendorPub.get (fun _ => []) k) (s.getF uWDN F.SEC_KEYS_REVOKED)
    ((List.range 2).map fun k => s.sec.opPub.get (fun _ => []) k)
    (s.getF uWDN F.SEC_KEYS_OP_PRESENT + 4 * s.getF uWDN F.SEC_KEYS_OP_REVOKED) (s.getF uWDN F.SEC_ARB_COUNT)

/-- A firmware slot's image. -/
def State.slotImage (s : State) (k : Nat) : List Byte := s.sec.slotImg.get (fun _ => []) k

/-- The warden runs slot `k`. -/
def State.runSlot (s : State) (k : Nat) : State :=
  ((s.setF uWDN F.WDN_FW_STATUS_SLOT k).setF uWDN F.WDN_FW_STATUS_RECOVERY 0).extend 1 (imgDigest (s.slotImage k))

/-- The firmware takes up the boot configuration. -/
def State.bootConfig (s : State) : State :=
  let b := s.sec.bootCfg
  let why := s.imgReason b 3
  if b.isEmpty then s.evtBoot 0 0
  else if why ≠ 0 then s.evtBoot why 0
  else { s.extend 3 (imgDigest b) with sec := { (s.extend 3 (imgDigest b)).sec with image := some ⟨none, imgPayload b, 0⟩ } }

/-- R418: the boot ROM, and the firmware it starts. -/
def State.boot (s : State) : State :=
  let s := (s.setMeasure 0 Config.romDigest).setMeasure 2 s.fuseDigest
  let p := s.sec.bootPtr % 2
  match [p, 1 - p].find? fun k => s.imgReason (s.slotImage k) 1 == 0 with
  | some k => (s.runSlot k).bootConfig
  | none => s.setF uWDN F.WDN_FW_STATUS_RECOVERY 1

/-- A TAP instruction becomes current; EXTEST, CLAMP and HIGHZ take the pins, and the instruction after them gives them back
(R456). -/
def State.setTap (s : State) (ir : Nat) : State :=
  let t := s.modPwr fun p => { p with tapIr := ir }
  if tapDrive ir = 1 then t.send (.boundary 1 s.pwr.tapCells)
  else if tapDrive ir = tapDrive s.pwr.tapIr then t else t.send (.boundary (tapDrive ir) 0)

/-- What every end of a reset does: the challenge is drawn, the warden boots, EVT_RESET_CAUSE is queued (R222, R391,
R418), behind the EVT_SECURE_CLOSE of a session that the reset closed (R429); a TAP instruction that drives pins becomes BYPASS (R456). -/
def State.afterReset (s : State) : State :=
  let s := (s.modPwr fun p => { p with mode := 0, resetAt := s.ns, railTries := 0 }).newChallenge
  let s := s.setTap (if 3 ≤ s.pwr.tapIr then 0 else s.pwr.tapIr)
  let s := if s.lineCard then { s.fabModeSet with fab := s.fab } else s
  let s := if s.sec.closed.isEmpty then s else (s.modSec fun c => { c with closed := [] }).eventDefault 1 s.sec.closed
  let s := s.event 0xA9 0x40E uPLN (s.getF uPLN F.PLN_RESET_CAUSE_CAUSE) s.ns
  s.boot

/-- A thermal trip is held until Tj is below 110 °C (Table 1 of chapter 18). -/
def State.tripHeld (s : State) : Bool :=
  bitsOf s.pwr.resetBy 5 1 == 1 && decide (110 * 16 ≤ signedOf (s.getF uPLN F.PLN_THERM_TJ) 16)

/-- A clock, VDD_CORE or a temperature holds the chip-class reset (R447, Table 1 of chapter 18). -/
def State.resetHeld (s : State) : Bool :=
  s.tripHeld || !s.clk.running || s.pwr.coreClkLost || !s.pwr.coreEn || (bitsOf s.pwr.resetBy 4 1 == 1 && s.pwr.coreLow)

/-- RESET_RELEASE: RESET_N and PERST_N are high. `rails` shows the rails below their levels, as `Pwr.lowRails` has them; while
there is one, or a clock, VDD_CORE or a temperature holds the reset, it goes on (R445). Else it ends, after a brown-out not
before VDD_CORE has been above 95 % of target for 1 ms, and straps are sampled (R62, R449). -/
def State.resetRelease (s : State) (split twinId testMode rails : Nat) : State :=
  if s.pwr.mode ≠ 1 ∨ !s.pwr.coreEn then s
  else
    let low := rails % 32
    let s := s.modPwr fun p => { p with lowRails := low, enAt := if low = 0 then none else s.pwr.enAt }
    if low ≠ 0 ∨ s.resetHeld then s
    else
      let s := if bitsOf s.pwr.resetBy 4 1 = 1 then s.reach (s.pwr.coreOkAt + 1000000) else s
      if testMode % 2 = 1 then s
      else ((s.setF uHIF F.HIF_LINK_SPLIT split).setF uTWN F.TWN_STATUS_TWIN_ID twinId).afterReset

/-- DEVICE_SOFT_RESET_END (R391). -/
def State.softEnd (s : State) : State := if s.pwr.mode = 2 then s.afterReset else s

/-! ### Image descriptors (R417, R420, R421) -/

/-- The next image descriptor with an opcode, or why it ends at once: DENIED without the secure session of PF0. -/
def State.imgDesc (s : State) (r op : Nat) : Option (Desc × Bool) :=
  match s.nextDesc r op with
  | none => none
  | some d =>
    if !s.wardenFree ∨ !s.imgOps.contains op ∨ !s.firstRead s.imgOps d then none
    else some (d, s.ringOwner r == some 1 && s.secureOpen)

/-- WARDEN_LOAD. In recovery the warden runs the image it has loaded. -/
def State.wardenLoad (s : State) (r : Nat) (data : List Byte) (ok : Bool) : State :=
  match s.imgDesc r 0x32 with
  | none => s
  | some (d, allowed) =>
    let slot := d.w2 % 2
    let img := sliceBytes data 0 d.len
    let recovery := s.bit uWDN F.WDN_FW_STATUS_RECOVERY
    if !allowed then s.complete r d.idx (comp 4 0 0)
    else if !recovery ∧ slot = s.getF uWDN F.WDN_FW_STATUS_SLOT then s.complete r d.idx (comp 1 0 0)
    else if !ok then s.complete r d.idx (comp 3 0 0)
    else
      let why := s.imgReason img 1
      if why ≠ 0 then s.complete r d.idx (comp 0x47 0 why)
      else
        let s := (s.modSec fun c => { c with slotImg := s.sec.slotImg.put (fun _ => []) slot img }).complete r d.idx (comp 0 d.len 0)
        if recovery then (s.runSlot slot).bootConfig else s

/-- WARDEN_SWITCH begins: the warden is reset and its claims are released (R59, R421). -/
def State.wardenSwitch (s : State) (r : Nat) : State :=
  match s.imgDesc r 0x33 with
  | none => s
  | some (d, allowed) =>
    let why := s.imgReason (s.slotImage (1 - s.getF uWDN F.WDN_FW_STATUS_SLOT)) 1
    if !allowed then s.complete r d.idx (comp 4 0 0)
    else if why ≠ 0 then s.complete r d.idx (comp 0x47 0 why)
    else
      let s := s.setDesc r d.idx fun d => { d with begun := true }
      let s := s.each (List.range 64) fun s k => if (s.claim k).any fun c => c.owner == 0 then s.setClaim k none else s
      s.modSec fun c => { c with switching := some ⟨r, d.idx, s.ns⟩ }

/-- A switch ends; the crossing timers did not run meanwhile. -/
def State.switchEnd (s : State) (w : SwRun) : State :=
  let later (t : Nat) : Nat := if t = 0 then 0 else if t - 1 < w.at_ then t + (s.ns - w.at_) else s.ns + 1
  s.modSec fun c => { c with switching := none, bothAt := s.sec.bothAt.remap (fun _ => 0) fun _ t => later t }

/-- WARDEN_SWITCH_DONE. -/
def State.switchDone (s : State) : State :=
  match s.sec.switching with
  | none => s
  | some w =>
    if !s.running then s
    else
      let k := 1 - s.getF uWDN F.WDN_FW_STATUS_SLOT
      let s := (s.switchEnd w).runSlot k
      let n := s.sec.switches + 1
      let s := (s.modSec fun c => { c with bootPtr := k, switches := n }).extend 7 (Config.countDigest n)
      s.complete w.ring w.idx (comp 0 0 0)

/-- WARDEN_SWITCH_TIMEOUT: the former slot runs on. -/
def State.switchTimeout (s : State) : State :=
  match s.sec.switching with
  | none => s
  | some w => if !s.running then s else ((s.reach (w.at_ + 20000000000)).switchEnd w).complete w.ring w.idx (comp 8 0 0)

/-- CONFIG_IMAGE. -/
def State.configImage (s : State) (r : Nat) (data : List Byte) (ok : Bool) : State :=
  match s.imgDesc r 0x34 with
  | none => s
  | some (d, allowed) =>
    let img := sliceBytes data 0 d.len
    if !allowed then s.complete r d.idx (comp 4 0 0)
    else if !ok then s.complete r d.idx (comp 3 0 0)
    else
      let why := s.imgReason img 3
      if why ≠ 0 then s.complete r d.idx (comp 0x47 0 why)
      else
        let s := (s.setDesc r d.idx fun d => { d with begun := true }).extend 5 (imgDigest img)
        s.modSec fun c => { c with image := some ⟨some (r, d.idx), imgPayload img, 0⟩ }

/-- The checks of R417 on a fuse-update payload; `slot` and `svn` are the header's KEY_SLOT and SVN. -/
def State.fuseOk (s : State) (p : List Byte) (slot svn : Nat) : Bool :=
  let w := imgWord p 0
  let revoke := bitsOf w 60 4
  let new := bitsOf w 51 7
  let enroll : Bool := bitsOf w 50 1 == 1
  let left := (List.range 4).filter fun k =>
    bitsOf (s.getF uWDN F.SEC_KEYS_PRESENT) k 1 == 1 && bitsOf (s.getF uWDN F.SEC_KEYS_REVOKED) k 1 == 0 && bitsOf revoke k 1 == 0
  p.length == (if enroll then 112 else 16) && bitsOf w 0 49 == 0 && imgWord p 8 == 0 &&
    decide (s.getF uWDN F.SEC_ARB_COUNT ≤ new) && decide (new ≤ svn) && decide (new ≤ 64) &&
    bitsOf revoke slot 1 == 0 && !left.isEmpty &&
    (!enroll || (bitsOf (s.getF uWDN F.SEC_KEYS_OP_PRESENT) (bitsOf w 49 1) 1 == 0 && keyOnCurve (sliceBytes p 16 96)))

/-- The update of a payload, for a descriptor. -/
def fuseRun (r : Nat) (d : Desc) (p : List Byte) : FuseRun :=
  let w := imgWord p 0
  { ring := r, idx := d.idx, len := d.len, enrol := if bitsOf w 50 1 = 1 then some (bitsOf w 49 1, sliceBytes p 16 96) else none
    revoke := bitsOf w 60 4, opRevoke := bitsOf w 58 2, count := bitsOf w 51 7 }

/-- The fuses of an update are blown: key, revoke bits, count. -/
def State.blow (s : State) (f : FuseRun) : State :=
  let s := match f.enrol with
    | some (k, key) => (s.modSec fun c => { c with opPub := s.sec.opPub.put (fun _ => []) k key }).setF uWDN F.SEC_KEYS_OP_PRESENT
        (s.getF uWDN F.SEC_KEYS_OP_PRESENT ||| 2 ^ k)
    | none => s
  let s := s.setF uWDN F.SEC_KEYS_REVOKED (s.getF uWDN F.SEC_KEYS_REVOKED ||| f.revoke)
  let s := s.setF uWDN F.SEC_KEYS_OP_REVOKED (s.getF uWDN F.SEC_KEYS_OP_REVOKED ||| f.opRevoke)
  s.setF uWDN F.SEC_ARB_COUNT f.count

/-- R417: the fuses being blown are blown and the update completes, at a tick, for which the table has no row (DESIGN CHOICE, log
entry 104). -/
def State.fuseDone (s : State) : State :=
  match s.sec.fusing with
  | none => s
  | some f => ((s.blow f).modSec fun c => { c with fusing := none }).complete f.ring f.idx (comp 0 f.len 0)

/-- FUSE_UPDATE. -/
def State.fuseUpdate (s : State) (r : Nat) (data : List Byte) (ok : Bool) : State :=
  match s.imgDesc r 0x35 with
  | none => s
  | some (d, allowed) =>
    let img := sliceBytes data 0 d.len
    if !allowed then s.complete r d.idx (comp 4 0 0)
    else if !ok then s.complete r d.idx (comp 3 0 0)
    else
      let why := s.imgReason img 4
      if why ≠ 0 then s.complete r d.idx (comp 0x47 0 why)
      else if s.fuseOk (imgPayload img) (imgSlot img) (imgSvn img) then
        (s.setDesc r d.idx fun d => { d with begun := true }).modSec fun c => { c with fusing := some (fuseRun r d (imgPayload img)) }
      else s.complete r d.idx (comp 0x46 0 (2 ^ 24))

/-! ### SPDM (R423) -/

def State.spdmConn (s : State) (pf : Nat) : SpdmConn := s.sec.spdm.get (fun _ => {}) pf
def State.setSpdm (s : State) (pf : Nat) (c : SpdmConn) : State :=
  s.modSec fun x => { x with spdm := s.sec.spdm.put (fun _ => {}) pf c }

def byteOf (n : Nat) : Byte := BitVec.ofNat 8 n

/-- ERROR with a code and its data. -/
def spdmError (code data : Nat) : List Byte := [byteOf 0x12, byteOf 0x7F, byteOf code, byteOf data]

/-- Request byte `i`. -/
def reqByte (m : List Byte) (i : Nat) : Nat := (m[i]?.map (·.toNat)).getD 0

/-- A string's ASCII bytes. -/
def asciiBytes (t : String) : List Byte := t.toList.map fun c => byteOf c.toNat

/-- The digest an SPDM 1.2 signature covers: prefix, context, transcript hash. -/
def spdmDigest (context : String) (transcript : List Byte) : List Byte :=
  let p := asciiBytes "dmtf-spdm-v1.2.*"
  let c := asciiBytes context
  sha384 (p ++ p ++ p ++ p ++ List.replicate (36 - c.length) 0 ++ c ++ sha384 transcript)

/-- Measurement block `i` + 1: MEAS`i` (R423). -/
def State.measBlock (s : State) (i : Nat) : List Byte :=
  let kind := if i = 0 then 0 else if i = 1 then 1 else 3
  [byteOf (i + 1), byteOf 1] ++ leBytes 51 2 ++ [byteOf kind] ++ leBytes 48 2 ++ s.measure i

/-- Requests go in order: VERSION, CAPABILITIES, ALGORITHMS, then the others. -/
def spdmStep (code : Nat) : Nat := if code = 0x84 then 0 else if code = 0xE1 then 1 else if code = 0xE3 then 2 else 3

/-- Bytes the nonces the device draws. -/
def State.nonce (s : State) : List Byte × State :=
  let n := (List.range 4).map fun i => Config.freeValue (s.draws + i)
  (n.flatMap fun v => leBytes v 8, { s with draws := s.draws + 4 })

/-- VERSION, CAPABILITIES and ALGORITHMS. -/
def spdmSetup (m : List Byte) (code : Nat) : List Byte :=
  let (ct, dts, mx) := Config.spdmSizes
  if code = 0x84 then [byteOf 0x10, byteOf 0x04, 0, 0, 0, byteOf 1] ++ leBytes 0x1200 2
  else if code = 0xE1 then [byteOf 0x12, byteOf 0x61, 0, 0, 0, byteOf ct, 0, 0] ++ leBytes 0x16 4 ++ leBytes dts 4 ++ leBytes mx 4
  else
    [byteOf 0x12, byteOf 0x63, 0, 0] ++ leBytes 36 2 ++ [byteOf (reqByte m 6 &&& 1), 0] ++ leBytes 4 4 ++
      leBytes (leNat (sliceBytes m 8 4) &&& 0x80) 4 ++ leBytes (leNat (sliceBytes m 12 4) &&& 0x02) 4 ++ List.replicate 16 0

/-- DIGESTS and CERTIFICATE of slot 0. -/
def spdmCert (m : List Byte) (code : Nat) : List Byte :=
  let chain := Config.certChain
  if code = 0x81 then [byteOf 0x12, byteOf 0x01, 0, byteOf 1] ++ sliceBytes (sha384 chain) 0 48
  else
    let off := leNat (sliceBytes m 4 2)
    let n := min (leNat (sliceBytes m 6 2)) (chain.length - off)
    [byteOf 0x12, byteOf 0x02, 0, 0] ++ leBytes n 2 ++ leBytes (chain.length - off - n) 2 ++ (chain.drop off).take n

/-- CHALLENGE_AUTH. -/
def State.spdmChallenge (s : State) (pf : Nat) (m : List Byte) : List Byte × State :=
  let c := s.spdmConn pf
  let (nonce, s) := s.nonce
  let all := (List.range 8).flatMap s.measBlock
  let sum := reqByte m 3
  let hash := if sum = 0 then [] else sha384 (if sum = 1 then s.measBlock 0 else all)
  let body := [byteOf 0x12, byteOf 0x03, 0, byteOf 1] ++ sliceBytes (sha384 Config.certChain) 0 48 ++ nonce ++ hash ++ [0, 0]
  let d := spdmDigest "responder-challenge_auth signing" (c.a ++ c.b ++ m ++ body)
  (body ++ s.sign d, (s.signed).setSpdm pf { c with b := [] })

/-- MEASUREMENTS: the number of blocks, one block, or all; signed where the request asks. -/
def State.spdmMeas (s : State) (pf : Nat) (m : List Byte) : List Byte × State :=
  let c := s.spdmConn pf
  let op := reqByte m 3
  let sig : Bool := reqByte m 2 % 2 == 1
  let blocks := if op = 0 then [] else if op = 0xFF then List.range 8 else [op - 1]
  let rec_ := blocks.flatMap s.measBlock
  let (nonce, s) := s.nonce
  let body := [byteOf 0x12, byteOf 0x60, byteOf (if op = 0 then 8 else 0), 0, byteOf blocks.length] ++ leBytes rec_.length 3 ++ rec_ ++
    nonce ++ [0, 0]
  let l := c.l ++ m ++ body
  if sig then
    (body ++ s.sign (spdmDigest "responder-measurements signing" (c.a ++ l)), (s.signed).setSpdm pf { c with l := [] })
  else (body, s.setSpdm pf { c with l := l })

/-- The answer to a request with code `code`, after the checks every request passes. -/
def State.spdmAnswer (s : State) (pf code : Nat) (m : List Byte) : List Byte × State :=
  let c := s.spdmConn pf
  let k := spdmStep code
  if k < 3 then
    let b := spdmSetup m code
    (b, s.setSpdm pf (if k = 0 then { step := 1, a := m ++ b } else { c with step := k + 1, a := c.a ++ m ++ b }))
  else if code = 0x81 ∨ code = 0x82 then
    let b := spdmCert m code
    if code = 0x82 ∧ (reqByte m 2 % 16 ≠ 0 ∨ Config.certChain.length ≤ leNat (sliceBytes m 4 2)) then (spdmError 1 0, s)
    else (b, s.setSpdm pf { c with b := c.b ++ m ++ b })
  else if code = 0x83 then
    (if reqByte m 2 ≠ 0 ∨ !([0, 1, 0xFF].contains (reqByte m 3)) then (spdmError 1 0, s) else s.spdmChallenge pf m)
  else if (8 < reqByte m 3 ∧ reqByte m 3 ≠ 0xFF) ∨ (reqByte m 2 % 2 = 1 ∧ reqByte m 36 % 16 ≠ 0) then (spdmError 1 0, s)
  else s.spdmMeas pf m

/-- An SPDM message `m` over DOE of PF `pf`, whose request code the row gives (R423). -/
def State.spdm (s : State) (pf code : Nat) (m : List Byte) : State :=
  if (pf ≠ 0 ∧ pf ≠ 2) ∨ s.pwr.mode = 1 ∨ s.pwr.mode = 3 then s
  else if !s.wardenUp then s.send (.doe (spdmError 3 0))
  else if reqByte m 1 ≠ code ∨ reqByte m 0 ≠ (if code = 0x84 then 0x10 else 0x12) then s.send (.doe (spdmError 7 (reqByte m 1)))
  else if code ≠ 0x84 ∧ (if spdmStep code < 3 then (s.spdmConn pf).step ≠ spdmStep code else (s.spdmConn pf).step < 3) then
    s.send (.doe (spdmError 4 0))
  else
    let x := s.spdmAnswer pf code m
    x.2.send (.doe x.1)

end Sys2Proof.Machine
end

