-- ==== Sys2Proof/Machine/Period.lean ====
section
/-!
DEFINITION. The work-period boundary (R412), the tally collector (R361), queue telemetry (R307), capture batches (R287), flow
counters (R362, R363), counters that run with time (R359), and the plinth tick of an idle step (R405, R406, log entry 4).
-/
namespace Sys2Proof.Machine

/-! ### Counters that run with time (R359, Table 10) -/

/-- Island cycles of a unit between two island times in 1/65,536 ns; none while its clock is gated. -/
def State.cyclesIn (s : State) (u a b : Nat) : Nat :=
  if s.gated treeDepth u then 0
  else
    let f := s.clockMHz u
    b * f / 65536000 - a * f / 65536000

/-- EC cycles between two times in which an engine has no eligible thread. -/
def State.starvedIn (s : State) (u a b : Nat) : Nat :=
  let g := engNo u
  let ready := (List.range 8).filter fun t => (s.thread (8 * g + t)).canIssue
  let first := ready.foldl (fun m t => min m (s.thread (8 * g + t)).elig) (ecCycles b)
  if s.ust u ≠ 4 ∧ s.ust u ≠ 5 then 0 else min (ecCycles b) first - ecCycles a

/-- The occupancy an event names; none where the spec's mechanism has no contents of its own in this model, so that the count
is free (log entry 51). -/
def State.occupancy (s : State) (u ev : Nat) : Option Nat :=
  match kindOf u, ev with
  | some .rsv, 0x101 => some (s.course ((u - 0x50) / 8)).recirc.length
  | some .engine, 0x102 => some ((List.range 8).filter fun t => (s.thread (8 * engNo u + t)).canIssue).length
  | some .cluster, 0x101 => some (s.cluster ((u - 0x400) / 64)).queued.length
  | some .bsn, 0x101 => some ((List.range 33).map fun i => s.xpUsed i 33).sum
  | some .tmq, 0x101 => some (s.getF u F.TMQ_ENTRY_USED_COUNT)
  | _, _ => none

/-- What counter `k` of a unit adds to `t` between two times in which the device was as `s` says. -/
def State.pmcElapsed (s t : State) (u k a b : Nat) : State :=
  let ev := s.getF u (F.PMC_CTL_EVENT.i k)
  let cyc := s.cyclesIn u a b
  if s.getF u (F.PMC_CTL_MODE.i k) = 2 then
    match s.occupancy u ev with
    | some n => if s.getF u (F.PMC_ARG_THRESH.i k) < n then t.pmcAdd u k cyc else t
    | none => let (v, t) := t.draw; t.pmcAdd u k (v % (cyc + 1))
  else if ev = 1 then t.pmcAdd u k cyc
  else if ev = 2 ∨ ev = 3 then let (v, t) := t.draw; t.pmcAdd u k v
  else if kindOf u = some .engine ∧ ev = 0x101 then t.pmcAdd u k (s.starvedIn u a b)
  else t

/-- Counters that are on, as (unit, counter). -/
def State.pmcOn (s : State) : List (Nat × Nat) :=
  s.regs.filterMap fun e =>
    let off := e.1 % 4096
    if e.1 < 2 ^ 26 ∧ 0xE80 ≤ off ∧ off < 0xF00 ∧ off % 16 = 0 ∧ e.2.toNat / 2 ^ 31 = 1 ∧ nctr (e.1 / 4096) = 8 then
      some (e.1 / 4096, (off - 0xE80) / 16)
    else none

/-- Time has passed from `s` to `t`: counters of cycles and occupancy advance by what `s` held meanwhile, where they have not
done so yet. -/
def State.elapse (s t : State) : State :=
  let from_ := max s.clk.core t.clk.counted
  let upTo := t.clk.core
  if upTo ≤ from_ ∨ !t.running then t
  else s.pmcOn.foldl (fun t x => s.pmcElapsed t x.1 x.2 from_ upTo) (t.modClk fun c => { c with counted := upTo })

/-! ### The tally collector (R361) -/

/-- Split ascending indexes into runs of consecutive ones, at most `n` long: (first index, how many). -/
def runsOf (n : Nat) (l : List Nat) : List (Nat × Nat) :=
  (l.foldl (fun (acc : List (Nat × Nat)) i =>
    match acc with
    | (a, k) :: rest => if a + k = i ∧ k < n then (a, k + 1) :: rest else (i, 1) :: acc
    | [] => [(i, 1)]) []).reverse

/-- Indexes whose values changed since the last sample, ascending. -/
def State.changedCtrs (s : State) : List Nat :=
  let keys := ((s.ctrs.map (·.1)) ++ (s.tal.prev.filterMap fun e => if (s.ctrs.find e.1).isNone then some e.1 else none))
  (keys.filter fun i => s.ctr i != s.tal.prev.get (fun _ => 0) i).mergeSort (· ≤ ·)

/-- A KIND 3 record, with the records abandoned and written. -/
def State.periodEnd (s : State) (abandoned : Nat) : State :=
  let d := wordsBytes [3 * 2 ^ 60 + s.tal.period % 2 ^ 32, s.tal.periodAt, abandoned, s.tal.written, 0, 0, 0, 0]
  (s.modTal fun t => { t with endDue := false }).recordNow (s.getF uTAL F.TAL_CFG_RING) 0x14 d

/-- TALLY_SAMPLE at a boundary: what was not written is abandoned, the counters are sampled, and SNAPSHOT bodies are made
for the twin (R436, log entry 43). -/
def State.tallySample (s : State) : State :=
  let late := s.tal.runs.length
  let s := (s.addF uTAL F.TAL_ABANDON_COUNT late).when s.tal.endDue fun s => s.periodEnd late
  let changed := s.changedCtrs
  let all := if s.tal.firstAll then s.ctrs.map (·.1) else changed
  let on := s.bit uTAL F.TAL_CFG_EN
  let val (i : Nat) : Nat := (s.ctr i).toNat
  let runs := if on then (runsOf 6 all).map fun r => (r.1, (List.range r.2).map fun k => val (r.1 + k)) else []
  let per := s.clk.wpNum - 1
  let snaps := runsOf 127 changed
  let body (r : Nat × Nat) (last : Bool) : List Byte :=
    beBytes (per % 2 ^ 32 * 2 ^ 32 + (if last then 2 ^ 31 else 0) + r.1) 8 ++ (List.range r.2).flatMap fun k => beBytes (val (r.1 + k)) 8
  let s := s.addF uTWN F.TWN_SNAP_ABANDON s.twin.snap.length
  let snap := if s.bit uTWN F.TWN_CFG_SNAP_EN ∧ s.twnState = 3 then
      snaps.zipIdx.map fun r => body r.1 (r.2 + 1 == snaps.length)
    else []
  let s := s.modTwin fun w => { w with snap := snap }
  s.modTal fun t => { t with
    prev := s.ctrs, runs := runs, endDue := on, written := 0, period := per, periodAt := s.ns, cinders := 0
    firstAll := s.tal.firstAll && !on }

/-- TALLY_RECORD_WRITE: the next KIND 1 record, or the KIND 3 record after the last. A record the ring discards (R84) is
lost there and is not counted as written. -/
def State.tallyWrite (s : State) : State :=
  if !s.running then s
  else match s.tal.runs with
    | (i, vs) :: rest =>
      let d := wordsBytes ([2 ^ 60 + vs.length * 2 ^ 57 + i * 2 ^ 32 + s.tal.period % 2 ^ 32, s.tal.periodAt] ++
        (List.range 6).map fun k => vs.getD k 0)
      let r := s.getF uTAL F.TAL_CFG_RING
      let taken := if s.ringUp r 0x14 && !s.ringFull r then 1 else 0
      (s.modTal fun t => { t with runs := rest, written := s.tal.written + taken }).recordNow r 0x14 d
    | [] => if s.tal.endDue then s.periodEnd 0 else s

/-! ### Queue telemetry (R307) -/

/-- Table 6: the record of a queue for the period that ends at `s.ns`. -/
def State.telRec (s : State) (q : Nat) (t : QTel) : List Byte :=
  let p := s.queuePort q
  let held : Bool := decide (p < 256) && s.mac p F.PORT_STATUS_HELD == 1
  let l := s.queue q
  let head := match l with | e :: _ => s.ns - e.enq | [] => 0
  wordsBytes [q * 2 ^ 40 + (if held then 2 ^ 39 else 0) + (if s.queuePaused q then 2 ^ 38 else 0) + (s.clk.wpNum - 1) % 2 ^ 32,
    s.ns, t.dmin * 2 ^ 32 + t.dmax, depthOf l * 2 ^ 32 + head % 2 ^ 32, (t.lmin.getD 0) * 2 ^ 32 + t.lmax,
    t.sent * 2 ^ 32 + t.enq, t.drop * 2 ^ 32, 0]

/-- TELEMETRY_SAMPLE: records not written are abandoned; every queue's values are taken and restart from its depth. -/
def State.telSample (s : State) : State :=
  let s := s.each s.tal.telem fun s e => s.addF (uTMQ e.1) F.TMQ_TELEM_ABANDON_COUNT e.2.length
  let seen := s.bas.tel.filter fun e => s.prof e.1 F.TM_PROF_CFG_TELEM_EN == 1 && (e.2.dmax != 0 || e.2.enq != 0 || e.2.drop != 0)
  let recs (k : Nat) : List (List Byte) :=
    if s.bit (uTMQ k) F.TMQ_TELEM_CFG_EN then (seen.filter fun e => e.1 / 65536 == k).map fun e => s.telRec e.1 e.2 else []
  let telem := (List.range 4).foldl (fun (m : KMap (List (List Byte))) k => m.put (fun _ => []) k (recs k)) []
  let fresh (q : Nat) : QTel := { dmin := depthOf (s.queue q), dmax := depthOf (s.queue q) }
  { s with
    tal := { s.tal with telem := telem }
    bas := { s.bas with tel := s.bas.tel.remap (fun _ => {}) fun q _ => fresh q } }

/-- TELEMETRY_RECORD_WRITE of a quadrant: its next record. -/
def State.telWrite (s : State) (k : Nat) : State :=
  match s.tal.telem.get (fun _ => []) k with
  | [] => s
  | d :: rest =>
    if !s.running then s
    else (s.modTal fun t => { t with telem := s.tal.telem.put (fun _ => []) k rest }).recordNow
      (s.getF (uTMQ k) F.TMQ_TELEM_CFG_RING) 0x15 d

/-! ### Capture batches (R287) -/

/-- The batch of the period that ends becomes the one to write. -/
def State.captureClose (s : State) : State :=
  let s := s.addF uBSN F.BSN_CAPTURE_ABANDON_COUNT s.bas.captureOut.length
  s.modBas fun b => { b with captureOut := s.bas.capture, capture := [], captured := 0 }

/-- CAPTURE_BATCH_WRITE: the next record of the batch. -/
def State.captureWrite (s : State) : State :=
  match s.bas.captureOut with
  | [] => s
  | d :: rest =>
    if !s.running then s
    else (s.modBas fun b => { b with captureOut := rest }).recordNow (s.getF uBSN F.BSN_CAPTURE_CFG_RING) 0x17 d

/-! ### Flow counters (R362, R363) -/

/-- Write KIND 2 records of periods all of whose deltas have been added or lost. -/
def State.flowSync (s : State) : State :=
  let due := s.tal.flowSyncs.filter fun p => !s.tal.flowOut.any fun d => decide (d.at_ ≤ p.2)
  let s := s.modTal fun t => { t with flowSyncs := s.tal.flowSyncs.filter fun p => s.tal.flowOut.any fun d => decide (d.at_ ≤ p.2) }
  s.each due fun s p =>
    if s.bit uTAL F.TAL_CFG_EN then
      s.recordNow (s.getF uTAL F.TAL_CFG_RING) 0x14 (wordsBytes [2 * 2 ^ 60 + p.1 % 2 ^ 32, p.2, 0, 0, 0, 0, 0, 0])
    else s

/-- FLOW_CACHE_WRITEBACK: a cache evicts its delta of a counter. -/
def State.flowEvict (s : State) (cache ctr : Nat) : State :=
  match s.tal.flows.find? fun d => d.cache == cache && d.ctr == ctr with
  | none => s
  | some d => s.modTal fun t => { t with flows := s.tal.flows.erase d, flowOut := s.tal.flowOut ++ [{ d with at_ := s.ns }] }

/-- At a boundary every cache writes back every delta it holds. -/
def State.flowClose (s : State) : State :=
  let t := s.tal
  if t.flows.isEmpty ∧ s.bit uTAL F.TAL_FLOW_CFG_EN = false then s
  else
    let out := t.flowOut ++ t.flows.map fun d => { d with at_ := s.ns }
    let syncs := t.flowSyncs ++ [(s.clk.wpNum - 1, s.ns)]
    ({ s with tal := { t with flows := [], flowOut := out, flowSyncs := syncs } }).flowSync

/-- The DRAM address of a flow counter. -/
def State.flowAddr (s : State) (ctr : Nat) : Nat :=
  s.getF uTAL F.TAL_FLOW_BASE_LO_ADDR * 4096 + s.getF uTAL F.TAL_FLOW_BASE_HI_ADDR * 2 ^ 32 + 16 * ctr

/-- Write bytes to DRAM, as far as its channels take them. -/
def State.dramPut (s : State) (src a : Nat) (bs : List Byte) : State := (s.dramWrite src a bs).2

/-- What a write-back makes of the 16 bytes read at its counter: both counts added, or the delta lost. -/
def State.flowSum (s : State) (d : FlowDelta) (bs : Option (List Byte)) : State :=
  match bs with
  | some b => s.dramPut (6 * 4096 + d.cache) (s.flowAddr d.ctr)
      (leBytes (leNat (b.take 8) + d.pkts) 8 ++ leBytes (leNat (b.drop 8) + d.bytes) 8)
  | none => s.addF uTAL F.TAL_FLOW_LOST_COUNT 1

/-- Add a delta to its counter, as one atomic add; `ecc` is the outcome of its read. -/
def State.flowAdd (s : State) (d : FlowDelta) (ecc : Nat) : State :=
  (s.dramRead (6 * 4096 + d.cache) (s.flowAddr d.ctr) 16 ecc).2.flowSum d
    (s.dramRead (6 * 4096 + d.cache) (s.flowAddr d.ctr) 16 ecc).1

/-- Write-back `n` of those outstanding, if it is the oldest of its cache: one source's requests take effect in order (R333). -/
def State.oldestFlow (s : State) (n : Nat) : Option FlowDelta :=
  match s.tal.flowOut[n]? with
  | some d => if (s.tal.flowOut.take n).any (·.cache == d.cache) then none else some d
  | none => none

/-- FLOW_WRITEBACK_DONE: the channel has made write-back `n` of those under way. -/
def State.flowDone (s : State) (n ecc : Nat) : State :=
  match s.oldestFlow n with
  | none => s
  | some d => ((s.modTal fun t => { t with flowOut := s.tal.flowOut.eraseIdx n }).flowAdd d ecc).flowSync

/-- FLOW_WRITEBACK_TIMEOUT: tFWB passes for write-back `n`, which is lost. -/
def State.flowLost (s : State) (n : Nat) : State :=
  match s.tal.flowOut[n]? with
  | none => s
  | some d =>
    let s := (s.reach (d.at_ + 100000)).addF uTAL F.TAL_FLOW_LOST_COUNT 1
    (s.modTal fun t => { t with flowOut := s.tal.flowOut.eraseIdx n }).flowSync

/-! ### The boundary (R410, R412) -/

/-- What happens at most once, or a limited number of times, in a period may happen again. -/
def State.newPeriod (s : State) : State :=
  let rings := s.hif.rings.remap (fun _ => {}) fun _ x => { x with overflowed := false }
  let courses := s.courses.remap (fun _ => {}) fun _ x => { x with learned := 0 }
  let engines := s.eng.engines.remap (fun _ => {}) fun _ x => { x with csTold := [] }
  { s with
    hif := { s.hif with rings := rings }
    courses := courses
    eng := { s.eng with engines := engines }
    dram := { s.dram with told := [] } }

/-- Step 1 of R412: the period closes. -/
def State.closePeriod (s : State) : State := s.tallySample.telSample.captureClose.flowClose.newPeriod

/-- Step 2: the next part of an image, entries from the twin (R434; ahead of the device's own, log entry 118), CFG_WRITE
descriptors: 4,096 entries in all (R82). -/
def State.configApply (s : State) : State :=
  let r := s.partApply
  let t := r.2.cfgMessages (r.2.twin.held.length + 1) (4096 - r.1)
  t.2.cfgApply t.1

/-- Step 4: timer triggers of movers and starts of check units. -/
def State.boundaryStarts (s : State) : State :=
  let s := s.each ((List.range 32).filter (s.timerFires s.clk.wpNum)) fun s m => s.trigger m
  s.each (List.range 64) fun s u => s.cuStart u

/-- The length of a period in 1/65,536 ns. -/
def State.periodLen (s : State) : Nat := s.getF uPLN F.PLN_WP_CFG_PERIOD_US * 65536000

/-- WORK_PERIOD_BOUNDARY: plinth time reaches the next boundary. -/
def State.boundary (s : State) : State :=
  if !s.clk.running then s
  else
    let t := s.clk.nextWp
    let s := (s.elapse (s.reachRaw t)).modClk fun c => { c with wpNum := s.clk.wpNum + 1 }
    let next (s : State) : State := s.modClk fun c => { c with nextWp := t + s.periodLen }
    if !s.running then next s
    else
      let s := next s.closePeriod.configApply
      if !s.running then s
      else s.commitSwitch.boundaryStarts.footSwitch.startDrain.twinRun.twinPump

/-! ### The plinth tick (R405, R406) -/

/-- One tick of the plinth, 4 ns of its reference as PLN_FREQ corrects it, and up to 1,000 ppm more or less while a slew is
absorbed. -/
def State.tickTime (s : State) : State :=
  let ppb := signedOf (s.getF uPLN F.PLN_FREQ_PPB) 32
  let d : Int := max (-262144) (min 262144 s.clk.slew)
  let acc : Int := (s.clk.acc : Int) + 262144 * (1000000000 + ppb) + d * 1000000
  s.modClk fun c => { c with
    now := s.clk.now + (acc / 1000000000).toNat, acc := (acc % 1000000000).toNat, slew := s.clk.slew - d, core := s.clk.core + 262144 }

/-- What an idle step does: a plinth tick, and what leaves the device with time. -/
def State.tick (s : State) : State :=
  if !s.clk.running then s
  else (s.elapse s.tickTime).fabDrain.twinDrain.ppsDrain.rebuildNodes.fuseDone

end Sys2Proof.Machine
end

