-- ==== Sys2Proof/Machine/Electrical.lean ====
section
/-!
DEFINITION. Rails and reference clocks (R445, R447), power-up (R452), the SMBus target (R454, R455) and the test access
port (R456).
-/
namespace Sys2Proof.Machine

/-! ### Rails, clocks, power-up -/

/-- RAIL_LOSS: a fixed rail stays below its level for 1 µs; while CORE_PWR_EN is high it acts as RESET_N held low (R445). Which
rail it is the row does not say: until a RESET_RELEASE shows the rails, those of the SerDes and of DDR5 count as low (DESIGN
CHOICE, log entry 5). -/
def State.railLoss (s : State) : State :=
  if s.pwr.coreEn then (s.chipReset 0x02).modPwr fun p => { p with lowRails := s.pwr.lowRails ||| 7 } else s

/-- The lanes of port block `b` lose their reference: ports go down with reason CDR, fabric lanes leave the up set. -/
def State.blockClockLost (s : State) (b : Nat) : State :=
  let s := s.each (List.range 8) fun s l =>
    let u := uLane b l
    (s.setF u F.LANE_STATUS_CDR_LOCK 0).setF u F.LANE_STATUS_ADAPTED 0
  if s.lineCard ∧ 16 ≤ b then s.each (List.range 8) fun s l => s.fabLaneDown (8 * (b - 16) + l)
  else s.each (List.range 8) fun s i => s.linkFault (8 * b + i) 3

/-- CLOCK_LOSS (R447): 0 PLN_XTAL, 1 CORE_REFCLK, 2–9 SER_REFCLK0–7, 10 TWN_REFCLK. -/
def State.clockLoss (s : State) (k : Nat) : State :=
  if k = 0 then
    let s := if s.pwr.mode = 3 then s else s.chipReset 0
    s.modClk fun c => { c with running := false }
  else if k = 1 then
    if s.pwr.coreEn then (s.chipReset 0x02).modPwr fun p => { p with coreClkLost := true } else s
  else if !s.running ∨ !s.fwdOn then s
  else if k < 10 then s.each (List.range 4) fun s i => s.blockClockLost (4 * (k - 2) + i)
  else if k = 10 then s.each (List.range 8) fun s l => s.twinLaneDown l
  else s

/-- CLOCK_LOSS of clock 16 + k: clock k is back, which the table has no row of its own for (DESIGN CHOICE, log entry 10). The
plinth's time goes on from its value; a lane takes lock again by its own rows (R447). -/
def State.clockBack (s : State) (k : Nat) : State :=
  if k = 16 then s.modClk fun c => { c with running := true }
  else if k = 17 then s.modPwr fun p => { p with coreClkLost := false }
  else s

/-- POWER_UP_RAIL_TIMEOUT: in a power-up wait, not every rail is valid within tRAIL of CORE_PWR_EN; after three failed attempts
the device stays in Plinth-only (R452). -/
def State.railTimeout (s : State) : State :=
  match (if s.pwr.mode = 1 ∧ s.pwr.coreEn then s.pwr.enAt else none) with
  | none => s
  | some t =>
    let s := s.reach (t + 100000000)
    let n := s.pwr.railTries + 1
    let s := if n = 3 then (s.modPwr fun p => { p with coreEn := false, enAt := none, railTries := 0, mode := 3 }).setTap 1
      else s.modPwr fun p => { p with coreEn := false, enAt := none, railTries := n, coreOffAt := s.ns }
    s.drivePin 4 false

/-- CORE_PWR_EN_RETRY: 100 ms have passed. -/
def State.coreRetry (s : State) : State :=
  if s.pwr.mode ≠ 1 ∨ s.pwr.coreEn then s
  else
    (s.reach (s.pwr.coreOffAt + 100000000)).coreOn

/-! ### SMBus (R454, R455) -/

/-- One bit of the packet error code of SMBus 3.0, polynomial x⁸ + x² + x + 1 (PRESUMED, log entry 52). -/
def pecBit (c : Nat) : Nat := if 128 ≤ c then (2 * c % 256) ^^^ 7 else 2 * c

/-- The packet error code of bytes. -/
def pec (bs : List Byte) : Nat :=
  bs.foldl (fun c b => pecBit (pecBit (pecBit (pecBit (pecBit (pecBit (pecBit (pecBit (c ^^^ b.toNat))))))))) 0

/-- The target's 7-bit address. -/
def State.smbTarget (s : State) : Nat := 0x58 + s.pwr.smbAddr

/-- The answer to a read of command `code` addressed to `addr`; a block answer begins with its length, and the master may
read a packet error code after it. Another address is not acknowledged. -/
def State.smbRead (s : State) (addr code : Nat) (usePec block : Bool) (bs : List Byte) : State :=
  if addr ≠ s.smbTarget then s
  else
    let body := (if block then [BitVec.ofNat 8 bs.length] else []) ++ bs
    let all := [BitVec.ofNat 8 (2 * addr), BitVec.ofNat 8 code, BitVec.ofNat 8 (2 * addr + 1)] ++ body
    s.send (.smb (body ++ if usePec then [BitVec.ofNat 8 (pec all)] else []))

/-- DEVICE_INFO. -/
def State.smbInfo (s : State) (addr : Nat) (usePec : Bool) : State :=
  s.smbRead addr 0x00 usePec true (leBytes (0x2560 + Config.siliconRev % 256 * 2 ^ 16) 4)

/-- AVS_TARGET. -/
def State.smbAvs (s : State) (addr : Nat) (usePec : Bool) : State :=
  s.smbRead addr 0x01 usePec false (leBytes (s.getF uPLN F.PLN_SUPPLY_TARGET_MV) 2)

/-- VDD_SENSE. -/
def State.smbVdd (s : State) (addr : Nat) (usePec : Bool) : State :=
  s.smbRead addr 0x02 usePec false (leBytes (s.getF uPLN F.PLN_SUPPLY_VDD_MV) 2)

/-- TJ. -/
def State.smbTj (s : State) (addr : Nat) (usePec : Bool) : State :=
  s.smbRead addr 0x03 usePec false (leBytes (s.getF uPLN F.PLN_THERM_TJ) 2)

/-- POWER: 0 in Plinth-only. -/
def State.smbWatt (s : State) (addr : Nat) (usePec : Bool) : State :=
  s.smbRead addr 0x04 usePec true (leBytes (if s.pwr.mode = 3 then 0 else s.getF uPLN F.PLN_POWER_AVG_MW) 4)

/-- RESET_CAUSE. -/
def State.smbCause (s : State) (addr : Nat) (usePec : Bool) : State :=
  s.smbRead addr 0x05 usePec false (leBytes (s.getF uPLN F.PLN_RESET_CAUSE_CAUSE) 1)

/-- POWER_STATE: 7 in Plinth-only. -/
def State.smbPower (s : State) (addr : Nat) (usePec : Bool) : State :=
  s.smbRead addr 0x06 usePec false (leBytes (if s.pwr.mode = 3 then 7 else s.getF uDEV F.DEV_POWER_STATUS_STATE) 1)

/-- WEAR. -/
def State.smbWear (s : State) (addr : Nat) (usePec : Bool) : State :=
  let bins := (List.range 6).flatMap fun k => leBytes (s.getF uPLN (F.PLN_WEAR_SECONDS.i k)) 4
  s.smbRead addr 0x08 usePec true (bins ++ leBytes (s.getF uPLN F.PLN_WEAR_TRIPS) 4 ++ leBytes (s.getF uPLN F.PLN_WEAR_BROWNOUTS) 4)

/-- FAULT_STATUS. -/
def State.smbFault (s : State) (addr : Nat) (usePec : Bool) : State :=
  let v := s.getF uFLT F.FLT_HIST_STATUS_FROZEN * 4 + (if s.faultPin then 2 else 0) + s.getF uFLT F.FLT_STATUS_FATAL_SEEN
  s.smbRead addr 0x09 usePec false (leBytes v 1)

/-- HIST: the record that HIST_SEL selects. -/
def State.smbHist (s : State) (addr : Nat) (usePec : Bool) : State :=
  s.smbRead addr 0x0A usePec true ((List.range 4).flatMap fun w => leBytes (s.histWord s.pwr.smbSel w) 4)

/-- TIME. -/
def State.smbTime (s : State) (addr : Nat) (usePec : Bool) : State := s.smbRead addr 0x10 usePec true (leBytes s.ns 8)

/-- HIST_SEL: a value over 31 and a wrong packet error code are not acknowledged and have no effect. -/
def State.smbSelect (s : State) (addr value : Nat) (code : Option Nat) : State :=
  let good := pec [BitVec.ofNat 8 (2 * addr), 0x0B, BitVec.ofNat 8 value]
  if addr ≠ s.smbTarget then s
  else if 32 ≤ value ∨ code.getD good ≠ good then s.send (.smbAck false)
  else (s.modPwr fun p => { p with smbSel := value }).send (.smbAck true)

/-- A cause of SMB_ALERT_N holds. -/
def State.alertCause (s : State) : Bool :=
  decide (1760 ≤ signedOf (s.getF uPLN F.PLN_THERM_TJ) 16) || s.pwr.supplyWarn || s.bit uFLT F.FLT_STATUS_FATAL_SEEN

/-- SMB_ALERT_N follows its causes: low from the first of them until, after an answer to the Alert Response Address, none
holds. -/
def State.alertSync (s : State) : State :=
  if s.alertCause then
    if s.pwr.alertOn then s else s.modPwr fun p => { p with alertOn := true, alertAns := false }
  else if s.pwr.alertOn && s.pwr.alertAns then s.modPwr fun p => { p with alertOn := false, alertAns := false }
  else s

/-- ALERT_RESPONSE: the device answers with its own address while it drives the pin. -/
def State.alertAnswer (s : State) : State :=
  if !s.pwr.alertOn then s
  else (s.modPwr fun p => { p with alertAns := true }).send (.smb [BitVec.ofNat 8 (2 * s.smbTarget)])

/-! ### Test access port (R456) -/

/-- The pins of domain IO work: CORE_PWR_EN is high and VDD_IO valid (R448). The test access port is among them. -/
def State.ioOn (s : State) : Bool := s.pwr.coreEn && bitsOf s.pwr.lowRails 3 1 == 0

/-- A TAP instruction is loaded; one that drives pins becomes BYPASS outside chip reset. -/
def State.tapLoad (s : State) (ir : Nat) : State := s.setTap (if ir ≤ 2 ∨ s.pwr.mode = 1 then ir else 0)

/-- A scan of the boundary register: `pins` is what the cells capture and `cells` what is shifted in and latched, which drives
the pins under EXTEST. -/
def State.tapScan (s : State) (pins cells : Nat) : State :=
  let t := (s.modPwr fun p => { p with tapCells := cells }).send (.tap pins)
  if tapDrive s.pwr.tapIr = 1 then t.send (.boundary 1 cells) else t

/-- BYPASS: one bit, captured as 0. -/
def State.tapBypass (s : State) : State := if s.ioOn then (s.tapLoad 0).send (.tap 0) else s

/-- IDCODE. -/
def State.tapId (s : State) : State := if s.ioOn then (s.tapLoad 1).send (.tap 0x02560347) else s

/-- SAMPLE/PRELOAD. -/
def State.tapSample (s : State) (pins cells : Nat) : State := if s.ioOn then (s.tapLoad 2).tapScan pins cells else s

/-- EXTEST 3, EXTEST_PULSE 6, EXTEST_TRAIN 7. -/
def State.tapExtest (s : State) (ir pins cells : Nat) : State :=
  if !s.ioOn then s
  else
    let s := s.tapLoad ir
    if s.pwr.tapIr = ir then s.tapScan pins cells else s.send (.tap 0)

/-- CLAMP 4 and HIGHZ 5 select the bypass register. -/
def State.tapQuiet (s : State) (ir : Nat) : State := if s.ioOn then (s.tapLoad ir).send (.tap 0) else s

/-- TAP_RESET: the instruction register returns to IDCODE. -/
def State.tapReset (s : State) : State := if s.ioOn then s.setTap 1 else s

/-- What ends every command: faults react (R368), and the pins follow their causes and the ends of their
pulses. -/
def State.ended (s : State) : State := s.react.alertSync.ppsDrain

end Sys2Proof.Machine
end

