-- ==== Sys2Proof/Machine/Alu.lean ====
section
/-!
DEFINITION. How a command's meaning ends, and the microcode rows: ALU slot (Table 6 of spec/11_microcode.md), memory slot
(Table 8), sequencer (Table 2). A row names its cluster, engine and thread; the thread that R229 and R230 choose issues.
-/
namespace Sys2Proof.Machine

/-! ### How a meaning ends -/

/-- The end of a command begun in `s` whose own effect is `t`: counters that run with time follow the time it took, FLT
reacts to the faults reported, pins follow their causes. -/
def State.after (s t : State) : State := (s.elapse t).ended

/-- A command of the running part of the device: in a reset and in Plinth-only it has no effect. -/
def State.act (s t : State) : Result := if s.running then .next (s.after t) else .next s

/-- A command of the plinth, which works in every state while its clock runs (R447). -/
def State.actPln (s t : State) : Result := if s.clk.running then .next (s.after t) else .next s

/-- A command whose effect does not depend on the device's state of power, and in which no time passes. -/
def State.actAny (t : State) : Result := .next t.ended

/-- What a step does with no command waiting: a plinth tick. -/
def State.idle (s : State) : State := s.tick.ended

/-! ### ALU results that Lean has no name for -/

/-- The 8 bytes of a word reversed. -/
def bswap64 (a : DWord) : DWord := BitVec.ofNat 64 (beNat (leBytes a.toNat 8))

/-- 1 bits of a word. -/
def popc64 (a : DWord) : DWord := BitVec.ofNat 64 ((List.range 64).countP fun i => a.getLsbD i)

/-- Leading 0 bits of a word. -/
def clz64 (a : DWord) : DWord := BitVec.ofNat 64 ((List.range 64).takeWhile fun i => !a.getLsbD (63 - i)).length

/-- CRC-32C over B's 8 bytes with A[31:0] as the preset (R473). -/
def crcStep (a b : DWord) : DWord := (crc32c (a.setWidth 32) (leBytes b.toNat 8)).setWidth 64

/-- Shift amount B[5:0]. -/
def shAmt (b : DWord) : Nat := b.toNat % 64

/-- An ALU row whose operation sets neither carry nor overflow. -/
def State.aluPlain (s : State) (k code : Nat) (f : DWord → DWord → Nat → DWord) : State :=
  s.aluSlot k code f fun _ _ r => flagsOther r

/-- SETF: flags F0–F7 of the thread; no register. -/
def State.aluSetf (s : State) (k : Nat) : State :=
  let i := s.beginIssue k
  let t := s.aluSlot k 0x13 (fun _ b _ => b) fun _ _ _ => 0
  if (t.thread k).aluDone && !(i.state.thread k).aluDone then
    t.setThread k { t.thread k with cond := withSetf (t.thread k).cond (t.thread k).aluRes }
  else t

/-! ### Sequencer -/

/-- GOTO. -/
def seqGoto (x : Thread) (w : Nat) : Option (Nat × List Nat) := some (uNext w ||| mway x.snap w, x.stack)

/-- CALL: a fault with 8 entries held (R253). -/
def seqCall (x : Thread) (w : Nat) : Option (Nat × List Nat) :=
  if 8 ≤ x.stack.length then none else some (uLit w % 4096, (uNext w ||| mway x.snap w) :: x.stack)

/-- RET: a fault with none. -/
def seqRet (x : Thread) (_w : Nat) : Option (Nat × List Nat) :=
  match x.stack with
  | a :: rest => some (a, rest)
  | [] => none

/-- JUMPA. -/
def seqJumpa (x : Thread) (_w : Nat) : Option (Nat × List Nat) := some (x.aluRes.toNat % 4096, x.stack)

/-- R262: an uncorrectable control-store word is reported once per address per work period. -/
def State.csUncorrectable (s : State) (k : Nat) : State :=
  let g := k / 8
  let pc := (s.thread k).pc
  if (s.engine g).csTold.contains pc then s
  else (s.setEngine g { s.engine g with csTold := pc :: (s.engine g).csTold }).report (engUid k) 2 pc

/-- FAULT: a microword with SEQ FAULT, or one whose word is uncorrectable, faults its thread at issue. `ecc` 0: its word read
clean, 1: corrected, 2: uncorrectable. -/
def State.illegalIssue (s : State) (k ecc : Nat) : State :=
  let i := s.beginIssue k
  if !i.go ∨ (uSeq i.word ≠ 0 ∧ ecc ≠ 2) then i.state
  else ((i.state.when (ecc == 1) fun s => s.csCorrected k).when (ecc == 2) fun s => s.csUncorrectable k).threadFault k

end Sys2Proof.Machine
end

