-- ==== Sys2Proof/Machine/Packet.lean ====
section
/-!
DEFINITION. The meanings of commands: frames, headers, the basin, the traffic manager, transmission. A command the state has no object for has no effect.
-/
namespace Sys2Proof.Machine

/-- A master's write of a 4-byte register of a unit. -/
def State.writeReg (s : State) (m u off v : Nat) : State := s.busWrite m 0 (4096 * u + off) 4 v

/-- A master's write that changes one field of a register and keeps the others as they read. -/
def State.writeField (s : State) (m u : Nat) (f : Fld) (v : Nat) : State :=
  s.writeReg m u f.off (setBitsOf (s.regView u f.off) f.lo f.w v)

/-- A doorbell write of 8 bytes (R67); `link` and `ok` are what the re-read of a parked chain's tail returns (R85). -/
def State.bell (s : State) (m i v link : Nat) (ok : Bool) : State :=
  let a := 0x10000 + 8 * i
  if m = 0 ∨ barSize m 2 ≤ a ∨ !s.reaches m then s
  else if !s.running then s.refuseAccess m 2 a
  else (s.occur uHIF 0x101 2 (some m) a 1).doorbell m i v link ok

/-- FRAME_RECEIVE (R469). -/
def execFrameReceive (port : Nat) (frame : List Byte) (fcsOk pcsBad : Bool) (begun corrected uncorrected symbols : Nat) (s : State) : Result :=
  s.act ((s.frameIn port frame fcsOk pcsBad begun).fecCount port corrected uncorrected symbols)

/-- PAUSE_EXPIRE (R106). -/
def execPauseExpire (port cls : Nat) (s : State) : Result := s.act (s.pauseExpire port cls)

/-- HEADER_ADMIT (R113). -/
def execHeaderAdmit (course : Nat) (host : Bool) (ecc tid slot cam : Nat) (s : State) : Result :=
  s.act (s.admitHeader (course % 8) host ⟨ecc, tid, slot, cam⟩)

/-- CAM_SEARCH_SKIP (R189). -/
def execCamSearchSkip (course : Nat) (s : State) : Result :=
  s.act (s.setCourse (course % 8) { s.course (course % 8) with camSkip := true })

/-- RECIRCULATION_ADMIT (R217). -/
def execRecirculationAdmit (course ecc tid slot cam : Nat) (s : State) : Result :=
  s.act (s.admitRecirc (course % 8) ⟨ecc, tid, slot, cam⟩)

/-- HAND_OFF (R270). -/
def execHandOff (course : Nat) (s : State) : Result := s.act (s.handOff (course % 8))

/-- VENT_CELL_WRITE (R274). -/
def execVentCellWrite (err : Nat) (s : State) : Result := s.act (s.ventCell err)

/-- VENT_STATE_RETURN (R272). -/
def execVentStateReturn (row queue : Nat) (s : State) : Result := s.act (s.ventReturn row queue)

/-- RETURN_FETCH (R276). -/
def execReturnFetch (col : Nat) (s : State) : Result := s.act (s.fetchNext col)

/-- RETURN_BLOCK_CHECK (R277). -/
def execReturnBlockCheck (queue ecc : Nat) (s : State) : Result := s.act (s.blockCheck queue ecc)

/-- DEEP_TRANSFER_TIMEOUT (R277). -/
def execDeepTransferTimeout (isFetch : Bool) (n : Nat) (s : State) : Result := s.act (s.deepTimeout isFetch n)

/-- BPM_RELOCATE (R280). -/
def execBpmRelocate (channel : Nat) (s : State) : Result := s.act (s.relocate channel)

/-- VENT_WRITE_DONE (R277). -/
def execVentWriteDone (block : Nat) (s : State) : Result := s.act (s.ventDone block)

/-- TM_DECISION (R298). -/
def execTmDecision (quadrant scheduler : Nat) (s : State) : Result := s.act (s.tmDecide (quadrant % 4) scheduler)

/-- ENTRY_PAGE_READ (R295). -/
def execEntryPageRead (queue ecc : Nat) (s : State) : Result := s.act (s.pageRead queue ecc)

/-- ENTRY_PAGE_LOST (R296). -/
def execEntryPageLost (queue : Nat) (s : State) : Result := s.act (s.pageTimeout queue)

/-- PORT_FLUSH_STEP (R304). -/
def execPortFlushStep (port : Nat) (s : State) : Result := s.act (s.flushStep port)

/-- EGRESS_PASS (R208). -/
def execEgressPass (port err ecc tid slot : Nat) (s : State) : Result := s.act (s.egressPass port err ⟨ecc, tid, slot, 0⟩)

/-- FRAME_TRANSMIT_END (R215). -/
def execFrameTransmitEnd (port : Nat) (s : State) : Result := s.act (s.txEnd port)

end Sys2Proof.Machine
end

