-- ==== Sys2Proof/Machine/Jobs.lean ====
section
/-!
DEFINITION. The meanings of commands: jobs, the debug commands of engines, microcode images. A command the state has no object for has no effect.
-/
namespace Sys2Proof.Machine

/-- JOB_ACCEPT (R223). -/
def execJobAccept (cluster err : Nat) (s : State) : Result := s.act (s.jobAccept (cluster % 16) err)

/-- JOB_DISPATCH (R225). -/
def execJobDispatch (cluster : Nat) (s : State) : Result := s.act (s.jobDispatch (cluster % 16))

/-- JOB_RELEASE (R228). -/
def execJobRelease (cluster : Nat) (s : State) : Result := s.act (s.jobRelease (cluster % 16))

/-- JOB_BUDGET_EXPIRE (R236). -/
def execJobBudgetExpire (cluster engine thread : Nat) (s : State) : Result :=
  s.act (s.budgetExpire (thrKey cluster engine thread))

/-- ENGINE_STALL (R239). -/
def execEngineStall (cluster engine : Nat) (s : State) : Result := s.act (s.engineStall (cluster % 16) (engine % 32))

/-- WAIT_TIMEOUT (R235). -/
def execWaitTimeout (cluster engine thread : Nat) (s : State) : Result :=
  s.act (s.waitTimeout (thrKey cluster engine thread))

/-- MEMORY_RESULT_RETURN (R259). -/
def execMemoryResultReturn (cluster engine thread space : Nat) (s : State) : Result :=
  s.act (s.memReturn (thrKey cluster engine thread) space)

/-- HALT (R241). -/
def execHalt (ring : Nat) (s : State) : Result := s.act (s.dbgHalt ring)

/-- RESUME (R242). -/
def execResume (ring : Nat) (s : State) : Result := s.act (s.dbgResume ring)

/-- STEP (R243). -/
def execStep (ring : Nat) (s : State) : Result := s.act (s.dbgStep ring)

/-- READ_GREGS (R245). -/
def execReadGregs (ring : Nat) (s : State) : Result := s.act (s.readGregs ring)

/-- WRITE_GREG (R245). -/
def execWriteGreg (ring : Nat) (data : List Byte) (ok : Bool) (s : State) : Result := s.act (s.writeGreg ring data ok)

/-- READ_LMEM (R245). -/
def execReadLmem (ring : Nat) (s : State) : Result := s.act (s.readLmem ring)

/-- WRITE_LMEM (R245). -/
def execWriteLmem (ring : Nat) (data : List Byte) (ok : Bool) (s : State) : Result := s.act (s.writeLmem ring data ok)

/-- READ_CSTORE (R245). -/
def execReadCstore (ring : Nat) (s : State) : Result := s.act (s.readCstore ring)

/-- STEP_END (R243). -/
def execStepEnd (cluster engine thread : Nat) (s : State) : Result := s.act (s.stepEnd (thrKey cluster engine thread))

/-- UCODE_LOAD (R264). -/
def execUcodeLoad (ring : Nat) (data : List Byte) (ok : Bool) (s : State) : Result := s.act (s.ucodeLoad ring data ok)

/-- UCODE_LOAD_DONE (R266). -/
def execUcodeLoadDone (s : State) : Result := s.act (s.ucodeDone)

/-- ENGINE_SAMPLE_TIMEOUT (R364). -/
def execEngineSampleTimeout (cluster engine thread : Nat) (s : State) : Result :=
  s.act (s.sampleTimeout (thrKey cluster engine thread))

/-- PUNT_WRITE (R80). -/
def execPuntWrite (ring : Nat) (s : State) : Result := s.act (s.puntWrite ring)

end Sys2Proof.Machine
end

