-- ==== Sys2Proof/Machine/Microcode.lean ====
section
/-!
DEFINITION. The meanings of commands: microcode rows. A command the state has no object for has no effect.
-/
namespace Sys2Proof.Machine

/-- GOTO (R251). -/
def execGoto (cluster engine thread : Nat) (corrected : Bool) (s : State) : Result :=
  s.act (s.seqSlot (thrKey cluster engine thread) 0x01 corrected seqGoto)

/-- CALL (R253). -/
def execCall (cluster engine thread : Nat) (corrected : Bool) (s : State) : Result :=
  s.act (s.seqSlot (thrKey cluster engine thread) 0x02 corrected seqCall)

/-- RET (R253). -/
def execRet (cluster engine thread : Nat) (corrected : Bool) (s : State) : Result :=
  s.act (s.seqSlot (thrKey cluster engine thread) 0x03 corrected seqRet)

/-- JUMPA (R251). -/
def execJumpa (cluster engine thread : Nat) (corrected : Bool) (s : State) : Result :=
  s.act (s.seqSlot (thrKey cluster engine thread) 0x04 corrected seqJumpa)

/-- FAULT (R262). -/
def execFault (cluster engine thread ecc : Nat) (s : State) : Result := s.act (s.illegalIssue (thrKey cluster engine thread) ecc)

/-- MOV (R256). -/
def execMov (cluster engine thread : Nat) (s : State) : Result :=
  s.act (s.aluPlain (thrKey cluster engine thread) 0x01 fun _ b _ => b)

/-- ADD (R255). -/
def execAdd (cluster engine thread : Nat) (s : State) : Result :=
  s.act (s.aluSlot (thrKey cluster engine thread) 0x02 (fun a b _ => a + b) fun a b _ => flagsAdd a b)

/-- SUB (R255). -/
def execSub (cluster engine thread : Nat) (s : State) : Result :=
  s.act (s.aluSlot (thrKey cluster engine thread) 0x03 (fun a b _ => a - b) fun a b _ => flagsSub a b)

/-- AND (R256). -/
def execAnd (cluster engine thread : Nat) (s : State) : Result :=
  s.act (s.aluPlain (thrKey cluster engine thread) 0x04 fun a b _ => a &&& b)

/-- OR (R256). -/
def execOr (cluster engine thread : Nat) (s : State) : Result :=
  s.act (s.aluPlain (thrKey cluster engine thread) 0x05 fun a b _ => a ||| b)

/-- XOR (R256). -/
def execXor (cluster engine thread : Nat) (s : State) : Result :=
  s.act (s.aluPlain (thrKey cluster engine thread) 0x06 fun a b _ => a ^^^ b)

/-- ANDN (R256). -/
def execAndn (cluster engine thread : Nat) (s : State) : Result :=
  s.act (s.aluPlain (thrKey cluster engine thread) 0x07 fun a b _ => a &&& ~~~b)

/-- SHL (R256). -/
def execShl (cluster engine thread : Nat) (s : State) : Result :=
  s.act (s.aluPlain (thrKey cluster engine thread) 0x08 fun a b _ => a <<< shAmt b)

/-- SHR (R256). -/
def execShr (cluster engine thread : Nat) (s : State) : Result :=
  s.act (s.aluPlain (thrKey cluster engine thread) 0x09 fun a b _ => a >>> shAmt b)

/-- SAR (R256). -/
def execSar (cluster engine thread : Nat) (s : State) : Result :=
  s.act (s.aluPlain (thrKey cluster engine thread) 0x0A fun a b _ => a.sshiftRight (shAmt b))

/-- CMP (R255). -/
def execCmp (cluster engine thread : Nat) (s : State) : Result :=
  s.act (s.aluSlot (thrKey cluster engine thread) 0x0B (fun a b _ => a - b) fun a b _ => flagsSub a b)

/-- SHRM (R256). -/
def execShrm (cluster engine thread : Nat) (s : State) : Result :=
  s.act (s.aluPlain (thrKey cluster engine thread) 0x0C fun a b sh => (a >>> sh) &&& b)

/-- SHLA (R256). -/
def execShla (cluster engine thread : Nat) (s : State) : Result :=
  s.act (s.aluPlain (thrKey cluster engine thread) 0x0D fun a b sh => (a <<< sh) + b)

/-- MUL (R256). -/
def execMul (cluster engine thread : Nat) (s : State) : Result :=
  s.act (s.aluPlain (thrKey cluster engine thread) 0x0E fun a b _ => a * b)

/-- MIN (R256). -/
def execMin (cluster engine thread : Nat) (s : State) : Result :=
  s.act (s.aluPlain (thrKey cluster engine thread) 0x0F fun a b _ => if a.toNat ≤ b.toNat then a else b)

/-- MAX (R256). -/
def execMax (cluster engine thread : Nat) (s : State) : Result :=
  s.act (s.aluPlain (thrKey cluster engine thread) 0x10 fun a b _ => if a.toNat ≤ b.toNat then b else a)

/-- BSWAP (R256). -/
def execBswap (cluster engine thread : Nat) (s : State) : Result :=
  s.act (s.aluPlain (thrKey cluster engine thread) 0x11 fun a _ _ => bswap64 a)

/-- CRC (R473). -/
def execCrc (cluster engine thread : Nat) (s : State) : Result :=
  s.act (s.aluPlain (thrKey cluster engine thread) 0x12 fun a b _ => crcStep a b)

/-- POPC (R256). -/
def execPopc (cluster engine thread : Nat) (s : State) : Result :=
  s.act (s.aluPlain (thrKey cluster engine thread) 0x14 fun a _ _ => popc64 a)

/-- CLZ (R256). -/
def execClz (cluster engine thread : Nat) (s : State) : Result :=
  s.act (s.aluPlain (thrKey cluster engine thread) 0x15 fun a _ _ => clz64 a)

/-- SETF (R255). -/
def execSetf (cluster engine thread : Nat) (s : State) : Result := s.act (s.aluSetf (thrKey cluster engine thread))

/-- LDL (R259). -/
def execLdl (cluster engine thread ecc : Nat) (corrected : Bool) (s : State) : Result :=
  s.act (s.ldl (thrKey cluster engine thread) ecc corrected)

/-- STL (R231). -/
def execStl (cluster engine thread : Nat) (corrected : Bool) (s : State) : Result :=
  s.act (s.stl (thrKey cluster engine thread) corrected)

/-- LDP (R258). -/
def execLdp (cluster engine thread : Nat) (corrected : Bool) (s : State) : Result :=
  s.act (s.ldp (thrKey cluster engine thread) corrected)

/-- STP (R258). -/
def execStp (cluster engine thread : Nat) (corrected : Bool) (s : State) : Result :=
  s.act (s.stp (thrKey cluster engine thread) corrected)

/-- LDD (R332). -/
def execLdd (cluster engine thread ecc : Nat) (corrected : Bool) (s : State) : Result :=
  s.act (s.ldd (thrKey cluster engine thread) ecc corrected)

/-- STD (R332). -/
def execStd (cluster engine thread : Nat) (corrected : Bool) (s : State) : Result :=
  s.act (s.std (thrKey cluster engine thread) corrected)

/-- EXT (R258). -/
def execExt (cluster engine thread : Nat) (corrected : Bool) (s : State) : Result :=
  s.act (s.ext (thrKey cluster engine thread) corrected)

/-- INS (R258). -/
def execIns (cluster engine thread : Nat) (corrected : Bool) (s : State) : Result :=
  s.act (s.ins (thrKey cluster engine thread) corrected)

/-- LOOKUP (R260). -/
def execLookup (cluster engine thread ecc slot cam lecc : Nat) (corrected : Bool) (s : State) : Result :=
  s.act (s.lookup (thrKey cluster engine thread) ecc slot cam lecc corrected)

/-- CHRES (R232). -/
def execChres (cluster engine thread : Nat) (corrected : Bool) (s : State) : Result :=
  s.act (s.chres (thrKey cluster engine thread) corrected)

/-- CHCMT (R232). -/
def execChcmt (cluster engine thread : Nat) (corrected : Bool) (s : State) : Result :=
  s.act (s.chcmt (thrKey cluster engine thread) corrected)

/-- CHRD (R232). -/
def execChrd (cluster engine thread : Nat) (corrected : Bool) (s : State) : Result :=
  s.act (s.chrd (thrKey cluster engine thread) corrected)

/-- LOCK (R234). -/
def execLock (cluster engine thread : Nat) (corrected : Bool) (s : State) : Result :=
  s.act (s.lock (thrKey cluster engine thread) corrected)

/-- UNLOCK (R234). -/
def execUnlock (cluster engine thread : Nat) (corrected : Bool) (s : State) : Result :=
  s.act (s.unlock (thrKey cluster engine thread) corrected)

/-- JOBRD (R226). -/
def execJobrd (cluster engine thread : Nat) (corrected : Bool) (s : State) : Result :=
  s.act (s.jobrd (thrKey cluster engine thread) corrected)

/-- JOBEND (R227). -/
def execJobend (cluster engine thread lecc : Nat) (corrected : Bool) (s : State) : Result :=
  s.act (s.jobend (thrKey cluster engine thread) lecc corrected)

/-- SADD (R256). -/
def execSadd (cluster engine thread : Nat) (corrected : Bool) (s : State) : Result :=
  s.act (s.sadd (thrKey cluster engine thread) corrected)

end Sys2Proof.Machine
end

