-- ==== Sys2Proof/Machine/Links.lean ====
section
/-!
DEFINITION. The meanings of commands: links, lanes and pause. A command the state has no object for has no effect.
-/
namespace Sys2Proof.Machine

/-- LINK_FAULT (R100). -/
def execLinkFault (port reason : Nat) (s : State) : Result := s.act ((s.laneLoss port reason).linkFault port reason)

/-- LINK_FAULT_CLEAR (R100). -/
def execLinkFaultClear (port : Nat) (s : State) : Result := s.act (s.faultClear port)

/-- DOWN_DEBOUNCE_EXPIRE (R100). -/
def execDownDebounceExpire (port : Nat) (s : State) : Result := s.act (s.downDebounce port)

/-- SIGNAL_DETECT (R101). -/
def execSignalDetect (port : Nat) (s : State) : Result := s.act (s.signalDetect port)

/-- TRAINING_DONE (R95). -/
def execTrainingDone (port : Nat) (modeMatches : Bool) (s : State) : Result := s.act (s.trainingDone port modeMatches)

/-- TRAINING_TIMEOUT (R101). -/
def execTrainingTimeout (port : Nat) (s : State) : Result := s.act (s.trainingTimeout port)

/-- UP_DEBOUNCE_EXPIRE (R100). -/
def execUpDebounceExpire (port : Nat) (s : State) : Result := s.act (s.upDebounce port)

/-- HOLD_EXPIRE (R104). -/
def execHoldExpire (port : Nat) (s : State) : Result := s.act (s.holdExpire port)

/-- PORT_ADMIN_UP (R94). -/
def execPortAdminUp (master port : Nat) (s : State) : Result :=
  (s.writeField master (uMAC (port / 8)) (F.PORT_CTL_ADMIN_UP.i (port % 8)) 1).actAny

/-- PORT_ADMIN_DOWN (R105). -/
def execPortAdminDown (master port : Nat) (s : State) : Result :=
  (s.writeField master (uMAC (port / 8)) (F.PORT_CTL_ADMIN_UP.i (port % 8)) 0).actAny

/-- LANE_READAPT (R98). -/
def execLaneReadapt (master lane : Nat) (s : State) : Result := (s.writeField master lane F.LANE_ADAPT_READAPT 1).actAny

/-- READAPT_TIMEOUT (R98). -/
def execReadaptTimeout (lane : Nat) (s : State) : Result := s.act (s.readaptTimeout lane)

/-- LANE_READAPT_DONE (R98). -/
def execLaneReadaptDone (lane : Nat) (s : State) : Result := s.act (s.readaptDone lane)

/-- PAUSE_REPEAT (R107). -/
def execPauseRepeat (port cls : Nat) (s : State) : Result := s.act (s.pauseRepeat port cls)

/-- PFC_WATCHDOG_EXPIRE (R108). -/
def execPfcWatchdogExpire (port prio : Nat) (s : State) : Result := s.act (s.pfcWatchdog port prio)

/-- PFC_WATCHDOG_IGNORE_END (R108). -/
def execPfcWatchdogIgnoreEnd (port prio : Nat) (s : State) : Result := s.act (s.pfcIgnoreEnd port prio)

end Sys2Proof.Machine
end

