-- ==== Sys2Proof/Machine/UnitRows.lean ====
section
/-!
DEFINITION. The meanings of commands: unit commands, register accesses, claims, crossings. A command the state has no object for has no effect.
-/
namespace Sys2Proof.Machine

/-- RESET (R45). -/
def execReset (master uid tag : Nat) (s : State) : Result :=
  (s.writeReg master uid F.UCB_CMD_CMD.off (tag % 256 * 256 + 1)).actAny

/-- TEST (R45). -/
def execTest (master uid tag : Nat) (s : State) : Result :=
  (s.writeReg master uid F.UCB_CMD_CMD.off (tag % 256 * 256 + 2)).actAny

/-- ADMIT (R45). -/
def execUnitAdmit (master uid tag : Nat) (s : State) : Result :=
  (s.writeReg master uid F.UCB_CMD_CMD.off (tag % 256 * 256 + 3)).actAny

/-- DRAIN (R45). -/
def execDrain (master uid tag : Nat) (s : State) : Result :=
  (s.writeReg master uid F.UCB_CMD_CMD.off (tag % 256 * 256 + 4)).actAny

/-- RETIRE (R46). -/
def execRetire (master uid tag : Nat) (s : State) : Result :=
  (s.writeReg master uid F.UCB_CMD_CMD.off (tag % 256 * 256 + 5)).actAny

/-- ISOLATE (R46). -/
def execIsolate (master uid tag : Nat) (s : State) : Result :=
  (s.writeReg master uid F.UCB_CMD_CMD.off (tag % 256 * 256 + 6)).actAny

/-- UNIT_RESET_DONE (R45). -/
def execUnitResetDone (uid : Nat) (late : Bool) (cfg train : Nat) (s : State) : Result :=
  s.act (s.resetDone uid late cfg train)

/-- UNIT_TEST_DONE (R45). -/
def execUnitTestDone (uid code : Nat) (rows : List Nat) (late : Bool) (s : State) : Result :=
  s.act (s.testDone uid code rows late)

/-- UNIT_DRAIN_DONE (R464). -/
def execUnitDrainDone (uid : Nat) (s : State) : Result := s.act (s.drainDone uid)

/-- DRAIN_LIMIT_EXPIRE (R464). -/
def execDrainLimitExpire (uid : Nat) (s : State) : Result := s.act (s.drainLimit uid)

/-- GROUP_CMD_ADVANCE (R50). -/
def execGroupCmdAdvance (uid : Nat) (s : State) : Result := s.act (s.groupAdvance uid)

/-- DEV_SETUP_LOCK (R54). -/
def execDevSetupLock (master : Nat) (s : State) : Result := (s.writeReg master uDEV F.DEV_SETUP_LOCK_LOCK.off 1).actAny

/-- REGISTER_WRITE (R7). -/
def execRegisterWrite (master bar addr size data : Nat) (s : State) : Result := (s.busWrite master bar addr size data).actAny

/-- LATCHING_READ (R110). -/
def execLatchingRead (master bar addr size : Nat) (s : State) : Result := (s.busRead master bar addr size).actAny

/-- RC_READ (R10). -/
def execRcRead (master bar addr size : Nat) (s : State) : Result := (s.busRead master bar addr size).actAny

/-- CLAIM_READ (R56). -/
def execClaimRead (master claim : Nat) (s : State) : Result := (s.busRead master 2 (4 * (claim % 64)) 4).actAny

/-- CLAIM_RELEASE (R58). -/
def execClaimRelease (master claim : Nat) (s : State) : Result := (s.busWrite master 2 (4 * (claim % 64)) 4 0).actAny

/-- CLAIM_EXPIRE (R59). -/
def execClaimExpire (claim : Nat) (s : State) : Result := s.act (s.claimExpire claim)

/-- CROSSING_TIMEOUT (R30). -/
def execCrossingTimeout (receiver sender number entries : Nat) (s : State) : Result :=
  s.act (s.crossingTimeout receiver sender number entries)

/-- WARDEN_LOST (R28). -/
def execWardenLost (s : State) : Result := s.act (s.wardenLost)

/-- SAMPLER_DATA_READ (R364). -/
def execSamplerDataRead (master cluster engine : Nat) (s : State) : Result :=
  (s.busRead master 0 (4096 * uENG (cluster % 16) (engine % 32) + F.ENG_SAMP_DATA_HI_DATA.off) 4).actAny

end Sys2Proof.Machine
end

