-- ==== Sys2Proof/Machine/HostRows.lean ====
section
/-!
DEFINITION. The meanings of commands: host links, function resets, rings and their descriptors. A command the state has no object for has no effect.
-/
namespace Sys2Proof.Machine

/-- HOST_LINK_DOWN (R63). -/
def execHostLinkDown (link : Nat) (s : State) : Result := s.act (s.hostLinkDown link)

/-- HOST_LINK_UP (R459). -/
def execHostLinkUp (link gen width : Nat) (s : State) : Result := s.act (s.hostLinkUp link gen width)

/-- FLR (R89). -/
def execFlr (master : Nat) (s : State) : Result := s.act (s.flr master)

/-- FLR_END (R89). -/
def execFlrEnd (master : Nat) (s : State) : Result := s.act (s.flrEnd master)

/-- VF_ENABLE_CLEAR (R461). -/
def execVfEnableClear (master : Nat) (s : State) : Result := (s.busWrite master 7 0 4 0).actAny

/-- RING_ENABLE (R71). -/
def execRingEnable (master sizeLog : Nat) (s : State) : Result :=
  (s.writeReg master uHIF F.RING_SIZE_RING_LOG2.off sizeLog).actAny

/-- RING_DISABLE (R83). -/
def execRingDisable (master : Nat) (s : State) : Result := (s.writeReg master uHIF F.RING_SIZE_RING_LOG2.off 0).actAny

/-- RING_FLUSH_END (R83). -/
def execRingFlushEnd (ring : Nat) (s : State) : Result := s.act (s.flushEnd ring)

/-- RING_FLUSH_TIMEOUT (R83). -/
def execRingFlushTimeout (ring : Nat) (s : State) : Result := s.act (s.flushTimeout ring)

/-- DOORBELL_SQ (R74). -/
def execDoorbellSq (master doorbell value link : Nat) (ok : Bool) (s : State) : Result :=
  (s.bell master doorbell value link ok).actAny

/-- DOORBELL_CQ (R74). -/
def execDoorbellCq (master doorbell value : Nat) (s : State) : Result := (s.bell master doorbell value 1 true).actAny

/-- DESCRIPTOR_READ (R76). -/
def execDescriptorRead (ring w0 w1 w2 w3 : Nat) (ok : Bool) (s : State) : Result := s.act (s.descRead ring w0 w1 w2 w3 ok)

/-- CHAIN_REREAD (R85). -/
def execChainReread (ring link : Nat) (ok : Bool) (s : State) : Result := s.act (s.chainReread ring link ok)

/-- WRITE_BACK (R75). -/
def execWriteBack (ring : Nat) (s : State) : Result := s.act (s.wbRow ring)

/-- CQ_WAIT_TIMEOUT (R83). -/
def execCqWaitTimeout (ring : Nat) (s : State) : Result := s.act (s.cqWait ring)

/-- RING_MOD_TIMER (R86). -/
def execRingModTimer (ring : Nat) (s : State) : Result := s.act (s.modTimer ring)

/-- NOP (R76). -/
def execNop (ring : Nat) (s : State) : Result := s.act (s.nopDesc ring)

/-- FENCE (R357). -/
def execFence (ring : Nat) (s : State) : Result := s.act (s.fence ring)

/-- FENCE_DONE (R357). -/
def execFenceDone (s : State) : Result := s.act (s.fenceDone)

/-- INJECT_COURSE (R78). -/
def execInjectCourse (ring : Nat) (data : List Byte) (ok : Bool) (s : State) : Result := s.act (s.injectCourse ring data ok)

/-- INJECT_QUEUE (R79). -/
def execInjectQueue (ring : Nat) (data : List Byte) (ok : Bool) (s : State) : Result := s.act (s.injectQueue ring data ok)

/-- BUFFER (R80). -/
def execBuffer (ring : Nat) (s : State) : Result := s.act (s.postBuffer ring)

/-- CFG_WRITE (R81). -/
def execCfgWrite (ring : Nat) (data : List Byte) (ok : Bool) (s : State) : Result := s.act (s.cfgWrite ring data ok)

end Sys2Proof.Machine
end

