-- ==== Sys2Proof/Machine/TableRows.lean ====
section
/-!
DEFINITION. The meanings of commands: table commands, generations, compares and scrubs. A command the state has no object for has no effect.
-/
namespace Sys2Proof.Machine

/-- READ (R467). -/
def execRead (src : Nat) (data : List Byte) (ok : Bool) (ecc slot : Nat) (full : Bool) (s : State) : Result :=
  s.act (s.tableCmd opREAD src data ok ecc slot full)

/-- WRITE (R158). -/
def execWrite (src : Nat) (data : List Byte) (ok : Bool) (ecc slot : Nat) (full : Bool) (s : State) : Result :=
  s.act (s.tableCmd opWRITE src data ok ecc slot full)

/-- INSERT (R134). -/
def execInsert (src : Nat) (data : List Byte) (ok : Bool) (ecc slot : Nat) (full : Bool) (s : State) : Result :=
  s.act (s.tableCmd opINSERT src data ok ecc slot full)

/-- DELETE (R158). -/
def execDelete (src : Nat) (data : List Byte) (ok : Bool) (ecc slot : Nat) (full : Bool) (s : State) : Result :=
  s.act (s.tableCmd opDELETE src data ok ecc slot full)

/-- AGE_IF_UNHIT (R149). -/
def execAgeIfUnhit (src : Nat) (data : List Byte) (ok : Bool) (ecc slot : Nat) (full : Bool) (s : State) : Result :=
  s.act (s.tableCmd opAGE src data ok ecc slot full)

/-- TEST_AND_SET (R150). -/
def execTestAndSet (src : Nat) (data : List Byte) (ok : Bool) (ecc slot : Nat) (full : Bool) (s : State) : Result :=
  s.act (s.tableCmd opTAS src data ok ecc slot full)

/-- READ_SLOT (R466). -/
def execReadSlot (src : Nat) (data : List Byte) (ok : Bool) (ecc slot : Nat) (full : Bool) (s : State) : Result :=
  s.act (s.tableCmd opSLOT src data ok ecc slot full)

/-- HIT_SCAN (R151). -/
def execHitScan (src : Nat) (data : List Byte) (ok : Bool) (ecc slot : Nat) (full : Bool) (s : State) : Result :=
  s.act (s.tableCmd opSCAN src data ok ecc slot full)

/-- GEN_INVALIDATE (R467). -/
def execGenInvalidate (src : Nat) (data : List Byte) (ok : Bool) (ecc slot : Nat) (full : Bool) (s : State) : Result :=
  s.act (s.tableCmd opINVAL src data ok ecc slot full)

/-- TCW_TIMEOUT (R88). -/
def execTcwTimeout (pf : Nat) (s : State) : Result := s.act (s.tcwTimeout (pf % 8))

/-- EM_REHASH (R136). -/
def execEmRehash (src seeds : Nat) (ok : Bool) (s : State) : Result := s.act (s.rehashCmd src seeds ok)

/-- EM_REHASH_DONE (R136). -/
def execEmRehashDone (ecc slot : Nat) (s : State) : Result := s.act (s.rehashDone ecc slot)

/-- COMMIT (R163). -/
def execCommit (src operand : Nat) (ok : Bool) (s : State) : Result := s.act (s.commitCmd src operand ok)

/-- COMMIT_ACCEPT (R163). -/
def execCommitAccept (s : State) : Result := s.act (s.commitAccept)

/-- COMMIT_TWIN_TIMEOUT (R174). -/
def execCommitTwinTimeout (s : State) : Result := s.act (s.commitTwinTimeout)

/-- GEN_ABORT (R170). -/
def execGenAbort (src operand : Nat) (ok : Bool) (s : State) : Result := s.act (s.abortCmd src operand ok)

/-- GEN_WAIT (R164). -/
def execGenWait (src : Nat) (s : State) : Result := s.act (s.genWait src)

/-- GEN_QUEUE_TIMEOUT (R164). -/
def execGenQueueTimeout (src : Nat) (s : State) : Result :=
  s.act (if src = twinSrc then s.mirrorTimeout else s.genQueueTimeout src)

/-- GEN_HORIZON_EXPIRE (R167). -/
def execGenHorizonExpire (s : State) : Result := s.act (s.horizonExpire)

/-- SWEEP_END (R169). -/
def execSweepEnd (bad : List (Nat × Nat)) (s : State) : Result := s.act ((s.sweepEnd bad).twinRun)

/-- EGRESS_FENCE (R172). -/
def execEgressFence (src : Nat) (s : State) : Result := s.act (s.egressFence src)

/-- EGRESS_FENCE_DONE (R172). -/
def execEgressFenceDone (s : State) : Result := s.act (s.egressFenceDone)

/-- EGRESS_FENCE_BOUND (R172). -/
def execEgressFenceBound (s : State) : Result := s.act (s.egressFenceBound)

/-- SHADOW_COMPARE_SLICE (R155). -/
def execShadowCompareSlice (tid : Nat) (data : List Byte) (ok finished : Bool) (s : State) : Result :=
  s.act (s.compareSlice tid data ok finished)

/-- CAM_SCRUB_SLICE (R191). -/
def execCamScrubSlice (finished dram : Bool) (flips corr bad : List Nat) (s : State) : Result :=
  s.act (s.camScrub finished dram flips corr bad)

end Sys2Proof.Machine
end

