-- ==== Sys2Proof/Machine/PeriodRows.lean ====
section
/-!
DEFINITION. The meanings of commands: work periods, records, flow counters. A command the state has no object for has no effect.
-/
namespace Sys2Proof.Machine

/-- WORK_PERIOD_BOUNDARY (R412). -/
def execWorkPeriodBoundary (s : State) : Result := s.actPln (s.boundary)

/-- TALLY_RECORD_WRITE (R361). -/
def execTallyRecordWrite (s : State) : Result := s.act (s.tallyWrite)

/-- TELEMETRY_RECORD_WRITE (R307). -/
def execTelemetryRecordWrite (quadrant : Nat) (s : State) : Result := s.act (s.telWrite (quadrant % 4))

/-- CAPTURE_BATCH_WRITE (R287). -/
def execCaptureBatchWrite (s : State) : Result := s.act (s.captureWrite)

/-- FLOW_CACHE_WRITEBACK (R363). -/
def execFlowCacheWriteback (cache counter : Nat) (s : State) : Result := s.act (s.flowEvict cache counter)

/-- FLOW_WRITEBACK_DONE (R363). -/
def execFlowWritebackDone (n ecc : Nat) (s : State) : Result := s.act (s.flowDone n ecc)

/-- FLOW_WRITEBACK_TIMEOUT (R363). -/
def execFlowWritebackTimeout (n : Nat) (s : State) : Result := s.act (s.flowLost n)

end Sys2Proof.Machine
end

