-- ==== Sys2Proof/Machine/FabricRows.lean ====
section
/-!
DEFINITION. The meanings of commands: fabric cells, DRAM channels, movers. A command the state has no object for has no effect.
-/
namespace Sys2Proof.Machine

/-- FAB_CELL_SEND (R317). -/
def execFabCellSend (port err : Nat) (s : State) : Result := s.act (s.fabCellSend port err)

/-- FAB_CELL_RECEIVE (R319). -/
def execFabCellReceive (cell : List Byte) (s : State) : Result := s.act (s.fabCellReceive cell)

/-- REORDER_WAIT_EXPIRE (R319). -/
def execReorderWaitExpire (source : Nat) (s : State) : Result := s.act (s.reorderExpire source)

/-- FC_CELL_RECEIVE (R323). -/
def execFcCellReceive (cell : List Byte) (s : State) : Result := s.act (s.fcReceive cell)

/-- XOFF_EXPIRE (R323). -/
def execXoffExpire (n : Nat) (s : State) : Result := s.act (s.xoffExpire n)

/-- FC_CELL_REPEAT (R324). -/
def execFcCellRepeat (source : Nat) (s : State) : Result := s.act (s.fcRepeat source)

/-- FABRIC_LANE_DOWN (R318). -/
def execFabricLaneDown (lane : Nat) (s : State) : Result := s.act (s.fabLaneDown lane)

/-- FABRIC_LANE_UP (R312). -/
def execFabricLaneUp (lane : Nat) (s : State) : Result := s.act (s.fabLaneUp lane)

/-- RANK_POWER_DOWN (R340). -/
def execRankPowerDown (channel rank : Nat) (s : State) : Result := s.act (s.rankDown (channel % 12) (rank % 2))

/-- RANK_REFRESH (R336). -/
def execRankRefresh (channel rank : Nat) (s : State) : Result := s.act (s.refreshRank (channel % 12) (rank % 2))

/-- OPEN_PAGE_IDLE_CLOSE (R335). -/
def execOpenPageIdleClose (channel bank : Nat) (s : State) : Result := s.act (s.idleClose (channel % 12) (bank % 64))

/-- DMC_SCRUB_SLICE (R339). -/
def execDmcScrubSlice (channel : Nat) (finished : Bool) (corrected uncorrected : List Nat) (s : State) : Result :=
  s.act (s.scrubSlice (channel % 12) finished corrected uncorrected)

/-- TRAINING_HELPER_GO (R341). -/
def execTrainingHelperGo (master channel value : Nat) (s : State) : Result :=
  (s.writeReg master (uDMC (channel % 12)) F.DMC_TRN_CTL_GO.off (value % 2 ^ 31 + 2 ^ 31)).actAny

/-- TRAINING_HELPER_END (R341). -/
def execTrainingHelperEnd (channel : Nat) (errors : List Nat) (s : State) : Result :=
  s.act (s.trainEnd (channel % 12) errors)

/-- H2D (R344). -/
def execH2d (mover : Nat) (data : List Byte) (ok : Bool) (s : State) : Result := s.act (s.moveH2D (mover % 32) data ok)

/-- D2H (R344). -/
def execD2h (mover ecc : Nat) (s : State) : Result := s.act (s.moveD2H (mover % 32) ecc)

/-- D2D (R344). -/
def execD2d (mover ecc : Nat) (s : State) : Result := s.act (s.moveD2D (mover % 32) ecc)

/-- FILL (R344). -/
def execFill (mover : Nat) (s : State) : Result := s.act (s.moveFill (mover % 32))

/-- GATE (R347). -/
def execGate (mover : Nat) (s : State) : Result := s.act (s.moveGate (mover % 32))

/-- SIGNAL (R347). -/
def execSignal (mover : Nat) (s : State) : Result := s.act (s.moveSignal (mover % 32))

/-- MOVER_TRANSFER_DONE (R346). -/
def execMoverTransferDone (mover : Nat) (hostBytes : List Byte) (ok : Bool) (ecc : Nat) (s : State) : Result :=
  s.act (s.moverDone (mover % 32) hostBytes ok ecc)

/-- GATE_LIMIT_EXPIRE (R347). -/
def execGateLimitExpire (mover : Nat) (s : State) : Result := s.act (s.gateLimit (mover % 32))

end Sys2Proof.Machine
end

