-- ==== Sys2Proof/Machine/FaultRows.lean ====
section
/-!
DEFINITION. The meanings of commands: fault reports, substitution, footing mode, check units. A command the state has no object for has no effect.
-/
namespace Sys2Proof.Machine

/-- FAULT_REPORT (R368). -/
def execFaultReport (uid source detail : Nat) (s : State) : Result := s.act (s.faultReport uid source detail)

/-- SUBSTITUTION_END (R375). -/
def execSubstitutionEnd (uid : Nat) (bad : List Nat) (s : State) : Result := s.act (s.substEnd uid bad)

/-- RAIL_MISMATCH (R365). -/
def execRailMismatch (uid : Nat) (s : State) : Result := s.act (s.railMismatch uid)

/-- HIST_UNFREEZE (R372). -/
def execHistUnfreeze (master : Nat) (s : State) : Result :=
  (s.writeReg master uFLT F.FLT_HIST_STATUS_FROZEN.off (2 ^ 31)).actAny

/-- ENTER (R380). -/
def execEnter (master : Nat) (s : State) : Result := (s.writeReg master uFLT F.FOOT_CMD_CMD.off 1).actAny

/-- EXIT (R383). -/
def execExit (master : Nat) (s : State) : Result := (s.writeReg master uFLT F.FOOT_CMD_CMD.off 2).actAny

/-- FOOTING_UNGATE_DONE (R383). -/
def execFootingUngateDone (failed : List Nat) (s : State) : Result := s.act (s.ungateDone failed)

/-- COURSE_HANDBACK (R379). -/
def execCourseHandback (course : Nat) (s : State) : Result := s.act (s.courseHandback (course % 8))

/-- HANDBACK_TIMEOUT (R379). -/
def execHandbackTimeout (course : Nat) (s : State) : Result := s.act (s.handbackTimeout (course % 8))

/-- CHECK_UNIT_SCAN (R384). -/
def execCheckUnitScan (unit_ : Nat) (data : List Byte) (ok finished : Bool) (s : State) : Result :=
  s.act (s.cuScan (unit_ % 64) data ok finished)

/-- ALIVE_TIMEOUT (R385). -/
def execAliveTimeout (unit_ : Nat) (s : State) : Result := s.act (s.aliveTimeout (unit_ % 64))

end Sys2Proof.Machine
end

