-- ==== Sys2Proof/Machine/PowerRows.lean ====
section
/-!
DEFINITION. The meanings of commands: resets, supplies, temperature, governor, power states, time. A command the state has no object for has no effect.
-/
namespace Sys2Proof.Machine

/-- POWER_ON_RESET (R389). -/
def execPowerOnReset (s : State) : Result := (s.powerOnReset).actAny

/-- CHIP_RESET (R389). -/
def execChipReset (pin : Nat) (s : State) : Result := (s.chipResetNow (if pin = 0 then 0x02 else 0x04)).actAny

/-- RESET_RELEASE (R418). -/
def execResetRelease (split twinId testMode rails : Nat) (s : State) : Result :=
  (s.resetRelease split twinId testMode rails).actAny

/-- BROWN_OUT (R400). -/
def execBrownOut (mv : Nat) (s : State) : Result := s.actPln (s.brownOut mv)

/-- SUPPLY_WARN (R400). -/
def execSupplyWarn (mv : Nat) (s : State) : Result := s.actPln (s.supplyLow mv)

/-- SUPPLY_WARN_END (R400). -/
def execSupplyWarnEnd (mv : Nat) (s : State) : Result := s.actPln (s.supplyOk mv)

/-- RAIL_LOSS (R445). -/
def execRailLoss (s : State) : Result := s.actPln (s.railLoss)

/-- CLOCK_LOSS (R447). -/
def execClockLoss (clock : Nat) (s : State) : Result := if clock < 16 then s.actPln (s.clockLoss clock) else (s.clockBack clock).actAny

/-- POWER_UP_RAIL_TIMEOUT (R452). -/
def execPowerUpRailTimeout (s : State) : Result := s.actPln (s.railTimeout)

/-- CORE_PWR_EN_RETRY (R452). -/
def execCorePwrEnRetry (s : State) : Result := s.actPln (s.coreRetry)

/-- THERMAL_SAMPLE (R401). -/
def execThermalSample (tj : Int) (sensor : Nat) (s : State) : Result := s.actPln (s.thermSample tj sensor)

/-- GOVERNOR_SAMPLE (R403). -/
def execGovernorSample (mw : Nat) (s : State) : Result := s.actPln (s.govSample mw)

/-- WEAR_SECOND (R404). -/
def execWearSecond (s : State) : Result := s.actPln (s.wearSecond)

/-- DEV_SOFT_RESET (R391). -/
def execDevSoftReset (master : Nat) (s : State) : Result :=
  (s.writeReg master uDEV F.DEV_SOFT_RESET_KEY.off (0xD5E7 * 65536)).actAny

/-- DEVICE_SOFT_RESET_END (R391). -/
def execDeviceSoftResetEnd (s : State) : Result := (s.softEnd).actAny

/-- BANKED (R395). -/
def execBanked (master : Nat) (s : State) : Result := (s.writeReg master uDEV F.DEV_POWER_CMD_CMD.off 2).actAny

/-- ACTIVE (R398). -/
def execActive (master : Nat) (s : State) : Result := (s.writeReg master uDEV F.DEV_POWER_CMD_CMD.off 1).actAny

/-- PLINTH_ONLY (R399). -/
def execPlinthOnly (master : Nat) (s : State) : Result := (s.writeReg master uDEV F.DEV_POWER_CMD_CMD.off 3).actAny

/-- POWER_DRAIN_DONE (R395). -/
def execPowerDrainDone (s : State) : Result := s.act (s.powerDrainDone)

/-- POWER_DRAIN_TIMEOUT (R396). -/
def execPowerDrainTimeout (s : State) : Result := s.act (s.powerDrainTimeout)

/-- BANKED_EXIT_DONE (R398). -/
def execBankedExitDone (bad : List (Nat × Nat)) (channels : List Nat) (s : State) : Result :=
  s.act (s.bankedExit bad channels)

/-- WAKE (R399). -/
def execWake (source : Nat) (s : State) : Result :=
  s.actPln (if source = 1 then (if s.pwr.mode = 3 then s.chipResetNow 0x02 else s) else if source = 2 then (if s.pwr.mode = 3 then s.chipResetNow 0x04 else s) else s.wakeUp)

/-- TIME_SET (R411). -/
def execTimeSet (master : Nat) (s : State) : Result := (s.writeReg master uPLN F.PLN_TIME_CTL_SET.off (2 ^ 31)).actAny

/-- PLN_SLEW (R406). -/
def execPlnSlew (master ns : Nat) (s : State) : Result := (s.writeReg master uPLN F.PLN_SLEW_NS.off ns).actAny

/-- SLEW_ABSORBED (R406). -/
def execSlewAbsorbed (s : State) : Result := s.actPln (s.slewDone)

/-- TIME_COMPARATOR_FIRE (R408). -/
def execTimeComparatorFire (k : Nat) (s : State) : Result := s.actPln (s.cmpFire k)

/-- PPS_EDGE (R409). -/
def execPpsEdge (input : Nat) (falling : Bool) (s : State) : Result := s.actPln (s.ppsEdge input falling)

end Sys2Proof.Machine
end

