-- ==== Sys2Proof/Machine/SecurityRows.lean ====
section
/-!
DEFINITION. The meanings of commands: image descriptors, mailboxes, the secure session, SPDM. A command the state has no object for has no effect.
-/
namespace Sys2Proof.Machine

/-- WARDEN_LOAD (R420). -/
def execWardenLoad (ring : Nat) (data : List Byte) (ok : Bool) (s : State) : Result := s.act (s.wardenLoad ring data ok)

/-- WARDEN_SWITCH (R421). -/
def execWardenSwitch (ring : Nat) (s : State) : Result := s.act (s.wardenSwitch ring)

/-- WARDEN_SWITCH_DONE (R421). -/
def execWardenSwitchDone (s : State) : Result := s.act (s.switchDone)

/-- WARDEN_SWITCH_TIMEOUT (R421). -/
def execWardenSwitchTimeout (s : State) : Result := s.act (s.switchTimeout)

/-- CONFIG_IMAGE (R419). -/
def execConfigImage (ring : Nat) (data : List Byte) (ok : Bool) (s : State) : Result := s.act (s.configImage ring data ok)

/-- FUSE_UPDATE (R417). -/
def execFuseUpdate (ring : Nat) (data : List Byte) (ok : Bool) (s : State) : Result := s.act (s.fuseUpdate ring data ok)

/-- MB_OUT_WRITE (R424). -/
def execMbOutWrite (master channel data : Nat) (s : State) : Result :=
  (s.busWrite master 4 (F.MB_OUT_DATA.i (channel % 32)).off 4 data).actAny

/-- MB_IN_ACK (R424). -/
def execMbInAck (master channel : Nat) (s : State) : Result :=
  (s.busWrite master 4 (F.MB_STATUS_IN_FULL.i (channel % 32)).off 4 (2 ^ 30)).actAny

/-- MB_IN_WRITE (R424). -/
def execMbInWrite (channel : Nat) (own : Option Nat) (s : State) : Result := s.act (s.mbInWrite channel own)

/-- MB_OUT_ACK (R424). -/
def execMbOutAck (channel : Nat) (s : State) : Result := s.act (s.mbOutAck channel)

/-- MB_CROSS_TIMEOUT (R426). -/
def execMbCrossTimeout (channel : Nat) (s : State) : Result := s.act (s.mbCross channel)

/-- PING (R428). -/
def execPing (channel : Nat) (s : State) : Result := s.act (s.ping channel)

/-- STATUS (R428). -/
def execStatus (channel : Nat) (s : State) : Result := s.act (s.fwStatus channel)

/-- ATTEST (R428). -/
def execAttest (channel : Nat) (s : State) : Result := s.act (s.attest channel)

/-- MB_AUTH_GO (R429). -/
def execMbAuthGo (master slot : Nat) (s : State) : Result :=
  (s.busWrite master 4 F.MB_AUTH_CTL_GO.off 4 (2 ^ 31 + slot % 2)).actAny

/-- AUTH_VERIFY_DONE (R429). -/
def execAuthVerifyDone (s : State) : Result := s.act (s.authDone)

/-- LOCKOUT_END (R429). -/
def execLockoutEnd (s : State) : Result := s.act (s.lockoutEnd)

/-- MB_AUTH_CLOSE (R429). -/
def execMbAuthClose (master : Nat) (s : State) : Result := (s.busWrite master 4 F.MB_AUTH_CTL_CLOSE.off 4 (2 ^ 30)).actAny

/-- GET_VERSION (R423). -/
def execGetVersion (pf : Nat) (request : List Byte) (s : State) : Result := s.act (s.spdm pf 0x84 request)

/-- GET_CAPABILITIES (R423). -/
def execGetCapabilities (pf : Nat) (request : List Byte) (s : State) : Result := s.act (s.spdm pf 0xE1 request)

/-- NEGOTIATE_ALGORITHMS (R423). -/
def execNegotiateAlgorithms (pf : Nat) (request : List Byte) (s : State) : Result := s.act (s.spdm pf 0xE3 request)

/-- GET_DIGESTS (R423). -/
def execGetDigests (pf : Nat) (request : List Byte) (s : State) : Result := s.act (s.spdm pf 0x81 request)

/-- GET_CERTIFICATE (R423). -/
def execGetCertificate (pf : Nat) (request : List Byte) (s : State) : Result := s.act (s.spdm pf 0x82 request)

/-- CHALLENGE (R423). -/
def execChallenge (pf : Nat) (request : List Byte) (s : State) : Result := s.act (s.spdm pf 0x83 request)

/-- GET_MEASUREMENTS (R423). -/
def execGetMeasurements (pf : Nat) (request : List Byte) (s : State) : Result := s.act (s.spdm pf 0xE0 request)

end Sys2Proof.Machine
end

