-- ==== Sys2Proof/Machine/TwinRows.lean ====
section
/-!
DEFINITION. The meanings of commands: the twin link. A command the state has no object for has no effect.
-/
namespace Sys2Proof.Machine

/-- HEARTBEAT (R432). -/
def execHeartbeat (message : List Byte) (s : State) : Result := s.act (s.twinIn 0 message 0)

/-- CFG_ENTRIES (R434). -/
def execCfgEntries (message : List Byte) (s : State) : Result := s.act (s.twinIn 2 message 0)

/-- COMMIT_REQ (R435). -/
def execCommitReq (message : List Byte) (s : State) : Result := s.act (s.twinIn 3 message 0)

/-- COMMIT_OK (R435). -/
def execCommitOk (message : List Byte) (s : State) : Result := s.act (s.twinIn 4 message 0)

/-- COMMIT_GO (R435). -/
def execCommitGo (message : List Byte) (s : State) : Result := s.act (s.twinIn 5 message 0)

/-- SNAPSHOT (R436). -/
def execSnapshot (message : List Byte) (s : State) : Result := s.act (s.twinIn 6 message 0)

/-- RESYNC_ENTRY (R437). -/
def execResyncEntry (message : List Byte) (s : State) : Result := s.act (s.twinIn 7 message 0)

/-- RESYNC_DONE (R437). -/
def execResyncDone (message : List Byte) (s : State) : Result := s.act (s.twinIn 8 message 0)

/-- HELLO (R437). -/
def execHello (message : List Byte) (s : State) : Result := s.act (s.twinIn 9 message 0)

/-- RELEASE (R440). -/
def execRelease (message : List Byte) (s : State) : Result := s.act (s.twinIn 10 message 0)

/-- NAK (R431). -/
def execNak (message : List Byte) (s : State) : Result := s.act (s.twinIn 11 message 0)

/-- TWIN_TABLE_CMD (R434). -/
def execTwinTableCmd (message : List Byte) (leadStatus : Nat) (s : State) : Result := s.act (s.twinIn 1 message leadStatus)

/-- HEARTBEAT_SEND (R432). -/
def execHeartbeatSend (s : State) : Result := s.act (s.heartbeatSend)

/-- TWIN_RESEND_TIMEOUT (R431). -/
def execTwinResendTimeout (s : State) : Result := s.act (s.twinRetx)

/-- TWIN_LOST (R433). -/
def execTwinLost (s : State) : Result := s.act (s.twinTimeout)

/-- TAKEOVER_WINDOW_END (R440). -/
def execTakeoverWindowEnd (s : State) : Result := s.act (s.windowEnd)

/-- HELLO_RESEND (R437). -/
def execHelloResend (s : State) : Result := s.act (s.helloResend)

/-- TWIN_HOLD_EDGE (R440). -/
def execTwinHoldEdge (high : Bool) (s : State) : Result := s.act (s.holdEdge high)

/-- TWIN_LANE_DOWN (R430). -/
def execTwinLaneDown (lane : Nat) (s : State) : Result := s.act (s.twinLaneDown lane)

/-- TWIN_LANE_UP (R430). -/
def execTwinLaneUp (lane : Nat) (s : State) : Result := s.act (s.twinLaneUp lane)

/-- PAIR (R437). -/
def execPair (master : Nat) (s : State) : Result := (s.writeReg master uTWN F.TWN_CMD_CMD.off 1).actAny

/-- UNPAIR (R442). -/
def execUnpair (master : Nat) (s : State) : Result := (s.writeReg master uTWN F.TWN_CMD_CMD.off 2).actAny

/-- TAKEOVER (R440). -/
def execTakeover (master : Nat) (s : State) : Result := (s.writeReg master uTWN F.TWN_CMD_CMD.off 3).actAny

/-- TWN_RELEASE (R441). -/
def execTwnRelease (master : Nat) (s : State) : Result := (s.writeReg master uTWN F.TWN_CMD_CMD.off 4).actAny

end Sys2Proof.Machine
end

