-- ==== Sys2Proof/Machine/PinRows.lean ====
section
/-!
DEFINITION. The meanings of commands: sMBus and the test access port. A command the state has no object for has no effect.
-/
namespace Sys2Proof.Machine

/-- DEVICE_INFO (R454). -/
def execDeviceInfo (addr : Nat) (pec : Bool) (s : State) : Result := s.actPln (s.smbInfo addr pec)

/-- AVS_TARGET (R444). -/
def execAvsTarget (addr : Nat) (pec : Bool) (s : State) : Result := s.actPln (s.smbAvs addr pec)

/-- VDD_SENSE (R454). -/
def execVddSense (addr : Nat) (pec : Bool) (s : State) : Result := s.actPln (s.smbVdd addr pec)

/-- TJ (R454). -/
def execTj (addr : Nat) (pec : Bool) (s : State) : Result := s.actPln (s.smbTj addr pec)

/-- SMB_POWER (R454). -/
def execSmbPower (addr : Nat) (pec : Bool) (s : State) : Result := s.actPln (s.smbWatt addr pec)

/-- RESET_CAUSE (R454). -/
def execResetCause (addr : Nat) (pec : Bool) (s : State) : Result := s.actPln (s.smbCause addr pec)

/-- POWER_STATE (R454). -/
def execPowerState (addr : Nat) (pec : Bool) (s : State) : Result := s.actPln (s.smbPower addr pec)

/-- WEAR (R454). -/
def execWear (addr : Nat) (pec : Bool) (s : State) : Result := s.actPln (s.smbWear addr pec)

/-- FAULT_STATUS (R454). -/
def execFaultStatus (addr : Nat) (pec : Bool) (s : State) : Result := s.actPln (s.smbFault addr pec)

/-- HIST (R454). -/
def execHist (addr : Nat) (pec : Bool) (s : State) : Result := s.actPln (s.smbHist addr pec)

/-- SMB_TIME (R454). -/
def execSmbTime (addr : Nat) (pec : Bool) (s : State) : Result := s.actPln (s.smbTime addr pec)

/-- HIST_SEL (R454). -/
def execHistSel (addr value : Nat) (pec : Option Nat) (s : State) : Result := s.actPln (s.smbSelect addr value pec)

/-- SMB_CLOCK_TIMEOUT (R454). -/
def execSmbClockTimeout (s : State) : Result := s.actPln s

/-- ALERT_RESPONSE (R454). -/
def execAlertResponse (s : State) : Result := s.actPln (s.alertAnswer)

/-- BYPASS (R456). -/
def execBypass (s : State) : Result := (s.tapBypass).actAny

/-- IDCODE (R456). -/
def execIdcode (s : State) : Result := (s.tapId).actAny

/-- SAMPLE_PRELOAD (R456). -/
def execSamplePreload (pins cells : Nat) (s : State) : Result := (s.tapSample pins cells).actAny

/-- EXTEST (R456). -/
def execExtest (pins cells : Nat) (s : State) : Result := (s.tapExtest 3 pins cells).actAny

/-- CLAMP (R456). -/
def execClamp (s : State) : Result := (s.tapQuiet 4).actAny

/-- HIGHZ (R456). -/
def execHighz (s : State) : Result := (s.tapQuiet 5).actAny

/-- EXTEST_PULSE (R456). -/
def execExtestPulse (pins cells : Nat) (s : State) : Result := (s.tapExtest 6 pins cells).actAny

/-- EXTEST_TRAIN (R456). -/
def execExtestTrain (pins cells : Nat) (s : State) : Result := (s.tapExtest 7 pins cells).actAny

/-- TAP_RESET (R456). -/
def execTapReset (s : State) : Result := (s.tapReset).actAny

end Sys2Proof.Machine
end

