-- ==== Sys2Proof/Machine/Dispatch.lean ====
section
/-!
DEFINITION. Which meaning each command has.
-/
namespace Sys2Proof.Machine

def exec (i : Instr) (s : State) : Host.Outcome State Fault Refusal :=
  match i with
  | .frameReceive port frame fcsOk pcsBad begun corrected uncorrected symbols => Sys2Proof.Machine.execFrameReceive port frame fcsOk pcsBad begun corrected uncorrected symbols s
  | .pauseExpire port cls => Sys2Proof.Machine.execPauseExpire port cls s
  | .headerAdmit course host ecc tid slot cam => Sys2Proof.Machine.execHeaderAdmit course host ecc tid slot cam s
  | .camSearchSkip course => Sys2Proof.Machine.execCamSearchSkip course s
  | .recirculationAdmit course ecc tid slot cam => Sys2Proof.Machine.execRecirculationAdmit course ecc tid slot cam s
  | .handOff course => Sys2Proof.Machine.execHandOff course s
  | .ventCellWrite err => Sys2Proof.Machine.execVentCellWrite err s
  | .ventStateReturn row queue => Sys2Proof.Machine.execVentStateReturn row queue s
  | .returnFetch col => Sys2Proof.Machine.execReturnFetch col s
  | .returnBlockCheck queue ecc => Sys2Proof.Machine.execReturnBlockCheck queue ecc s
  | .deepTransferTimeout isFetch n => Sys2Proof.Machine.execDeepTransferTimeout isFetch n s
  | .bpmRelocate channel => Sys2Proof.Machine.execBpmRelocate channel s
  | .tmDecision quadrant scheduler => Sys2Proof.Machine.execTmDecision quadrant scheduler s
  | .entryPageRead queue ecc => Sys2Proof.Machine.execEntryPageRead queue ecc s
  | .entryPageLost queue => Sys2Proof.Machine.execEntryPageLost queue s
  | .portFlushStep port => Sys2Proof.Machine.execPortFlushStep port s
  | .egressPass port err ecc tid slot => Sys2Proof.Machine.execEgressPass port err ecc tid slot s
  | .frameTransmitEnd port => Sys2Proof.Machine.execFrameTransmitEnd port s
  | .jobAccept cluster err => Sys2Proof.Machine.execJobAccept cluster err s
  | .jobDispatch cluster => Sys2Proof.Machine.execJobDispatch cluster s
  | .jobRelease cluster => Sys2Proof.Machine.execJobRelease cluster s
  | .jobBudgetExpire cluster engine thread => Sys2Proof.Machine.execJobBudgetExpire cluster engine thread s
  | .engineStall cluster engine => Sys2Proof.Machine.execEngineStall cluster engine s
  | .waitTimeout cluster engine thread => Sys2Proof.Machine.execWaitTimeout cluster engine thread s
  | .memoryResultReturn cluster engine thread space => Sys2Proof.Machine.execMemoryResultReturn cluster engine thread space s
  | .goto cluster engine thread corrected => Sys2Proof.Machine.execGoto cluster engine thread corrected s
  | .call cluster engine thread corrected => Sys2Proof.Machine.execCall cluster engine thread corrected s
  | .ret cluster engine thread corrected => Sys2Proof.Machine.execRet cluster engine thread corrected s
  | .jumpa cluster engine thread corrected => Sys2Proof.Machine.execJumpa cluster engine thread corrected s
  | .fault cluster engine thread ecc => Sys2Proof.Machine.execFault cluster engine thread ecc s
  | .mov cluster engine thread => Sys2Proof.Machine.execMov cluster engine thread s
  | .add cluster engine thread => Sys2Proof.Machine.execAdd cluster engine thread s
  | .sub cluster engine thread => Sys2Proof.Machine.execSub cluster engine thread s
  | .and cluster engine thread => Sys2Proof.Machine.execAnd cluster engine thread s
  | .or cluster engine thread => Sys2Proof.Machine.execOr cluster engine thread s
  | .xor cluster engine thread => Sys2Proof.Machine.execXor cluster engine thread s
  | .andn cluster engine thread => Sys2Proof.Machine.execAndn cluster engine thread s
  | .shl cluster engine thread => Sys2Proof.Machine.execShl cluster engine thread s
  | .shr cluster engine thread => Sys2Proof.Machine.execShr cluster engine thread s
  | .sar cluster engine thread => Sys2Proof.Machine.execSar cluster engine thread s
  | .cmp cluster engine thread => Sys2Proof.Machine.execCmp cluster engine thread s
  | .shrm cluster engine thread => Sys2Proof.Machine.execShrm cluster engine thread s
  | .shla cluster engine thread => Sys2Proof.Machine.execShla cluster engine thread s
  | .mul cluster engine thread => Sys2Proof.Machine.execMul cluster engine thread s
  | .min cluster engine thread => Sys2Proof.Machine.execMin cluster engine thread s
  | .max cluster engine thread => Sys2Proof.Machine.execMax cluster engine thread s
  | .bswap cluster engine thread => Sys2Proof.Machine.execBswap cluster engine thread s
  | .crc cluster engine thread => Sys2Proof.Machine.execCrc cluster engine thread s
  | .setf cluster engine thread => Sys2Proof.Machine.execSetf cluster engine thread s
  | .popc cluster engine thread => Sys2Proof.Machine.execPopc cluster engine thread s
  | .clz cluster engine thread => Sys2Proof.Machine.execClz cluster engine thread s
  | .ldl cluster engine thread ecc corrected => Sys2Proof.Machine.execLdl cluster engine thread ecc corrected s
  | .stl cluster engine thread corrected => Sys2Proof.Machine.execStl cluster engine thread corrected s
  | .ldp cluster engine thread corrected => Sys2Proof.Machine.execLdp cluster engine thread corrected s
  | .stp cluster engine thread corrected => Sys2Proof.Machine.execStp cluster engine thread corrected s
  | .ldd cluster engine thread ecc corrected => Sys2Proof.Machine.execLdd cluster engine thread ecc corrected s
  | .std cluster engine thread corrected => Sys2Proof.Machine.execStd cluster engine thread corrected s
  | .ext cluster engine thread corrected => Sys2Proof.Machine.execExt cluster engine thread corrected s
  | .ins cluster engine thread corrected => Sys2Proof.Machine.execIns cluster engine thread corrected s
  | .lookup cluster engine thread ecc slot cam lecc corrected => Sys2Proof.Machine.execLookup cluster engine thread ecc slot cam lecc corrected s
  | .chres cluster engine thread corrected => Sys2Proof.Machine.execChres cluster engine thread corrected s
  | .chcmt cluster engine thread corrected => Sys2Proof.Machine.execChcmt cluster engine thread corrected s
  | .chrd cluster engine thread corrected => Sys2Proof.Machine.execChrd cluster engine thread corrected s
  | .lock cluster engine thread corrected => Sys2Proof.Machine.execLock cluster engine thread corrected s
  | .unlock cluster engine thread corrected => Sys2Proof.Machine.execUnlock cluster engine thread corrected s
  | .jobrd cluster engine thread corrected => Sys2Proof.Machine.execJobrd cluster engine thread corrected s
  | .jobend cluster engine thread lecc corrected => Sys2Proof.Machine.execJobend cluster engine thread lecc corrected s
  | .sadd cluster engine thread corrected => Sys2Proof.Machine.execSadd cluster engine thread corrected s
  | .halt ring => Sys2Proof.Machine.execHalt ring s
  | .resume ring => Sys2Proof.Machine.execResume ring s
  | .step ring => Sys2Proof.Machine.execStep ring s
  | .readGregs ring => Sys2Proof.Machine.execReadGregs ring s
  | .writeGreg ring data ok => Sys2Proof.Machine.execWriteGreg ring data ok s
  | .readLmem ring => Sys2Proof.Machine.execReadLmem ring s
  | .writeLmem ring data ok => Sys2Proof.Machine.execWriteLmem ring data ok s
  | .readCstore ring => Sys2Proof.Machine.execReadCstore ring s
  | .stepEnd cluster engine thread => Sys2Proof.Machine.execStepEnd cluster engine thread s
  | .ucodeLoad ring data ok => Sys2Proof.Machine.execUcodeLoad ring data ok s
  | .linkFault port reason => Sys2Proof.Machine.execLinkFault port reason s
  | .linkFaultClear port => Sys2Proof.Machine.execLinkFaultClear port s
  | .downDebounceExpire port => Sys2Proof.Machine.execDownDebounceExpire port s
  | .signalDetect port => Sys2Proof.Machine.execSignalDetect port s
  | .trainingDone port modeMatches => Sys2Proof.Machine.execTrainingDone port modeMatches s
  | .trainingTimeout port => Sys2Proof.Machine.execTrainingTimeout port s
  | .upDebounceExpire port => Sys2Proof.Machine.execUpDebounceExpire port s
  | .holdExpire port => Sys2Proof.Machine.execHoldExpire port s
  | .portAdminUp master port => Sys2Proof.Machine.execPortAdminUp master port s
  | .portAdminDown master port => Sys2Proof.Machine.execPortAdminDown master port s
  | .laneReadapt master lane => Sys2Proof.Machine.execLaneReadapt master lane s
  | .readaptTimeout lane => Sys2Proof.Machine.execReadaptTimeout lane s
  | .pauseRepeat port cls => Sys2Proof.Machine.execPauseRepeat port cls s
  | .pfcWatchdogExpire port prio => Sys2Proof.Machine.execPfcWatchdogExpire port prio s
  | .pfcWatchdogIgnoreEnd port prio => Sys2Proof.Machine.execPfcWatchdogIgnoreEnd port prio s
  | .reset master uid tag => Sys2Proof.Machine.execReset master uid tag s
  | .test master uid tag => Sys2Proof.Machine.execTest master uid tag s
  | .unitAdmit master uid tag => Sys2Proof.Machine.execUnitAdmit master uid tag s
  | .drain master uid tag => Sys2Proof.Machine.execDrain master uid tag s
  | .retire master uid tag => Sys2Proof.Machine.execRetire master uid tag s
  | .isolate master uid tag => Sys2Proof.Machine.execIsolate master uid tag s
  | .unitResetDone uid late cfg train => Sys2Proof.Machine.execUnitResetDone uid late cfg train s
  | .unitTestDone uid code rows late => Sys2Proof.Machine.execUnitTestDone uid code rows late s
  | .unitDrainDone uid => Sys2Proof.Machine.execUnitDrainDone uid s
  | .drainLimitExpire uid => Sys2Proof.Machine.execDrainLimitExpire uid s
  | .groupCmdAdvance uid => Sys2Proof.Machine.execGroupCmdAdvance uid s
  | .devSetupLock master => Sys2Proof.Machine.execDevSetupLock master s
  | .registerWrite master bar addr size data => Sys2Proof.Machine.execRegisterWrite master bar addr size data s
  | .latchingRead master bar addr size => Sys2Proof.Machine.execLatchingRead master bar addr size s
  | .rcRead master bar addr size => Sys2Proof.Machine.execRcRead master bar addr size s
  | .claimRead master claim => Sys2Proof.Machine.execClaimRead master claim s
  | .claimRelease master claim => Sys2Proof.Machine.execClaimRelease master claim s
  | .claimExpire claim => Sys2Proof.Machine.execClaimExpire claim s
  | .crossingTimeout receiver sender number entries => Sys2Proof.Machine.execCrossingTimeout receiver sender number entries s
  | .wardenLost => Sys2Proof.Machine.execWardenLost s
  | .hostLinkDown link => Sys2Proof.Machine.execHostLinkDown link s
  | .flr master => Sys2Proof.Machine.execFlr master s
  | .flrEnd master => Sys2Proof.Machine.execFlrEnd master s
  | .vfEnableClear master => Sys2Proof.Machine.execVfEnableClear master s
  | .ringEnable master sizeLog => Sys2Proof.Machine.execRingEnable master sizeLog s
  | .ringDisable master => Sys2Proof.Machine.execRingDisable master s
  | .ringFlushEnd ring => Sys2Proof.Machine.execRingFlushEnd ring s
  | .ringFlushTimeout ring => Sys2Proof.Machine.execRingFlushTimeout ring s
  | .doorbellSq master doorbell value link ok => Sys2Proof.Machine.execDoorbellSq master doorbell value link ok s
  | .doorbellCq master doorbell value => Sys2Proof.Machine.execDoorbellCq master doorbell value s
  | .descriptorRead ring w0 w1 w2 w3 ok => Sys2Proof.Machine.execDescriptorRead ring w0 w1 w2 w3 ok s
  | .chainReread ring link ok => Sys2Proof.Machine.execChainReread ring link ok s
  | .writeBack ring => Sys2Proof.Machine.execWriteBack ring s
  | .cqWaitTimeout ring => Sys2Proof.Machine.execCqWaitTimeout ring s
  | .ringModTimer ring => Sys2Proof.Machine.execRingModTimer ring s
  | .nop ring => Sys2Proof.Machine.execNop ring s
  | .fence ring => Sys2Proof.Machine.execFence ring s
  | .fenceDone => Sys2Proof.Machine.execFenceDone s
  | .injectCourse ring data ok => Sys2Proof.Machine.execInjectCourse ring data ok s
  | .injectQueue ring data ok => Sys2Proof.Machine.execInjectQueue ring data ok s
  | .buffer ring => Sys2Proof.Machine.execBuffer ring s
  | .puntWrite ring => Sys2Proof.Machine.execPuntWrite ring s
  | .cfgWrite ring data ok => Sys2Proof.Machine.execCfgWrite ring data ok s
  | .tcwTimeout pf => Sys2Proof.Machine.execTcwTimeout pf s
  | .read src data ok ecc slot full => Sys2Proof.Machine.execRead src data ok ecc slot full s
  | .write src data ok ecc slot full => Sys2Proof.Machine.execWrite src data ok ecc slot full s
  | .insert src data ok ecc slot full => Sys2Proof.Machine.execInsert src data ok ecc slot full s
  | .delete src data ok ecc slot full => Sys2Proof.Machine.execDelete src data ok ecc slot full s
  | .ageIfUnhit src data ok ecc slot full => Sys2Proof.Machine.execAgeIfUnhit src data ok ecc slot full s
  | .testAndSet src data ok ecc slot full => Sys2Proof.Machine.execTestAndSet src data ok ecc slot full s
  | .readSlot src data ok ecc slot full => Sys2Proof.Machine.execReadSlot src data ok ecc slot full s
  | .hitScan src data ok ecc slot full => Sys2Proof.Machine.execHitScan src data ok ecc slot full s
  | .emRehash src seeds ok => Sys2Proof.Machine.execEmRehash src seeds ok s
  | .commit src operand ok => Sys2Proof.Machine.execCommit src operand ok s
  | .commitAccept => Sys2Proof.Machine.execCommitAccept s
  | .commitTwinTimeout => Sys2Proof.Machine.execCommitTwinTimeout s
  | .genAbort src operand ok => Sys2Proof.Machine.execGenAbort src operand ok s
  | .genWait src => Sys2Proof.Machine.execGenWait src s
  | .genInvalidate src data ok ecc slot full => Sys2Proof.Machine.execGenInvalidate src data ok ecc slot full s
  | .genQueueTimeout src => Sys2Proof.Machine.execGenQueueTimeout src s
  | .genHorizonExpire => Sys2Proof.Machine.execGenHorizonExpire s
  | .sweepEnd bad => Sys2Proof.Machine.execSweepEnd bad s
  | .egressFence src => Sys2Proof.Machine.execEgressFence src s
  | .egressFenceDone => Sys2Proof.Machine.execEgressFenceDone s
  | .egressFenceBound => Sys2Proof.Machine.execEgressFenceBound s
  | .emRehashDone ecc slot => Sys2Proof.Machine.execEmRehashDone ecc slot s
  | .shadowCompareSlice tid data ok finished => Sys2Proof.Machine.execShadowCompareSlice tid data ok finished s
  | .camScrubSlice finished dram flips corr bad => Sys2Proof.Machine.execCamScrubSlice finished dram flips corr bad s
  | .workPeriodBoundary => Sys2Proof.Machine.execWorkPeriodBoundary s
  | .tallyRecordWrite => Sys2Proof.Machine.execTallyRecordWrite s
  | .telemetryRecordWrite quadrant => Sys2Proof.Machine.execTelemetryRecordWrite quadrant s
  | .captureBatchWrite => Sys2Proof.Machine.execCaptureBatchWrite s
  | .flowCacheWriteback cache counter => Sys2Proof.Machine.execFlowCacheWriteback cache counter s
  | .flowWritebackTimeout n => Sys2Proof.Machine.execFlowWritebackTimeout n s
  | .samplerDataRead master cluster engine => Sys2Proof.Machine.execSamplerDataRead master cluster engine s
  | .fabCellSend port err => Sys2Proof.Machine.execFabCellSend port err s
  | .fabCellReceive cell => Sys2Proof.Machine.execFabCellReceive cell s
  | .reorderWaitExpire source => Sys2Proof.Machine.execReorderWaitExpire source s
  | .fcCellReceive cell => Sys2Proof.Machine.execFcCellReceive cell s
  | .xoffExpire n => Sys2Proof.Machine.execXoffExpire n s
  | .fcCellRepeat source => Sys2Proof.Machine.execFcCellRepeat source s
  | .fabricLaneDown lane => Sys2Proof.Machine.execFabricLaneDown lane s
  | .rankPowerDown channel rank => Sys2Proof.Machine.execRankPowerDown channel rank s
  | .dmcScrubSlice channel finished corrected uncorrected => Sys2Proof.Machine.execDmcScrubSlice channel finished corrected uncorrected s
  | .trainingHelperGo master channel value => Sys2Proof.Machine.execTrainingHelperGo master channel value s
  | .trainingHelperEnd channel errors => Sys2Proof.Machine.execTrainingHelperEnd channel errors s
  | .h2d mover data ok => Sys2Proof.Machine.execH2d mover data ok s
  | .d2h mover ecc => Sys2Proof.Machine.execD2h mover ecc s
  | .d2d mover ecc => Sys2Proof.Machine.execD2d mover ecc s
  | .fill mover => Sys2Proof.Machine.execFill mover s
  | .gate mover => Sys2Proof.Machine.execGate mover s
  | .signal mover => Sys2Proof.Machine.execSignal mover s
  | .moverTransferDone mover hostBytes ok ecc => Sys2Proof.Machine.execMoverTransferDone mover hostBytes ok ecc s
  | .gateLimitExpire mover => Sys2Proof.Machine.execGateLimitExpire mover s
  | .faultReport uid source detail => Sys2Proof.Machine.execFaultReport uid source detail s
  | .substitutionEnd uid bad => Sys2Proof.Machine.execSubstitutionEnd uid bad s
  | .railMismatch uid => Sys2Proof.Machine.execRailMismatch uid s
  | .histUnfreeze master => Sys2Proof.Machine.execHistUnfreeze master s
  | .enter master => Sys2Proof.Machine.execEnter master s
  | .exit master => Sys2Proof.Machine.execExit master s
  | .footingUngateDone failed => Sys2Proof.Machine.execFootingUngateDone failed s
  | .courseHandback course => Sys2Proof.Machine.execCourseHandback course s
  | .handbackTimeout course => Sys2Proof.Machine.execHandbackTimeout course s
  | .checkUnitScan unit_ data ok finished => Sys2Proof.Machine.execCheckUnitScan unit_ data ok finished s
  | .aliveTimeout unit_ => Sys2Proof.Machine.execAliveTimeout unit_ s
  | .powerOnReset => Sys2Proof.Machine.execPowerOnReset s
  | .chipReset pin => Sys2Proof.Machine.execChipReset pin s
  | .resetRelease split twinId testMode smbAddr => Sys2Proof.Machine.execResetRelease split twinId testMode smbAddr s
  | .brownOut mv => Sys2Proof.Machine.execBrownOut mv s
  | .supplyWarn mv => Sys2Proof.Machine.execSupplyWarn mv s
  | .railLoss => Sys2Proof.Machine.execRailLoss s
  | .clockLoss clock => Sys2Proof.Machine.execClockLoss clock s
  | .powerUpRailTimeout => Sys2Proof.Machine.execPowerUpRailTimeout s
  | .thermalSample tj sensor => Sys2Proof.Machine.execThermalSample tj sensor s
  | .governorSample mw => Sys2Proof.Machine.execGovernorSample mw s
  | .wearSecond => Sys2Proof.Machine.execWearSecond s
  | .devSoftReset master => Sys2Proof.Machine.execDevSoftReset master s
  | .deviceSoftResetEnd => Sys2Proof.Machine.execDeviceSoftResetEnd s
  | .banked master => Sys2Proof.Machine.execBanked master s
  | .active master => Sys2Proof.Machine.execActive master s
  | .plinthOnly master => Sys2Proof.Machine.execPlinthOnly master s
  | .powerDrainDone => Sys2Proof.Machine.execPowerDrainDone s
  | .powerDrainTimeout => Sys2Proof.Machine.execPowerDrainTimeout s
  | .bankedExitDone bad channels => Sys2Proof.Machine.execBankedExitDone bad channels s
  | .wake source => Sys2Proof.Machine.execWake source s
  | .timeSet master => Sys2Proof.Machine.execTimeSet master s
  | .plnSlew master ns => Sys2Proof.Machine.execPlnSlew master ns s
  | .timeComparatorFire k => Sys2Proof.Machine.execTimeComparatorFire k s
  | .ppsEdge input falling => Sys2Proof.Machine.execPpsEdge input falling s
  | .wardenLoad ring data ok => Sys2Proof.Machine.execWardenLoad ring data ok s
  | .wardenSwitch ring => Sys2Proof.Machine.execWardenSwitch ring s
  | .wardenSwitchTimeout => Sys2Proof.Machine.execWardenSwitchTimeout s
  | .configImage ring data ok => Sys2Proof.Machine.execConfigImage ring data ok s
  | .fuseUpdate ring data ok => Sys2Proof.Machine.execFuseUpdate ring data ok s
  | .mbOutWrite master channel data => Sys2Proof.Machine.execMbOutWrite master channel data s
  | .mbInAck master channel => Sys2Proof.Machine.execMbInAck master channel s
  | .mbInWrite channel own => Sys2Proof.Machine.execMbInWrite channel own s
  | .mbCrossTimeout channel => Sys2Proof.Machine.execMbCrossTimeout channel s
  | .ping channel => Sys2Proof.Machine.execPing channel s
  | .status channel => Sys2Proof.Machine.execStatus channel s
  | .attest channel => Sys2Proof.Machine.execAttest channel s
  | .mbAuthGo master slot => Sys2Proof.Machine.execMbAuthGo master slot s
  | .authVerifyDone => Sys2Proof.Machine.execAuthVerifyDone s
  | .lockoutEnd => Sys2Proof.Machine.execLockoutEnd s
  | .mbAuthClose master => Sys2Proof.Machine.execMbAuthClose master s
  | .getVersion pf request => Sys2Proof.Machine.execGetVersion pf request s
  | .getCapabilities pf request => Sys2Proof.Machine.execGetCapabilities pf request s
  | .negotiateAlgorithms pf request => Sys2Proof.Machine.execNegotiateAlgorithms pf request s
  | .getDigests pf request => Sys2Proof.Machine.execGetDigests pf request s
  | .getCertificate pf request => Sys2Proof.Machine.execGetCertificate pf request s
  | .challenge pf request => Sys2Proof.Machine.execChallenge pf request s
  | .getMeasurements pf request => Sys2Proof.Machine.execGetMeasurements pf request s
  | .heartbeatSend => Sys2Proof.Machine.execHeartbeatSend s
  | .heartbeat message => Sys2Proof.Machine.execHeartbeat message s
  | .twinTableCmd message leadStatus => Sys2Proof.Machine.execTwinTableCmd message leadStatus s
  | .cfgEntries message => Sys2Proof.Machine.execCfgEntries message s
  | .commitReq message => Sys2Proof.Machine.execCommitReq message s
  | .commitOk message => Sys2Proof.Machine.execCommitOk message s
  | .commitGo message => Sys2Proof.Machine.execCommitGo message s
  | .snapshot message => Sys2Proof.Machine.execSnapshot message s
  | .resyncEntry message => Sys2Proof.Machine.execResyncEntry message s
  | .resyncDone message => Sys2Proof.Machine.execResyncDone message s
  | .hello message => Sys2Proof.Machine.execHello message s
  | .release message => Sys2Proof.Machine.execRelease message s
  | .nak message => Sys2Proof.Machine.execNak message s
  | .twinResendTimeout => Sys2Proof.Machine.execTwinResendTimeout s
  | .twinLost => Sys2Proof.Machine.execTwinLost s
  | .takeoverWindowEnd => Sys2Proof.Machine.execTakeoverWindowEnd s
  | .pair master => Sys2Proof.Machine.execPair master s
  | .unpair master => Sys2Proof.Machine.execUnpair master s
  | .takeover master => Sys2Proof.Machine.execTakeover master s
  | .twnRelease master => Sys2Proof.Machine.execTwnRelease master s
  | .deviceInfo addr pec => Sys2Proof.Machine.execDeviceInfo addr pec s
  | .avsTarget addr pec => Sys2Proof.Machine.execAvsTarget addr pec s
  | .vddSense addr pec => Sys2Proof.Machine.execVddSense addr pec s
  | .tj addr pec => Sys2Proof.Machine.execTj addr pec s
  | .smbPower addr pec => Sys2Proof.Machine.execSmbPower addr pec s
  | .resetCause addr pec => Sys2Proof.Machine.execResetCause addr pec s
  | .powerState addr pec => Sys2Proof.Machine.execPowerState addr pec s
  | .wear addr pec => Sys2Proof.Machine.execWear addr pec s
  | .faultStatus addr pec => Sys2Proof.Machine.execFaultStatus addr pec s
  | .hist addr pec => Sys2Proof.Machine.execHist addr pec s
  | .histSel addr value pec => Sys2Proof.Machine.execHistSel addr value pec s
  | .smbTime addr pec => Sys2Proof.Machine.execSmbTime addr pec s
  | .smbClockTimeout => Sys2Proof.Machine.execSmbClockTimeout s
  | .alertResponse => Sys2Proof.Machine.execAlertResponse s
  | .bypass => Sys2Proof.Machine.execBypass s
  | .idcode => Sys2Proof.Machine.execIdcode s
  | .samplePreload pins cells => Sys2Proof.Machine.execSamplePreload pins cells s
  | .extest pins cells => Sys2Proof.Machine.execExtest pins cells s
  | .clamp => Sys2Proof.Machine.execClamp s
  | .highz => Sys2Proof.Machine.execHighz s
  | .extestPulse pins cells => Sys2Proof.Machine.execExtestPulse pins cells s
  | .extestTrain pins cells => Sys2Proof.Machine.execExtestTrain pins cells s
  | .tapReset => Sys2Proof.Machine.execTapReset s
  | .laneReadaptDone lane => Sys2Proof.Machine.execLaneReadaptDone lane s
  | .fabricLaneUp lane => Sys2Proof.Machine.execFabricLaneUp lane s
  | .twinLaneDown lane => Sys2Proof.Machine.execTwinLaneDown lane s
  | .twinLaneUp lane => Sys2Proof.Machine.execTwinLaneUp lane s
  | .hostLinkUp link gen width => Sys2Proof.Machine.execHostLinkUp link gen width s
  | .corePwrEnRetry => Sys2Proof.Machine.execCorePwrEnRetry s
  | .supplyWarnEnd mv => Sys2Proof.Machine.execSupplyWarnEnd mv s
  | .slewAbsorbed => Sys2Proof.Machine.execSlewAbsorbed s
  | .mbOutAck channel => Sys2Proof.Machine.execMbOutAck channel s
  | .rankRefresh channel rank => Sys2Proof.Machine.execRankRefresh channel rank s
  | .openPageIdleClose channel bank => Sys2Proof.Machine.execOpenPageIdleClose channel bank s
  | .ventWriteDone block => Sys2Proof.Machine.execVentWriteDone block s
  | .flowWritebackDone n ecc => Sys2Proof.Machine.execFlowWritebackDone n ecc s
  | .ucodeLoadDone => Sys2Proof.Machine.execUcodeLoadDone s
  | .wardenSwitchDone => Sys2Proof.Machine.execWardenSwitchDone s
  | .helloResend => Sys2Proof.Machine.execHelloResend s
  | .twinHoldEdge high => Sys2Proof.Machine.execTwinHoldEdge high s
  | .engineSampleTimeout cluster engine thread => Sys2Proof.Machine.execEngineSampleTimeout cluster engine thread s

end Sys2Proof.Machine
end

