-- ==== Sys2Proof/Safety.lean ====
section
/-!
DEFINITION. What counts as a safe run, and the terms the statements use: the invariant of SMB_ALERT_N, and a register
write that every check lets pass.
-/
namespace Sys2Proof

/-- One step from `s` answers a next state. -/
def stepSafe (s : Machine.State) : Prop := ∃ t, Machine.step s = .next t

/-- `n` steps from `s` all answer next states. -/
def runSafe : Nat → Machine.State → Prop
  | 0, _ => True
  | n + 1, s => ∃ t, Machine.step s = .next t ∧ runSafe n t

namespace Machine

/-- SMB_ALERT_N is driven low while a cause of R454 holds. -/
def State.alertInv (s : State) : Prop := s.alertCause = true → s.pwr.alertOn = true

/-- The state in which a write to BAR0 address `a` by master `m` is judged: HIF has counted the access (R362). -/
def State.seen (s : State) (m a : Nat) : State := s.occur uHIF 0x101 0 (some m) a 1

/-- The state with `v` merged into the register at `off` of window `u`, each field by its access code. -/
def State.stored (s : State) (m u off v : Nat) : State :=
  (s.seen m (4096 * u + off)).withWritten u ((s.seen m (4096 * u + off)).selOf u off) off v allBits

/-- A 4-byte write of `v` by master `m` to the register at `off` of BAR0 window `u` reaches the running device, and no
check of R7, R8, R9, R34, R42, R53 or R54 rejects it. -/
def State.writeOk (s : State) (m u off v : Nat) : Prop :=
  s.running = true ∧ s.reaches m = true ∧ m ≤ 4 ∧ u < 2 ^ 14 ∧ off < 4096 ∧ off % 4 = 0 ∧ v < 2 ^ 32 ∧
  (s.seen m (4096 * u + off)).domainOff u off = false ∧ (s.seen m (4096 * u + off)).bar0Reason m u off v = 0

/-- The state after an accepted write: the register stored and the write's effect made. -/
def State.wrote (s : State) (m u off v : Nat) : State :=
  (s.seen m (4096 * u + off)).regEffect u ((s.seen m (4096 * u + off)).selOf u off) off v (s.stored m u off v)

/-! ### Microcode -/

/-- The state in which thread `k` issues its microword, and that microword. -/
def State.iss (s : State) (k : Nat) : State := (s.beginIssue k).state
def State.word (s : State) (k : Nat) : Nat := (s.beginIssue k).word

/-- Thread `k` issues, and the ALU operation `op` of its microword is still to be done. -/
def State.aluReady (s : State) (k op : Nat) : Prop :=
  (s.beginIssue k).go = true ∧ uSeq (s.word k) ≠ 0 ∧ uAop (s.word k) = op ∧ ((s.iss k).thread k).aluDone = false

/-- Thread `k` issues, and the memory operation `op` of its microword is still to be done, its ALU slot having been and
no thread of its cluster having yet to act on the same channel, lock or shared register in an earlier issue (R233, R234). -/
def State.memReady (s : State) (k op : Nat) : Prop :=
  (s.beginIssue k).go = true ∧ uSeq (s.word k) ≠ 0 ∧ uBop (s.word k) = op ∧ ((s.iss k).thread k).memDone = false ∧
  (((s.iss k).thread k).aluDone = true ∨ uAop (s.word k) = 0) ∧ (s.iss k).sharedWait k (s.word k) = false

/-- Thread `k` issues, its microword's sequencer operation is `op` and its other slots have been done. -/
def State.seqReady (s : State) (k op : Nat) : Prop :=
  (s.beginIssue k).go = true ∧ uSeq (s.word k) = op ∧ (((s.iss k).thread k).aluDone = true ∨ uAop (s.word k) = 0) ∧
  (((s.iss k).thread k).memDone = true ∨ uBop (s.word k) = 0)

/-- Thread `k`'s ALU slot gives result `r` with flags `fl`, which the microword takes if its SETC is 1. -/
def State.gives (s : State) (k w : Nat) (r : DWord) (fl : Nat) : State :=
  let t := s.setThread k { s.thread k with aluDone := true, aluRes := r }
  if uSetc w then t.setThread k { t.thread k with cond := withFlags (t.thread k).cond fl r } else t

/-- The state in which thread `k`'s memory slot acts: a corrected microword has been counted (R262) and the slot is marked
as done. -/
def State.memIss (s : State) (k : Nat) (corrected : Bool) : State :=
  let t := (s.iss k).when corrected fun s => s.csCorrected k
  t.setThread k { t.thread k with memDone := true }

/-! ### Descriptors -/

/-- Ring `r` is a DEBUG ring of PF0 whose next descriptor `d` has opcode `op`, is well formed and names an engine in service
with power; where the opcode wants halted threads, those of its mask are HALTED. -/
def State.dbgReady (s : State) (r op : Nat) (d : Desc) (form : Desc → Bool) (masks : Nat → Bool) (halted : Bool) : Prop :=
  let k := 256 * ((dbgUid d - 0x400) / 64) + 8 * (dbgUid d % 64 - 16)
  s.nextDesc r op = some d ∧ s.ringType r = 5 ∧ s.ringOwner r = some 1 ∧ kindOf (dbgUid d) = some .engine ∧
  bitsOf d.w2 48 2 = 0 ∧ bitsOf d.w2 32 8 = 0 ∧ masks (dbgMask d) = true ∧ form d = true ∧ s.fwdOn = true ∧
  (s.ust (dbgUid d) = 4 ∨ s.ust (dbgUid d) = 5) ∧ s.getF (dbgUid d) F.UCB_STATE_ISOLATED ≠ 1 ∧
  (halted = true → ∀ t ∈ maskThreads (dbgMask d), (s.thread (k + t)).st = 6)

/-- The first thread of the engine a DEBUG descriptor names. -/
def dbgBase (d : Desc) : Nat := 256 * ((dbgUid d - 0x400) / 64) + 8 * (dbgUid d % 64 - 16)

/-- The next descriptor of ring `src` for table opcode `op` is `d`, and nothing holds it back. -/
def State.tblReady (s : State) (src op : Nat) (d : Desc) (data : List Byte) : Prop :=
  src < 65536 ∧ s.tblDesc src op = some d ∧ s.blocked src d.wait (tcmdOf d.w0 d.w1 d.w2 data) = false ∧
  s.mustWait (tcmdOf d.w0 d.w1 d.w2 data) = false

/-- A generation command's turn has come (R164), and its form, sequence number, power and mode checks pass. -/
def State.genReady (s : State) (src op operand : Nat) (d : Desc) : Prop :=
  let t := s.countTable src (tcmdOf d.w0 d.w1 d.w2 (leBytes operand 8))
  s.tblReady src op d (leBytes operand 8) ∧ s.genTurn d = true ∧
  t.changeDenied src (tcmdOf d.w0 d.w1 d.w2 (leBytes operand 8)) = false ∧ genCmdOk d operand = true ∧ t.fwdOn = true ∧
  operand = t.getF uTG F.GEN_STATUS_COMMIT_SEQ ∧ t.footing = false

/-! ### Twin messages -/

/-- A whole, valid message `h` of TYPE `type` reaches a running device whose twin link is neither OFF nor LOST. -/
def State.twinReads (s : State) (type : Nat) (m : List Byte) (h : TwinHdr) : Prop :=
  s.running = true ∧ s.fwdOn = true ∧ s.twnState ≠ 0 ∧ readTwin m = some h ∧ h.type = type ∧
  (s.aliveMessage (if type = 0 then 0 else 1) h.alive).twnState ≠ 4

/-- The state once the check units have seen a message's ALIVE and its ACK has been taken. -/
def State.heard (s : State) (h : TwinHdr) : State :=
  let x := s.aliveMessage (if h.type = 0 then 0 else 1) h.alive
  if x.twnState = 1 then x else x.ackIn h.ack

/-- Message `h` is the next in SEQ order and nothing is held. -/
def State.nextMsg (s : State) (h : TwinHdr) : Prop := (s.heard h).twin.held = [] ∧ h.seq = (s.heard h).twin.got + 1

/-- The state in which the next message in order takes effect; `lead` is the lead's status of a mirrored command. -/
def State.msgIn (s : State) (h : TwinHdr) (lead : Nat) : State :=
  (s.heard h).modTwin fun w => { w with held := [⟨h.seq, h.type, h.body, lead⟩], got := h.seq, nakked := false }

/-- The message has taken effect. -/
def State.msgOut (s : State) : State := s.modTwin fun w => { w with held := [], waitAt := none }

end Machine

end Sys2Proof
end

