-- ==== Sys2Proof/Certificates/Slice0/Obligations.lean ====
section
/-!
DEFINITION. The statements for the provers. Each is about the commands its docstring names; `s.after t` is the end every
command has (counters that run with time, the reaction to faults reported, SMB_ALERT_N). `F.<REGISTER>_<FIELD>` is a
register's field, `u…` a unit's UID.
-/
open Sys2Proof Sys2Proof.Machine

/-- A step runs the command at the front of the queue. For every state s whose queue is c followed by rest, step s is
exec of c on s with rest left in the queue; and with c put in front of any state, step answers what exec c answers on
that state. (That commands wait in a queue, first in first out, is the form of this model.) -/
def Obligations.StepRunsFrontCommand : Prop :=
  (∀ (s : State) (c : Instr) (rest : List Instr), s.pending = c :: rest → step s = exec c { s with pending := rest }) ∧
  (∀ (s : State) (c : Instr), step (s.withCommand c) = exec c s)

/-- An empty queue is one plinth tick; a stopped clock leaves the state. With no command waiting a step answers a next
state: while the plinth clock runs, one tick of it (its time advances by the tick, PLN_FREQ_PPB and the slew included,
what leaves with time leaves, search-index words found bad are rebuilt, a fuse update under way ends), then the end
every command has; while PLN_XTAL is absent nothing but that end happens. That a step on an empty queue is one 4 ns
tick is the choice of this model (log entry 4). -/
def Obligations.EmptyQueueTicks : Prop :=
  (∀ s : State, s.pending = [] → s.clk.running = true →
    step s = .next (s.elapse s.tickTime).fabDrain.twinDrain.ppsDrain.rebuildNodes.fuseDone.ended) ∧
  (∀ s : State, s.pending = [] → s.clk.running = false → step s = .next s.ended)

/-- At reset SMB_ALERT_N has no cause and is not driven. State.reset meets the invariant of SMB_ALERT_N (while a cause
of R454 holds, the pin is driven low): no cause holds and the pin is not driven. -/
def Obligations.ResetDrivesNoAlert : Prop :=
  State.alertInv State.reset ∧ State.reset.alertCause = false ∧ State.reset.pwr.alertOn = false

/-- Every step keeps SMB_ALERT_N low while one of its causes holds. For every state in which SMB_ALERT_N is driven low
whenever a temperature of 110 C or more, a supply warning or FATAL_SEEN holds, every next state a step answers is such
a state again, whatever command is at the front of the queue (all 306 of them) and on the tick of an empty queue. -/
def Obligations.AlertPinFollowsItsCauses : Prop :=
  ∀ s t : State, s.alertInv → step s = .next t → t.alertInv

/-- The end of a command that reports no fault changes only SMB_ALERT_N and ends pulses that are over. If the effect t
of a command begun in s leaves no fault report for FLT and no time passed in it, the end of the command leaves every
register, table, queue, buffer, memory byte, packet and counter of t as t has it; only the two bits that drive
SMB_ALERT_N may differ (it is low exactly if a cause holds or it was low and not yet answered), and a comparator pulse
whose width is over ends: with no pulse due, nothing else differs at all. -/
def Obligations.QuietCommandEndsInItsEffect : Prop :=
  ∀ s t : State, t.clk.core ≤ s.clk.core → t.reports = [] →
    ∃ ans : Bool,
      let u := { t with pwr := { t.pwr with alertOn := t.alertCause || (t.pwr.alertOn && !t.pwr.alertAns), alertAns := ans } }
      s.after t = u.ppsDrain ∧
      ((∀ o ∈ [1, 2], t.pwr.outUntil.get (fun _ => 0) o = 0 ∨ t.ns < t.pwr.outUntil.get (fun _ => 0) o) → s.after t = u)

/-- A store of the model reads back what was written and nothing else changes. Every register file, table, counter
file, local memory and DRAM of the model is one sparse map. For every such map, a read after a write of v at key k
gives v at k, and at every other key what the read before gave; and for the register file: after a write of register
k, k reads w and every other register reads as before, and nothing but the register file changes. -/
def Obligations.StoresReadBackWhatIsWritten : Prop :=
  (∀ (α : Type) (_ : DecidableEq α) (d : Nat → α) (m : KMap α) (k j : Nat) (v : α),
    (m.put d k v).get d j = if j = k then v else m.get d j) ∧
  (∀ (s : State) (k j : Nat) (w : Word), (s.wr k w).rd j = if j = k then w else s.rd j) ∧
  (∀ (s : State) (k : Nat) (w : Word), ∃ r, s.wr k w = { s with regs := r })

/-- Stores keep one canonical form, in which equal contents are equal data. Writing a key keeps the canonical form
(keys strictly rising, no entry that reads as an unlisted key does), whatever is written; keeping the entries of some
keys keeps it too; and two maps in that form that read the same at every key are the same list. -/
def Obligations.EqualContentsAreEqualData : Prop :=
  ∀ (α : Type) (_ : DecidableEq α) (d : Nat → α) (m : KMap α), m.wf d = true →
    (∀ (k : Nat) (v : α), (m.put d k v).wf d = true) ∧
    (∀ p : Nat → Bool, (m.keep p).wf d = true) ∧
    (∀ n : KMap α, n.wf d = true → (∀ k, m.get d k = n.get d k) → m = n)

/-- Setting a field of a register gives that field its value and leaves the others. For every word, a field
[lo+w-1:lo] that has been set to v reads v modulo 2^w, and every field that shares no bit with it reads as before; and
for every state, unit, register field of at most 32 bits: after the field is set it reads the value modulo its width,
and every field of another register, or of the same register without a common bit, reads as before. -/
def Obligations.FieldsOfOneWordAreApart : Prop :=
  (∀ n lo w v lo' w' : Nat, bitsOf (setBitsOf n lo w v) lo w = v % 2 ^ w ∧
    (lo' + w' ≤ lo ∨ lo + w ≤ lo' → bitsOf (setBitsOf n lo w v) lo' w' = bitsOf n lo' w')) ∧
  (∀ (s : State) (u v : Nat) (f g : Fld), f.lo + f.w ≤ 32 →
    (s.setF u f v).getF u f = v % 2 ^ f.w ∧
    (g.lo + g.w ≤ 32 → (g.off = f.off → g.lo + g.w ≤ f.lo ∨ f.lo + f.w ≤ g.lo) → (s.setF u f v).getF u g = s.getF u g))

/-- Little-endian fields and wire-order fields read back as they were laid out. A number laid out in len bytes,
little-endian as in registers, descriptors, records and memory or most significant byte first as on a link, reads back
modulo 256^len; every byte list is the layout of the number it spells; the two orders are each other's reverse. -/
def Obligations.ByteOrders : Prop :=
  (∀ n len : Nat, leNat (leBytes n len) = n % 256 ^ len ∧ beNat (beBytes n len) = n % 256 ^ len ∧
    (leBytes n len).length = len ∧ beBytes n len = (leBytes n len).reverse) ∧
  (∀ bs : List Byte, leBytes (leNat bs) bs.length = bs ∧ beBytes (beNat bs) bs.length = bs)

/-- A packet exactly at its deadline or age limit passes the check. At every plinth time, a packet fails the deadline
check exactly if the time is later than its deadline (admission time plus its offset); a copy fails the age check
exactly if the time less its admission time exceeds its queue's age limit; at the deadline or the limit itself both
checks pass. -/
def Obligations.DeadlineAndAgeChecks : Prop :=
  (∀ (s : State) (p : Pkt), s.pastDeadline p = true ↔ s.ns > p.adm.admitAt + p.adm.deadline) ∧
  (∀ (s : State) (q : Nat) (e : QEnt), s.aged q e = true ↔ s.ns - e.admitAt > s.ageNs q) ∧
  (∀ (s : State) (p : Pkt), s.ns = p.adm.admitAt + p.adm.deadline → s.pastDeadline p = false) ∧
  (∀ (s : State) (q : Nat) (e : QEnt), s.ns = e.admitAt + s.ageNs q → s.aged q e = false)

/-- While a source's SRC bit is 1 a further occurrence only counts; after it is cleared the next one reacts. For every
unit with fault sources and every source: while its SRC bit is 1, a further occurrence adds 1 to FLT_SRC_COUNT (and to
the performance counters that count the occurrence) and makes no record, no event and no report for FLT to react to; a
W1C write of the bit clears exactly that bit; with the bit 0 and the source not masked, an occurrence sets the bit and
is reported to FLT, whose reaction the command ends with. -/
def Obligations.LatchedFaultSourceOnlyCounts : Prop :=
  (∀ (s : State) (u src detail : Nat), nsrc u ≠ 0 →
    let t := (s.addF u (F.FLT_SRC_COUNT_COUNT.i src) 1).occur u 0x005 (s.sevOf u src) none 0 1
    bitsOf (t.getF u F.UCB_FAULT_SUM_SRC) src 1 = 1 → s.report u src detail = t) ∧
  (∀ (old src : Nat), src < 16 →
    mergeField .w1c old (2 ^ src) (2 ^ src) = old - bitsOf old src 1 * 2 ^ src) ∧
  (∀ (s : State) (u src detail : Nat), nsrc u ≠ 0 →
    let t := (s.addF u (F.FLT_SRC_COUNT_COUNT.i src) 1).occur u 0x005 (s.sevOf u src) none 0 1
    let x := t.setF u F.UCB_FAULT_SUM_SRC (setBitsOf (t.getF u F.UCB_FAULT_SUM_SRC) src 1 1)
    bitsOf (t.getF u F.UCB_FAULT_SUM_SRC) src 1 = 0 → bitsOf (x.getF u F.UCB_FAULT_MASK_MASK) src 1 = 0 →
      s.report u src detail = { x with reports := x.reports ++ [⟨u, src, detail⟩] })

/-- FRAME_RECEIVE: a good frame of a live port waits for its course, stamped. While the device runs, for every port
that exists and is live and no power drain, a whole frame with a good FCS that the MAC checks pass and that is no MAC
control frame counts as a good frame with its length (FCS included), and, if the port block's course or its partner
serves it, the device is no standby and the receive buffer has room, it is queued at the end of that buffer with its
receive stamp; the FEC symbol counts are added; then the command ends. A frame that fails a MAC check is counted and
dropped under that check's code instead. -/
def Obligations.FrameReceiveQueuesGoodFrames : Prop :=
  (∀ (s : State) (port : Nat) (frame : List Byte) (corr unc sym n : Nat),
    s.running = true → s.portExists port = true → s.portLive port = true → s.pwr.drainAt = none →
    s.rxCheck port (frame.length + 4) true false false = none → fb2 frame 12 ≠ 0x8808 →
    let t := (s.portCtr port 0 1).portCtr port 1 (frame.length + 4)
    t.serving (port / 32) = some n → t.twin.squelched = false →
    ((t.rxBlock (port / 8)).map (·.frame.length)).sum + frame.length ≤ 131072 →
    exec (.frameReceive port frame true false 0 corr unc sym) s = .next (s.after
      ((t.setRx (port / 8) (t.rxBlock (port / 8) ++ [⟨port, frame, t.rxStamp port (frame.length + 4), t.clk.now⟩])).fecCount
        port corr unc sym))) ∧
  (∀ (s : State) (port : Nat) (frame : List Byte) (fcsOk pcsBad : Bool) (corr unc sym code k : Nat),
    s.running = true → s.portExists port = true → s.portLive port = true → s.pwr.drainAt = none →
    s.rxCheck port (frame.length + 4) fcsOk pcsBad false = some (code, k) →
    exec (.frameReceive port frame fcsOk pcsBad 0 corr unc sym) s = .next (s.after
      (((s.portCtr port k 1).drop code port { uid := uMAC (port / 8), inPort := some port, len := frame.length }).fecCount
        port corr unc sym)))

/-- HEADER_ADMIT, CAM_SEARCH_SKIP and RECIRCULATION_ADMIT: a waiting header enters its course. While the device runs
and takes traffic: a course in service takes the frame that waits longest in the receive buffers it serves, stamps it
(admission time, deadline, generation) and runs its first pass; an admit stage that is Active or Draining and not
isolated does so for the oldest frame the host injected, whose descriptor then completes with its length; and a
recirculated packet in its first pass, before its deadline and outside footing mode, enters its second pass with no
result slots, at the parse stage with the profile its job named, and goes through the stages when the profile is valid
and parses it. CAM_SEARCH_SKIP marks the course so that its next header skips the CAM search. -/
def Obligations.HeadersEnterTheirCourse : Prop :=
  (∀ (s : State) (c ecc tid slot cam : Nat) (x : RxFrame),
    let n := c % 8
    s.running = true → s.taking = true → s.courseUp n = true → s.nextFrame n = some x →
    let t := s.setRx (x.port / 8) (s.rxBlock (x.port / 8)).tail
    let p := t.stamp n x.port (t.getF (uADM (x.port / 32)) (F.ADM_PORT_CFG_CLASS.i (x.port % 32))) false (some x.stamp) x.frame
    exec (.headerAdmit c false ecc tid slot cam) s = .next (s.after (p.2.firstPass n p.1 ⟨ecc, tid, slot, cam⟩))) ∧
  (∀ (s : State) (c ecc tid slot cam : Nat) (f : Inject) (rest : List Inject),
    let n := c % 8
    s.running = true → s.taking = true → (s.ust (uADM n) = 4 ∨ s.ust (uADM n) = 5) →
    s.getF (uADM n) F.UCB_STATE_ISOLATED = 0 → (s.course n).inject = f :: rest →
    let t := (s.setCourse n { s.course n with inject := rest }).complete f.ring f.idx (comp 0 f.len 0)
    let p := t.stamp n (256 + n) (t.getF (uADM n) (F.ADM_PORT_CFG_CLASS.i 32)) true none f.frame
    exec (.headerAdmit c true ecc tid slot cam) s = .next (s.after (p.2.firstPass n p.1 ⟨ecc, tid, slot, cam⟩))) ∧
  (∀ (s : State) (c : Nat), s.running = true →
    exec (.camSearchSkip c) s = .next (s.setCourse (c % 8) { s.course (c % 8) with camSkip := true }).ended) ∧
  (∀ (s : State) (c ecc tid slot cam : Nat) (x : Recirc) (rest : List Recirc) (q : Pkt) (u : State),
    let n := c % 8
    s.running = true → s.taking = true → (s.ust (uADM n) = 4 ∨ s.ust (uADM n) = 5) →
    s.getF (uADM n) F.UCB_STATE_ISOLATED = 0 → (s.course n).recirc = x :: rest →
    let t := s.setCourse n { s.course n with recirc := rest }
    t.footing = false → t.pastDeadline x.pkt = false → x.pkt.adm.pass = 1 →
    (t.takeSkip n).2.parse n x.profile { x.pkt with slots := [], adm := { x.pkt.adm with
      pass := 2, slow := false, mal := false, malReason := 0, bos := 0 } } = (some q, u) →
    exec (.recirculationAdmit c ecc tid slot cam) s =
      .next (s.after (u.stages n q ⟨ecc, tid, slot, cam⟩ (t.takeSkip n).1)))

/-- HAND_OFF: the oldest header of a course leaves for the basin by its fate. While the device runs and a course holds
headers, HAND_OFF takes the oldest: past its deadline it is dropped as DROP_DEADLINE per ingress port; otherwise its
learn, if it has one, is made, and it is written to the basin toward its queue, or replicated over its list, or, as a
detour or a punt, written to the column-32 queue of the cluster that routing picks (dropped as DROP_NO_ENGINE and
counted where it picks none). -/
def Obligations.HandOffPlacesItsOldestHeader : Prop :=
  ∀ (s : State) (c : Nat) (h : Hand) (rest : List Hand),
    let n := c % 8
    s.running = true → (s.course n).hand = h :: rest →
    let t := s.setCourse n { s.course n with hand := rest }
    let u := match h.learn with | some key => t.learn n h.pkt.adm.port key | none => t
    (t.pastDeadline h.pkt = true → exec (.handOff c) s = .next (s.after (t.dropIngress 0x10 (uRSV n) h.pkt))) ∧
    (t.pastDeadline h.pkt = false →
      (∀ y, h.fate = .queue y → exec (.handOff c) s =
        .next (s.after (u.writeBasin n h h.pkt [h.meterCopy y] false))) ∧
      (∀ l foot, h.fate = .list l foot → exec (.handOff c) s = .next (s.after (u.replicate n h l foot))) ∧
      (h.fate = .detour →
        let prio := u.getF (uRSV n) (F.RSV_ENG_CLASS_PRIO.i h.pkt.adm.slowClass)
        (∀ k, u.pickCluster n h.pkt prio = some k → exec (.handOff c) s =
          .next (s.after (u.writeBasin n h h.pkt [{ queue := internalQueue k prio }] false))) ∧
        (u.pickCluster n h.pkt prio = none → exec (.handOff c) s =
          .next (s.after ((u.addF (uRSV n) F.RSV_NO_ENGINE_COUNT 1).dropIngress 0x38 (uRSV n) h.pkt)))) ∧
      (∀ ring reason k, h.fate = .punt ring reason → u.pickCluster n h.pkt 0 = some k → exec (.handOff c) s =
        .next (s.after (u.writeBasin n h h.pkt [h.meterCopy { queue := internalQueue k 0, punt := some ring, reason := reason }] false))) ∧
      (∀ ring reason, h.fate = .punt ring reason → u.pickCluster n h.pkt 0 = none → exec (.handOff c) s =
        .next (s.after ((u.addF (uRSV n) F.RSV_NO_ENGINE_COUNT 1).dropIngress 0x38 (uRSV n) h.pkt))))

/-- The vent, the returns and the block pool do their next piece of work. While the device runs: outside footing mode,
with the governor open and the BPM Active or Draining, the next vented cell in row rotation leaves its row's vent
crosspoint at the rate the governor allows, and with the last cell of an instance its write is issued (a corrected
error of the read is reported, an uncorrectable one drops the instance's copies); a write that has been issued is
done; a pair in VENT state with no instance of its queue still in the deep buffer and at most LOW_CELLS in the
crosspoint returns to DIRECT; a column's return engine starts the fetch of the queue whose turn it is; a fetched block
that passes its checks in an Active or Draining channel outside footing mode is written to XP(33, j) and its block
given up (an uncorrectable DRAM error in any of its 64-byte accesses drops the copy as DROP_DEEP_ECC); the end of a
read that had timed out only gives up what it held; a fetch past tDTO drops the copy as DROP_DEEP_LOST, its block held
until the read ends, and a vent write past it drops every copy of its instance so; and a draining channel's first live
block moves, with its bytes, to another channel. -/
def Obligations.DeepBufferCommandsComplete : Prop :=
  (∀ (s : State) (i err : Nat) (x : Inst) (l : List Inst), s.running = true → s.footing = false →
    s.getF uBSN F.BSN_VENT_GOV_PCT ≠ 0 → (s.up uBPM = true ∨ s.ust uBPM = 5) → s.ventTurn = some i → s.ventQueue i = x :: l →
    let r := s.reachRaw s.bas.ventAt
    let t := r.modBas fun b => { b with ventAt := r.clk.now + ceilDiv 4096000 (s.getF uBSN F.BSN_VENT_GOV_PCT) }
    exec (.ventCellWrite err) s = .next (s.after (if err = 2 ∨ err = 3 then t.ventLost i (err - 1) x
      else (if err = 1 then t.report (uXP i 33) 0 0 else t).ventTake i x))) ∧
  (∀ (s : State) (id : Nat) (x : Inst), s.running = true → s.inst id = some x → x.place = 2 →
    exec (.ventWriteDone id) s = .next (s.after (s.setInst id (some { x with place := 3 })))) ∧
  (∀ (s : State) (i q : Nat), s.running = true → s.inVent i q = true →
    (∀ e ∈ s.queue q, e.row = i → e.back = false → ∀ x, s.inst e.inst = some x → x.place = 0 ∨ x.place = 4 ∨ x.lost = true) →
    s.directCells i q ≤ s.vc q F.BSN_VC_CFG_LOW_CELLS →
    exec (.ventStateReturn i q) s = .next (s.after (s.setVent i q false))) ∧
  (∀ (s : State) (j q : Nat), s.running = true → (s.colUp j).fetchTurn j = some q →
    exec (.returnFetch j) s = .next (s.after ((s.colUp j).startFetch j q))) ∧
  (∀ (s : State) (q ecc : Nat) (e : QEnt) (x : Inst), s.running = true → (s.bas.limbo.find? fun l => l.1 == q) = none →
    ((s.queue q).find? fun e => e.fetch.isSome && !e.back) = some e → s.inst e.inst = some x →
    let j := portCol (s.queuePort q)
    let t := s.dramEcc x.ch (s.blockAddr x.blk + 64 * (ecc / 8)) (ecc % 8)
    s.footing = false → x.lost = false → (s.ust (uDMC x.ch) = 4 ∨ s.ust (uDMC x.ch) = 5) → t.up (uXP 33 j) = true →
    t.aged q e = false →
    exec (.returnBlockCheck q ecc) s = .next (s.after (if ecc % 8 = 2 ∨ ecc % 8 = 4 then t.basinDrop 0x46 q e
      else ((t.setQueue q (modifyFirst (fun y => decide (y = e)) (fun y => { y with back := true }) (t.queue q))).xpPut
        33 j e.cells 1).blockDone e.inst))) ∧
  (∀ (s : State) (q ecc : Nat) (l : Nat × Blk), s.running = true → (s.bas.limbo.find? fun l => l.1 == q) = some l →
    exec (.returnBlockCheck q ecc) s = .next (s.after (s.limboEnd l))) ∧
  (∀ (s : State) (n : Nat) (x : Inst), s.running = true → s.inst n = some x → x.place = 2 →
    exec (.deepTransferTimeout false n) s = .next (s.after ((s.reach (x.at_ + 100000)).each
      ((s.reach (x.at_ + 100000)).bas.queues.flatMap fun e => (e.2.filter fun y => y.inst == n).map fun y => (e.1, y))
      fun s h => s.basinDrop 0x47 h.1 h.2))) ∧
  (∀ (s : State) (q : Nat) (e : QEnt) (x : Inst), s.running = true →
    ((s.queue q).find? fun e => e.fetch.isSome && !e.back) = some e →
    let t := s.reach (e.fetch.getD 0 + 100000)
    t.inst e.inst = some x → x.place = 3 →
    exec (.deepTransferTimeout true q) s = .next (s.after
      ((t.modBas fun b => { b with limbo := t.bas.limbo ++ [(q, x.blk)] }).basinDrop 0x47 q e))) ∧
  (∀ (s : State) (ch to_ : Nat) (l : List Nat) (x : Inst) (b : Blk) (t : State), s.running = true →
    s.firstBlock ch = some x → s.ust (uDMC ch) = 5 → s.up (uXP 33 33) = true → s.freeChans x.pool = to_ :: l →
    s.takeBlock x.pool to_ x.req = some (b, t) →
    exec (.bpmRelocate ch) s = .next (s.after ((((t.blockMove x b).freeBlock { x with refCtr := false }).setInst x.id
      (some { x with ch := b.ch, block := b.num })).addF uBPM F.BPM_RELOCATED_COUNT 1)))

/-- TM_DECISION, ENTRY_PAGE_READ, ENTRY_PAGE_LOST, PORT_FLUSH_STEP, EGRESS_PASS and FRAME_TRANSMIT_END. While the
device runs: a scheduler of a quadrant that is Active or Draining, powered and not isolated chooses a port and
descends to a queue, charges the path for the frame's length, removes the head copy, counts it and passes it on (a
copy past its age limit is dropped as DROP_AGED instead, its delay counted too); a queue's oldest page, once its read
is asked for and no page of its quadrant was asked for before it, is read on chip, its entries whose write was
discarded being lost, and lost with its copies when the read fails or tPAGE passes since it was asked for; each flush
step drops the next copy as DROP_PORT_DOWN, and the last clears FLUSHING and raises EVT_PORT_FLUSHED; a copy that has
left its queue is read, sampled and, as its egress pass, given to the course that serves its port, unless its age
limit or a read error drops it (an uncorrectable table word drops it as DROP_TABLE_ECC, and with no course in service
it is dropped as DROP_UNIT_RETIRED); and a frame whose transmission ends leaves the port, counted with its length, and
the frame is sent (not in a squelched standby). -/
def Obligations.QueuesSendTheirCopies : Prop :=
  (∀ (s : State) (qd sc p q : Nat) (e : QEnt) (l : List QEnt) (t : State),
    let k := qd % 4
    let u := uTMQ k
    s.running = true → (s.ust u = 4 ∨ s.ust u = 5) → s.getF u F.UCB_STATE_ISOLATED ≠ 1 → s.fwdOn = true →
    let a := s.each ((s.busyQueues k).filter fun q => (schedPorts k sc).contains (s.queuePort q)) fun s q =>
      s.comeUp (s.queue q).length q
    let b := if a.footing then a else a.noteAll k sc
    b.pickPort k sc = some p →
    (b.modBas fun x => { x with lastPort := b.bas.lastPort.put (fun _ => 2 ^ 16) (k * 16 + sc) p }).descend k p = some (q, t) →
    t.queue q = e :: l →
    let d := t.ns - e.enq
    (t.aged q e = true → exec (.tmDecision qd sc) s = .next (s.after (((t.popQueue q).telUp q fun t => { t with
      lmin := some (min d (t.lmin.getD d)), lmax := max t.lmax d }).tmDrop 0x49 q e 0))) ∧
    (t.aged q e = false →
      let c := t.chargePath q (match t.inst e.inst with | some x => x.pkt.frame.length | none => 0)
      let y := (c.popQueue q).telUp q fun t => { t with
        sent := t.sent + 1, lmin := some (min d (t.lmin.getD d)), lmax := max t.lmax d }
      exec (.tmDecision qd sc) s = .next (s.after ((y.occur u 0x100 (tmBand (y.tmEnt 0x50 q)) none 0 1).passOn q e)))) ∧
  (∀ (s : State) (q ecc pg at_ : Nat), s.running = true → s.headPage q = some pg → s.pageAsked q = some at_ →
    s.pageBefore q at_ = true → exec (.entryPageRead q ecc) s = .next (s.after s)) ∧
  (∀ (s : State) (q ecc pg at_ : Nat), s.running = true → s.headPage q = some pg → s.pageAsked q = some at_ →
    s.pageBefore q at_ = false →
    let r := s.dramRead (3 * 4096 + q / 65536) (s.pageAddr (q / 65536) pg) 256 ecc
    let t := r.2.entriesLost q ((r.2.queue q).filter fun e => e.page == some pg && e.unwritten)
    exec (.entryPageRead q ecc) s = .next (s.after (if r.1.isSome then
      (if t.bas.pages.contains (q / 65536, pg) then t.pageIn q pg else t) else r.2.pageLose q pg))) ∧
  (∀ (s : State) (q pg at_ : Nat), s.running = true → s.headPage q = some pg → s.pageAsked q = some at_ →
    exec (.entryPageLost q) s = .next (s.after ((s.reach (at_ + 100000)).pageLose q pg))) ∧
  (∀ (s : State) (p n q : Nat) (e : QEnt) (l : List QEnt) (qs : List Nat), s.running = true → (s.port p).flush = some n →
    s.portQueues p = q :: qs → s.queue q = e :: l →
    let t := (s.popQueue q).tmDrop 0x07 q e 0
    exec (.portFlushStep p) s = .next (s.after (t.setPort p { t.port p with flush := some (n + 1) }))) ∧
  (∀ (s : State) (p n : Nat), s.running = true → (s.port p).flush = some n → s.portQueues p = [] →
    exec (.portFlushStep p) s = .next (s.after (((s.setPort p { s.port p with flush := none }).setF (uTMQ (p / 64))
      (F.TMQ_PORT_STATUS_FLUSHING.i (p % 64)) 0).event 0x13 p (uMAC (p / 8)) p n))) ∧
  (∀ (s : State) (p n err ecc tid slot : Nat) (x : EgItem) (i : Inst) (u : State), s.running = true →
    (s.bas.egress.find? fun y => y.port == p) = some x → s.inst x.ent.inst = some i →
    let t := s.modBas fun b => { b with egress := s.bas.egress.erase x }
    let k := { i.pkt with color := x.ent.color, adm := { i.pkt.adm with pass := i.pkt.adm.pass + 1 } }
    t.readOut x.col err x.ent i = (true, u) → (u.sampleHeader x.col k).serving (p / 32) = some n →
    let w := (u.sampleHeader x.col k).meets ((u.sampleHeader x.col k).egressWords p k x.ent.copy) ⟨ecc, tid, slot, 0⟩
    let r := (u.sampleHeader x.col k).readEcc n [0x18, 0x31, 0x41, 0x42] w
    exec (.egressPass p err ecc tid slot) s = .next (s.after
      (if r.1 then r.2.egEcc n k w.tid else r.2.egressCourse n p k x.ent.copy))) ∧
  (∀ (s : State) (p err ecc tid slot : Nat) (x : EgItem) (i : Inst) (u : State), s.running = true →
    (s.bas.egress.find? fun y => y.port == p) = some x → s.inst x.ent.inst = some i →
    let k := { i.pkt with color := x.ent.color, adm := { i.pkt.adm with pass := i.pkt.adm.pass + 1 } }
    (s.modBas fun b => { b with egress := s.bas.egress.erase x }).readOut x.col err x.ent i = (true, u) →
    (u.sampleHeader x.col k).serving (p / 32) = none →
    exec (.egressPass p err ecc tid slot) s = .next (s.after
      ((u.sampleHeader x.col k).egDrop 0x60 p (uCRS (p / 32)) k x.ent.copy k.frame))) ∧
  (∀ (s : State) (p err ecc tid slot : Nat) (x : EgItem) (i : Inst) (u : State), s.running = true →
    (s.bas.egress.find? fun y => y.port == p) = some x → s.inst x.ent.inst = some i →
    (s.modBas fun b => { b with egress := s.bas.egress.erase x }).readOut x.col err x.ent i = (false, u) →
    exec (.egressPass p err ecc tid slot) s = .next (s.after u)) ∧
  (∀ (s : State) (p : Nat) (x : TxItem), s.running = true → (s.txBegin p).txHead p = some x →
    let u := s.txBegin p
    let t := u.setSending (dropTx (fun x => x.port == p && x.started) u.bas.sending)
    exec (.frameTransmitEnd p) s = .next (s.after
      ((((((if t.twin.squelched then t else t.send (.frame p x.data false)).portCtr p 17 1).portCtr p 18 x.data.length).mcDone
        x.pkt true).pauseFlush p).txBegin p)))

/-- JOB_ACCEPT, JOB_DISPATCH, JOB_RELEASE and PUNT_WRITE: packets become jobs, jobs reach threads and leave. While the
device runs: a cluster router with room takes its oldest column-32 copy out of the basin and, unless its deadline or a
read error drops it, makes it a job at the end of the job queue, or, where it is a punt, a punt to its ring; the
oldest job goes to the thread that has waited longest, with a new sequence number and its record in local memory,
unless its deadline has passed (then it is dropped as DROP_DEADLINE and counted); the next ending in release order
leaves, and its packet recirculates, goes to row 32 or to its host ring as the ending says; and the oldest punt of a
ring that is up and has posted room is written into the posted buffers, after which the packet has left the device. -/
def Obligations.JobsReachThreadsAndLeave : Prop :=
  (∀ (s t : State) (n err : Nat) (e : QEnt) (rest : List QEnt) (i : Inst) (ok : Bool),
    let c := n % 16
    s.running = true → s.bas.router.get (fun _ => []) c = e :: rest → s.routerReady c = true → s.fwdOn = true → s.footing = false →
    s.inst e.inst = some i →
    (s.modBas fun b => { b with router := s.bas.router.put (fun _ => []) c rest }).readOut 32 err e i = (ok, t) →
    (∀ r, ok = true → e.copy.punt = some r → exec (.jobAccept n err) s = .next (s.after
      (t.setPunts (t.punts ++ [⟨r, e.copy.reason, 0, i.pkt, some c, jobCells i.pkt.frame.length, false⟩])))) ∧
    (ok = true → e.copy.punt = none → exec (.jobAccept n err) s = .next (s.after (t.draw.2.setCluster c { t.draw.2.cluster c with
      queued := (t.draw.2.cluster c).queued ++ [newJob e i.pkt t.draw.1] }))) ∧
    (ok = false → exec (.jobAccept n err) s = .next (s.after t))) ∧
  (∀ (s : State) (n t : Nat) (j : Job) (rest : List Job),
    let c := n % 16
    s.running = true → (s.cluster c).queued = j :: rest → s.longestWaiter c = some t → (s.cluster c).outst.length < 256 →
    (s.pastDeadline j.pkt = false → exec (.jobDispatch n) s = .next (s.after (s.giveJob c t j rest))) ∧
    (s.pastDeadline j.pkt = true → exec (.jobDispatch n) s = .next (s.after
      (((s.setCluster c { s.cluster c with queued := rest }).addF (uEC c) F.EC_CTR_DEADLINE 1).dropCluster 0x10 c 0 j.pkt)))) ∧
  (∀ (s : State) (n : Nat) (j : OutJob),
    let c := n % 16
    s.running = true → firstRelease [] (s.cluster c).outst = some j →
    let e := j.ending.getD []
    let t := s.endJob c j
    (endKind e = 1 → exec (.jobRelease n) s = .next (s.after (t.recirculate c (endCourse e) (endProfile e) (endedPkt j e)))) ∧
    (endKind e = 2 → exec (.jobRelease n) s = .next (s.after (t.queueEnding (endedPkt j e) e))) ∧
    (endKind e = 3 → exec (.jobRelease n) s = .next (s.after (t.setPunts (t.punts ++
      [⟨endRing e, endCode e, endUser e, endedPkt j e, some c, j.job.cells, false⟩]))))) ∧
  (∀ (s : State) (r : Nat) (x : PuntPkt), s.running = true → (s.punts.find? fun x => x.ring == r) = some x →
    let t := s.setPunts (s.punts.erase x)
    let bytes := puntHeader x ++ x.pkt.frame
    t.ringLog r ≠ 0 → t.ringType r = 2 → t.ringState r ≠ 0 → t.ringState r ≠ 4 → t.ringUp r 2 = true →
    bytes.length ≤ ((t.posted r).map (·.len)).sum → x.sample = false →
    exec (.puntWrite r) s = .next (s.after
      (((t.fillBufs r (t.posted r) bytes true).leaveFlight x.pkt).mcDone x.pkt true)))

/-- Budgets, waits, memory results, stalls, samples and steps of threads. While the device runs: a thread whose job's
budget runs out is aborted as DROP_JOB_BUDGET at that time and restarts; a memory operation returns its oldest result
of a space to its register, passes on the locks whose unlock waited for it and wakes the thread that waits for it, or
faults the thread where its word was bad; a WAIT_JOB, WAIT_CHAN or WAIT_LOCK that reaches tCHW ends with its failure
condition, its register 0 (but for a lock) and the thread ready again, and a memory operation that reaches it, before
a wait that began later, faults the thread; a stalled engine is counted and reported, and its threads' jobs are
aborted as DROP_ENGINE_STALL and it starts anew with its registers kept, or with STALL_HALT all eight threads halt; a
sample period that times out is closed; and a thread that has issued the microwords of a STEP halts again with a DEBUG
record. -/
def Obligations.ThreadTimersAndReturns : Prop :=
  (∀ (s : State) (c e t : Nat) (j : OutJob),
    let k := thrKey c e t
    s.running = true → s.jobOf k = some j → (s.thread k).st ≠ 6 →
    exec (.jobBudgetExpire c e t) s = .next (s.after
      (((s.reachCore ((s.thread k).budgetAt + cycTime (s.thread k).budget)).abortJob k 0x39).restart k))) ∧
  (∀ (s : State) (c e t sp : Nat) (m : MemOp),
    let k := thrKey c e t
    s.running = true → ((s.thread k).mem.find? fun m => m.space == sp && m.space != 5) = some m →
    let r := s.setThread k { s.thread k with mem := (s.thread k).mem.erase m }
    let u := (r.setOpReg k m.reg m.value).settleUnlocks k
    exec (.memoryResultReturn c e t sp) s = .next (s.after (if m.bad then r.threadFault k
      else if (s.thread k).st = 5 then u.wake k else u))) ∧
  (∀ (s : State) (c e t : Nat),
    let k := thrKey c e t
    let x := s.thread k
    s.running = true →
    let w := s.reachCore (x.waitAt + cycTime chwCycles)
    let first := x.mem.all fun m => decide (x.waitAt ≤ m.since)
    let u := w.setCluster (ecOf k) { w.cluster (ecOf k) with waiting := (w.cluster (ecOf k)).waiting.erase (tidOf k) }
    (x.waitSt = 2 → first = true → exec (.waitTimeout c e t) s = .next (s.after (((u.setOpReg k x.waitReg 0).setCond k 19 1).wake k))) ∧
    (x.waitSt = 3 → first = true → exec (.waitTimeout c e t) s = .next (s.after ((((u.setChan (ecOf k) x.waitObj
      { u.chan (ecOf k) x.waitObj with waiting := (u.chan (ecOf k) x.waitObj).waiting.erase (tidOf k) }).setOpReg
      k x.waitReg 0).setCond k 17 1).wake k))) ∧
    (x.waitSt = 4 → first = true → exec (.waitTimeout c e t) s = .next (s.after (((u.setLock (ecOf k) x.waitObj
      { u.lockSt (ecOf k) x.waitObj with waiting := (u.lockSt (ecOf k) x.waitObj).waiting.erase (tidOf k) }).setCond
      k 18 1).wake k))) ∧
    (∀ m l, x.waitSt = 0 ∨ first = false → x.mem = m :: l → exec (.waitTimeout c e t) s =
      .next (s.after (((s.reachCore (m.since + cycTime chwCycles)).setThread k { x with mem := l }).threadFault k)))) ∧
  (∀ (s : State) (c e : Nat),
    let g := 32 * (c % 16) + e % 32
    s.running = true → s.stalled g = true → s.engineRuns (uENG (c % 16) (e % 32)) = true →
    let t := s.stallTold (c % 16) (e % 32)
    (t.getF (uENG (c % 16) (e % 32)) F.ENG_CFG_STALL_HALT = 0 → exec (.engineStall c e) s = .next (s.after
      ((t.each (List.range 8) fun s i => (s.abortJob (8 * g + i) 0x3C).freeHolds (8 * g + i)).stallRestart g))) ∧
    (t.getF (uENG (c % 16) (e % 32)) F.ENG_CFG_STALL_HALT = 1 → exec (.engineStall c e) s = .next (s.after
      ((t.each (List.range 8) fun s i => (s.setThread (8 * g + i) { s.thread (8 * g + i) with
          st := 6, budget := s.budgetLeft (8 * g + i) }).closeSample (8 * g + i)).each
        ((List.range 8).filter fun i => (t.thread (8 * g + i)).st != 0) fun s i => s.debugRecord (8 * g + i) 4 0 0)))) ∧
  (∀ (s : State) (c e t : Nat) (p : Sample),
    let k := thrKey c e t
    s.running = true → (s.thread k).sample = some p →
    exec (.engineSampleTimeout c e t) s = .next (s.after ((s.reachCore (cycTime (p.cyc + 65535))).closeSample k))) ∧
  (∀ (s : State) (c e t : Nat),
    let k := thrKey c e t
    s.running = true → (s.thread k).st = 1 → (s.thread k).stepLeft = some 0 →
    exec (.stepEnd c e t) s = .next (s.after (((s.setThread k { s.thread k with
      st := 6, stepLeft := none, budget := s.budgetLeft k }).closeSample k).debugRecord k 3 0 0)))

/-- HALT, RESUME, STEP and the reads and writes of g registers, local memory and control store. While the device runs,
a DEBUG descriptor of PF0 that is well formed and names an engine in service does what it says and completes with
status 0 and its LEN: HALT halts the threads of its mask and records each that halts; RESUME and STEP let halted
threads go on, STEP for COUNT microwords; READ_GREGS writes the 32 g registers of its thread to host memory and
WRITE_GREG sets one; READ_LMEM, WRITE_LMEM and READ_CSTORE copy local memory and microwords. HALT and RESUME write the
plinth time. The writes complete with DMA_ERROR instead when their operand could not be read. -/
def Obligations.DebugCommandsReachTheEngine : Prop :=
  (∀ (s : State) (r : Nat) (d : Desc), s.running = true →
    s.dbgReady r 0x40 d (fun d => dbgArg d == 0 && d.len == 8) (· != 0) false →
    let t := s.each (maskThreads (dbgMask d)) fun s t =>
      let was := (s.thread (dbgBase d + t)).st
      let s := s.haltThread (dbgBase d + t)
      if was ≠ 6 ∧ (s.thread (dbgBase d + t)).st = 6 then s.debugRecord (dbgBase d + t) 1 0 0 else s
    exec (.halt r) s = .next (s.after (t.debugDone r d (leBytes t.ns 8)))) ∧
  (∀ (s : State) (r : Nat) (d : Desc), s.running = true →
    s.dbgReady r 0x41 d (fun d => dbgArg d == 0 && d.len == 8) (· != 0) true →
    exec (.resume r) s = .next (s.after ((s.each (maskThreads (dbgMask d)) fun s t =>
      s.resumeOne (dbgBase d + t) none).debugDone r d (leBytes s.ns 8)))) ∧
  (∀ (s : State) (r : Nat) (d : Desc), s.running = true →
    s.dbgReady r 0x42 d (fun d => 1 ≤ dbgArg d && dbgArg d ≤ 65535 && d.len == 8) oneBit true →
    exec (.step r) s = .next (s.after
      ((s.resumeOne (dbgThread d (dbgBase d)) (some (dbgArg d))).debugDone r d (leBytes s.ns 8)))) ∧
  (∀ (s : State) (r : Nat) (d : Desc), s.running = true →
    s.dbgReady r 0x43 d (fun d => dbgArg d == 0 && d.len == 256) oneBit true →
    exec (.readGregs r) s = .next (s.after (s.debugDone r d
      (wordsBytes ((List.range 32).map fun g => (s.opReg (dbgThread d (dbgBase d)) g).toNat))))) ∧
  (∀ (s : State) (r : Nat) (d : Desc) (data : List Byte), s.running = true →
    s.dbgReady r 0x44 d (fun d => dbgArg d < 32 && d.len == 8) oneBit true →
    exec (.writeGreg r data true) s = .next (s.after ((s.setOpReg (dbgThread d (dbgBase d)) (dbgArg d)
      (BitVec.ofNat 64 (leNat (sliceBytes data 0 8)))).debugDone r d [])) ∧
    exec (.writeGreg r data false) s = .next (s.after (s.complete r d.idx (comp 3 0 0)))) ∧
  (∀ (s : State) (r : Nat) (d : Desc), s.running = true → s.dbgReady r 0x45 d lmemForm (· == 0) false →
    exec (.readLmem r) s = .next (s.after (s.debugDone r d (s.lmemBytes (dbgBase d / 8) (dbgArg d) d.len)))) ∧
  (∀ (s : State) (r : Nat) (d : Desc) (data : List Byte), s.running = true → s.dbgReady r 0x46 d lmemForm (· == 0) false →
    exec (.writeLmem r data true) s = .next (s.after
      ((s.setLmemBytes (dbgBase d / 8) (dbgArg d) (sliceBytes data 0 d.len)).debugDone r d [])) ∧
    exec (.writeLmem r data false) s = .next (s.after (s.complete r d.idx (comp 3 0 0)))) ∧
  (∀ (s : State) (r : Nat) (d : Desc), s.running = true →
    s.dbgReady r 0x47 d (fun d => dbgArg d < 4096 && d.len % 16 == 0 && d.len ≤ 4096 && 16 * dbgArg d + d.len ≤ 65536) (· == 0) false →
    exec (.readCstore r) s = .next (s.after (s.debugDone r d
      ((List.range (d.len / 16)).flatMap fun i => uBytes (s.cword (dbgBase d / 8) (dbgArg d + i))))))

/-- UCODE_LOAD and its end: a valid image reaches the control stores it names. While the device runs and the warden is
free and not in recovery: a UCODE_LOAD, the image descriptor read first, whose image authenticates, passes every load
check and names engines that may take it begins, and one that fails completes with the status and reason of the check;
with FWD off it completes POWERDOWN and with an operand that could not be read DMA_ERROR. When the load is done every
named engine holds the image and the descriptor completes with status 0 and the number of engines. -/
def Obligations.MicrocodeImagesLoad : Prop :=
  (∀ (s : State) (r : Nat) (data : List Byte) (d : Desc), s.running = true → s.nextDesc r 0x31 = some d →
    s.wardenFree = true → s.bit uWDN F.WDN_FW_STATUS_RECOVERY = false → s.firstRead s.imgOps d = true →
    (s.fwdOn = true →
      (∀ t, s.loadStart (sliceBytes data 0 d.len) (namedEngines d.w2) r d.idx = .ok t →
        exec (.ucodeLoad r data true) s = .next (s.after (t.setDesc r d.idx fun d => { d with begun := true }))) ∧
      (∀ st info, s.loadStart (sliceBytes data 0 d.len) (namedEngines d.w2) r d.idx = .error (st, info) →
        exec (.ucodeLoad r data true) s = .next (s.after (s.complete r d.idx (comp st 0 info)))) ∧
      exec (.ucodeLoad r data false) s = .next (s.after (s.complete r d.idx (comp 3 0 0)))) ∧
    (s.fwdOn = false → ∀ ok, exec (.ucodeLoad r data ok) s = .next (s.after (s.complete r d.idx (comp 7 0 0))))) ∧
  (∀ (s : State) (l : ULoad), s.running = true → s.eng.load = some l →
    exec .ucodeLoadDone s = .next (s.after (((s.each l.engines fun s u => s.loadEngine l u).modEng fun e =>
      { e with load := none }).complete l.ring l.idx (comp 0 0 l.engines.length))))

/-- Every ALU row computes its result and flags from the operands the microword selects. While the device runs, for
every cluster, engine and thread that issues a microword whose ALU operation is the row's and still to be done, with a
the register it selects as A and b its B operand, each as it read when the microword was issued: MOV gives b, ADD a +
b, SUB and CMP a - b, AND, OR, XOR and ANDN the bitwise results, SHL, SHR and SAR a shifted by b[5:0], SHRM (a >> SH)
AND b, SHLA (a << SH) + b, MUL the low 64 bits of a times b, MIN and MAX the smaller and larger unsigned value, BSWAP
a with its bytes reversed, CRC the CRC-32C step of the spec, POPC the ones of a, CLZ its leading zeros, all modulo
2^64; the ALU slot is then done, and the condition bits take the row's flags and the result's low 16 bits if SETC is
1. SETF gives b and sets F0 to F7 under its mask. -/
def Obligations.AluRowsGiveTheirResults : Prop :=
  ∀ (s : State) (c e t : Nat), s.running = true →
    let k := thrKey c e t
    let w := s.word k
    let a := (s.iss k).operand k (uSa w)
    let b := (s.iss k).opB k w
    (s.aluReady k 0x01 → exec (.mov c e t) s = .next (s.after ((s.iss k).gives k w (b) (flagsOther (b))))) ∧
    (s.aluReady k 0x02 → exec (.add c e t) s = .next (s.after ((s.iss k).gives k w (a + b) (flagsAdd a b)))) ∧
    (s.aluReady k 0x03 → exec (.sub c e t) s = .next (s.after ((s.iss k).gives k w (a - b) (flagsSub a b)))) ∧
    (s.aluReady k 0x04 → exec (.and c e t) s = .next (s.after ((s.iss k).gives k w (a &&& b) (flagsOther (a &&& b))))) ∧
    (s.aluReady k 0x05 → exec (.or c e t) s = .next (s.after ((s.iss k).gives k w (a ||| b) (flagsOther (a ||| b))))) ∧
    (s.aluReady k 0x06 → exec (.xor c e t) s = .next (s.after ((s.iss k).gives k w (a ^^^ b) (flagsOther (a ^^^ b))))) ∧
    (s.aluReady k 0x07 → exec (.andn c e t) s = .next (s.after ((s.iss k).gives k w (a &&& ~~~b) (flagsOther (a &&& ~~~b))))) ∧
    (s.aluReady k 0x08 → exec (.shl c e t) s = .next (s.after ((s.iss k).gives k w (a <<< (b.toNat % 64)) (flagsOther (a <<< (b.toNat % 64)))))) ∧
    (s.aluReady k 0x09 → exec (.shr c e t) s = .next (s.after ((s.iss k).gives k w (a >>> (b.toNat % 64)) (flagsOther (a >>> (b.toNat % 64)))))) ∧
    (s.aluReady k 0x0A → exec (.sar c e t) s = .next (s.after ((s.iss k).gives k w (a.sshiftRight (b.toNat % 64)) (flagsOther (a.sshiftRight (b.toNat % 64)))))) ∧
    (s.aluReady k 0x0B → exec (.cmp c e t) s = .next (s.after ((s.iss k).gives k w (a - b) (flagsSub a b)))) ∧
    (s.aluReady k 0x0C → exec (.shrm c e t) s = .next (s.after ((s.iss k).gives k w ((a >>> uSh w) &&& b) (flagsOther ((a >>> uSh w) &&& b))))) ∧
    (s.aluReady k 0x0D → exec (.shla c e t) s = .next (s.after ((s.iss k).gives k w ((a <<< uSh w) + b) (flagsOther ((a <<< uSh w) + b))))) ∧
    (s.aluReady k 0x0E → exec (.mul c e t) s = .next (s.after ((s.iss k).gives k w (a * b) (flagsOther (a * b))))) ∧
    (s.aluReady k 0x0F → exec (.min c e t) s = .next (s.after ((s.iss k).gives k w (if a.toNat ≤ b.toNat then a else b) (flagsOther (if a.toNat ≤ b.toNat then a else b))))) ∧
    (s.aluReady k 0x10 → exec (.max c e t) s = .next (s.after ((s.iss k).gives k w (if a.toNat ≤ b.toNat then b else a) (flagsOther (if a.toNat ≤ b.toNat then b else a))))) ∧
    (s.aluReady k 0x11 → exec (.bswap c e t) s = .next (s.after ((s.iss k).gives k w (bswap64 a) (flagsOther (bswap64 a))))) ∧
    (s.aluReady k 0x12 → exec (.crc c e t) s = .next (s.after ((s.iss k).gives k w (crcStep a b) (flagsOther (crcStep a b))))) ∧
    (s.aluReady k 0x14 → exec (.popc c e t) s = .next (s.after ((s.iss k).gives k w (popc64 a) (flagsOther (popc64 a))))) ∧
    (s.aluReady k 0x15 → exec (.clz c e t) s = .next (s.after ((s.iss k).gives k w (clz64 a) (flagsOther (clz64 a))))) ∧
    (s.aluReady k 0x13 →
      let u := (s.iss k).gives k w b 0
      exec (.setf c e t) s = .next (s.after (u.setThread k { u.thread k with cond := withSetf (u.thread k).cond (u.thread k).aluRes })))

/-- An ALU result goes to its own thread only: every other thread, register, table and memory is unchanged. For every
state, thread, result and flags, marking the ALU slot as done leaves plinth time, every register of every window,
every counter, queue, packet, table, meter and local and DRAM byte as before, and every other thread; the thread
itself keeps its pc, state, stack, g registers, job, waits and memory operations, holds the result and the mark, and
its condition bits change only if SETC is 1: bits 7:0 to the flags, bits 47:32 to the low 16 bits of the result, the
others as before. -/
def Obligations.AluSlotChangesOneThread : Prop :=
  ∀ (s : State) (k w fl : Nat) (r : DWord),
    let t := s.gives k w r fl
    (∃ e : KMap Thread, t = s.modEng fun x => { x with threads := e }) ∧
    (∀ j, j ≠ k → t.thread j = s.thread j) ∧
    (t.thread k).aluDone = true ∧ (t.thread k).aluRes = r ∧
    (∃ c, t.thread k = { s.thread k with aluDone := true, aluRes := r, cond := c } ∧
      (uSetc w = false → c = (s.thread k).cond) ∧
      (uSetc w = true → bitsOf c 0 8 = fl % 256 ∧ bitsOf c 32 16 = r.toNat % 65536 ∧
        bitsOf c 8 24 = bitsOf (s.thread k).cond 8 24 ∧ c / 2 ^ 48 = (s.thread k).cond / 2 ^ 48))

/-- The flags of ADD, SUB and CMP order their operands. For all 64-bit a and b: after SUB or CMP, bit 0 of the flags
is 1 exactly if a = b, bit 1 is the result's bit 63, bit 2 exactly if a is below b unsigned, bit 3 exactly if the
signed difference does not fit in 64 bits, bit 4 exactly if a < b signed, bit 5 exactly if a <= b signed and bit 6
exactly if a <= b unsigned; after ADD, bit 0 is 1 exactly if the sum modulo 2^64 is 0, bit 1 is its bit 63, bit 2
exactly if the unsigned sum is 2^64 or more and bit 3 exactly if the signed sum does not fit. -/
def Obligations.CompareFlagsOrderTheOperands : Prop :=
  ∀ a b : DWord,
    (bitsOf (flagsSub a b) 0 1 = 1 ↔ a = b) ∧
    (bitsOf (flagsSub a b) 1 1 = 1 ↔ (a - b).msb = true) ∧
    (bitsOf (flagsSub a b) 2 1 = 1 ↔ a.toNat < b.toNat) ∧
    (bitsOf (flagsSub a b) 3 1 = 1 ↔ (a - b).toInt ≠ a.toInt - b.toInt) ∧
    (bitsOf (flagsSub a b) 4 1 = 1 ↔ a.toInt < b.toInt) ∧
    (bitsOf (flagsSub a b) 5 1 = 1 ↔ a.toInt ≤ b.toInt) ∧
    (bitsOf (flagsSub a b) 6 1 = 1 ↔ a.toNat ≤ b.toNat) ∧
    (bitsOf (flagsAdd a b) 0 1 = 1 ↔ (a.toNat + b.toNat) % 2 ^ 64 = 0) ∧
    (bitsOf (flagsAdd a b) 1 1 = 1 ↔ (a + b).msb = true) ∧
    (bitsOf (flagsAdd a b) 2 1 = 1 ↔ 2 ^ 64 ≤ a.toNat + b.toNat) ∧
    (bitsOf (flagsAdd a b) 3 1 = 1 ↔ (a + b).toInt ≠ a.toInt + b.toInt)

/-- GOTO, CALL, RET, JUMPA and FAULT end the microword and choose the next one. While the device runs, for every
thread whose other slots are done: GOTO ends the microword with the pc at NEXT with the selected condition bits; CALL
goes to LIT and pushes that address, but with 8 entries held it is a fault; RET goes to the entry pushed last and pops
it, but with none held it is a fault; JUMPA goes to bits 11:0 of the ALU result; a corrected control-store word is
counted and reported first. FAULT, whose word may be a corrected one too, and a microword whose word is uncorrectable
(reported once per address and period), fault the thread. -/
def Obligations.SequencerRowsEndTheMicroword : Prop :=
  ∀ (s : State) (c e t : Nat) (corr : Bool), s.running = true →
    let k := thrKey c e t
    let w := s.word k
    let x := (s.iss k).thread k
    let u := (s.iss k).when corr fun s => s.csCorrected k
    (s.seqReady k 0x01 → exec (.goto c e t corr) s = .next (s.after (u.endIssue k w (uNext w ||| mway x.snap w) x.stack))) ∧
    (s.seqReady k 0x02 → x.stack.length < 8 → exec (.call c e t corr) s =
      .next (s.after (u.endIssue k w (uLit w % 4096) ((uNext w ||| mway x.snap w) :: x.stack)))) ∧
    (s.seqReady k 0x02 → 8 ≤ x.stack.length → exec (.call c e t corr) s = .next (s.after (u.threadFault k))) ∧
    (∀ a l, s.seqReady k 0x03 → x.stack = a :: l → exec (.ret c e t corr) s = .next (s.after (u.endIssue k w a l))) ∧
    (s.seqReady k 0x03 → x.stack = [] → exec (.ret c e t corr) s = .next (s.after (u.threadFault k))) ∧
    (s.seqReady k 0x04 → exec (.jumpa c e t corr) s =
      .next (s.after (u.endIssue k w (x.aluRes.toNat % 4096) x.stack))) ∧
    (∀ ecc, (s.beginIssue k).go = true → (uSeq w = 0 ∨ ecc = 2) → exec (.fault c e t ecc) s =
      .next (s.after ((((s.iss k).when (ecc == 1) fun s => s.csCorrected k).when (ecc == 2) fun s =>
        s.csUncorrectable k).threadFault k)))

/-- LDL, STL, LDP, STP, LDD, STD, EXT and INS reach local memory, the job window and DRAM. While the device runs, for
a thread whose memory slot is to be done, with a the address from its register and displacement and n the access size:
an aligned LDL loads the n bytes a read of local memory answers (little-endian) and one it does not answer is a fault:
words of local memory read as they stand, reported if corrected and not answered if uncorrectable, and the master
reads the g registers of its threads; an aligned STL stores its register's low n bytes, and the master's sets a g
register of, or starts, a STOPPED thread; LDP, STP, EXT and INS inside the job window load or replace n bytes, or the
named field, most significant byte first; LDD and STD inside a DRAM window load and store n bytes little-endian at the
window's DRAM address, a word that cannot be read faulting the thread when it returns; outside, or misaligned, each is
a fault of the thread. A store is in flight until it completes. -/
def Obligations.LoadsAndStoresOfThreads : Prop :=
  (∀ (s : State) (c e t : Nat) (corr : Bool), s.running = true →
    let k := thrKey c e t
    let w := s.word k
    let u := s.memIss k corr
    let a := u.opAddr k w (uDisp w)
    let n := uBytesN w
    let f := u.opAddr k w (fByte w)
    let v := beNat (u.winAt k f (fSpan w))
    let x := (u.operand k (uReg w)).toNat
    (∀ ecc b y, s.memReady k 0x01 → a % n = 0 → u.localRead k a n ecc = (some b, y) →
      exec (.ldl c e t ecc corr) s = .next (s.after (y.startLoad k (uReg w) 0 (BitVec.ofNat 64 (leNat b))))) ∧
    (∀ ecc y, s.memReady k 0x01 → a % n = 0 → u.localRead k a n ecc = (none, y) →
      exec (.ldl c e t ecc corr) s = .next (s.after (y.threadFault k))) ∧
    (∀ ecc, s.memReady k 0x01 → a % n ≠ 0 → exec (.ldl c e t ecc corr) s = .next (s.after (u.threadFault k))) ∧
    (∀ o, s.memReady k 0x02 → a % n = 0 → localAt (thrOf k) a n = .phys o → exec (.stl c e t corr) s =
      .next (s.after ((u.setLmemBytes (k / 8) o (leBytes (x % 2 ^ (8 * n)) n)).startStore k 0))) ∧
    (∀ i r b, s.memReady k 0x02 → a % n = 0 → localAt (thrOf k) a n = .greg i r b →
      let j := k / 8 * 8 + i
      ((u.thread j).st = 0 → exec (.stl c e t corr) s = .next (s.after ((u.setOpReg j r
        (BitVec.ofNat 64 (setBitsOf (u.opReg j r).toNat (8 * b) (8 * n) (x % 2 ^ (8 * n))))).startStore k 0))) ∧
      ((u.thread j).st ≠ 0 → exec (.stl c e t corr) s = .next (s.after (u.threadFault k)))) ∧
    (∀ i, s.memReady k 0x02 → a % n = 0 → localAt (thrOf k) a n = .start i →
      let j := k / 8 * 8 + i
      let pc := x % 2 ^ (8 * n) % 4096
      ((u.thread j).st = 0 → exec (.stl c e t corr) s = .next (s.after ((u.setThread j { u.thread j with
        st := 1, pc := pc, start := pc, elig := u.ecNow }).startStore k 0))) ∧
      ((u.thread j).st ≠ 0 → exec (.stl c e t corr) s = .next (s.after (u.threadFault k)))) ∧
    (s.memReady k 0x02 → (a % n ≠ 0 ∨ localAt (thrOf k) a n = .bad) →
      exec (.stl c e t corr) s = .next (s.after (u.threadFault k))) ∧
    (s.memReady k 0x03 → u.inWin k a n = true → exec (.ldp c e t corr) s =
      .next (s.after (u.startLoad k (uReg w) 1 (BitVec.ofNat 64 (beNat (u.winAt k a n)))))) ∧
    (s.memReady k 0x04 → u.inWin k a n = true → exec (.stp c e t corr) s =
      .next (s.after ((u.setWin k fun b => patchBytes b a (beBytes x n)).startStore k 1))) ∧
    (s.memReady k 0x03 → u.inWin k a n = false → exec (.ldp c e t corr) s = .next (s.after (u.threadFault k))) ∧
    (s.memReady k 0x04 → u.inWin k a n = false → exec (.stp c e t corr) s = .next (s.after (u.threadFault k))) ∧
    (∀ d b y ecc, s.memReady k 0x05 → a % n = 0 → u.ecWindow (ecOf k) a n = some d → u.dramRead (thrSrc k) d n ecc = (some b, y) →
      exec (.ldd c e t ecc corr) s = .next (s.after (y.startOp k { reg := uReg w, value := BitVec.ofNat 64 (leNat b), space := 2
                                                                   since := y.clk.core, chan := (y.dramMap d).map (·.1) }))) ∧
    (∀ d y ecc, s.memReady k 0x05 → a % n = 0 → u.ecWindow (ecOf k) a n = some d → u.dramRead (thrSrc k) d n ecc = (none, y) →
      exec (.ldd c e t ecc corr) s = .next (s.after (y.startBad k (uReg w) 2))) ∧
    (∀ d, s.memReady k 0x06 → a % n = 0 → u.ecWindow (ecOf k) a n = some d → exec (.std c e t corr) s =
      .next (s.after ((u.dramWrite (thrSrc k) d (leBytes x n)).2.startStore k 2))) ∧
    (∀ ecc, s.memReady k 0x05 → (a % n ≠ 0 ∨ u.ecWindow (ecOf k) a n = none) →
      exec (.ldd c e t ecc corr) s = .next (s.after (u.threadFault k))) ∧
    (s.memReady k 0x06 → (a % n ≠ 0 ∨ u.ecWindow (ecOf k) a n = none) →
      exec (.std c e t corr) s = .next (s.after (u.threadFault k))) ∧
    (s.memReady k 0x07 → u.inWin k f (fSpan w) = true → exec (.ext c e t corr) s = .next (s.after (u.startLoad k (uReg w) 1
      (BitVec.ofNat 64 (bitsOf v (8 * fSpan w - fBit w - fLen w) (fLen w)))))) ∧
    (s.memReady k 0x08 → u.inWin k f (fSpan w) = true → exec (.ins c e t corr) s = .next (s.after ((u.setWin k fun b =>
      patchBytes b f (beBytes (setBitsOf v (8 * fSpan w - fBit w - fLen w) (fLen w) x) (fSpan w))).startStore k 1))) ∧
    (s.memReady k 0x07 → u.inWin k f (fSpan w) = false → exec (.ext c e t corr) s = .next (s.after (u.threadFault k))) ∧
    (s.memReady k 0x08 → u.inWin k f (fSpan w) = false → exec (.ins c e t corr) s = .next (s.after (u.threadFault k)))) ∧
  (∀ (s : State) (k a n ecc o : Nat), localAt (thrOf k) a n = .phys o →
    s.localRead k a n ecc = if ecc = 2 then (none, s)
      else (some (s.lmemBytes (k / 8) o n), s.when (ecc == 1) fun s => s.report (engUid k) 0 o)) ∧
  (∀ (s : State) (k a n ecc i r b : Nat), localAt (thrOf k) a n = .greg i r b → (s.localRead k a n ecc).2 = s ∧
    ∃ l, (s.localRead k a n ecc).1 = some l ∧ l.length = n) ∧
  (∀ (s : State) (k a n ecc : Nat), localAt (thrOf k) a n = .bad → s.localRead k a n ecc = (none, s))

/-- LOOKUP, CHRES, CHCMT, CHRD, LOCK, UNLOCK, JOBRD, JOBEND and SADD. While the device runs, for a thread whose memory
slot is to be done: LOOKUP of a key that a read of local memory answers returns the lookup word of its job's
generation, or bit 62 alone if the job's packet is an orphan; CHRES takes a slot of a channel the engine may write and
clears F16, or sets F16 when the channel is full or the thread holds two; CHCMT commits the reserved slot with its
registers as a message (a channel the engine may not write, or no reserved slot, is a fault); CHRD of a channel with a
message takes the oldest into its registers and clears F17, else the thread waits; LOCK takes a free lock and clears
F18, else waits; UNLOCK of its own lock passes it on once the thread's earlier stores have completed, of another is a
fault; JOBRD waits for a job, and in a Draining engine stops a thread without one; JOBEND with a valid record ends the
job for release, or drops its packet under CODE, with an invalid one aborts the job as DROP_JOB_INVALID, and with one
it cannot read faults; SADD adds its register to an s register and returns the old value; where a thread of the
cluster has yet to act on the same channel, lock or s register in an earlier issue, the slot waits for it. -/
def Obligations.LookupsChannelsLocksAndJobPort : Prop :=
  ∀ (s : State) (c e t : Nat) (corr : Bool), s.running = true →
    let k := thrKey c e t
    let w := s.word k
    let u := s.memIss k corr
    let m := ecOf k
    let a := u.opAddr k w (uDisp w)
    let kt := uLit w / 256 % 256
    let ch := u.chan m (uDisp w % 64)
    let lk := u.lockSt m (uDisp w % 256)
    (∀ ecc slot cam lecc key y, s.memReady k 0x09 → u.localRead k a (u.keyLen (uLit w % 256) kt) lecc = (some key, y) →
      let r := y.lookupKey k (uLit w % 256) kt key ecc slot cam
      exec (.lookup c e t ecc slot cam lecc corr) s = .next (s.after (r.2.startLoad k (uReg w) 4 (BitVec.ofNat 64 r.1))) ∧
      (∀ j : OutJob, y.jobOf k = some j →
        (j.job.pkt.adm.admitAt < y.gen.retired.get (fun _ => 0) j.job.pkt.adm.gen → r = (2 ^ 62, y)) ∧
        (y.gen.retired.get (fun _ => 0) j.job.pkt.adm.gen ≤ j.job.pkt.adm.admitAt →
          r = y.lookupWord j.job.pkt.adm.gen (uLit w % 256) kt key ecc slot cam))) ∧
    (s.memReady k 0x0A → u.mayWrite k (uDisp w % 64) = false → exec (.chres c e t corr) s = .next (s.after (u.threadFault k))) ∧
    (s.memReady k 0x0B → (u.mayWrite k (uDisp w % 64) = false ∨ ch.reserved.contains (tidOf k) = false) →
      exec (.chcmt c e t corr) s = .next (s.after (u.threadFault k))) ∧
    ((s.iss k).sharedWait k w = true →
      exec (.chres c e t corr) s = .next (s.after (s.iss k)) ∧ exec (.chcmt c e t corr) s = .next (s.after (s.iss k)) ∧
      exec (.chrd c e t corr) s = .next (s.after (s.iss k)) ∧ exec (.lock c e t corr) s = .next (s.after (s.iss k)) ∧
      exec (.unlock c e t corr) s = .next (s.after (s.iss k)) ∧ exec (.sadd c e t corr) s = .next (s.after (s.iss k))) ∧
    (s.memReady k 0x0A → u.mayWrite k (uDisp w % 64) = true →
      (ch.reserved.length + ch.msgs.length < 16 → (ch.reserved.filter (· == tidOf k)).length < 2 → exec (.chres c e t corr) s =
        .next (s.after ((u.setChan m (uDisp w % 64) { ch with reserved := ch.reserved ++ [tidOf k] }).setCond k 16 0))) ∧
      ((16 ≤ ch.reserved.length + ch.msgs.length ∨ 2 ≤ (ch.reserved.filter (· == tidOf k)).length) →
        exec (.chres c e t corr) s = .next (s.after (u.setCond k 16 1)))) ∧
    (s.memReady k 0x0B → u.mayWrite k (uDisp w % 64) = true → ch.reserved.contains (tidOf k) = true → exec (.chcmt c e t corr) s =
      .next (s.after ((u.setChan m (uDisp w % 64) { ch with
        reserved := ch.reserved.erase (tidOf k)
        msgs := ch.msgs ++ [(List.range (bitsOf (uDisp w) 8 3 + 1)).map fun i => u.operand k (uReg w + i)] }).serveChan m (uDisp w % 64)))) ∧
    (∀ x xs, s.memReady k 0x0C → ch.msgs = x :: xs → exec (.chrd c e t corr) s = .next (s.after
      ((((u.setChan m (uDisp w % 64) { ch with msgs := xs }).setOpReg k (uReg w) (BitVec.ofNat 64 x.length)).each x.zipIdx fun s v =>
        s.setOpReg k (uReg w + 1 + v.2) v.1).setCond k 17 0))) ∧
    (s.memReady k 0x0C → ch.msgs = [] → exec (.chrd c e t corr) s = .next (s.after
      ((u.setChan m (uDisp w % 64) { ch with waiting := ch.waiting ++ [tidOf k] }).beginWait k 3 (uDisp w % 64) (uReg w)))) ∧
    (s.memReady k 0x0D → lk.owner = none → exec (.lock c e t corr) s =
      .next (s.after ((u.setLock m (uDisp w % 256) { lk with owner := some (tidOf k) }).setCond k 18 0))) ∧
    (∀ o, s.memReady k 0x0D → lk.owner = some o → exec (.lock c e t corr) s = .next (s.after
      ((u.setLock m (uDisp w % 256) { lk with waiting := lk.waiting ++ [tidOf k] }).beginWait k 4 (uDisp w % 256) (uReg w)))) ∧
    (s.memReady k 0x0E → lk.owner = some (tidOf k) → (u.thread k).mem.any (fun m => m.space == 5 && m.reg == uDisp w % 256) = false →
      exec (.unlock c e t corr) s = .next (s.after
        ((u.startOp k { reg := uDisp w % 256, value := 0, space := 5, since := u.clk.core }).settleUnlocks k))) ∧
    (s.memReady k 0x0E → lk.owner ≠ some (tidOf k) → exec (.unlock c e t corr) s = .next (s.after (u.threadFault k))) ∧
    (s.memReady k 0x0F → (u.ust (engUid k) ≠ 5 ∨ (u.jobOf k).isSome = true) → exec (.jobrd c e t corr) s = .next (s.after
      ((u.setCluster m { u.cluster m with waiting := (u.cluster m).waiting ++ [tidOf k] }).beginWait k 2 0 (uReg w)))) ∧
    (s.memReady k 0x0F → u.ust (engUid k) = 5 → u.jobOf k = none → exec (.jobrd c e t corr) s = .next (s.after
      (u.stallNoted ((u.setThread k { u.thread k with st := 0 }).closeSample k) m))) ∧
    (∀ lecc b y (j : OutJob), s.memReady k 0x10 → u.localRead k a 32 lecc = (some b, y) → y.jobOf k = some j →
      let r := (List.range 4).map fun i => leNat (sliceBytes b (8 * i) 8)
      y.endingOk r j.job.win.length = true →
      let x := y.setThread k { y.thread k with job := none }
      (endKind r = 4 → exec (.jobend c e t lecc corr) s =
        .next (s.after ((x.endJob m j).dropCluster (endCode r) m j.seq j.job.pkt))) ∧
      (endKind r ≠ 4 → exec (.jobend c e t lecc corr) s = .next (s.after (x.setCluster m { x.cluster m with
        outst := (x.cluster m).outst.map fun y => if y = j then { y with thread := none, ending := some r } else y })))) ∧
    (∀ lecc b y (j : OutJob), s.memReady k 0x10 → u.localRead k a 32 lecc = (some b, y) → y.jobOf k = some j →
      y.endingOk ((List.range 4).map fun i => leNat (sliceBytes b (8 * i) 8)) j.job.win.length = false →
      exec (.jobend c e t lecc corr) s = .next (s.after ((y.abortJob k 0x3B).restart k))) ∧
    (∀ lecc y, s.memReady k 0x10 → u.localRead k a 32 lecc = (none, y) →
      exec (.jobend c e t lecc corr) s = .next (s.after (y.threadFault k))) ∧
    (s.memReady k 0x11 → exec (.sadd c e t corr) s = .next (s.after ((u.writeS k (uDisp w % 16) true
      (u.operand k (uReg w))).startLoad k (uReg w) 3 (u.sreg m (uDisp w % 16)))))

/-- Link faults, training and debounce move a port through its link states. While the device runs: a fault of an UP
port stops its transmission and makes it SUSPECT with the fault as its reason, or DOWN at once when DOWN_US is 0; in
TRAINED it goes DOWN and the attempt is counted; a lane that leaves Active gives a SUSPECT or DOWN port the reason
LANE and takes a training or TRAINED one DOWN (a local fault starts the sending of remote fault, its end ends it); a
fault that clears in SUSPECT, with every lane in order, makes the port UP again, and it sends again; in SUSPECT the
end of DOWN_US declares it down; signal on a DOWN port whose lanes are in order starts training; a finished training
makes it TRAINED, and UP at once when UP_MS is 0, unless the link partner's mode does not match under autonegotiation
(a standby, which comes up from reception alone, looks at neither that nor a remote fault); a training past its limit,
counted from the moment every lane had signal, goes DOWN and is counted (a local fault, too); signal on the last lane
of a port in training starts that limit anew; in TRAINED the end of UP_MS declares it up; and the hold of a port still
not up ends HOLD_US after it went down. -/
def Obligations.LinksFollowTheirStates : Prop :=
  (∀ (s : State) (p reason : Nat), s.running = true →
    let l := s.laneLoss p reason
    l.portExists p = true →
    (l.twin.squelched = true → reason = 6 → exec (.linkFault p reason) s = .next (s.after l)) ∧
    ((l.twin.squelched = false ∨ reason ≠ 6) →
    (l.linkState p = 3 →
      let b := (l.txBegin p).faultSeen p reason
      let u := ((b.setLink p 4 reason).setPort p { b.port p with faultReason := reason, since := b.ns }).txCut p
      exec (.linkFault p reason) s =
        .next (s.after (if u.mac p F.PORT_DEBOUNCE_DOWN_US = 0 then u.linkDown p reason else u))) ∧
    (l.linkState p = 2 → reason ≠ 8 → exec (.linkFault p reason) s =
      .next (s.after (((l.faultSeen p reason).quietDown p reason).portCtr p 34 1))) ∧
    (l.linkState p = 4 → reason = 8 →
      let b := l.faultSeen p 8
      exec (.linkFault p reason) s =
        .next (s.after ((b.setMac p F.PORT_STATUS_DOWN_REASON 8).setPort p { b.port p with faultReason := 8 }))) ∧
    (l.linkState p = 5 → reason = 8 → exec (.linkFault p reason) s =
      .next (s.after ((l.faultSeen p 8).setMac p F.PORT_STATUS_DOWN_REASON 8))) ∧
    ((l.linkState p = 1 ∨ l.linkState p = 2) → reason = 8 → exec (.linkFault p reason) s =
      .next (s.after ((l.faultSeen p 8).quietDown p 8))))) ∧
  (∀ (s : State) (p : Nat), s.running = true → s.linkState p = 4 → (s.portLanes p).all s.laneOk = true →
    let u := s.each (s.portLanes p) fun s u =>
      ((s.setF u F.LANE_STATUS_SIGNAL 1).setF u F.LANE_STATUS_CDR_LOCK 1).setF u F.LANE_STATUS_ADAPTED 1
    exec (.linkFaultClear p) s = .next (s.after
      ((((u.setLink p 3 0).setPort p { u.port p with faultReason := 0, since := u.ns }).faultOver p).txBegin p))) ∧
  (∀ (s : State) (p : Nat), s.running = true → s.linkState p = 4 →
    let u := s.reach ((s.port p).since + s.mac p F.PORT_DEBOUNCE_DOWN_US * 1000)
    exec (.downDebounceExpire p) s = .next (s.after (u.linkDown p (u.port p).faultReason))) ∧
  (∀ (s : State) (p : Nat), s.running = true → s.portExists p = true →
    let u := s.each (s.portLanes p) fun s u => s.setF u F.LANE_STATUS_SIGNAL 1
    s.linkState p = 5 → u.linkState p = 5 → (u.portLanes p).all (fun l => u.laneOk l && u.getF l F.LANE_STATUS_SIGNAL == 1) = true →
    exec (.signalDetect p) s = .next (s.after (u.training p))) ∧
  (∀ (s : State) (p : Nat), s.running = true → s.portExists p = true → s.linkState p = 1 → s.allSignal p = false →
    let x := s.setPort p { s.port p with since := s.ns }
    exec (.signalDetect p) s = .next (s.after ((x.each (x.portLanes p) fun s u => s.setF u F.LANE_STATUS_SIGNAL 1).retrain p))) ∧
  (∀ (s : State) (p : Nat), s.running = true → s.linkState p = 1 →
    let u := s.each (s.portLanes p) fun s u =>
      ((s.setF u F.LANE_STATUS_SIGNAL 1).setF u F.LANE_STATUS_CDR_LOCK 1).setF u F.LANE_STATUS_ADAPTED 1
    let x := (u.setLink p 2 (u.mac p F.PORT_STATUS_DOWN_REASON)).faultOver p
    exec (.trainingDone p true) s = .next (s.after (if x.mac p F.PORT_DEBOUNCE_UP_MS = 0 then x.declareUp p else x)) ∧
    (s.twin.squelched = true →
      exec (.trainingDone p false) s = .next (s.after (if x.mac p F.PORT_DEBOUNCE_UP_MS = 0 then x.declareUp p else x))) ∧
    (s.mac p F.PORT_CTL_AN_EN = 1 → s.twin.squelched = false → exec (.trainingDone p false) s = .next (s.after
      ((s.setMac p F.PORT_STATUS_DOWN_REASON 7).setPort p { s.port p with faultReason := 7 })))) ∧
  (∀ (s : State) (p : Nat), s.running = true → s.linkState p = 1 →
    let u := s.reach ((s.port p).since + trainMax (s.macMode (p / 8)))
    let r := if (u.port p).faultReason = 7 then 7 else 4
    (s.allSignal p = true → exec (.trainingTimeout p) s = .next (s.after (((u.faultSeen p r).quietDown p r).portCtr p 34 1))) ∧
    (s.allSignal p = false → exec (.trainingTimeout p) s = .next (s.after s))) ∧
  (∀ (s : State) (p : Nat), s.running = true → s.linkState p = 2 → exec (.upDebounceExpire p) s =
    .next (s.after ((s.reach ((s.port p).since + s.mac p F.PORT_DEBOUNCE_UP_MS * 1000000)).declareUp p))) ∧
  (∀ (s : State) (p : Nat), s.running = true → s.mac p F.PORT_STATUS_HELD = 1 → s.linkState p ≠ 3 → exec (.holdExpire p) s =
    .next (s.after ((s.reach ((s.port p).tDown + s.mac p F.PORT_HOLD_HOLD_US * 1000)).holdOver p)))

/-- PORT_ADMIN_UP, PORT_ADMIN_DOWN, LANE_READAPT and the ends of a re-adaptation. An accepted write of PORT_CTL with
ADMIN_UP 1 brings the port up from OFF, one that clears it takes the port down; an accepted write of
LANE_ADAPT.READAPT starts a re-adaptation of the lane, be it of a port or of the twin; while the device runs, a
re-adaptation that ends in time clears READAPT and leaves ADAPTED 1, and one past 20 ms clears both and raises
EVT_LANE_READAPT for the lane. -/
def Obligations.AdminAndAdaptationCommands : Prop :=
  (∀ (s : State) (m p : Nat),
    let u := uMAC (p / 8)
    let f := F.PORT_CTL_ADMIN_UP.i (p % 8)
    let v := setBitsOf (s.regView u f.off) f.lo f.w 1
    p < 256 → s.writeOk m u f.off v → (s.stored m u f.off v).mac p F.PORT_CTL_ADMIN_UP = 1 →
    exec (.portAdminUp m p) s = .next ((s.stored m u f.off v).adminUp p).ended) ∧
  (∀ (s : State) (m p : Nat),
    let u := uMAC (p / 8)
    let f := F.PORT_CTL_ADMIN_UP.i (p % 8)
    let v := setBitsOf (s.regView u f.off) f.lo f.w 0
    p < 256 → s.writeOk m u f.off v → (s.seen m (4096 * u + f.off)).mac p F.PORT_CTL_ADMIN_UP = 1 →
    (s.stored m u f.off v).mac p F.PORT_CTL_ADMIN_UP = 0 →
    exec (.portAdminDown m p) s = .next ((s.stored m u f.off v).adminDown p).ended) ∧
  (∀ (s : State) (m u : Nat),
    let v := setBitsOf (s.regView u F.LANE_ADAPT_READAPT.off) F.LANE_ADAPT_READAPT.lo F.LANE_ADAPT_READAPT.w 1
    (kindOf u = some .lane ∨ kindOf u = some .twinLane) → s.writeOk m u F.LANE_ADAPT_READAPT.off v →
    exec (.laneReadapt m u) s = .next ((s.stored m u F.LANE_ADAPT_READAPT.off v).readapt u).ended) ∧
  (∀ (s : State) (u : Nat), s.running = true → s.getF u F.LANE_ADAPT_READAPT = 1 →
    exec (.laneReadaptDone u) s = .next (s.after ((s.setF u F.LANE_ADAPT_READAPT 0).setF u F.LANE_STATUS_ADAPTED 1)) ∧
    (let b := (u - 0x200) / 16
     let x := s.reach (s.adaptBegan u + 20000000)
     exec (.readaptTimeout u) s = .next (s.after (((x.setF u F.LANE_ADAPT_READAPT 0).setF u F.LANE_STATUS_ADAPTED 0).event 0x10
       (if u < 0x200 then 0x420 else 0x100 + 8 * b + (u % 16 - 1)) u 0 0))))

/-- PAUSE_EXPIRE, PAUSE_REPEAT, PFC_WATCHDOG_EXPIRE and PFC_WATCHDOG_IGNORE_END. While the device runs: a pause of a
port or priority ends when its quanta have passed, and the next frame starts; while XOFF is out the MAC repeats it
with full quanta when half of them have passed; a priority paused WD_MS long is let go, ignores further pauses for
WD_MS, is counted and raises EVT_PFC_WATCHDOG; and that ignoring ends when its time comes. -/
def Obligations.FlowControlTimers : Prop :=
  (∀ (s : State) (p r : Nat), s.running = true →
    let t := (s.port p).pauseTill.get (fun _ => 0) r
    t ≠ 0 →
    let u := s.reach t
    exec (.pauseExpire p r) s = .next (s.after ((u.setPort p { u.port p with
      pauseTill := (u.port p).pauseTill.put (fun _ => 0) r 0, pauseAt := (u.port p).pauseAt.put (fun _ => 0) r 0 }).txBegin p))) ∧
  (∀ (s : State) (p r : Nat), s.running = true →
    (if r = 8 then s.mac p F.PORT_CTL_FC_MODE = 1 ∧ s.mac p F.PORT_STATUS_TX_XOFF = 0xFF
     else s.mac p F.PORT_CTL_FC_MODE = 2 ∧ bitsOf (s.mac p F.PORT_STATUS_TX_XOFF) r 1 = 1 ∧
       bitsOf (s.mac p F.PORT_PFC_TX_EN) r 1 = 1) →
    let u := (s.reach ((s.port p).xoffAt.get (fun _ => 0) r + ceilDiv (s.quantaNs p 0xFFFF) 2)).sendPause p r 0xFFFF
    exec (.pauseRepeat p r) s = .next (s.after (u.setPort p { u.port p with xoffAt := (u.port p).xoffAt.put (fun _ => 0) r u.ns }))) ∧
  (∀ (s : State) (p r : Nat), s.running = true →
    let wd := s.mac p F.PORT_PFC_WD_WD_MS * 1000000
    let x := s.port p
    let due := x.pauseAt.get (fun _ => 0) r + wd
    wd ≠ 0 → due < x.pauseTill.get (fun _ => 0) r →
    let u := (s.reach due).setPort p { x with
      pauseTill := x.pauseTill.put (fun _ => 0) r 0, pauseAt := x.pauseAt.put (fun _ => 0) r 0
      ignoreTill := x.ignoreTill.put (fun _ => 0) r ((s.reach due).ns + wd) }
    exec (.pfcWatchdogExpire p r) s = .next (s.after
      (((u.portCtr p 33 1).event 0x14 p (uMAC (p / 8)) ((if r = 8 then 0 else r) * 256 + p) 0).txBegin p))) ∧
  (∀ (s : State) (p r : Nat), s.running = true →
    let t := (s.port p).ignoreTill.get (fun _ => 0) r
    t ≠ 0 →
    let u := s.reach t
    exec (.pfcWatchdogIgnoreEnd p r) s = .next (s.after (u.setPort p { u.port p with
      ignoreTill := (u.port p).ignoreTill.put (fun _ => 0) r 0 })))

/-- RESET, TEST, ADMIT, DRAIN, RETIRE and ISOLATE act on a unit that Table 7 lets take them. An accepted write of
UCB_CMD of a leaf by PF0 or the warden, where Table 7 accepts the command, answers a next state: RESET makes the unit
Reset with its class U registers and working state at their reset values and runs, from now on, in
UCB_CMD_STATUS.BUSY; TEST makes it Test and runs; ADMIT makes it Active and ends DONE; DRAIN makes it Draining and
runs, or ends DONE at once for lanes, table and CAM banks and LRN; RETIRE and ISOLATE discard what it holds, make it
Retired or set ISOLATED, and end DONE. On a group each begins with the group's own part (RESET its own registers,
ISOLATE its ISOLATED; a cluster leaves service) and runs over its children, a DRAIN in drain order. Any of the six
that Table 7 refuses, for a leaf or a group, only reports its result. -/
def Obligations.UnitCommandsBeginOnLeaves : Prop :=
  ∀ (s : State) (m u tag cmd : Nat), s.writeOk m u 0x10 (tag % 256 * 256 + cmd) →
    let x := s.stored m u 0x10 (tag % 256 * 256 + cmd)
    let run : URun := ⟨u, cmd, tag % 256, [], none, x.ns, none⟩
    let begun (t : State) : Host.Outcome State Fault Refusal :=
      .next (t.setRun ⟨u, cmd, tag % 256, [], some u, t.ns, none⟩).ended
    let spread : Host.Outcome State Fault Refusal := .next ((x.groupBegin run u).setRun { run with
      stack := [⟨u, if cmd = 4 then drainOrder u else children u, none, x.ns, false⟩] }).ended
    let told : Host.Outcome State Fault Refusal := .next (x.finish run u (x.cmdResult u cmd) 0).ended
    (isGroup u = false →
    (cmd = 1 → x.cmdResult u 1 = 0 → exec (.reset m u tag) s =
      begun ((((x.setUst u 1).resetUnit u).setF u F.UCB_STATE_STATE 1).stampState u)) ∧
    (cmd = 2 → x.cmdResult u 2 = 0 → exec (.test m u tag) s = begun (x.setUst u 2)) ∧
    (cmd = 3 → x.cmdResult u 3 = 0 → exec (.unitAdmit m u tag) s = .next ((x.admitUnit u).finish run u 0 0).ended) ∧
    (cmd = 4 → x.cmdResult u 4 = 0 → drainsAtOnce u = false → exec (.drain m u tag) s = begun (x.drainUnit u)) ∧
    (cmd = 4 → x.cmdResult u 4 = 0 → drainsAtOnce u = true → exec (.drain m u tag) s =
      .next (((x.drainUnit u).drained u).finish run u 0 0).ended) ∧
    (cmd = 5 → x.cmdResult u 5 = 0 → exec (.retire m u tag) s = .next ((x.retireUnit u).finish run u 0 0).ended) ∧
    (cmd = 6 → x.cmdResult u 6 = 0 → exec (.isolate m u tag) s = .next ((x.isolateUnit u).finish run u 0 0).ended)) ∧
    (isGroup u = true → x.cmdResult u cmd = 0 →
      (cmd = 1 → exec (.reset m u tag) s = spread) ∧
      (cmd = 2 → exec (.test m u tag) s = spread) ∧
      (cmd = 3 → exec (.unitAdmit m u tag) s = spread) ∧
      (cmd = 4 → exec (.drain m u tag) s = spread) ∧
      (cmd = 5 → exec (.retire m u tag) s = spread) ∧
      (cmd = 6 → exec (.isolate m u tag) s = spread)) ∧
    (x.cmdResult u cmd ≠ 0 →
      (cmd = 1 → exec (.reset m u tag) s = told) ∧
      (cmd = 2 → exec (.test m u tag) s = told) ∧
      (cmd = 3 → exec (.unitAdmit m u tag) s = told) ∧
      (cmd = 4 → exec (.drain m u tag) s = told) ∧
      (cmd = 5 → exec (.retire m u tag) s = told) ∧
      (cmd = 6 → exec (.isolate m u tag) s = told))

/-- RESET, TEST and DRAIN of a leaf end, and a group goes on to its next child. While the device runs: a RESET that
ends in time makes a unit that is no lane and no DMC Ready and DONE, one past tRESET Retired with TIMEOUT at that
time; a TEST that finds no failing check (no engine, no failing row) makes it Ready with DONE and PASS 1 and CODE 0,
one past tTEST Retired with TIMEOUT and PASS 0; a Draining unit that holds nothing becomes Ready and its DRAIN DONE;
at UCB_DRAIN_LIMIT the command ends DRAIN_LIMIT and the unit stays as it is; a group whose current child has ended
well applies its command to the next child it does not skip, and with none left ends DONE (a draining cluster begins
with its first child only once its router is empty; RETIRE or ISOLATE of a cluster discards what its router holds). -/
def Obligations.UnitCommandsEnd : Prop :=
  ∀ (s : State) (u : Nat), s.running = true →
    (∀ (run : URun) (cfg train : Nat), s.leafRun u 1 = some run → ([Kind.lane, .twinLane, .dmc].map some).contains (kindOf u) = false →
      exec (.unitResetDone u false cfg train) s = .next (s.after ((s.setUst u 3).finish run u 0 0)) ∧
      exec (.unitResetDone u true cfg train) s =
        .next (s.after (((s.reach (run.since + tReset u)).setUst u 6).finish run u 5 0))) ∧
    (∀ run : URun, s.leafRun u 2 = some run → kindOf u ≠ some .engine →
      let told (t : State) : State := (t.setF u F.UCB_TEST_RESULT_DONE 1).setF u F.UCB_TEST_RESULT_PASS 0
      exec (.unitTestDone u 0 [] false) s = .next (s.after (((((told s).setF u F.UCB_TEST_RESULT_PASS 1).setF
        u F.UCB_TEST_RESULT_CODE 0).setUst u 3).finish run u 0 0)) ∧
      exec (.unitTestDone u 0 [] true) s = .next (s.after (((told (s.reach (run.since + tTest u))).setUst u 6).finish run u 5 0))) ∧
    (∀ run : URun, isGroup u = false → s.ust u = 5 → s.holds u = false → (s.drained u).leafRun u 4 = some run →
      exec (.unitDrainDone u) s = .next (s.after ((s.drained u).finish run u 0 0))) ∧
    (∀ run : URun, s.leafRun u 4 = some run → exec (.drainLimitExpire u) s =
      .next (s.after ((s.reach (run.since + s.getF u F.UCB_DRAIN_LIMIT_LIMIT_US * 1000)).finish run u 7 0))) ∧
    (∀ (run : URun) (f : UFrame) (rest : List Nat) (up : List UFrame) (c : Nat), s.runOf u = some run → run.stack = f :: up →
      f.failed = none → run.leaf = none → run.ended = none →
      (run.cmd = 4 → kindOf f.uid = some .cluster → f.passed = false → s.routerBusy f.uid = false) →
      f.todo.dropWhile (s.skips run.cmd) = c :: rest →
      exec (.groupCmdAdvance u) s = .next (s.after
        (s.applyCmd { run with stack := { f with todo := rest, passed := true } :: up, ended := none } c))) ∧
    (∀ (run : URun) (f : UFrame) (up : List UFrame), s.runOf u = some run → run.stack = f :: up →
      f.failed = none → run.leaf = none → run.ended = none →
      (run.cmd = 4 → kindOf f.uid = some .cluster → f.passed = false → s.routerBusy f.uid = false) →
      f.todo.dropWhile (s.skips run.cmd) = [] →
      let t := if kindOf f.uid = some .cluster ∧ 5 ≤ run.cmd then s.discardRouter ((f.uid - 0x400) / 64) else s
      exec (.groupCmdAdvance u) s = .next (s.after (t.finish { run with stack := up, ended := none } f.uid 0 0)))

/-- PLN, WDN, HIF, FLT and TAL refuse every command, and so does a unit the device mode holds Off. For every state,
unit, command 1 to 6 and tag: a command to PLN, WDN, HIF, FLT or TAL ends with result 0x04 (REFUSED_KIND) and a
command to any other unit that the device mode holds Off ends with 0x03 (REFUSED_MODE): its result and tag are written
and EVT_UNIT_CMD raised, and nothing else happens. -/
def Obligations.UnitsThatRefuseEveryCommand : Prop :=
  ∀ (s : State) (u cmd tag : Nat), 1 ≤ cmd → cmd ≤ 6 → (kindOf u).isSome = true →
    ([Kind.pln, .wdn, .hif, .flt, .tal].map some).contains (kindOf u) = true ∨ s.modeOff u = true →
    s.unitCmd u cmd tag = s.finish ⟨u, cmd, tag, [], none, s.ns, none⟩ u
      (if ([Kind.pln, .wdn, .hif, .flt, .tal].map some).contains (kindOf u) then 4 else 3) 0

/-- An accepted write stores the register and makes its effect; a rejected one only raises EVT_RANGE; a read returns
the view. REGISTER_WRITE of 4 bytes that no check rejects merges the word field by field by access code and makes its
effect; DEV_SETUP_LOCK by PF0 sets LOCK, and the first time extends MEAS6; a write that a check rejects changes no
register and raises EVT_RANGE with the address, master, reason and data. A 4-byte read of a register of a powered unit
returns what it reads and makes its read effect only (LATCHING_READ holds the other half, RC_READ clears the fields of
access RC, SAMPLER_DATA_READ of ENG_SAMP_DATA_HI steps the index). Every access is counted (R362). -/
def Obligations.RegisterAccesses : Prop :=
  ∀ (s : State) (m u off v : Nat),
    (s.writeOk m u off v → exec (.registerWrite m 0 (4096 * u + off) 4 v) s = .next (s.wrote m u off v).ended) ∧
    (s.writeOk 1 uDEV 0x100 1 → (s.seen 1 (4096 * uDEV + 0x100)).bit uDEV F.DEV_SETUP_LOCK_LOCK = true →
      exec (.devSetupLock 1) s = .next (s.stored 1 uDEV 0x100 1).ended) ∧
    (s.writeOk 1 uDEV 0x100 1 → (s.seen 1 (4096 * uDEV + 0x100)).bit uDEV F.DEV_SETUP_LOCK_LOCK = false →
      exec (.devSetupLock 1) s = .next (s.stored 1 uDEV 0x100 1).measureLock.ended) ∧
    (s.running = true → s.reaches m = true → m ≤ 4 → u < 2 ^ 14 → off < 4096 → off % 4 = 0 → v < 2 ^ 32 →
      let x := s.seen m (4096 * u + off)
      x.domainOff u off = false → x.bar0Reason m u off v ≠ 0 → exec (.registerWrite m 0 (4096 * u + off) 4 v) s =
        .next (x.evtRange 0 (4096 * u + off) m (x.bar0Reason m u off v) v).ended) ∧
    (s.running = true → s.reaches m = true → m ≤ 4 → u < 2 ^ 14 → off < 4096 → off % 4 = 0 → (kindOf u).isSome = true →
      let x := s.occur uHIF 0x100 0 (some m) (4096 * u + off) 1
      x.domainOff u off = false →
        let t := (.next ((x.readEffect u off).send (.data (x.regView u off % 2 ^ 32))).ended : Host.Outcome State Fault Refusal)
        exec (.latchingRead m 0 (4096 * u + off) 4) s = t ∧ exec (.rcRead m 0 (4096 * u + off) 4) s = t) ∧
    (∀ c e : Nat, s.running = true → s.reaches m = true → m ≤ 4 → c < 16 → e < 17 →
      let u := uENG c e
      let x := s.occur uHIF 0x100 0 (some m) (4096 * u + 0x310) 1
      x.domainOff u 0x310 = false → exec (.samplerDataRead m c e) s =
        .next (((x.addF u F.ENG_SAMP_IDX_INDEX 1)).send (.data (x.regView u 0x310 % 2 ^ 32))).ended)

/-- A read of a free claim grants it, the owner reads 0, others the owner's number; a peek never grants. For every
state in which the device runs, every master whose function takes accesses and every claim k of 0 to 63 (CLAIM_k at 4k
and CLAIM_PEEK_k at 0x100 + 4k of BAR2; the warden reaches the same registers): a 4-byte read of CLAIM_k that is free
grants it to the reader from now on and returns 0; held by the reader it returns 0 and by another master 0x8000 ORed
with the owner's number, and grants nothing; CLAIM_PEEK_k returns 0 when free and 0x8000 ORed with the owner's number
when held, and grants nothing. The access is counted (R362). -/
def Obligations.ClaimsGrantAndPeek : Prop :=
  ∀ (s : State) (m k : Nat), s.running = true → s.reaches m = true → (m = 0 ∨ masters.contains m = true) → k < 64 →
    let x := s.occur uHIF 0x100 2 (some m) (4 * k) 1
    let y := s.occur uHIF 0x100 2 (some m) (0x100 + 4 * k) 1
    (x.claim k = none → exec (.claimRead m k) s = .next ((x.setClaim k (some ⟨m, x.ns⟩)).send (.data 0)).ended) ∧
    (∀ c, x.claim k = some c → c.owner = m → exec (.claimRead m k) s = .next (x.send (.data 0)).ended) ∧
    (∀ c, x.claim k = some c → c.owner ≠ m → c.owner < 2 ^ 31 →
      exec (.claimRead m k) s = .next (x.send (.data (0x8000 ||| c.owner))).ended) ∧
    (y.claim k = none → exec (.latchingRead m 2 (0x100 + 4 * k) 4) s = .next (y.send (.data 0)).ended) ∧
    (∀ c, y.claim k = some c → c.owner < 2 ^ 31 →
      exec (.latchingRead m 2 (0x100 + 4 * k) 4) s = .next (y.send (.data (0x8000 ||| c.owner))).ended)

/-- FLR, its end, VF Enable and the host links clear the functions they reach. While the device runs: FLR of an
enabled function with none in progress clears it and, for a PF, its VFs (registers of class F, rings, claims), sets
FLR_ACTIVE and starts its time; FLR_END makes its stopped rings Disabled, clears FLR_ACTIVE and raises EVT_FLR_DONE on
PF0 (for PF0 itself the warden is told too); clearing VF Enable, where a VF of the PF is enabled, clears each and
disables it; a host link that goes down clears every PF on it, reads width and rate 0, tells the warden and, with
split links, raises EVT_HOST_LINK_DOWN on the first PF of the other; one that comes up reads its width and rate. -/
def Obligations.FunctionsResetAndLinksFollow : Prop :=
  ∀ (s : State) (m : Nat), s.running = true →
    (masters.contains m = true → s.fnEnabled m = true → s.getFS uHIF m F.HIF_FN_STATUS_FLR_ACTIVE ≠ 1 →
      let x := (s.clearTree m).setFS uHIF m F.HIF_FN_STATUS_FLR_ACTIVE 1
      exec (.flr m) s = .next (s.after (x.modHif fun h => { h with flr := x.hif.flr ++ [(m, x.ns)] }))) ∧
    (s.getFS uHIF m F.HIF_FN_STATUS_FLR_ACTIVE ≠ 0 →
      let x := (s.stopRings m).setFS uHIF m F.HIF_FN_STATUS_FLR_ACTIVE 0
      let y := x.modHif fun h => { h with flr := x.hif.flr.filter fun y => y.1 != m }
      exec (.flrEnd m) s = .next (s.after
        ((if m = 1 then y.send (.warden (y.eventRec 0x07 0xFFF uHIF m 0)) else y).eventFn 1 0x07 uHIF m 0))) ∧
    (1 ≤ m → m ≤ 4 → s.pwr.mode ≠ 1 → s.pwr.mode ≠ 3 → (vfsOf (m - 1)).any s.fnEnabled = false → exec (.vfEnableClear m) s = .next s.ended) ∧
    (1 ≤ m → m ≤ 4 → s.pwr.mode ≠ 1 → s.pwr.mode ≠ 3 → (vfsOf (m - 1)).any s.fnEnabled = true → exec (.vfEnableClear m) s =
      .next (s.each (vfsOf (m - 1)) fun s v => ((s.clearFn v).stopRings v).setFS uHIF v F.HIF_FN_STATUS_VF_EN 0).ended) ∧
    (s.bit uHIF F.HIF_LINK_SPLIT = true →
      let x := ((s.each [1, 2] fun s m => (s.clearTree m).stopRings m).setF uHIF F.HIF_LINK_WIDTH0 0).setF uHIF F.HIF_LINK_GEN0 0
      x.bit uHIF F.HIF_LINK_SPLIT = true → exec (.hostLinkDown 0) s = .next (s.after
        ((x.send (.warden (x.eventRec 0x04 0xFFF uHIF 0 0))).eventFn 3 0x04 uHIF 0 0))) ∧
    (s.bit uHIF F.HIF_LINK_SPLIT = true →
      let x := ((s.each [3, 4] fun s m => (s.clearTree m).stopRings m).setF uHIF F.HIF_LINK_WIDTH1 0).setF uHIF F.HIF_LINK_GEN1 0
      x.bit uHIF F.HIF_LINK_SPLIT = true → exec (.hostLinkDown 1) s = .next (s.after
        ((x.send (.warden (x.eventRec 0x04 0xFFF uHIF 1 0))).eventFn 1 0x04 uHIF 1 0))) ∧
    (∀ gen width, 1 ≤ gen → gen ≤ 5 → [1, 2, 4, 8].contains width = true →
      exec (.hostLinkUp 0 gen width) s = .next (s.after ((s.setF uHIF F.HIF_LINK_WIDTH0 width).setF uHIF F.HIF_LINK_GEN0 gen)) ∧
      (s.bit uHIF F.HIF_LINK_SPLIT = true →
        exec (.hostLinkUp 1 gen width) s = .next (s.after ((s.setF uHIF F.HIF_LINK_WIDTH1 width).setF uHIF F.HIF_LINK_GEN1 gen))))

/-- RING_SIZE enables and disables a ring; flush, write-back and interrupt timers end at their time. An accepted write
of another value to RING_SIZE enables the selected ring (running from index 0, armed if its interrupt is enabled, its
backlog drained) or disables it: Flushing, unstarted descriptors FLUSHED, SQs that report to it halt with CQ_OFF. A
Flushing ring with nothing left becomes Disabled; at tFLUSH (60 ms) what is not written is counted in the reporting
ring's LOST_COUNT; WRITE_BACK writes the index; a completion that waited tCQW (1 ms) halts its SQ with CQ_FULL; the
moderation timer interrupts with the vector and at the time that held when the latest entry became pending. -/
def Obligations.RingsStartAndStop : Prop :=
  ∀ (s : State) (m r n : Nat),
    (s.writeOk m uHIF 0x108 n → (s.seen m (4096 * uHIF + 0x108)).selOf uHIF 0x108 = r →
      n ≠ (s.seen m (4096 * uHIF + 0x108)).ringLog r →
      let t := (s.stored m uHIF 0x108 n).setFS uHIF r F.RING_SIZE_RING_LOG2 ((s.seen m (4096 * uHIF + 0x108)).ringLog r)
      (n ≠ 0 → exec (.ringEnable m n) s = .next (t.enableRing r n).ended) ∧
      (n = 0 → exec (.ringDisable m) s = .next (t.disableRing r).ended)) ∧
    (s.running = true →
      (s.ringState r = 4 → (s.ring r).descs = [] → (s.unread r = 0 ∨ s.reportUp r = false) →
        exec (.ringFlushEnd r) s = .next (s.after (s.ringDisabled r))) ∧
      (∀ t0, (s.ring r).flushAt = some t0 → s.ringState r = 4 →
        let x := s.reach (t0 + 60000000)
        (x.ring r).flr = false → exec (.ringFlushTimeout r) s = .next (s.after ((x.addFS uHIF (x.getFS uHIF r F.RING_CQ_CQ) F.RING_LOST_COUNT
          ((x.ring r).descs.length + if x.reportUp r then x.unread r else 0)).ringDisabled r))) ∧
      (s.ringOn r = true → s.fnLive ((s.ringOwner r).getD 0) = true → exec (.writeBack r) s = .next (s.after (s.writeBack r))) ∧
      (∀ t0, (s.ring r).fullAt = some t0 → (s.ringState r = 1 ∨ s.ringState r = 2) →
        exec (.cqWaitTimeout r) s = .next (s.after ((s.reach (t0 + 1000000)).haltRing r 2))) ∧
      (s.ringOn r = true → (s.ring r).armed = true → (s.ring r).pend ≠ 0 → exec (.ringModTimer r) s =
          .next (s.after ((s.reach ((s.ring r).pendAt + (s.ring r).time * 1000)).ringInterrupt r (s.ring r).vec))))

/-- Doorbells move a ring's host index; descriptors are read, checked and completed in ring order. A doorbell that no
check of R74 rejects moves the ring's host index (a parked chain goes on; a CQ doorbell lets waiting completions out
and arms), a rejected one raises EVT_RANGE with the reason, one past the function's doorbells with RSVD_BIT.
DESCRIPTOR_READ of a running array-mode ring takes the next descriptor, advances DEV_INDEX modulo 2^(n+1), completes
it at once with the status of the first check of R76 that decides, and writes the index back on every 16th descriptor
or when none is left; CHAIN_REREAD goes on when END is clear; when it is still set it halts the ring with a completion
of status LINK (whose TAG the model chooses to be 0, log entry 72). -/
def Obligations.DoorbellsAndDescriptors : Prop :=
  ∀ (s : State), s.running = true →
    (∀ (m i v link : Nat) (ok : Bool), masters.contains m = true → s.reaches m = true → i < doorbells m →
      let x := s.occur uHIF 0x101 2 (some m) (0x10000 + 8 * i) 1
      let y := x.occur uHIF 0x102 0 (some m) (0x10000 + 8 * i) 1
      x.running = true → x.fnLive m = true →
        (∀ r, y.localRing m i = some r → y.doorbellReason (some r) v = 0 → ringClass (y.ringType r) = 1 →
          exec (.doorbellSq m i v link ok) s = .next (y.bellSq r (v % 2 ^ 17) link ok).ended) ∧
        (∀ r, y.localRing m i = some r → y.doorbellReason (some r) v = 0 → ringClass (y.ringType r) ≠ 1 →
          exec (.doorbellCq m i v) s = .next (y.bellCq r (v % 2 ^ 17) (bitsOf v 31 1 == 1)).ended) ∧
        (∀ k, doorbells m ≤ k → 0x10000 + 8 * k < bar2Size m →
          let x := s.occur uHIF 0x101 2 (some m) (0x10000 + 8 * k) 1
          let y := x.occur uHIF 0x102 0 (some m) (0x10000 + 8 * k) 1
          x.running = true → x.fnEnabled m = true → x.fnLive m = true →
          exec (.doorbellSq m k v link ok) s = .next (y.evtRange 2 (0x10000 + 8 * k) m 2 v).ended) ∧
        (y.doorbellReason (y.localRing m i) v ≠ 0 → exec (.doorbellSq m i v link ok) s =
          .next (y.evtRange 2 (0x10000 + 8 * i) m (y.doorbellReason (y.localRing m i) v) v).ended)) ∧
    (∀ (r w0 w1 w2 w3 : Nat), s.ringState r = 1 → s.ringRead r = true → s.unread r ≠ 0 → (s.ring r).flr = false →
      s.fnLive ((s.ringOwner r).getD 0) = true →
      let d : Desc := { w0 := w0 % 2 ^ 64, w1 := w1 % 2 ^ 64, w2 := w2 % 2 ^ 64, w3 := w3 % 2 ^ 64, idx := s.ringIndex r,
                        seq := s.hif.reads, comp := (s.descCheck r w0 w1 w2 w3).map (comp · 0 0) }
      let a := (s.modHif fun h => { h with reads := s.hif.reads + 1 }).setFS uHIF r F.RING_STATUS_DEV_INDEX
        ((s.ringIndex r + 1) % 2 ^ ((s.ring r).log + 1))
      s.getFS uHIF r F.RING_CFG_MODE = 0 →
        let b := a.setRing r { s.ring r with descs := (s.ring r).descs ++ [d], sinceWb := (s.ring r).sinceWb + 1
                                             tail := (s.ring r).next, endSeen := false }
        let c := if 16 ≤ (s.ring r).sinceWb + 1 ∨ b.unread r = 0 then b.writeBack r else b
        a.getFS uHIF r F.RING_CFG_MODE = 0 →
          exec (.descriptorRead r w0 w1 w2 w3 true) s = .next (s.after (c.flushComps ((c.ring r).descs.length + 1) r)) ∧
          exec (.descriptorRead r w0 w1 w2 w3 false) s = .next (s.after (s.haltRing r 1))) ∧
    (∀ (r t0 link : Nat), (s.ring r).reread = some t0 → link % 2 = 0 → ∀ ok : Bool, exec (.chainReread r link ok) s =
      .next (s.after (((s.reach (t0 + 1000)).modRing r fun x => { x with reread := none }).unpark r link ok))) ∧
    (∀ (r t0 link : Nat), (s.ring r).reread = some t0 → link % 2 = 1 →
      let x := s.reach (t0 + 1000)
      let d : Desc := { w0 := 0, w1 := 0, w2 := 0, w3 := 0, idx := x.ringIndex r, comp := some (comp 9 0 0) }
      let y := ((x.setRing r { x.ring r with descs := (x.ring r).descs ++ [d] }).setFS uHIF r F.RING_STATUS_DEV_INDEX
        ((x.ringIndex r + 1) % 2 ^ ((x.ring r).log + 1)))
      exec (.chainReread r link true) s =
        .next (s.after ((y.haltRing r 3).flushComps ((y.ring r).descs.length + 1) r)))

/-- NOP, FENCE, INJECT, BUFFER and CFG_WRITE run the oldest descriptor of their ring that has not begun. While the
device runs and the ring's next descriptor is d: NOP completes DONE; FENCE, once every earlier descriptor has taken
effect, writes plinth time to the host and puts a marker with its EVT_FENCE record of that time behind the records
made so far, and when those are written FENCE_DONE writes that record, completes, and lets the records held behind it
out, up to the next marker; INJECT_COURSE gives the padded frame to its course, which completes it once it is
admitted, and INJECT_QUEUE lets it enter row 32 toward its queue and completes with the length; BUFFER posts the
buffer; CFG_WRITE keeps its entries for the next boundary; a failed host read completes with READ_ERROR. -/
def Obligations.RingCommandsRun : Prop :=
  ∀ (s : State) (r : Nat) (d : Desc) (data : List Byte), s.running = true →
    (s.nextDesc r 0 = some d → exec (.nop r) s = .next (s.after (s.complete r d.idx (comp 0 0 0)))) ∧
    (s.nextDesc r 0xFE = some d → (∀ e ∈ (s.ring r).descs.takeWhile (fun e => e.idx != d.idx), e.effected = true) →
      let m := (s.ringOwner r).getD 0
      let x := (s.send (.hostWrite m d.w1 (leBytes s.ns 8))).setDesc r d.idx fun d => { d with begun := true }
      exec (.fence r) s = .next (s.after (x.modHif fun h => { h with
        held := x.hif.held ++ [.fence r m (x.eventRec 0x08 0xFFF uHIF (bitsOf d.w0 40 16) x.ns)] }))) ∧
    (∀ m e rest, s.hif.held = .fence r m e :: rest →
      let x := ((s.modHif fun h => { h with held := rest }).defaultTo m e).endBegun r 0xFE (comp 0 8 0)
      exec .fenceDone s = .next (s.after (x.letGo (2 * x.hif.held.length)))) ∧
    (s.nextDesc r 1 = some d → s.fwdOn = true → s.taking = true →
      let n := bitsOf d.w2 0 3
      [uADM n, uSIV n, uLKP n, uRSV n, uEGR n].any s.closed = false →
        exec (.injectCourse r data true) s = .next (s.after ((s.setCourse n { s.course n with
          inject := (s.course n).inject ++ [(⟨r, d.idx, d.len, padFrame (sliceBytes data 0 d.len)⟩ : Inject)] }).setDesc r d.idx
            fun d => { d with begun := true })) ∧
        exec (.injectCourse r data false) s = .next (s.after (s.complete r d.idx (comp 3 0 0)))) ∧
    (s.nextDesc r 2 = some d → s.fwdOn = true → s.taking = true → s.closed (uTMQ (bitsOf d.w2 0 18 / 65536)) = false →
      exec (.injectQueue r data true) s = .next (s.after ((s.enterRow32
        { frame := padFrame (sliceBytes data 0 d.len), tc := bitsOf d.w2 18 3, ptp := bitsOf d.w2 22 1 * 2 ^ 36, counted := false
          adm := { admitAt := s.ns, deadline := 500000, gen := s.getF (uADM 0) F.ADM_GEN_STATUS_GEN, pass := 1, host := true
                   port := s.injectPort (bitsOf d.w2 0 18), course := s.portCourse (s.injectPort (bitsOf d.w2 0 18)) } }
        { queue := bitsOf d.w2 0 18, src := 2, nhEn := bitsOf d.w2 21 1 == 1, nh := bitsOf d.w2 23 20 }).complete
          r d.idx (comp 0 d.len 0))) ∧
      exec (.injectQueue r data false) s = .next (s.after (s.complete r d.idx (comp 3 0 0)))) ∧
    (s.nextDesc r 8 = some d → exec (.buffer r) s = .next (s.after (s.setDesc r d.idx fun d => { d with wait := some s.ns }))) ∧
    (s.nextDesc r 0x30 = some d → s.isFollower = false →
      let x := s.setDesc r d.idx fun d => { d with begun := true }
      exec (.cfgWrite r data true) s = .next (s.after (x.modHif fun h => { h with
        cfg := x.hif.cfg ++ [(⟨r, d.idx, true, sliceBytes data 0 d.len⟩ : CfgSet)] })) ∧
      exec (.cfgWrite r data false) s = .next (s.after (s.complete r d.idx (comp 3 0 0))))

/-- Claims are released by owner, limit and nobody else; a crossing full for tXING and a lost warden are reported.
While the device runs: CLAIM_RELEASE by the owner frees the claim, a non-zero write of the owner raises EVT_RANGE with
reason VALUE and a write of anyone else with CLAIM_OWNER, and the claim stays; a claim held for
DEV_CLAIM_HOLD.LIMIT_MS is freed, and EVT_CLAIM_EXPIRED goes to the former owner's event ring (none for the warden).
CROSSING_TIMEOUT into a unit that takes entries takes the named entries out of the sender, drops each packet as
DROP_CROSSING, counts the others and reports the receiver's source 14 with the crossing's number; into a closed unit
it does nothing. WARDEN_LOST marks the warden as lost, raises EVT_WARDEN_LOST and reports the plinth's source 0. -/
def Obligations.ClaimsCrossingsAndTheWarden : Prop :=
  ∀ s : State, s.running = true →
    (∀ (m k : Nat) (c : Claim), k < 64 → s.reaches m = true →
      let x := s.occur uHIF 0x101 2 (some m) (4 * k) 1
      (m = 0 ∨ masters.contains m = true ∧ x.fnLive m = true) → x.claim k = some c →
        (c.owner = m → exec (.claimRelease m k) s = .next (x.setClaim k none).ended) ∧
        (∀ v, v ≠ 0 → v < 2 ^ 32 → c.owner = m → exec (.registerWrite m 2 (4 * k) 4 v) s =
          .next (x.evtRange 2 (4 * k) m 1 v).ended) ∧
        (∀ v, v < 2 ^ 32 → c.owner ≠ m → exec (.registerWrite m 2 (4 * k) 4 v) s = .next (x.evtRange 2 (4 * k) m 9 v).ended)) ∧
    (∀ (k : Nat) (c : Claim), s.claim k = some c →
      let x := (s.reach (c.since + s.getF uDEV F.DEV_CLAIM_HOLD_LIMIT_MS * 1000000)).setClaim k none
      (c.owner ≠ 0 → k < 64 → exec (.claimExpire k) s = .next (s.after (x.eventFn c.owner 0x03 uHIF (c.owner * 256 + k) 0))) ∧
      (c.owner = 0 → k < 64 → exec (.claimExpire k) s = .next (s.after x))) ∧
    (∀ (u from_ x n : Nat), s.closed u = false →
      let p := s.crossingPkts from_ u n
      let t := p.2.each p.1 fun s i => s.drop 0x61 747 { i with detail := x % 65536 }
      exec (.crossingTimeout u from_ x n) s = .next (s.after ((t.modFlt fun f => { f with
        crossed := t.flt.crossed.put (fun _ => 0) from_ (t.flt.crossed.get (fun _ => 0) from_ + (n - p.1.length)) }).report u 14 x))) ∧
    (∀ (u from_ x n : Nat), s.closed u = true → exec (.crossingTimeout u from_ x n) s = .next (s.after s)) ∧
    exec .wardenLost s = .next (s.after (((s.modPwr fun p => { p with wdnLost := true }).event 0x48 0x231 uPLN 0 0).report uPLN 0 0))

/-- The nine table commands run on a table and complete with their status, index and data. While the device runs and
the oldest descriptor of a TABLE ring for READ, WRITE, INSERT, DELETE, AGE_IF_UNHIT, TEST_AND_SET, READ_SLOT, HIT_SCAN
or GEN_INVALIDATE is d, held back by nothing: with form, target and rights in order and the operand read, the command
is counted, does what the table command does (State.tableRun: the entry read, written, inserted, deleted, aged or
scanned), or ends ECC (0x46) where it meets a word a spare holds as uncorrectable, is sent to a paired peer where its
table is mirrored, writes what it returns to the host and completes d with its status. -/
def Obligations.TableCommandsAnswer : Prop :=
  ∀ (s : State) (src slot : Nat) (data : List Byte) (full : Bool) (d : Desc), s.running = true →
    let c := tcmdOf d.w0 d.w1 d.w2 data
    let x := s.countTable src c
    let bad := x.cmdSpoiled c (x.cmdImage c)
    let r := if bad.isSome then ({ status := 0x46 }, x.wordEcc c.tid 2 (bad.getD slot)) else x.tableRun c full
    let t := if c.mirrored then r.2.mirror c.w0 c.w1 c.w2 (c.data.take c.len) else r.2
    let fin : Host.Outcome State Fault Refusal := .next (s.after (t.tableReply src d r.1))
    x.cmdCheck c = none → x.changeDenied src c = false →
    (s.tblReady src opREAD d data → exec (.read src data true 0 slot full) s = fin) ∧
    (s.tblReady src opWRITE d data → exec (.write src data true 0 slot full) s = fin) ∧
    (s.tblReady src opINSERT d data → exec (.insert src data true 0 slot full) s = fin) ∧
    (s.tblReady src opDELETE d data → exec (.delete src data true 0 slot full) s = fin) ∧
    (s.tblReady src opAGE d data → exec (.ageIfUnhit src data true 0 slot full) s = fin) ∧
    (s.tblReady src opTAS d data → exec (.testAndSet src data true 0 slot full) s = fin) ∧
    (s.tblReady src opSLOT d data → exec (.readSlot src data true 0 slot full) s = fin) ∧
    (s.tblReady src opSCAN d data → exec (.hitScan src data true 0 slot full) s = fin) ∧
    (s.tblReady src opINVAL d data → exec (.genInvalidate src data true 0 slot full) s = fin)

/-- A table command in a PF's table command window runs and its result stands in the window. While the device runs and
the window of PF p holds a command (READ, WRITE, INSERT, DELETE, AGE_IF_UNHIT or TEST_AND_SET as OP 1 to 6), one that
no queue or state holds back and that passes the checks runs as a ring command does, sends itself to the peer where
mirrored, and leaves the former entry (of a full table, the words that tell of it) in TCW_RESULT and its status in
TCW_STATUS with BUSY 0; one that waited tTCW (100 us) without beginning ends then with TIMEOUT (status 0x08). -/
def Obligations.TableWindowsAnswer : Prop :=
  ∀ (s : State) (src p slot : Nat) (data : List Byte) (full : Bool), s.running = true → p < 4 → src = 65536 + p → (s.tcwStart p).isSome = true →
    let c := s.winCmd p
    let x := s.countTable src c
    let bad := x.cmdSpoiled c (x.cmdImage c)
    let r := if bad.isSome then ({ status := 0x46 }, x.wordEcc c.tid 2 (bad.getD slot)) else x.tableRun c full
    let t := if c.mirrored then r.2.mirror c.w0 c.w1 c.w2 (c.data.take c.len) else r.2
    let fin : Host.Outcome State Fault Refusal := .next (s.after (t.winReply p r.1))
    (∀ t0, s.tcwStart p = some t0 → exec (.tcwTimeout p) s = .next (s.after ((s.reach (t0 + 100000)).winReply p { status := 8 }))) ∧
    (s.blocked src (s.tcwWait p) c = false → s.mustWait c = false → x.winOk p = true → x.cmdCheck c = none →
    x.changeDenied src c = false →
    (c.op = opREAD → exec (.read src data true 0 slot full) s = fin) ∧
    (c.op = opWRITE → exec (.write src data true 0 slot full) s = fin) ∧
    (c.op = opINSERT → exec (.insert src data true 0 slot full) s = fin) ∧
    (c.op = opDELETE → exec (.delete src data true 0 slot full) s = fin) ∧
    (c.op = opAGE → exec (.ageIfUnhit src data true 0 slot full) s = fin) ∧
    (c.op = opTAS → exec (.testAndSet src data true 0 slot full) s = fin))

/-- COMMIT, GEN_ABORT, GEN_WAIT and EM_REHASH begin, wait and end as the generation state says. While the device runs:
COMMIT in order takes the head of the queue, and once no rehash runs it is accepted: STATE COMMITTING, with a paired
peer asked; a peer silent for tTWC ends it with 0x4A and STATE OPEN; GEN_ABORT begins a sweep with no switch; GEN_WAIT
completes in OPEN with the time of the last opening; a command that waited tGENQ ends 0x48; in RETIRING the horizon
plus tGRACE retires the generation; EM_REHASH sets REHASH_BUSY and its end runs the copy and completes, with ECC where
a word could not be read; the sweep's end reports the words it could not read, makes the generations equal, OPEN, and
raises EVT_GEN_OPEN. -/
def Obligations.GenerationCommandsRun : Prop :=
  ∀ (s : State) (src operand seeds : Nat) (d : Desc), s.running = true →
    let c := tcmdOf d.w0 d.w1 d.w2 (leBytes operand 8)
    let t := (s.countTable src c).setDesc src d.idx fun d => { d with begun := true }
    (s.genReady src opCOMMIT operand d →
      exec (.commit src operand true) s = .next (s.after (t.modGen fun g => { g with commitHead := some src }))) ∧
    (s.genReady src opABORT operand d → s.gen.rehash = none →
      ((t.ring src).descs.find? fun d => d.begun && d.comp.isNone && d.op == opABORT) = some { d with begun := true } →
      exec (.genAbort src operand true) s = .next (s.after ((t.mirror d.w0 d.w1 d.w2 (leBytes operand 8)).startAbort src))) ∧
    (s.gen.commitHead = some src → s.gen.rehash = none →
      let x := (s.modGen fun g => { g with
        commitHead := none, commit := some (src, s.ns), alone := false, twinOk := !s.mirroring, twinOkAt := s.ns}).setF uTG F.GEN_STATUS_STATE 1
      exec .commitAccept s = .next (s.after (if s.mirroring then x.twinSend 3 (beBytes (x.getF uTG F.GEN_STATUS_COMMIT_SEQ) 8) else x))) ∧
    (∀ acc, s.gen.commit = some (src, acc) → s.gen.twinOk = false →
      let x := (s.reach (acc + 5000000)).setF uTG F.GEN_STATUS_STATE 0
      let y := x.modGen fun g => { g with commit := none }
      exec .commitTwinTimeout s = .next (s.after ((y.event 0x23 0x210 uTG (y.getF uTG F.GEN_STATUS_COMMIT_SEQ) 0).endBegun
        src opCOMMIT (comp 0x4A 8 0)))) ∧
    (s.tblDesc src opGENWAIT = some d → s.blocked src d.wait (tcmdOf d.w0 d.w1 d.w2 []) = false → s.genTurn d = true → d.len = 8 → d.w2 % 2 ^ 64 = 0 →
      s.fwdOn = true → s.genState = 0 → exec (.genWait src) s = .next (s.after ((s.countTable src (tcmdOf d.w0 d.w1 d.w2 [])).tableReply src d
        { status := 0, data := leBytes s.gen.openAt 8 }))) ∧
    (src < 65536 → src ≠ twinSrc → ((s.ring src).descs.find? fun d => d.wait.isSome && !d.begun && d.comp.isNone && d.op != opGENWAIT &&
        s.mustWait (tcmdOf d.w0 d.w1 d.w2 [])) = some d →
      exec (.genQueueTimeout src) s = .next (s.after ((s.reach ((d.wait.getD 0) + 20000000)).complete src d.idx (comp 0x48 0 0)))) ∧
    (s.genState = 2 → exec .genHorizonExpire s = .next (s.after ((s.reach (s.gen.horizon + 1000)).genRetire true))) ∧
    (s.tblReady src opREHASH d (leBytes seeds 8) →
      let c := tcmdOf d.w0 d.w1 d.w2 (leBytes seeds 8)
      let x := s.countTable src c
      x.cmdCheck c = none → x.changeDenied src c = false → x.bit uTG F.EM_STATUS_REHASH_BUSY = false →
      exec (.emRehash src seeds true) s = .next (s.after (((x.modGen fun g => { g with rehash := some (c.seg, seeds % 2 ^ 64, true) }).setF
        uTG F.EM_STATUS_REHASH_BUSY 1).setDesc src d.idx fun d => { d with begun := true }))) ∧
    (∀ seg r ecc slot, s.gen.rehash = some (seg, seeds, true) → s.hif.rings.findSome? (fun r =>
        (r.2.descs.find? fun d => d.begun && d.comp.isNone && d.op == opREHASH).map fun d => (r.1, d)) = some (r, d) →
      let bad := ((s.segEntries seg s.stagingGen).map (·.1)).find? fun i => s.spoiled 0x10 i
      let v := s.wordEcc 0x10 (if bad.isSome then 2 else ecc) (bad.getD slot)
      let x := if bad.isSome ∨ ecc = 2 then v.rehashEcc else v.rehashRun seg seeds (d.len = 8388616)
      exec (.emRehashDone ecc slot) s = .next (s.after ((x.2.mirror d.w0 d.w1 d.w2 (leBytes seeds 8)).tableReply r { d with w1 := d.w1 + 8 } x.1))) ∧
    (∀ bad : List (Nat × Nat), s.genState = 3 →
      let all := bad ++ ((s.flt.badWords.map (·.2)).filter fun w => s.spoiled w.1 w.2 && !bad.contains w)
      let z := s.each all fun s b => s.badWord uTG 0 b.1 (b.2 % 2 ^ 24)
      z.gen.abort = none →
      let x := (z.sweepRehash all).sweep all
      x.gen.abort = none →
      let y := ((x.when x.gen.rehash.isSome fun s => s.setF uTG F.EM_STATUS_REHASH_BUSY 0).modGen fun g => { g with abort := none, rehash := none, rehashOld := none, openAt := x.ns }).setF uTG F.GEN_STATUS_STATE 0
      exec (.sweepEnd bad) s = .next (s.after (y.event 0x22 0x210 uTG (y.getF uTG F.GEN_STATUS_COMMIT_SEQ) 0).twinRun))

/-- After the sweep the retired generation is a copy of the active one. For every state whose table store is in
canonical form and every list of entries whose words could not be read: after the sweep such an entry is left as it
was, and of the others, a slot of a keyed generational table (EM, LPM, CAM) is valid in both generations or in
neither, and it is valid exactly if it was valid in the active one: then it holds what it held, key and RESULT, with
both valid bits; else it is free (0), but for a poisoned CAM row, which stays poisoned; an index of the indexed
generational tables 0x01, 0x02, 0x30 and 0x40 is valid in the retired generation exactly if it is valid in the active
one and else holds the same image, and what the active generation holds is as before. -/
def Obligations.SweepMakesTheGenerationsEqual : Prop :=
  ∀ (s : State) (bad : List (Nat × Nat)), s.tbl.wf (fun _ => 0) = true → s.activeGen < 2 →
    let a := s.activeGen
    let t := s.sweep bad
    (∀ tid idx, tblKeyed tid = true → isLRN tid = false → idx < 2 ^ 31 → bad.contains (tid, idx) = true →
      t.ent tid 0 idx = s.ent tid 0 idx) ∧
    (∀ tid idx g, [0x01, 0x02, 0x30, 0x40].contains tid = true → idx < 2 ^ 31 → g < 2 → bad.contains (tid, idx) = true →
      t.ent tid g idx = s.ent tid g idx) ∧
    (∀ tid idx, tblKeyed tid = true → isLRN tid = false → idx < 2 ^ 31 → bad.contains (tid, idx) = false →
      genValid (t.ent tid 0 idx) 0 = genValid (t.ent tid 0 idx) 1 ∧ genValid (t.ent tid 0 idx) 0 = genValid (s.ent tid 0 idx) a ∧
      t.ent tid 0 idx = (if genValid (s.ent tid 0 idx) a then setBitsOf (s.ent tid 0 idx) 62 2 3
        else if isCAM tid && camPoison (s.ent tid 0 idx) then setBitsOf (s.ent tid 0 idx) 62 2 0 else 0)) ∧
    (∀ tid idx, [0x01, 0x02, 0x30, 0x40].contains tid = true → idx < 2 ^ 31 → bad.contains (tid, idx) = false →
      genValid (t.ent tid (1 - a) idx) (1 - a) = genValid (t.ent tid a idx) a ∧ t.ent tid a idx = s.ent tid a idx ∧
      t.ent tid (1 - a) idx = setBitsOf (s.ent tid a idx) 62 2 (if genValid (s.ent tid a idx) a then 2 - a else 0))

/-- EGRESS_FENCE takes its fence time and ends; shadow compares and CAM scrubs go slice by slice. While the device
runs: EGRESS_FENCE behind only fences takes T_f now with the largest age limit, and with 64 outstanding ends 0x4B; the
oldest fence completes when nothing admitted before T_f remains, or at T_f + A_max + tGRACE; a slice of an enabled
compare or scrub is done once per work period: a compare asks the host for the slice's bytes; one that failed or did
not finish counts as abandoned, as does a scrub whose copy DRAM does not give; one that is done compares every unit or
row of the slice and moves POS on (to 0 at the end). The check units run them: with CU56, CU57 (table 0x30) or CU58
(scrubs) not Active nothing happens, and no scrub in footing mode. -/
def Obligations.FencesComparesAndScrubs : Prop :=
  ∀ (s : State) (src tid : Nat) (d : Desc) (f : FenceSt) (rest : List FenceSt), s.running = true →
    (s.tblDesc src opFENCE = some d → d.len = 16 → d.w2 % 2 ^ 64 = 0 →
      (∀ e ∈ (s.ring src).descs.takeWhile (fun e => e.idx != d.idx), (e.comp.isNone && !(e.op == opFENCE && e.begun)) = false) →
      let x := s.countTable src (tcmdOf d.w0 d.w1 d.w2 [])
      let y := x.setDesc src d.idx fun d => { d with begun := true }
      let z := y.modGen fun g => { g with fences := y.gen.fences ++ [(⟨src, d.idx, y.ns, y.maxAge⟩ : FenceSt)] }
      x.fwdOn = true →
      (x.gen.fences.length < 64 → exec (.egressFence src) s = .next (s.after (z.setF uTG F.FENCE_STATUS_OUTSTANDING z.gen.fences.length))) ∧
      (64 ≤ x.gen.fences.length → exec (.egressFence src) s = .next (s.after (x.tableReply src d { status := 0x4B })))) ∧
    (s.gen.fences = f :: rest → s.fenceClear f = true → exec .egressFenceDone s = .next (s.after (s.fenceEnd f false))) ∧
    (s.gen.fences = f :: rest → exec .egressFenceBound s = .next (s.after ((s.reach (f.tf + f.amax + 1000)).fenceEnd f true))) ∧
    (s.up (uCU (if tid = 0x30 then 57 else 56)) = false → ∀ (data : List Byte) (ok finished : Bool),
      exec (.shadowCompareSlice tid data ok finished) s = .next (s.after s)) ∧
    ((s.up (uCU 58) = false ∨ s.footing = true) → ∀ (finished dram : Bool) (flips corr bad : List Nat),
      exec (.camScrubSlice finished dram flips corr bad) s = .next (s.after s)) ∧
    ((shadowUnits tid).1 ≠ 0 → s.up (uCU (if tid = 0x30 then 57 else 56)) = true → s.getFS uTG (cmpRegs tid).sel (cmpRegs tid).en ≠ 0 → s.gen.cmpAt.get (fun _ => 0) tid ≠ s.clk.wpNum + 1 →
      let x := s.modGen fun g => { g with cmpAt := s.gen.cmpAt.put (fun _ => 0) tid (s.clk.wpNum + 1) }
      let pos := x.getFS uTG (cmpRegs tid).sel (cmpRegs tid).pos
      let n := min (64 * 2 ^ x.getFS uTG (cmpRegs tid).sel (cmpRegs tid).slice) ((shadowUnits tid).1 - pos)
      let y := x.hostRead 1 (x.shadowAt tid pos) (n * (shadowUnits tid).2)
      ∀ data : List Byte,
      exec (.shadowCompareSlice tid data false true) s = .next (s.after (y.addFS uTG (cmpRegs tid).sel (cmpRegs tid).aband 1)) ∧
      exec (.shadowCompareSlice tid data true true) s = .next (s.after ((y.each (List.range n) fun s i =>
        s.compareUnit tid (pos + i) (sliceBytes data (i * (shadowUnits tid).2) (shadowUnits tid).2)).setFS
          uTG (cmpRegs tid).sel (cmpRegs tid).pos (if (shadowUnits tid).1 ≤ pos + n then 0 else pos + n)))) ∧
    (s.up (uCU 58) = true → s.footing = false → s.getF uCAMG F.CAM_SCRUB_CFG_EN ≠ 0 → s.gen.cmpAt.get (fun _ => 0) 0x38 ≠ s.clk.wpNum + 1 →
      let x := s.modGen fun g => { g with cmpAt := s.gen.cmpAt.put (fun _ => 0) 0x38 (s.clk.wpNum + 1) }
      let pos := x.getF uCAMG F.CAM_SCRUB_STATUS_POS
      let n := min (64 * 2 ^ x.getF uCAMG F.CAM_SCRUB_CFG_SLICE_LOG2) (4096 * camBanks.length - pos)
      (∀ dram flips corr bad, exec (.camScrubSlice false dram flips corr bad) s =
        .next (s.after (x.addF uCAMG F.CAM_SCRUB_ABANDON_COUNT 1))) ∧
      (∀ dram flips corr bad y, x.scrubCopy pos n (if dram then 2 else 0) = (none, y) →
        exec (.camScrubSlice true dram flips corr bad) s = .next (s.after (y.addF uCAMG F.CAM_SCRUB_ABANDON_COUNT 1))) ∧
      (∀ dram flips corr bad copy y, x.scrubCopy pos n (if dram then 2 else 0) = (some copy, y) →
        exec (.camScrubSlice true dram flips corr bad) s = .next (s.after ((y.each (List.range n) fun s i =>
          s.scrubOne (pos + i) copy (flips.contains i) (corr.contains i) (bad.contains i)).setF uCAMG F.CAM_SCRUB_STATUS_POS
            (if 4096 * camBanks.length ≤ pos + n then 0 else pos + n)))))

/-- A work-period boundary runs the steps of R412; records, batches and flow write-backs follow one by one. While the
clock runs WORK_PERIOD_BOUNDARY brings plinth time to the boundary, adds what counts with time up to it, counts it
and, on a running device, closes the period, applies configuration, switches a due commit, starts movers and check
units and what else waits; otherwise it only counts. While the device runs, each record row writes the next tally,
telemetry or capture record to its ring (a tally record that its ring takes is counted as written; the KIND 3 record
after the last); an evicted flow delta goes out, and its write-back, the oldest of its cache, adds packets and bytes
to the 16 bytes at the counter's DRAM address, or is lost after tFWB and counted. -/
def Obligations.BoundariesAndRecords : Prop :=
  ∀ s : State,
    (s.clk.running = true → s.running = true →
      let a := (s.elapse (s.reachRaw s.clk.nextWp)).modClk fun c => { c with wpNum := s.clk.wpNum + 1 }
      a.running = true →
      let x := a.closePeriod.configApply
      let y := x.modClk fun c => { c with nextWp := s.clk.nextWp + x.periodLen }
      y.running = true →
        exec .workPeriodBoundary s = .next (s.after y.commitSwitch.boundaryStarts.footSwitch.startDrain.twinRun.twinPump)) ∧
    (s.clk.running = true → s.running = false →
      let a := (s.elapse (s.reachRaw s.clk.nextWp)).modClk fun c => { c with wpNum := s.clk.wpNum + 1 }
      a.running = false →
        exec .workPeriodBoundary s = .next (s.after (a.modClk fun c => { c with nextWp := s.clk.nextWp + a.periodLen }))) ∧
    (s.running = true →
      (∀ i vs rest, s.tal.runs = (i, vs) :: rest → exec .tallyRecordWrite s = .next (s.after
        ((s.modTal fun t => { t with runs := rest, written := s.tal.written +
            (if (s.ringUp (s.getF uTAL F.TAL_CFG_RING) 0x14 && !s.ringFull (s.getF uTAL F.TAL_CFG_RING)) = true
              then 1 else 0) }).recordNow (s.getF uTAL F.TAL_CFG_RING) 0x14
          (wordsBytes ([2 ^ 60 + vs.length * 2 ^ 57 + i * 2 ^ 32 + s.tal.period % 2 ^ 32, s.tal.periodAt] ++
            (List.range 6).map fun k => vs.getD k 0))))) ∧
      (s.tal.runs = [] → s.tal.endDue = true → exec .tallyRecordWrite s = .next (s.after (s.periodEnd 0))) ∧
      (∀ k d rest, k < 4 → s.tal.telem.get (fun _ => []) k = d :: rest → exec (.telemetryRecordWrite k) s = .next (s.after
        ((s.modTal fun t => { t with telem := s.tal.telem.put (fun _ => []) k rest }).recordNow
          (s.getF (uTMQ k) F.TMQ_TELEM_CFG_RING) 0x15 d))) ∧
      (∀ d rest, s.bas.captureOut = d :: rest → exec .captureBatchWrite s = .next (s.after
        ((s.modBas fun b => { b with captureOut := rest }).recordNow (s.getF uBSN F.BSN_CAPTURE_CFG_RING) 0x17 d))) ∧
      (∀ cache ctr d, (s.tal.flows.find? fun d => d.cache == cache && d.ctr == ctr) = some d →
        exec (.flowCacheWriteback cache ctr) s = .next (s.after
          (s.modTal fun t => { t with flows := s.tal.flows.erase d, flowOut := s.tal.flowOut ++ [{ d with at_ := s.ns }] }))) ∧
      (∀ n d, s.tal.flowOut[n]? = some d →
        (((s.tal.flowOut.take n).any fun e => e.cache == d.cache) = false → exec (.flowWritebackDone n 0) s = .next (s.after
          ((s.modTal fun t => { t with flowOut := s.tal.flowOut.eraseIdx n }).flowAdd d 0).flowSync)) ∧
        (((s.tal.flowOut.take n).any fun e => e.cache == d.cache) = true → exec (.flowWritebackDone n 0) s = .next (s.after s)) ∧
        (let x := (s.reach (d.at_ + 100000)).addF uTAL F.TAL_FLOW_LOST_COUNT 1
         exec (.flowWritebackTimeout n) s = .next (s.after (x.modTal fun t => { t with flowOut := x.tal.flowOut.eraseIdx n }).flowSync)))) ∧
    (∀ (d : FlowDelta) (bs : List Byte) (y : State), s.dramRead (6 * 4096 + d.cache) (s.flowAddr d.ctr) 16 0 = (some bs, y) →
      s.flowAdd d 0 = y.dramPut (6 * 4096 + d.cache) (y.flowAddr d.ctr)
        (leBytes (leNat (bs.take 8) + d.pkts) 8 ++ leBytes (leNat (bs.drop 8) + d.bytes) 8))

/-- Fabric cells are sent, received, released in order and flow-controlled; lanes come and go. While the device runs
and FAB works, with s what lanes have drained: FAB_CELL_SEND lets the port's next packet join its device's flow and
sends the flow's next cell; a cell with a bad header or for another device is counted only; a SYNC cell starts its
flow at its number; a cell within the window is held and cells leave in order; WAIT_NS with the next cell missing
counts it as lost and goes on; XOFF expires HOLD_NS after the last FC cell, and an FC cell is repeated after half of
that; a lane that goes down loses its first cell and moves the others, one that comes up joins the map. -/
def Obligations.FabricCellsAndLanes : Prop :=
  ∀ s : State, s.running = true →
    let x := s.fabDrain
    (∀ port err, x.fabOn = true → exec (.fabCellSend port err) s = .next (s.after
      ((if x.ust uFAB = 4 then x.appendFlow (port % 128) err else x).sendCell (x.getF uFAB (F.FAB_FP_CFG_DEV.i (port % 128)))))) ∧
    (∀ cell, x.fabOn = true → readCell cell = none →
      exec (.fabCellReceive cell) s = .next (s.after (x.addF uFAB F.FAB_RX_HDR_ERR 1))) ∧
    (∀ cell h, x.fabOn = true → readCell cell = some h → h.type = 0 →
      (h.dst ≠ x.devId → exec (.fabCellReceive cell) s = .next (s.after (x.addF uFAB F.FAB_RX_MISROUTE 1))) ∧
      (h.dst = x.devId → h.sync = false → (x.flowIn h.src).synced = true → (h.seq + 65536 - (x.flowIn h.src).exp) % 65536 < 4096 →
        exec (.fabCellReceive cell) s = .next (s.after (((x.fabHold h).fabReleaseAll h.src).fcCheck h.src))) ∧
      (h.dst = x.devId → h.sync = true →
        let g := x.fabGap h.src 0x59
        let y := (g.setFlowIn h.src { g.flowIn h.src with synced := true, exp := h.seq, held := [], overrun := [] }).fabHold h
        exec (.fabCellReceive cell) s = .next (s.after ((y.fabReleaseAll h.src).fcCheck h.src)))) ∧
    (∀ d c r, (s.flowIn d).held = c :: r → ((s.flowIn d).held.any fun y => y.seq == (s.flowIn d).exp) = false →
      let y := (s.reach (r.foldl (fun a y => min a y.at_) c.at_ + s.getF uFAB F.FAB_REORDER_WAIT_NS)).fabDrain
      let z := (y.fabGap d 0x59).addF uFAB F.FAB_RX_LOST_CELLS 1
      exec (.reorderWaitExpire d) s = .next (s.after
        (((z.setFlowIn d { z.flowIn d with exp := ((s.flowIn d).exp + 1) % 65536 }).fabReleaseAll d).fcCheck d))) ∧
    (∀ n t, s.fab.xoffTill.get (fun _ => 0) n = t → t ≠ 0 →
      let y := (s.reach t).fabDrain
      exec (.xoffExpire n) s = .next (s.after (y.modFab fun f => { f with xoffTill := y.fab.xoffTill.put (fun _ => 0) n 0 }))) ∧
    (∀ d t, (s.flowIn d).fcAt = some t →
      let y := (s.reach (t + s.getF uFAB F.FAB_FC_HOLD_NS / 2)).fabDrain
      exec (.fcCellRepeat d) s = .next (s.after ((y.sendFc d).setFlowIn d { y.flowIn d with fcAt := some y.ns }))) ∧
    (∀ k, x.fabLanes.contains k = true →
      let y := x.setF uFAB (F.FAB_LANE_UP_MAP.i (k / 32)) (setBitsOf (x.getF uFAB (F.FAB_LANE_UP_MAP.i (k / 32))) (k % 32) 1 0)
      (y.fabLane k = [] → exec (.fabricLaneDown k) s = .next (s.after y)) ∧
      (∀ h r, y.fabLane k = h :: r → exec (.fabricLaneDown k) s =
        .next (s.after ((y.each h.ends fun s p => s.mcDone p false).setFabLane k r).moveCells))) ∧
    (∀ k, k < 128 → s.lineCard = true → s.up (uLane (16 + k / 8) (k % 8)) = true →
      let y := s.setF uFAB (F.FAB_LANE_UP_MAP.i (k / 32)) (setBitsOf (s.getF uFAB (F.FAB_LANE_UP_MAP.i (k / 32))) (k % 32) 1 1)
      exec (.fabricLaneUp k) s = .next (s.after (y.setFabLane k (retime y.clk.now (y.fabLane k))).moveCells))

/-- An FC cell places XOFF toward the devices of its map for HOLD_NS, and FAB_XOFF shows it. For every state in which
FAB works and every good FC cell (16 payload bytes): after it is received, XOFF toward device n is in force until
FAB_FC.HOLD_NS from now if bit n of the map, bit 127 - n of the payload in wire order, is 1, and as before if it is 0;
and in every state FAB_XOFF word i reads 1 at bit j exactly if XOFF toward device 32i + j is in force at that plinth
time. -/
def Obligations.FcCellsPlaceXoff : Prop :=
  (∀ (s : State) (cell : List Byte) (h : CellHdr), s.running = true → s.fabDrain.fabOn = true → readCell cell = some h → h.type = 1 →
    ∃ t : State, exec (.fcCellReceive cell) s = .next (s.after t) ∧ h.data.length = 16 ∧
      (∀ n, n < 128 → t.fab.xoffTill.get (fun _ => 0) n =
        if bitsOf (beNat h.data) (127 - n) 1 = 1 then s.fabDrain.ns + s.fabDrain.getF uFAB F.FAB_FC_HOLD_NS
        else s.fabDrain.fab.xoffTill.get (fun _ => 0) n)) ∧
  (∀ (s : State) (i j : Nat), i < 4 → j < 32 →
    (bitsOf (s.regView uFAB (0x150 + 4 * i)) j 1 = 1 ↔ s.ns < s.fab.xoffTill.get (fun _ => 0) (32 * i + j)))

/-- Ranks refresh and power down, idle pages close, scrub slices advance, training helpers run and end. While the
device runs, for channel c below 12: RANK_REFRESH restarts the activation counts of that rank's banks, ends their
throttles and takes RAAIMT off; a rank idle for IDLE_NS enters power-down; an open row in open-page mode closes
OPEN_NS after the last access; a scrub slice, one in a work period, accesses each 64-byte line of the slice, reports
what it finds there and moves its address, or counts as abandoned; a helper run starts with its lane error counts 0
(by a write of DMC_TRN_CTL) and at its end, after its bursts, each of the 80 counts holds what was found, up to
65,535, no byte of the row it used is held any more, and GO is 0. -/
def Obligations.DramChannelsKeepTheirRanks : Prop :=
  ∀ (s : State) (ch : Nat), ch < 12 →
    (∀ rank, rank < 2 → s.running = true →
      exec (.rankRefresh ch rank) s = .next (s.after (s.modDram fun d => { d with
        banks := s.dram.banks.remap (fun _ => {}) fun b x =>
          if b / 32 = 2 * ch + rank then { x with acts := [], throttled := none, raa := x.raa - Config.raaimt ch } else x })) ∧
      (s.getF (uDMC ch) F.DMC_PD_IDLE_NS ≠ 0 → s.chanOn ch = true → s.dram.down.contains (2 * ch + rank) = false →
        let x := s.reach ((s.dram.banks.filter fun b => b.1 / 32 == 2 * ch + rank).foldl (fun a b => max a b.2.at_) 0 +
          s.getF (uDMC ch) F.DMC_PD_IDLE_NS)
        exec (.rankPowerDown ch rank) s = .next (s.after (x.modDram fun d => { d with down := (2 * ch + rank) :: x.dram.down })))) ∧
    (∀ b, b < 64 → s.running = true → s.getF (uDMC ch) F.DMC_POLICY_MODE = 1 → (s.bank (64 * ch + b)).row.isSome = true →
      exec (.openPageIdleClose ch b) s = .next (s.after ((s.reach ((s.bank (64 * ch + b)).at_ + s.getF (uDMC ch) F.DMC_POLICY_OPEN_NS)).setBank
        (64 * ch + b) { s.bank (64 * ch + b) with row := none }))) ∧
    (s.running = true → s.getF (uDMC ch) F.DMC_SCRUB_EN ≠ 0 → s.chanOn ch = true →
      s.dram.scrubAt.get (fun _ => 0) ch ≠ s.clk.wpNum + 1 → ∀ corr unc : List Nat,
      let w := s.modDram fun d => { d with scrubAt := s.dram.scrubAt.put (fun _ => 0) ch (s.clk.wpNum + 1) }
      let cap := w.getF (uDMC ch) F.DMC_CFG_CAP_GIB * 2 ^ 30
      let a := w.dram.scrub.get (fun _ => 0) ch
      let n := min (65536 * 2 ^ w.getF (uDMC ch) F.DMC_SCRUB_SLICE_LOG2) (cap - a)
      let last := ((corr ++ unc).filter fun x => decide (a ≤ x) && decide (x < a + n)).foldl max 0
      let x := w.each (lines a n) fun s l => s.scrubLine ch corr unc l
      exec (.dmcScrubSlice ch false corr unc) s = .next (s.after ((w.each (if a ≤ last then lines a (last + 1 - a) else [])
        fun s l => s.scrubLine ch corr unc l).addF (uDMC ch) F.DMC_SCRUB_ABANDON 1)) ∧
      exec (.dmcScrubSlice ch true corr unc) s = .next (s.after (x.modDram fun d => { d with
        scrub := x.dram.scrub.put (fun _ => 0) ch (if cap ≤ a + n then 0 else a + n) }))) ∧
    (∀ (s : State) (corr unc : List Nat) (l : Nat), s.scrubLine ch corr unc l = (s.touch ch l dmcSrc false).dramEcc ch l
      (if unc.any (fun x => x / 64 == l / 64) then 2 else if corr.any (fun x => x / 64 == l / 64) then 1 else 0)) ∧
    (∀ m v, s.writeOk m (uDMC ch) 0x200 (v % 2 ^ 31 + 2 ^ 31) → exec (.trainingHelperGo m ch v) s =
      .next (((s.stored m (uDMC ch) 0x200 (v % 2 ^ 31 + 2 ^ 31)).each (List.range 80) fun s k =>
        s.setF (uDMC ch) (F.DMC_TRN_ERR_COUNT.i k) 0).setF (uDMC ch) F.DMC_TRN_CTL_GO 1).ended) ∧
    (s.running = true → s.getF (uDMC ch) F.DMC_TRN_CTL_GO ≠ 0 → ∀ errs : List Nat,
      let x := s.each (errs.take 80).zipIdx fun s e => s.setF (uDMC ch) (F.DMC_TRN_ERR_COUNT.i e.2) (min 65535 e.1)
      let b := 64 * ch + 32 * x.getF (uDMC ch) F.DMC_TRN_CTL_RANK + x.getF (uDMC ch) F.DMC_TRN_CTL_BANK
      let r := x.getF (uDMC ch) F.DMC_TRN_CTL_ROW
      let y := (x.trainBursts ch b r).draw.2
      let z := y.modDram fun d => { d with
        bytes := y.dram.bytes.keep fun k => !(k / 2 ^ 36 == ch && y.bankOf ch (k % 2 ^ 36) == b && rowOf ch (k % 2 ^ 36) == r)
        lost := y.dram.lost.put (fun _ => 0) (b * 2 ^ 18 + r) y.draws }
      let t := z.setF (uDMC ch) F.DMC_TRN_CTL_GO 0
      exec (.trainingHelperEnd ch errs) s = .next (s.after t) ∧ t.getF (uDMC ch) F.DMC_TRN_CTL_GO = 0 ∧
      (∀ k e, k < 80 → errs[k]? = some e → x.getF (uDMC ch) (F.DMC_TRN_ERR_COUNT.i k) = min 65535 e) ∧
      (∀ l, l < 2 ^ 36 → y.bankOf ch l = b → rowOf ch l = r → t.dram.bytes.get (fun _ => none) (dramKey ch l) = none))

/-- H2D, D2H, D2D and FILL move their bytes, GATE waits, SIGNAL triggers, and the read-back completes. While the
device runs and mover m, idle and in service, has d as its next descriptor: H2D writes the host's bytes to DRAM, D2H
and D2D read DRAM and write the host or DRAM, FILL writes its 64-bit pattern over the range; each then waits for its
read-back, whose match completes DONE, mismatch 0x45, and a read-back that fails 0x03 at the host or 0x47 in DRAM;
GATE in a trigger mode waits gated (or passes at once when a trigger is pending) and after LIMIT_MS ends 0x46, unless
a timer trigger comes no later or footing mode stops it; SIGNAL writes the time to the host, completes, and triggers
the channels that watch m. -/
def Obligations.MoversMoveBytes : Prop :=
  ∀ (s : State) (m : Nat) (d : Desc), s.running = true → m < 32 →
    (s.moverDesc m 0x50 = some d → ∀ (data : List Byte) (n : Nat) (x : State),
      (s.hostRead 1 d.w1 d.len).dramWrite (mvSrc m) d.w2 (sliceBytes data 0 d.len) = (n, x) → n = (sliceBytes data 0 d.len).length →
      exec (.h2d m data true) s = .next (s.after (x.moverBegin m d d.w1 d.w2 n 0 (lastEight (sliceBytes data 0 d.len))))) ∧
    (s.moverDesc m 0x51 = some d → ∀ (ecc : Nat) (bs : List Byte) (x : State), s.dramRead (mvSrc m) d.w1 d.len ecc = (some bs, x) →
      exec (.d2h m ecc) s = .next (s.after ((x.send (.hostWrite 1 d.w2 bs)).moverBegin m d d.w2 d.w1 d.len 0 (lastEight bs)))) ∧
    (s.moverDesc m 0x52 = some d → ∀ (ecc n : Nat) (bs : List Byte) (x y : State), s.dramRead (mvSrc m) d.w1 d.len ecc = (some bs, x) →
      x.dramWrite (mvSrc m) d.w2 bs = (n, y) → n = bs.length →
      exec (.d2d m ecc) s = .next (s.after (y.moverBegin m d 0 d.w2 n 0 (lastEight bs)))) ∧
    (s.moverDesc m 0x53 = some d →
      let bs := (List.replicate (d.len / 8) (leBytes d.w2 8)).flatten
      ∀ (n : Nat) (x : State), s.dramWrite (mvSrc m) d.w1 bs = (n, x) → n = bs.length →
        exec (.fill m) s = .next (s.after (x.moverBegin m d 0 d.w1 n 0 (lastEight bs)))) ∧
    (s.moverDesc m 0x54 = some d →
      let x := s.setDesc (s.getF (uMV m) F.MV_CFG_RING) d.idx fun d => { d with begun := true }
      x.getF (uMV m) F.MV_TRIG_MODE ≠ 0 →
      let y := (x.setMover m (some ⟨d.idx, 0x54, d.w1, 0, 8, [], 0, x.ns⟩)).setF (uMV m) F.MV_STATUS_GATED 1
      (y.bit (uMV m) F.MV_STATUS_PENDING = false → exec (.gate m) s = .next (s.after y)) ∧
      (y.bit (uMV m) F.MV_STATUS_PENDING = true →
        exec (.gate m) s = .next (s.after ((y.setF (uMV m) F.MV_STATUS_PENDING 0).openGate m)))) ∧
    (s.moverDesc m 0x55 = some d →
      let x := s.setDesc (s.getF (uMV m) F.MV_CFG_RING) d.idx fun d => { d with begun := true }
      exec (.signal m) s = .next (s.after (((x.send (.hostWrite 1 d.w1 (leBytes x.ns 8))).moverEnd m d.idx 0 8).each (List.range 32) fun s c =>
        if s.getF (uMV c) F.MV_TRIG_MODE = 2 ∧ s.getF (uMV c) F.MV_TRIG_SRC = m then s.trigger c else s))) ∧
    (∀ r, s.mover m = some r → s.footing = false →
      (r.op = 0x51 → ∀ (host : List Byte) (ecc : Nat),
        let x := s.hostRead 1 (r.host + r.len - r.tail.length) r.tail.length
        exec (.moverTransferDone m host true ecc) s = .next (s.after
          (x.moverEnd m r.idx (if sliceBytes host 0 r.tail.length = r.tail then 0 else 0x45) r.len)) ∧
        exec (.moverTransferDone m host false ecc) s = .next (s.after (x.moverEnd m r.idx 0x03 r.len))) ∧
      (r.op ≠ 0x51 → r.op ≠ 0x54 → ∀ (host bs : List Byte) (ok : Bool) (ecc : Nat) (x : State),
        (s.dramRead (mvSrc m) (r.dst + r.len - r.tail.length) r.tail.length ecc = (some bs, x) →
          exec (.moverTransferDone m host ok ecc) s = .next (s.after (x.moverEnd m r.idx (if bs = r.tail then 0 else 0x45) r.len))) ∧
        (s.dramRead (mvSrc m) (r.dst + r.len - r.tail.length) r.tail.length ecc = (none, x) →
          exec (.moverTransferDone m host ok ecc) s = .next (s.after (x.moverEnd m r.idx 0x47 r.len))))) ∧
    (∀ r, s.mover m = some r → r.op = 0x54 →
      let limit := r.since + s.getF (uMV m) F.MV_GATE_LIMIT_MS * 1000000
      let first := s.timerFires (s.clk.wpNum + 1) m = true ∧ s.clk.nextWp ≤ limit * 65536
      (s.footing = false → ¬ first → exec (.gateLimitExpire m) s = .next (s.after
        (((s.reach limit).setF (uMV m) F.MV_STATUS_GATED 0).moverEnd m r.idx 0x46 0))) ∧
      ((s.footing = true ∨ first) → exec (.gateLimitExpire m) s = .next (s.after s)))

/-- Faults are reported, banks substituted, footing mode entered and left, checks made slice by slice. While the
device runs: FAULT_REPORT of a source the unit has, and RAIL_MISMATCH, report it to FLT; at the end of a table-bank
copy every word that could not be copied is told (EVT_SPARE_COPY_ECC) and is uncorrectable in the spare from then on,
the spare serves the bank's position and is Active, the bank Retired, EVT_SPARE raised; a write of HIST_STATUS bit 31
unfreezes and empties the history; ENTER and EXIT written to FOOT_CMD enter footing mode (cause 4) and set
EXIT_PENDING; UNGATE restarts what was gated and marks it ready; a handed-back course releases its blocks, at tHAND
with EVT_HANDBACK_LATE for each; a scan slice reads its bytes from host memory or DRAM and goes on with the CRC, ends
the scan after the last, ends it with an error where the read fails, or, unfinished, is only counted; TIMEOUT_US
without a message counts STALE and raises EVT_ALIVE. -/
def Obligations.FaultsSparesAndFooting : Prop :=
  ∀ s : State,
    (∀ u src detail, s.running = true → src < 16 → (kindOf u).any (fun k => (srcDefault k src).isSome) = true →
      exec (.faultReport u src detail) s = .next (s.after (s.report u src detail))) ∧
    (∀ u, s.running = true → exec (.railMismatch u) s = .next (s.after (s.report u 15 0))) ∧
    (∀ u b sp, s.running = true → (s.flt.subst.find? fun x => x.1 == u) = some (b, sp) → kindOf u = some .tableBank →
      ∀ bad : List Nat,
      let v := s.modFlt fun f => { f with subst := s.flt.subst.filter fun x => x.1 ≠ u }
      let all := bad.map (fun a => (a / 2 ^ 32, a % 2 ^ 32)) ++ (v.flt.badWords.filter fun w => w.1 == u).map (·.2)
      let w := v.each all fun s w => s.event 0x85 0x301 u u w.2
      let x := w.modFlt fun f => { f with
        badWords := w.flt.badWords.filter (fun w => w.1 ≠ u && w.1 ≠ sp) ++ all.map fun w => (sp, w.1, w.2) }
      let pos := (x.servesAs u).getD u
      let y := x.modFlt fun f => { f with
        swapped := (x.flt.swapped.filter fun w => w.1 ≠ pos) ++ (if pos = sp then [] else [(pos, sp)])
        blank := (x.flt.blank.filter fun (b : Nat × Nat) => b.1 ≠ sp).map fun (b : Nat × Nat) => if b.1 = u then (sp, b.2) else b }
      exec (.substitutionEnd u bad) s = .next (s.after ((((y.setUst sp 4).retireUnit u).preempt u).event 0x83 0x301 sp u 0))) ∧
    (∀ m, s.writeOk m uFLT 0x108 (2 ^ 31) →
      exec (.histUnfreeze m) s = .next (s.stored m uFLT 0x108 (2 ^ 31)).histUnfreeze.ended) ∧
    (∀ m, s.writeOk m uFLT 0x140 1 → exec (.enter m) s = .next ((s.stored m uFLT 0x140 1).footEnter 4).ended) ∧
    (∀ m, s.writeOk m uFLT 0x140 2 →
      exec (.exit m) s = .next ((s.stored m uFLT 0x140 2).setF uFLT F.FOOT_STATUS_EXIT_PENDING 1).ended) ∧
    (s.running = true → s.bit uFLT F.FOOT_STATUS_EXIT_PENDING = true → s.flt.ready = false →
      let x := s.each ((List.range 16).flatMap fun c => (List.range 17).map fun e => uENG c e) fun s u =>
        if s.up u then s.masterStart (engNo u) else s
      exec (.footingUngateDone []) s =
        .next (s.after (((x.modDram fun d => { d with selfRef := [] }).modPwr fun p => { p with dmcDrainAt := none }).modFlt fun f => { f with ready := true }))) ∧
    (∀ n, n < 8 → s.running = true →
      let x := s.course n
      let left := x.heldBlocks.filter fun b => (s.course (partner n)).hand.any fun h => !h.pkt.adm.host && h.pkt.adm.port / 8 == b
      exec (.courseHandback n) s = .next (s.after (s.setCourse n { x with
        heldBlocks := left, heldAt := if left.isEmpty then none else x.heldAt }))) ∧
    (∀ n t, n < 8 → s.running = true → (s.course n).heldAt = some t →
      let x := (s.reach (t + 600000)).courseHandback n
      exec (.handbackTimeout n) s = .next (s.after ((x.setCourse n { x.course n with heldBlocks := [], heldAt := none }).each
        (x.course n).heldBlocks fun s b => s.event 0x89 0x301 (uCRS n) (b * 256 + n) 0))) ∧
    (∀ u data, u < 64 → s.running = true → s.cuRuns u 0 = true → s.bit (uCU u) F.CU_STATUS_BUSY = true →
      (s.cu u).slicedAt ≠ s.clk.wpNum + 1 →
      let x := s.setCu u { s.cu u with slicedAt := s.clk.wpNum + 1 }
      exec (.checkUnitScan u data true false) s = .next (s.after (x.addF (uCU u) F.CU_ABANDON 1)) ∧
      let n := min (8192 * 2 ^ x.getF (uCU u) F.CU_CFG_SLICE_LOG2) (x.getF (uCU u) F.CU_LEN_WORDS - (s.cu u).pos)
      let a := x.getF (uCU u) F.CU_ADDR_LO_ADDR * 8 + x.getF (uCU u) F.CU_ADDR_HI_ADDR * 2 ^ 32 + 8 * (s.cu u).pos
      let took (z : State) (bs : List Byte) : State :=
        let y := z.setCu u { z.cu u with pos := (s.cu u).pos + n, crc := scanCrc (z.bit (uCU u) F.CU_CFG_ALG) (s.cu u).crc bs }
        if y.getF (uCU u) F.CU_LEN_WORDS ≤ (s.cu u).pos + n then y.scanEnd u false else y
      (x.bit (uCU u) F.CU_CFG_SPACE = true →
        let z := x.hostRead 1 a (8 * n)
        exec (.checkUnitScan u data true true) s = .next (s.after (took z (sliceBytes data 0 (8 * n)))) ∧
        exec (.checkUnitScan u data false true) s = .next (s.after (z.scanEnd u true))) ∧
      (x.bit (uCU u) F.CU_CFG_SPACE = false → ∀ (bs : List Byte) (z : State),
        (x.dramRead (9 * 4096 + u) a (8 * n) 0 = (some bs, z) →
          exec (.checkUnitScan u data true true) s = .next (s.after (took z bs))) ∧
        (x.dramRead (9 * 4096 + u) a (8 * n) 2 = (none, z) →
          exec (.checkUnitScan u data false true) s = .next (s.after (z.scanEnd u true))))) ∧
    (∀ u, u < 64 → s.running = true → s.cuRuns u 1 = true →
      let x := s.reach ((s.cu u).msgAt + s.getF (uCU u) F.CU_ALIVE_CFG_TIMEOUT_US * 1000)
      exec (.aliveTimeout u) s =
        .next (s.after (((x.setCu u { s.cu u with msgAt := x.ns }).addF (uCU u) F.CU_ALIVE_STALE 1).evtAlive u 2 0)))

/-- Power-on, chip, brown-out and soft resets, supply and clock losses and the wake begin resets; their release ends
them. POWER_ON_RESET returns every setting of class P and holds the reset; CHIP_RESET reverts class C, sets the pin's
cause bit and is held (out of Plinth-only it is a wake: CORE_PWR_EN rises); a rail loss, or the loss of CORE_REFCLK,
while CORE_PWR_EN is high acts as RESET_N, that of PLN_XTAL also stops the clock, and BROWN_OUT below 91 % of target
reports source 4, counts and resets; DEV_SOFT_RESET reverts class D; RESET_RELEASE, which says which rails are low,
ends the reset only with every rail valid, the clocks there, no trip or brown-out holding it, and starts the firmware
outside TEST_MODE, as the end of a soft reset does; a clock that returns runs again; WAKE wakes; the rail timeout of a
power-up drops CORE_PWR_EN, the third stays Plinth-only, and a retry raises it. -/
def Obligations.ResetsBeginAndEnd : Prop :=
  ∀ s : State,
    (exec .powerOnReset s = .next (({ (s.wipe 1).draw.2 with pwr := { ({} : Pwr) with
      mode := 1, resetBy := 1, smbAddr := (s.wipe 1).draw.1 % 4 } } : State).coreOn).ended) ∧
    (s.pwr.mode ≠ 3 → exec (.chipReset 0) s = .next (s.chipReset 0x02).ended ∧ exec (.chipReset 1) s = .next (s.chipReset 0x04).ended) ∧
    (s.pwr.mode = 3 →
      let x := s.coreOn
      exec (.chipReset 0) s = .next (x.chipReset 0x82).ended ∧ exec (.chipReset 1) s = .next (x.chipReset 0x84).ended ∧
      (s.clk.running = true → exec (.wake 0) s = .next (s.after (x.chipReset 0x80)))) ∧
    (s.clk.running = true → s.pwr.coreEn = true → exec .railLoss s = .next (s.after ((s.chipReset 0x02).modPwr fun p =>
        { p with lowRails := s.pwr.lowRails ||| 7 })) ∧
      exec (.clockLoss 1) s = .next (s.after ((s.chipReset 0x02).modPwr fun p => { p with coreClkLost := true }))) ∧
    (exec (.clockLoss 16) s = .next (s.modClk fun c => { c with running := true }).ended ∧
      exec (.clockLoss 17) s = .next (s.modPwr fun p => { p with coreClkLost := false }).ended) ∧
    (s.clk.running = true → s.pwr.mode ≠ 3 →
      exec (.clockLoss 0) s = .next (s.after ((s.chipReset 0).modClk fun c => { c with running := false }))) ∧
    (∀ mv, s.clk.running = true → s.pwr.mode ≠ 3 → mv * 100 < s.getF uPLN F.PLN_SUPPLY_TARGET_MV * 91 →
      exec (.brownOut mv) s = .next (s.after ((((((s.setF uPLN F.PLN_SUPPLY_VDD_MV mv).report uPLN 4 mv).react).addF
        uPLN F.PLN_WEAR_BROWNOUTS 1).chipReset 0x10).coreFell))) ∧
    (∀ m, s.writeOk m uDEV 0x108 (0xD5E7 * 65536) →
      exec (.devSoftReset m) s = .next ((s.stored m uDEV 0x108 (0xD5E7 * 65536)).softReset 0x08).ended) ∧
    (s.pwr.mode = 2 → exec .deviceSoftResetEnd s = .next s.afterReset.ended) ∧
    (∀ split twinId testMode rails, s.pwr.mode = 1 → s.pwr.coreEn = true →
      let x := s.modPwr fun p => { p with lowRails := rails % 32, enAt := if rails % 32 = 0 then none else s.pwr.enAt }
      ((rails % 32 ≠ 0 ∨ x.resetHeld = true) → exec (.resetRelease split twinId testMode rails) s = .next x.ended) ∧
      (rails % 32 = 0 → x.resetHeld = false →
        let y := if bitsOf x.pwr.resetBy 4 1 = 1 then x.reach (x.pwr.coreOkAt + 1000000) else x
        (testMode % 2 = 1 → exec (.resetRelease split twinId testMode rails) s = .next y.ended) ∧
        (testMode % 2 = 0 → exec (.resetRelease split twinId testMode rails) s =
          .next ((y.setF uHIF F.HIF_LINK_SPLIT split).setF uTWN F.TWN_STATUS_TWIN_ID twinId).afterReset.ended))) ∧
    (∀ t, s.clk.running = true → s.pwr.mode = 1 → s.pwr.coreEn = true → s.pwr.enAt = some t →
      let x := s.reach (t + 100000000)
      exec .powerUpRailTimeout s = .next (s.after ((if x.pwr.railTries + 1 = 3
        then (x.modPwr fun p => { p with coreEn := false, enAt := none, railTries := 0, mode := 3 }).setTap 1
        else x.modPwr fun p => { p with coreEn := false, enAt := none, railTries := x.pwr.railTries + 1, coreOffAt := x.ns }).drivePin 4 false))) ∧
    (s.clk.running = true → s.pwr.mode = 1 → s.pwr.coreEn = false → exec .corePwrEnRetry s =
      .next (s.after (s.reach (s.pwr.coreOffAt + 100000000)).coreOn))

/-- After a chip reset every field of class C reads its reset value and memories are empty. For every state whose
register file is in canonical form and in which the device is not Plinth-only: CHIP_RESET leaves a reset held, with no
table entry, meter, claim, ring context, packet, queue, counter or DRAM byte, and every register field that lists
class C, of every unit and instance but HIF, TWN and PLN (which hold the straps and the reset cause), reads its reset
value; plinth time and the fault history are as before. -/
def Obligations.ChipResetRevertsItsClasses : Prop :=
  ∀ (s : State) (pin : Nat), s.regs.wf regDflt = true → s.pwr.mode ≠ 3 →
    ∃ t, exec (.chipReset pin) s = .next t ∧ t.pwr.mode = 1 ∧ t.tbl = [] ∧ t.meters = [] ∧ t.claims = [] ∧ t.hif = {} ∧
      t.courses = [] ∧ t.bas = {} ∧ t.punts = [] ∧ t.ctrs = [] ∧ t.dram.bytes = [] ∧ t.clk = s.clk ∧ t.flt.hist = s.flt.hist ∧
      (∀ u sel off d f, u < 2 ^ 14 → sel < 2 ^ 18 → off < 4096 → regDefAt u off = some d → f ∈ d.fields → f.cls / 2 % 2 = 1 →
        u ≠ uHIF → u ≠ uTWN → u ≠ uPLN →
        bitsOf (t.rd (regKey u sel off)).toNat f.lo f.w = bitsOf (regDflt (regKey u sel off)).toNat f.lo f.w)

/-- Supply warnings, thermal and governor samples, wear and the power states take effect. While the clock runs:
SUPPLY_WARN below 95 % of target is marked, counted and reported and ends at 95 %; a thermal sample reads into
PLN_THERM 10 us after the last, a cool one only drives the steps, the second at 125 C or above reports source 2,
counts a trip and resets (out of Plinth-only CORE_PWR_EN rises); a governor sample moves the allowance and the level;
a wear second counts in its bins. BANKED, ACTIVE and PLINTH_ONLY written to DEV_POWER_CMD begin their entry or exit; a
drain that holds nothing, or at its limit is forced, switches FWD off (the DRAM drain of footing mode puts DRAM into
self-refresh); the end of a Banked exit makes good units Ready and the state Active. -/
def Obligations.SuppliesTemperatureAndPower : Prop :=
  ∀ s : State,
    (∀ mv, s.clk.running = true → s.pwr.mode ≠ 3 → s.pwr.supplyWarn = false → mv * 100 < s.getF uPLN F.PLN_SUPPLY_TARGET_MV * 95 →
      let x := (((s.setF uPLN F.PLN_SUPPLY_VDD_MV mv).coreFell.modPwr fun p => { p with supplyWarn := true }).addF uPLN F.PLN_SUPPLY_WARNS_COUNT 1)
      exec (.supplyWarn mv) s = .next (s.after ((x.event 0xA3 0x402 uPLN mv (x.getF uPLN F.PLN_SUPPLY_TARGET_MV)).report uPLN 3 mv))) ∧
    (∀ mv, s.clk.running = true → s.getF uPLN F.PLN_SUPPLY_TARGET_MV * 95 ≤ mv * 100 → exec (.supplyWarnEnd mv) s =
      .next (s.after ((s.modPwr fun p => { p with
        supplyWarn := false, coreLow := false, coreOkAt := if s.pwr.coreLow then s.ns else s.pwr.coreOkAt }).setF uPLN F.PLN_SUPPLY_VDD_MV mv))) ∧
    (∀ (tj : Int) (sensor : Nat), s.clk.running = true →
      let x := s.reach (s.pwr.thermAt + 10000)
      let y := (x.setF uPLN F.PLN_THERM_TJ (tj % 65536).toNat).setF uPLN F.PLN_THERM_SENSOR (sensor % 32)
      let z := y.modPwr fun p => { p with
        thermAt := y.ns, hot120 := if 1920 ≤ tj then y.pwr.hot120 + 1 else 0, hot125 := if 2000 ≤ tj then y.pwr.hot125 + 1 else 0 }
      (tj < 1840 → z.pwr.mode = 0 → exec (.thermalSample tj sensor) s =
        .next (s.after ((z.thermSteps tj).modPwr fun p => { p with thermFoot := false }))) ∧
      let w := ((z.report uPLN 2 (tj % 65536).toNat).react).addF uPLN F.PLN_WEAR_TRIPS 1
      (z.pwr.hot125 = 2 → z.pwr.mode ≠ 1 → w.pwr.mode ≠ 3 →
        exec (.thermalSample tj sensor) s = .next (s.after (w.chipReset 0x20))) ∧
      (z.pwr.hot125 = 2 → z.pwr.mode ≠ 1 → w.pwr.mode = 3 →
        exec (.thermalSample tj sensor) s = .next (s.after (w.coreOn.chipReset 0x20)))) ∧
    (∀ mw, s.clk.running = true → s.pwr.mode = 0 →
      let x := s.reach (s.pwr.govAt + 10000)
      (x.govNew mw = x.getF uPLN F.PLN_TRIM_GOV_LEVEL → exec (.governorSample mw) s = .next (s.after (x.govShow mw))) ∧
      (x.govNew mw ≠ x.getF uPLN F.PLN_TRIM_GOV_LEVEL →
        exec (.governorSample mw) s = .next (s.after ((x.govShow mw).setLevel (x.govNew mw) mw)))) ∧
    (∀ mw, s.govSpend mw = govAllow s.pwr.allow s.pwr.spent (decide (s.getF uPLN F.PLN_GOV_CFG_LIMIT_W * 1000 < mw)) ∧
      s.govCap mw = (if (s.govSpend mw).2 then s.getF uPLN F.PLN_GOV_CFG_LIMIT_W * 1000 else s.getF uPLN F.PLN_GOV_CFG_PEAK_W * 1000) ∧
      s.govStep mw = govLevel (s.getF uPLN F.PLN_TRIM_GOV_LEVEL) (if s.pwr.supplyWarn then 4 else 0) mw (s.govCap mw) (s.ns - s.pwr.stepAt) ∧
      s.govNew mw = max (s.govStep mw).1 (if s.pwr.supplyWarn then 4 else 0)) ∧
    (s.clk.running = true → s.pwr.mode ≠ 3 →
      let x := s.reachCore ((s.clk.core / 65536000000000 + 1) * 65536000000000)
      x.pwr.mode ≠ 3 → x.pwr.fwdOff = false → signedOf (x.getF uPLN F.PLN_THERM_TJ) 16 < 1600 →
        exec .wearSecond s = .next (s.after (x.addF uPLN (F.PLN_WEAR_SECONDS.i 0) 1))) ∧
    (∀ m, (s.writeOk m uDEV 0x10C 2 → exec (.banked m) s = .next ((s.stored m uDEV 0x10C 2).setPower 3).ended) ∧
      (s.writeOk m uDEV 0x10C 1 → exec (.active m) s =
        .next (((s.stored m uDEV 0x10C 1).modPwr fun p => { p with fwdOff := false, drainAt := none }).setPower 4).ended) ∧
      (s.writeOk m uDEV 0x10C 3 → exec (.plinthOnly m) s = .next ((s.stored m uDEV 0x10C 3).setPower 5).ended)) ∧
    (∀ t, s.running = true → s.pwr.drainAt = some t →
      (s.heldCount = 0 → exec .powerDrainDone s = .next (s.after s.powerOff)) ∧
      (s.heldCount ≠ 0 → exec .powerDrainDone s = .next (s.after s)) ∧
      exec .powerDrainTimeout s = .next (s.after (s.reach (t + s.getF uDEV F.DEV_DRAIN_TIMEOUT_US * 1000)).forceDrain.powerOff)) ∧
    (∀ t, s.running = true → s.pwr.drainAt = none → s.pwr.dmcDrainAt = some t →
      (s.heldReads = [] → exec .powerDrainDone s = .next (s.after s.dmcSleep)) ∧
      exec .powerDrainTimeout s = .next (s.after (s.reach (t + s.getF uDEV F.DEV_DRAIN_TIMEOUT_US * 1000)).forceReads.dmcSleep)) ∧
    (s.running = true → s.getF uDEV F.DEV_POWER_STATUS_STATE = 4 → s.pwr.wasRet = [] →
      let x := s.modDram fun d => { d with selfRef := [] }
      let y := x.each s.pwr.wasUp fun s u =>
        (((s.setF u F.UCB_TEST_RESULT_DONE 1).setF u F.UCB_TEST_RESULT_PASS 1).setF u F.UCB_TEST_RESULT_CODE 0).setUst u 3
      exec (.bankedExitDone [] []) s = .next (s.after ((y.modPwr fun p => { p with wasUp := [], wasRet := [] }).setPower 0)))

/-- Plinth time is set, slewed, compared with and captured. An accepted write of PLN_TIME_CTL.SET sets plinth time,
and one of PLN_SLEW the time still to absorb (the register itself is not written). While the clock runs, a slew of d
ns is absorbed at 1,000 ppm; an enabled comparator fires at its time, with its pin, event and wake, and rearms by its
period or is disabled; an edge on PPS_IN i that matches EDGE of an enabled capture loads the plinth time of the edge
(20 ns before it has passed the input's filter) into CAP and adds 1 to CAP_COUNT, with EVT = 1 raising
EVT_PPS_CAPTURE; any other edge, of a capture enabled for the other EDGE, of one that is off or of another pin,
changes nothing. -/
def Obligations.PlinthTimeIsKept : Prop :=
  ∀ s : State,
    (∀ m, s.writeOk m uPLN 0x114 (2 ^ 31) → exec (.timeSet m) s = .next (s.stored m uPLN 0x114 (2 ^ 31)).timeSet.ended) ∧
    (∀ m v, s.writeOk m uPLN 0x11C v → exec (.plnSlew m v) s =
      .next (((s.stored m uPLN 0x11C v).wr (regKey uPLN 0 0x11C) ((s.seen m (4096 * uPLN + 0x11C)).rd (regKey uPLN 0 0x11C))).slewBy
        (signedOf v 32)).ended) ∧
    (s.clk.running = true →
      (s.clk.slew ≠ 0 →
        let acc : Int := (s.clk.acc : Int) + s.clk.slew.natAbs * (1000000000 + signedOf (s.getF uPLN F.PLN_FREQ_PPB) 32) + s.clk.slew * 1000000
        exec .slewAbsorbed s = .next (s.after (s.modClk fun c => { c with
          now := s.clk.now + (acc / 1000000000).toNat, acc := (acc % 1000000000).toNat, slew := 0
          core := s.clk.core + s.clk.slew.natAbs }))) ∧
      (∀ k, k < 8 → s.getF uPLN (F.PLN_CMP_CTL_EN.i k) ≠ 0 →
        exec (.timeComparatorFire k) s = .next (s.after (((s.reach (s.cmpTime k)).cmpAct k).cmpRearm k false))) ∧
      (∀ i falling, i < 2 → s.getF uPLN (F.PLN_CAP_CTL_EN.i i) ≠ 0 →
        (s.getF uPLN (F.PLN_CAP_CTL_EDGE.i i) = 1 ↔ falling = true) →
        let x := (s.setF uPLN (F.PLN_CAP_LO_NS.i i) ((s.ns - 20) % 2 ^ 32)).setF uPLN (F.PLN_CAP_HI_NS.i i) ((s.ns - 20) / 2 ^ 32)
        let y := (x.setF uPLN (F.PLN_CAP_CTL_FRAC.i i) x.frac).addF uPLN (F.PLN_CAP_COUNT_COUNT.i i) 1
        (y.getF uPLN (F.PLN_CAP_CTL_EVT.i i) = 1 → exec (.ppsEdge i falling) s =
          .next (s.after (y.event 0xA8 (0x40C + i) uPLN i (s.ns - 20)))) ∧
        (y.getF uPLN (F.PLN_CAP_CTL_EVT.i i) ≠ 1 → exec (.ppsEdge i falling) s = .next (s.after y))) ∧
      (∀ i falling, i < 2 → s.getF uPLN (F.PLN_CAP_CTL_EN.i i) ≠ 0 → ¬ (s.getF uPLN (F.PLN_CAP_CTL_EDGE.i i) = 1 ↔ falling = true) →
        exec (.ppsEdge i falling) s = .next (s.after s)) ∧
      (∀ i falling, (2 ≤ i ∨ s.getF uPLN (F.PLN_CAP_CTL_EN.i i) = 0) → exec (.ppsEdge i falling) s = .next (s.after s)))

/-- WARDEN_LOAD, WARDEN_SWITCH, CONFIG_IMAGE and FUSE_UPDATE check their image, act and end with the status of the
rules. While the device runs, for the next image descriptor of a ring, in its order, with the secure session open: an
image whose fetch failed ends with CRC, one that the checks of R415 to R417 refuse with UCODE_CHECK and the failing
checks, WARDEN_LOAD of the running slot with RANGE; without the session every one ends with DENIED. An accepted
WARDEN_LOAD writes the image to its slot; WARDEN_SWITCH releases the warden's claims and starts the switch, whose end
runs the other slot, moves the boot pointer and extends MEAS7, and whose timeout ends with TIMEOUT and keeps the slot;
CONFIG_IMAGE extends MEAS5 and begins; FUSE_UPDATE begins to blow the fuses, and when the tick ends it they are blown
and it completes with its length. -/
def Obligations.ImageDescriptorsEnd : Prop :=
  ∀ (s : State) (r : Nat) (data : List Byte), s.running = true →
    (∀ d, let img := sliceBytes data 0 d.len
      s.imgDesc r 0x32 = some (d, true) → s.bit uWDN F.WDN_FW_STATUS_RECOVERY = false →
        (d.w2 % 2 = s.getF uWDN F.WDN_FW_STATUS_SLOT → ∀ ok,
          exec (.wardenLoad r data ok) s = .next (s.after (s.complete r d.idx (comp 1 0 0)))) ∧
        (d.w2 % 2 ≠ s.getF uWDN F.WDN_FW_STATUS_SLOT →
          exec (.wardenLoad r data false) s = .next (s.after (s.complete r d.idx (comp 3 0 0))) ∧
          (s.imgReason img 1 ≠ 0 →
            exec (.wardenLoad r data true) s = .next (s.after (s.complete r d.idx (comp 0x47 0 (s.imgReason img 1))))) ∧
          (s.imgReason img 1 = 0 → exec (.wardenLoad r data true) s = .next (s.after ((s.modSec fun c => { c with
            slotImg := s.sec.slotImg.put (fun _ => []) (d.w2 % 2) img }).complete r d.idx (comp 0 d.len 0)))))) ∧
    (∀ d, s.imgDesc r 0x33 = some (d, true) →
      let why := s.imgReason (s.slotImage (1 - s.getF uWDN F.WDN_FW_STATUS_SLOT)) 1
      let x := (s.setDesc r d.idx fun d => { d with begun := true }).each (List.range 64) fun s k =>
        if (s.claim k).any fun c => c.owner == 0 then s.setClaim k none else s
      (why ≠ 0 → exec (.wardenSwitch r) s = .next (s.after (s.complete r d.idx (comp 0x47 0 why)))) ∧
      (why = 0 → exec (.wardenSwitch r) s = .next (s.after (x.modSec fun c => { c with switching := some ⟨r, d.idx, x.ns⟩ })))) ∧
    (∀ w, s.sec.switching = some w →
      let k := 1 - s.getF uWDN F.WDN_FW_STATUS_SLOT
      let x := (s.switchEnd w).runSlot k
      exec .wardenSwitchDone s = .next (s.after (((x.modSec fun c => { c with bootPtr := k, switches := x.sec.switches + 1 }).extend 7
        (Config.countDigest (x.sec.switches + 1))).complete w.ring w.idx (comp 0 0 0))) ∧
      exec .wardenSwitchTimeout s =
        .next (s.after (((s.reach (w.at_ + 20000000000)).switchEnd w).complete w.ring w.idx (comp 8 0 0)))) ∧
    (∀ d, let img := sliceBytes data 0 d.len
      s.imgDesc r 0x34 = some (d, true) →
        exec (.configImage r data false) s = .next (s.after (s.complete r d.idx (comp 3 0 0))) ∧
        (s.imgReason img 3 ≠ 0 →
          exec (.configImage r data true) s = .next (s.after (s.complete r d.idx (comp 0x47 0 (s.imgReason img 3))))) ∧
        (s.imgReason img 3 = 0 → exec (.configImage r data true) s = .next (s.after (((s.setDesc r d.idx fun d =>
          { d with begun := true }).extend 5 (imgDigest img)).modSec fun c => { c with
            image := some ⟨some (r, d.idx), imgPayload img, 0⟩ })))) ∧
    (∀ d, let img := sliceBytes data 0 d.len
      s.imgDesc r 0x35 = some (d, true) →
        exec (.fuseUpdate r data false) s = .next (s.after (s.complete r d.idx (comp 3 0 0))) ∧
        (s.imgReason img 4 ≠ 0 →
          exec (.fuseUpdate r data true) s = .next (s.after (s.complete r d.idx (comp 0x47 0 (s.imgReason img 4))))) ∧
        (s.imgReason img 4 = 0 → s.fuseOk (imgPayload img) (imgSlot img) (imgSvn img) = true →
          exec (.fuseUpdate r data true) s = .next (s.after ((s.setDesc r d.idx fun d => { d with begun := true }).modSec fun c =>
            { c with fusing := some (fuseRun r d (imgPayload img)) }))) ∧
        (s.imgReason img 4 = 0 → s.fuseOk (imgPayload img) (imgSlot img) (imgSvn img) = false →
          exec (.fuseUpdate r data true) s = .next (s.after (s.complete r d.idx (comp 0x46 0 (2 ^ 24)))))) ∧
    (∀ f, s.sec.fusing = some f →
      s.fuseDone = (((s.blow f).modSec fun c => { c with fusing := none }).complete f.ring f.idx (comp 0 f.len 0))) ∧
    (∀ d ok, (s.imgDesc r 0x32 = some (d, false) →
        exec (.wardenLoad r data ok) s = .next (s.after (s.complete r d.idx (comp 4 0 0)))) ∧
      (s.imgDesc r 0x33 = some (d, false) → exec (.wardenSwitch r) s = .next (s.after (s.complete r d.idx (comp 4 0 0)))) ∧
      (s.imgDesc r 0x34 = some (d, false) →
        exec (.configImage r data ok) s = .next (s.after (s.complete r d.idx (comp 4 0 0)))) ∧
      (s.imgDesc r 0x35 = some (d, false) →
        exec (.fuseUpdate r data ok) s = .next (s.after (s.complete r d.idx (comp 4 0 0)))))

/-- Mailbox words pass, crossings are marked, the services answer and the secure session opens, locks and closes.
While the device runs: an accepted outbound write stores the word and sets OUT_FULL, or over a full word only counts
and raises EVT_MB_OVERRUN; the host's acknowledgement clears IN_FULL; the warden (while it runs) writes its reply's
next word into a free inbound word, and reads a header, checking the host's ALIVE; MB_CROSS_TIME with both flags 1
sets CROSSED and raises EVT_MB_CROSSED to PF0 and the warden; PING, STATUS and ATTEST answer a whole request of their
own, ATTEST on channels 16 to 31 with DENIED. GO starts a verification; its end replaces the challenge and opens the
session, or counts the failure, every third one locking out for 1 s; LOCKOUT ends; CLOSE closes. (When a request is
read on and what a reply waits for are the readings of log entry 54.) -/
def Obligations.MailboxesServicesAndTheSession : Prop :=
  ∀ (s : State) (k : Nat), s.running = true →
    (∀ (m v : Nat), k < 32 → v < 2 ^ 32 → m = 1 → s.reaches m = true →
      let x := s.occur uHIF 0x101 4 (some m) (16 * k) 1
      x.bar4Reason (16 * k) v = 0 →
        (x.mbFlag k F.MB_STATUS_OUT_FULL = false → exec (.mbOutWrite m k v) s =
          .next (((x.setF uBAR4 (F.MB_OUT_DATA.i k) v).setF uBAR4 (F.MB_STATUS_OUT_FULL.i k) 1).mbBoth k).ended) ∧
        (x.mbFlag k F.MB_STATUS_OUT_FULL = true → exec (.mbOutWrite m k v) s =
          .next ((x.addF uBAR4 (F.MB_DROPPED_COUNT.i k) 1).event 0xC1 0x410 uWDN (0 * 32 + k) 0).ended)) ∧
    (∀ m : Nat, k < 32 → m = 1 → s.reaches m = true →
      let x := s.occur uHIF 0x101 4 (some m) (16 * k + 8) 1
      x.bar4Reason (16 * k + 8) (2 ^ 30) = 0 → exec (.mbInAck m k) s = .next ((x.setF uBAR4 (F.MB_STATUS_IN_FULL.i k) 0).mbBoth k).ended) ∧
    (k < 32 → s.wardenUp = true → s.mbFlag k F.MB_STATUS_IN_FULL = false → ∀ w rest, s.replies k = w :: rest →
      exec (.mbInWrite k none) s = .next (s.after ((s.setReplies k rest).mbIn k w))) ∧
    (k < 32 → s.wardenUp = true → s.mbFlag k F.MB_STATUS_IN_FULL = true → ∀ w, exec (.mbInWrite k (some w)) s =
      .next (s.after ((s.addF uBAR4 (F.MB_DROPPED_COUNT.i k) 1).event 0xC1 0x410 uWDN (1 * 32 + k) 0))) ∧
    (k < 32 → s.wardenUp = true → s.mbFlag k F.MB_STATUS_OUT_FULL = true → s.mbReq k = none → s.replies k = [] →
      let w := s.getF uBAR4 (F.MB_OUT_DATA.i k)
      exec (.mbOutAck k) s = .next (s.after (((((s.setF uBAR4 (F.MB_STATUS_OUT_FULL.i k) 0).mbBoth k).hostAlive k
        (bitsOf w 16 16)).setReq k (some ⟨bitsOf w 8 8, w % 256, []⟩)).mbAnswer k))) ∧
    (k < 32 → s.sec.bothAt.get (fun _ => 0) k ≠ 0 → s.sec.switching = none → s.mbFlag k F.MB_STATUS_CROSSED = false →
      exec (.mbCrossTimeout k) s = .next (s.after (((s.reach (s.sec.bothAt.get (fun _ => 0) k - 1 +
        s.getF uBAR4 F.MB_CROSS_TIME_US * 1000)).setF uBAR4 (F.MB_STATUS_CROSSED.i k) 1).secEventBoth 0xC0 k 0))) ∧
    (∀ code a b, s.secEventBoth code a b = (s.event code 0x410 uWDN a b).send (.warden (s.eventRec code 0x410 uWDN a b))) ∧
    (∀ x : MbReq, s.wardenUp = true → s.mbReq k = some x → x.len ≤ x.words.length →
      (x.op = 1 → exec (.ping k) s = .next (s.after ((s.setReq k none).reply k 1 [0]))) ∧
      (x.op = 2 → exec (.status k) s = .next (s.after ((s.setReq k none).reply k 2 [0, s.getF uWDN F.WDN_FW_STATUS_RECOVERY * 2 +
        s.getF uWDN F.WDN_FW_STATUS_SLOT, s.getF uWDN F.SEC_ARB_COUNT]))) ∧
      (x.op = 16 → k < 16 → exec (.attest k) s = .next (s.after ((s.signed.setReq k none).reply k 16
        (0 :: words32 (s.attestation (x.words.flatMap fun w => leBytes w 4)))))) ∧
      (x.op = 16 → 16 ≤ k → exec (.attest k) s = .next (s.after ((s.setReq k none).reply k 16 [1])))) ∧
    (∀ m : Nat, m = 1 → s.reaches m = true →
      let x := s.occur uHIF 0x101 4 (some m) 0x4C0 1
      (∀ slot, x.bar4Reason 0x4C0 (2 ^ 31 + slot % 2) = 0 → exec (.mbAuthGo m slot) s =
        .next ((x.withWritten uBAR4 0 0x4C0 (2 ^ 31 + slot % 2) allBits).setF uBAR4 F.MB_AUTH_STATUS_BUSY 1).ended) ∧
      (x.bar4Reason 0x4C0 (2 ^ 30) = 0 → exec (.mbAuthClose m) s =
        .next (x.withWritten uBAR4 0 0x4C0 (2 ^ 30) allBits).closeSession.ended)) ∧
    (s.bit uBAR4 F.MB_AUTH_STATUS_BUSY = true → s.sec.switching = none →
      let slot := s.getF uBAR4 F.MB_AUTH_CTL_OP_SLOT
      let sig := (List.range 24).flatMap fun i => leBytes (s.getF uBAR4 (F.MB_AUTH_SIG_DATA.i i)) 4
      let good := bitsOf (s.getF uWDN F.SEC_KEYS_OP_PRESENT) slot 1 == 1 && bitsOf (s.getF uWDN F.SEC_KEYS_OP_REVOKED) slot 1 == 0 &&
        ecdsaVerify (s.sec.opPub.get (fun _ => []) slot)
          (sha384 (s.challengeBytes ++ leBytes s.deviceId 8 ++ leBytes slot 1)) sig
      let x := (s.setF uBAR4 F.MB_AUTH_STATUS_BUSY 0).newChallenge
      (good = true → exec .authVerifyDone s = .next (s.after ((((x.setF uBAR4 F.MB_AUTH_STATUS_OPEN 1).setF uBAR4
        F.MB_AUTH_STATUS_FAILS 0).modSec fun c => { c with failRun := 0 }).event 0xC4 0x410 uWDN slot 0))) ∧
      (good = false →
        let n := min 255 (x.getF uBAR4 F.MB_AUTH_STATUS_FAILS + 1)
        let y := x.setF uBAR4 F.MB_AUTH_STATUS_FAILS n
        let run := x.sec.failRun + 1
        (run % 3 ≠ 0 → exec .authVerifyDone s = .next (s.after ((y.modSec fun c => { c with failRun := run, lockTill := y.sec.lockTill }).event
          0xC6 0x410 uWDN n 0))) ∧
        (run % 3 = 0 → exec .authVerifyDone s = .next (s.after (((y.modSec fun c => { c with
          failRun := run, lockTill := y.ns + 1000000000 }).setF uBAR4 F.MB_AUTH_STATUS_LOCKOUT 1).event 0xC6 0x410 uWDN n 0))))) ∧
    (s.bit uBAR4 F.MB_AUTH_STATUS_LOCKOUT = true → exec .lockoutEnd s =
      .next (s.after ((s.reach s.sec.lockTill).setF uBAR4 F.MB_AUTH_STATUS_LOCKOUT 0)))

/-- Each of the seven SPDM requests is answered over DOE, with Busy while the warden is away. For PF0 and PF2 of a
running device, each of GET_VERSION, GET_CAPABILITIES, NEGOTIATE_ALGORITHMS, GET_DIGESTS, GET_CERTIFICATE, CHALLENGE
and GET_MEASUREMENTS sends one answer over DOE: ERROR Busy while the warden switches or is in recovery, ERROR
UnsupportedRequest where the bytes name another request or version, ERROR UnexpectedRequest before its turn, else the
answer of its rule; GET_VERSION is answered by VERSION 1.2 and starts the connection anew, NEGOTIATE_ALGORITHMS
selects among the offered only ECDSA P-384 and SHA-384. The byte formats are SPDM 1.2's (log entry 50). -/
def Obligations.SpdmRequestsAreAnswered : Prop :=
  ∀ (s : State) (pf : Nat) (m : List Byte), s.running = true → (pf = 0 ∨ pf = 2) →
    let E (i : Instr) (code : Nat) : Prop :=
      (s.wardenUp = false → exec i s = .next (s.after (s.send (.doe [0x12, 0x7F, 3, 0])))) ∧
      (s.wardenUp = true → (reqByte m 1 ≠ code ∨ reqByte m 0 ≠ (if code = 0x84 then 0x10 else 0x12)) →
        exec i s = .next (s.after (s.send (.doe [0x12, 0x7F, 7, byteOf (reqByte m 1)]))))
    let C (i : Instr) (code turn : Nat) : Prop :=
      s.wardenUp = true → reqByte m 1 = code → reqByte m 0 = 0x12 →
        ((if turn < 3 then (s.spdmConn pf).step ≠ turn else (s.spdmConn pf).step < 3) →
          exec i s = .next (s.after (s.send (.doe [0x12, 0x7F, 4, 0])))) ∧
        (¬ (if turn < 3 then (s.spdmConn pf).step ≠ turn else (s.spdmConn pf).step < 3) →
          exec i s = .next (s.after ((s.spdmAnswer pf code m).2.send (.doe (s.spdmAnswer pf code m).1))))
    E (.getVersion pf m) 0x84 ∧ E (.getCapabilities pf m) 0xE1 ∧ E (.negotiateAlgorithms pf m) 0xE3 ∧ E (.getDigests pf m) 0x81 ∧
    E (.getCertificate pf m) 0x82 ∧ E (.challenge pf m) 0x83 ∧ E (.getMeasurements pf m) 0xE0 ∧
    C (.getCapabilities pf m) 0xE1 1 ∧ C (.negotiateAlgorithms pf m) 0xE3 2 ∧ C (.getDigests pf m) 0x81 3 ∧
    C (.getCertificate pf m) 0x82 3 ∧ C (.challenge pf m) 0x83 3 ∧ C (.getMeasurements pf m) 0xE0 3 ∧
    (s.wardenUp = true → reqByte m 1 = 0x84 → reqByte m 0 = 0x10 →
      let v : List Byte := [0x10, 0x04, 0, 0, 0, 1, 0x00, 0x12]
      exec (.getVersion pf m) s = .next (s.after ((s.setSpdm pf { step := 1, a := m ++ v }).send (.doe v)))) ∧
    (s.wardenUp = true → reqByte m 1 = 0xE3 → reqByte m 0 = 0x12 → (s.spdmConn pf).step = 2 →
      ∃ t b, exec (.negotiateAlgorithms pf m) s = .next (s.after t) ∧ t.out = s.out ++ [.doe b] ∧
        leNat (sliceBytes b 12 4) = bitsOf (leNat (sliceBytes m 8 4)) 7 1 * 2 ^ 7 ∧
        leNat (sliceBytes b 16 4) = bitsOf (leNat (sliceBytes m 12 4)) 1 1 * 2)

/-- Every type of twin message takes its effect when it comes next in order. For a valid message to a running device
whose link is neither OFF nor LOST, once its ALIVE and ACK have been taken: HEARTBEAT renews the loss timer and shows
the peer's role, footing and COMMIT_SEQ (a peer that leaves Active is lost); NAK resends; HELLO, answered where it
acknowledges none, ends PAIRING. The next numbered message: TABLE_CMD runs, another status than the lead's diverging;
CFG_ENTRIES wait for the boundary; COMMIT_REQ is confirmed, COMMIT_OK schedules the switch and sends COMMIT_GO,
COMMIT_GO switches; SNAPSHOT writes its values; RESYNC_ENTRY and RESYNC_DONE fill and end the resynchronisation, every
field most significant byte first; RELEASE starts a follower's window. A repeat has no effect; a message with a wrong
CRC only counts, in every state of the link. (Bodies of SNAPSHOT and RESYNC_ENTRY and the SEQ of HELLO: log entry 43.)
-/
def Obligations.TwinMessagesTakeEffect : Prop :=
  ∀ (s : State) (m : List Byte) (h : TwinHdr),
    (s.twinReads 0 m h → (s.heard h).twinPaired = true →
      let n := beNat h.body
      let x := (s.heard h).modTwin fun w => { w with lastHb := (s.heard h).ns }
      let y := ((x.setF uTWN F.TWN_PEER_ROLE (bitsOf n 126 2)).setF uTWN F.TWN_PEER_FOOTING (bitsOf n 124 1)).setF uTWN
        F.TWN_PEER_PEER_SEQ (bitsOf n 96 16)
      ((bitsOf n 121 3 = 2 ∨ bitsOf n 121 3 = 3 ∨ bitsOf n 121 3 = 5) → exec (.heartbeat m) s = .next (s.after (y.twinLose 2))) ∧
      (¬ (bitsOf n 121 3 = 2 ∨ bitsOf n 121 3 = 3 ∨ bitsOf n 121 3 = 5) → exec (.heartbeat m) s = .next (s.after y))) ∧
    (s.twinReads 11 m h → (s.heard h).twinPaired = true → exec (.nak m) s = .next (s.after (s.heard h).twinResend)) ∧
    (s.twinReads 9 m h → (s.heard h).twnState = 1 →
      let x := s.heard h
      let b := beNat h.body
      let mode := x.getF uTWN F.TWN_CFG_MODE
      let apart := mode = 0 ∨ bitsOf b 6 2 ≠ mode
      let same := bitsOf b 4 1 = x.twinId
      let late := bitsOf b 8 16 ≠ x.getF uPLN F.PLN_WP_CFG_PERIOD_US
      let busy := x.leads b = false ∧ (List.range 8).any x.courseUp = true
      let y := if h.ack = 0 then (x.modTwin fun w => { w with got := max w.got 1 }).sendHello else x
      let fails (c : Nat) : Prop := exec (.hello m) s = .next (s.after ((y.setF uTWN F.TWN_STATUS_STATE 0).evtPaired c))
      (apart → fails 1) ∧ (¬ apart → same → fails 2) ∧ (¬ apart → ¬ same → late → fails 3) ∧
      (¬ apart → ¬ same → ¬ late → busy → fails 4) ∧
      (¬ apart → ¬ same → ¬ late → ¬ busy → exec (.hello m) s = .next (s.after (y.startResync (x.leads b))))) ∧
    (s.twinReads 9 m h → (s.heard h).twnState ≠ 1 →
      let x := s.heard h
      exec (.hello m) s = .next (s.after (if x.twinPaired ∧ h.ack = 0
        then (x.modTwin fun w => { w with got := max w.got 1 }).sendHello else x))) ∧
    (∀ lead, s.twinReads 1 m h → s.nextMsg h →
      let w (i : Nat) := beNat (sliceBytes h.body (8 * i) 8)
      let c := tcmdOf (w 0) (w 1) (w 2) (linkOperand (bitsOf (w 0) 56 8) (bitsOf (w 2) 56 8) (h.body.drop 32))
      let x := s.msgIn h lead
      let r := (x.modTwin fun w => { w with waitAt := none }).mirrorRun c
      x.mirrorWaits c = false →
        (r.1 = lead → exec (.twinTableCmd m lead) s = .next (s.after r.2.msgOut)) ∧
        (r.1 ≠ lead → exec (.twinTableCmd m lead) s = .next (s.after
          ((r.2.modTwin fun w => { w with diverged := true }).event 0xE4 0x420 uTWN (r.1 * 256 + lead) h.seq).msgOut))) ∧
    (s.twinReads 2 m h → s.nextMsg h → exec (.cfgEntries m) s = .next (s.after ((s.msgIn h 0).modTwin fun w => { w with
      waitAt := some ((s.msgIn h 0).twin.waitAt.getD (s.msgIn h 0).ns) }))) ∧
    (s.twinReads 3 m h → s.nextMsg h →
      let x := s.msgIn h 0
      let q := beNat h.body % 65536
      x.genState = 0 →
        (x.twin.diverged = false → x.footing = false → q = x.getF uTG F.GEN_STATUS_COMMIT_SEQ → exec (.commitReq m) s =
          .next (s.after ((x.modTwin fun w => { w with okSent := some q }).twinSend 4 (beBytes q 8)).msgOut)) ∧
        ((x.twin.diverged = true ∨ x.footing = true ∨ q ≠ x.getF uTG F.GEN_STATUS_COMMIT_SEQ) →
          exec (.commitReq m) s = .next (s.after x.msgOut))) ∧
    (s.twinReads 4 m h → s.nextMsg h →
      let x := s.msgIn h 0
      let q := beNat h.body % 65536
      x.gen.commit.isSome = true → x.gen.twinOk = false → q = x.getF uTG F.GEN_STATUS_COMMIT_SEQ → exec (.commitOk m) s =
        .next (s.after ((x.modGen fun g => { g with twinOk := true, twinOkAt := x.ns }).twinSend 5 (beBytes q 8)).msgOut)) ∧
    (s.twinReads 5 m h → s.nextMsg h →
      let x := s.msgIn h 0
      (x.twin.okSent = some (beNat h.body % 65536) → exec (.commitGo m) s = .next (s.after
        ((x.modTwin fun w => { w with okSent := none, goAt := true }).setF uTG F.GEN_STATUS_STATE 1).msgOut)) ∧
      (x.twin.okSent ≠ some (beNat h.body % 65536) → exec (.commitGo m) s = .next (s.after x.msgOut))) ∧
    (s.twinReads 6 m h → s.nextMsg h →
      let x := s.msgIn h 0
      let n := beNat (h.body.take 8)
      let i := bitsOf n 0 19
      let base := x.getF uTWN F.TWN_SNAP_BASE_LO_ADDR * 8 + x.getF uTWN F.TWN_SNAP_BASE_HI_ADDR * 2 ^ 32
      let k := min ((h.body.drop 8).length / 8) (0x42C00 - i)
      let bs := (List.range k).flatMap fun j => (sliceBytes (h.body.drop 8) (8 * j) 8).reverse
      k ≠ 0 → (bitsOf n 31 1 = 0 → exec (.snapshot m) s = .next (s.after (x.dramWrite (8 * 4096) (base + 8 * i) bs).2.msgOut)) ∧
        (bitsOf n 31 1 = 1 → exec (.snapshot m) s = .next (s.after (((x.dramWrite (8 * 4096) (base + 8 * i) bs).2.setF uTWN
          F.TWN_SNAP_STATUS_PERIOD (bitsOf n 32 32))).msgOut))) ∧
    (s.twinReads 7 m h → s.nextMsg h →
      let x := s.msgIn h 0
      let n := beNat (h.body.take 8)
      let t := bitsOf n 56 8
      let i := bitsOf n 0 32
      let img := leNat (linkImage t (h.body.drop 8))
      (t ≠ 0 → mirroredTable t = true →
        (tblKeyed t = true → exec (.resyncEntry m) s = .next (s.after (x.putKeyed t i (bothValid img)).msgOut)) ∧
        (tblKeyed t = false → tblGen t = true → exec (.resyncEntry m) s =
          .next (s.after ((x.putEnt t 0 i (img + validBit 0)).putEnt t 1 i (img + validBit 1)).msgOut)) ∧
        (tblKeyed t = false → tblGen t = false → exec (.resyncEntry m) s = .next (s.after (x.idxWrite t i img false).2.msgOut))) ∧
      (t = 0 → i < 8 → exec (.resyncEntry m) s = .next (s.after ((x.bindSeg i 0 (img % 2 ^ 32) (bitsOf img 32 32) (bitsOf img 64 32)).bindSeg
        i 1 (img % 2 ^ 32) (bitsOf img 32 32) (bitsOf img 64 32)).msgOut)) ∧
      (t = 0 → 8 ≤ i → exec (.resyncEntry m) s = .next (s.after ((((x.each (List.range 8) fun s n =>
        s.setF (uADM n) F.ADM_GEN_STATUS_GEN (img % 2)).setF uTG F.GEN_STATUS_ACTIVE (img % 2)).setF uTG F.GEN_STATUS_COMMIT_SEQ
          (bitsOf img 32 16))).msgOut))) ∧
    (s.twinReads 8 m h → s.nextMsg h → exec (.resyncDone m) s =
      .next (s.after (((s.msgIn h 0).setF uTWN F.TWN_STATUS_STATE 3).evtPaired 0).msgOut)) ∧
    (s.twinReads 10 m h → s.nextMsg h →
      let x := s.msgIn h 0
      (x.twnRole = 2 → exec (.release m) s = .next (s.after
        (x.modTwin fun w => { w with window := some x.ns, low := false, released := true }).msgOut)) ∧
      (x.twnRole ≠ 2 → exec (.release m) s = .next (s.after x.msgOut))) ∧
    (s.twinReads 3 m h → h.seq ≤ (s.heard h).twin.got → exec (.commitReq m) s = .next (s.after (s.heard h))) ∧
    (s.running = true → s.fwdOn = true → readTwin m = none →
      exec (.resyncDone m) s = .next (s.after (s.addF uTWN F.TWN_CRC_ERR 1)))

/-- Heartbeats, resends, loss, the back-off window, TWIN_HOLD, the lanes and the twin commands take effect. While the
device runs: HEARTBEAT_SEND at the next multiple of tHB; 20 us without an ACK resend every kept message; 30 us without
a HEARTBEAT lose the peer; in PAIRING the HELLO is repeated every tHB; PAIR and UNPAIR (which abandon and count unsent
snapshot runs), TAKEOVER and RELEASE act where an accepted write gives them. At the end of its window a follower that
saw TWIN_HOLD high throughout drives it, becomes lead, ends the squelch, counts and raises EVT_TWIN_TAKEOVER; one that
did not stays follower, raises EVT_TWIN_HOLD_BLOCKED and, LOST, begins a window tHB later. An edge of TWIN_HOLD shows
in HOLD_IN and spoils a running window; lanes leave and join LANES_UP, an out one losing its queue. -/
def Obligations.TwinLinkKeepsTimeAndHandsOver : Prop :=
  ∀ s : State,
    (s.running = true → s.twinPaired = true →
      let x := s.reach ((s.ns / 10000 + 1) * 10000)
      let b := x.twnRole * 2 ^ 126 + x.getF uTWN F.TWN_STATUS_HOLD_OUT * 2 ^ 125 + (if x.footing then 2 ^ 124 else 0) +
        x.getF uDEV F.DEV_POWER_STATUS_STATE * 2 ^ 121 + x.getF uTG F.GEN_STATUS_COMMIT_SEQ * 2 ^ 96 + x.clk.wpNum % 2 ^ 32 * 2 ^ 64
      exec .heartbeatSend s = .next (s.after ((x.twinPut (twinBytes 0 x.twin.hbAlive 0 x.twin.got (beBytes b 16)) true).modTwin
        fun w => { w with hbAlive := w.hbAlive + 1 }))) ∧
    (s.running = true → s.twinPaired = true → s.twin.store ≠ [] →
      exec .twinResendTimeout s = .next (s.after (s.reach (s.twin.ackAt + 20000)).twinResend)) ∧
    (s.running = true → s.twinPaired = true → exec .twinLost s = .next (s.after ((s.reach (s.twin.lastHb + 30000)).twinLose 0))) ∧
    (s.running = true → s.twnState = 1 → exec .helloResend s = .next (s.after (s.reach (s.twin.helloAt + 10000)).sendHello)) ∧
    (∀ t, s.running = true → s.twin.window = some t → s.twnRole = 2 →
      let x := s.reach (t + 2000 + 4000 * s.twinId)
      (x.twin.low = false → x.getF uTWN F.TWN_STATUS_HOLD_IN ≠ 0 → exec .takeoverWindowEnd s = .next (s.after
        (((((x.driveHold true).setF uTWN F.TWN_STATUS_ROLE 1).addF uTWN F.TWN_TAKEOVERS 1).modTwin fun w => { w with
          window := none, squelched := false, okSent := none }).event 0xE2 0x420 uTWN (if x.twin.released then 1 else 0) 0))) ∧
      ((x.twin.low = true ∨ x.getF uTWN F.TWN_STATUS_HOLD_IN = 0) →
        exec .takeoverWindowEnd s = .next (s.after ((x.modTwin fun w => { w with
          window := if x.twnState = 4 then some (t + 10000) else none, low := false }).event 0xE3 0x420 uTWN 0 0)))) ∧
    (∀ high, s.running = true →
      let x := s.setF uTWN F.TWN_STATUS_HOLD_IN (if high then 1 else 0)
      (∀ t, x.twin.window = some t → t ≤ x.ns → exec (.twinHoldEdge high) s = .next (s.after (x.modTwin fun w => { w with low := true }))) ∧
      (x.twin.window = none → exec (.twinHoldEdge high) s = .next (s.after x))) ∧
    (∀ l, s.running = true → l < 8 → exec (.twinLaneDown l) s = .next (s.after (s.twinLaneOut l))) ∧
    (∀ l, s.running = true → l < 8 → s.laneOk (0x10 + l) = true → exec (.twinLaneUp l) s =
      .next (s.after (s.setF uTWN F.TWN_STATUS_LANES_UP (setBitsOf (s.getF uTWN F.TWN_STATUS_LANES_UP) l 1 1)))) ∧
    (∀ m, s.writeOk m uTWN 0x114 1 →
      let x := (s.stored m uTWN 0x114 1).dropSnap
      exec (.pair m) s = .next ((({ x with twin := { ({} : Twin) with lanes := x.twin.lanes, next := 2, alive := x.twin.alive
                                                                      hbAlive := x.twin.hbAlive, goAt := x.twin.goAt, adaptAt := x.twin.adaptAt } } : State).setF uTWN F.TWN_STATUS_STATE 1).sendHello).ended) ∧
    (∀ m, s.writeOk m uTWN 0x114 2 →
      let x := (s.stored m uTWN 0x114 2).dropSnap
      exec (.unpair m) s = .next ((({ x with twin := { ({} : Twin) with lanes := x.twin.lanes, alive := x.twin.alive, hbAlive := x.twin.hbAlive
                                                                        squelched := x.twin.squelched, goAt := x.twin.goAt, adaptAt := x.twin.adaptAt } } : State).setF uTWN F.TWN_STATUS_STATE 0).setF uTWN F.TWN_STATUS_ROLE 0).ended) ∧
    (∀ m, s.writeOk m uTWN 0x114 3 →
      let x := s.stored m uTWN 0x114 3
      exec (.takeover m) s = .next (x.modTwin fun w => { w with window := some x.ns, low := false, released := true }).ended) ∧
    (∀ m, s.writeOk m uTWN 0x114 4 →
      let x := s.stored m uTWN 0x114 4
      x.twnRole = 1 → x.twnState = 3 →
        let y := x.twinSend 10 []
        let z := if y.getF uTWN F.TWN_CFG_MODE = 1 then (y.modTwin fun w => { w with squelched := true }) else y
        exec (.twnRelease m) s = .next ((z.driveHold false).setF uTWN F.TWN_STATUS_ROLE 2).ended)

/-- SMBus answers the commands of Table 7 and changes nothing else; the test access port scans. While the plinth clock
runs, each read of Table 7 at the device's address sends its data, a block with its length first and a packet error
code last where the master reads one, and changes nothing else; at another address nothing is sent. HIST_SEL of 0 to
31 with no or a right code selects the record and is acknowledged, any other is not and has no effect; a clock timeout
changes nothing; the Alert Response Address is answered while the pin is low. BYPASS, IDCODE (0x02560347) and
SAMPLE/PRELOAD work at any time; EXTEST, CLAMP, HIGHZ, EXTEST_PULSE and EXTEST_TRAIN in chip reset, and are BYPASS
outside it; the TAP resets to IDCODE; while VDD_IO is not valid none of this does anything. Under EXTEST and CLAMP the
boundary cells drive the pins, under HIGHZ none is driven, and the next instruction gives them back. (Byte orders and
the code: log entry 52; the instruction after a TAP reset: log entry 53.) -/
def Obligations.SmbusReadsAndTestAccess : Prop :=
  ∀ (s : State) (addr : Nat) (p : Bool),
    (s.clk.running = true →
      let R (i : Instr) (code : Nat) (block : Bool) (data : List Byte) : Prop :=
        (addr ≠ 0x58 + s.pwr.smbAddr → exec i s = .next (s.after s)) ∧
        (addr = 0x58 + s.pwr.smbAddr →
          let body := (if block then [BitVec.ofNat 8 data.length] else []) ++ data
          exec i s = .next (s.after (s.send (.smb (body ++ if p then
            [BitVec.ofNat 8 (pec ([BitVec.ofNat 8 (2 * addr), BitVec.ofNat 8 code, BitVec.ofNat 8 (2 * addr + 1)] ++ body))] else [])))))
      R (.deviceInfo addr p) 0x00 true (leBytes (0x2560 + Config.siliconRev % 256 * 2 ^ 16) 4) ∧
      R (.avsTarget addr p) 0x01 false (leBytes (s.getF uPLN F.PLN_SUPPLY_TARGET_MV) 2) ∧
      R (.vddSense addr p) 0x02 false (leBytes (s.getF uPLN F.PLN_SUPPLY_VDD_MV) 2) ∧
      R (.tj addr p) 0x03 false (leBytes (s.getF uPLN F.PLN_THERM_TJ) 2) ∧
      R (.smbPower addr p) 0x04 true (leBytes (if s.pwr.mode = 3 then 0 else s.getF uPLN F.PLN_POWER_AVG_MW) 4) ∧
      R (.resetCause addr p) 0x05 false (leBytes (s.getF uPLN F.PLN_RESET_CAUSE_CAUSE) 1) ∧
      R (.powerState addr p) 0x06 false (leBytes (if s.pwr.mode = 3 then 7 else s.getF uDEV F.DEV_POWER_STATUS_STATE) 1) ∧
      R (.wear addr p) 0x08 true (((List.range 6).flatMap fun k => leBytes (s.getF uPLN (F.PLN_WEAR_SECONDS.i k)) 4) ++
        leBytes (s.getF uPLN F.PLN_WEAR_TRIPS) 4 ++ leBytes (s.getF uPLN F.PLN_WEAR_BROWNOUTS) 4) ∧
      R (.faultStatus addr p) 0x09 false (leBytes (s.getF uFLT F.FLT_HIST_STATUS_FROZEN * 4 + (if s.faultPin then 2 else 0) +
        s.getF uFLT F.FLT_STATUS_FATAL_SEEN) 1) ∧
      R (.hist addr p) 0x0A true ((List.range 4).flatMap fun w => leBytes (s.histWord s.pwr.smbSel w) 4) ∧
      R (.smbTime addr p) 0x10 true (leBytes s.ns 8)) ∧
    (s.clk.running = true → ∀ (v : Nat) (c : Option Nat),
      (addr ≠ 0x58 + s.pwr.smbAddr → exec (.histSel addr v c) s = .next (s.after s)) ∧
      (addr = 0x58 + s.pwr.smbAddr →
        (v < 32 → c = none ∨ c = some (pec [BitVec.ofNat 8 (2 * addr), 0x0B, BitVec.ofNat 8 v]) →
          exec (.histSel addr v c) s = .next (s.after ((s.modPwr fun p => { p with smbSel := v }).send (.smbAck true)))) ∧
        (32 ≤ v → exec (.histSel addr v c) s = .next (s.after (s.send (.smbAck false)))) ∧
        (∀ b, c = some b → b ≠ pec [BitVec.ofNat 8 (2 * addr), 0x0B, BitVec.ofNat 8 v] →
          exec (.histSel addr v c) s = .next (s.after (s.send (.smbAck false)))))) ∧
    (s.clk.running = true → exec .smbClockTimeout s = .next (s.after s) ∧
      (s.pwr.alertOn = false → exec .alertResponse s = .next (s.after s)) ∧
      (s.pwr.alertOn = true → exec .alertResponse s = .next (s.after ((s.modPwr fun p => { p with alertAns := true }).send
        (.smb [BitVec.ofNat 8 (2 * (0x58 + s.pwr.smbAddr))]))))) ∧
    (s.ioOn = true →
      let L (ir : Nat) : State := s.setTap ir
      let S (ir pins cells : Nat) : State := ((L ir).modPwr fun p => { p with tapCells := cells }).send (.tap pins)
      let D (ir pins cells : Nat) : State := (S ir pins cells).send (.boundary 1 cells)
      exec .bypass s = .next ((L 0).send (.tap 0)).ended ∧ exec .idcode s = .next ((L 1).send (.tap 0x02560347)).ended ∧
      exec .tapReset s = .next (L 1).ended ∧
      (∀ pins cells, exec (.samplePreload pins cells) s = .next (S 2 pins cells).ended ∧
        (s.pwr.mode = 1 → exec (.extest pins cells) s = .next (D 3 pins cells).ended ∧
          exec (.extestPulse pins cells) s = .next (D 6 pins cells).ended ∧ exec (.extestTrain pins cells) s = .next (D 7 pins cells).ended) ∧
        (s.pwr.mode ≠ 1 → ∀ i, (i = .extest pins cells ∨ i = .extestPulse pins cells ∨ i = .extestTrain pins cells ∨ i = .clamp ∨
          i = .highz) → exec i s = .next ((L 0).send (.tap 0)).ended)) ∧
      (s.pwr.mode = 1 → exec .clamp s = .next ((L 4).send (.tap 0)).ended ∧ exec .highz s = .next ((L 5).send (.tap 0)).ended)) ∧
    (s.ioOn = false → ∀ i, (i = .bypass ∨ i = .idcode ∨ i = .tapReset ∨ i = .clamp ∨ i = .highz ∨ ∃ pins cells,
      i = .samplePreload pins cells ∨ i = .extest pins cells ∨ i = .extestPulse pins cells ∨ i = .extestTrain pins cells) →
      exec i s = .next s.ended) ∧
    (∀ ir, let t := s.modPwr fun p => { p with tapIr := ir }
      s.setTap ir = (if ir = 3 ∨ ir = 4 ∨ 6 ≤ ir then t.send (.boundary 1 s.pwr.tapCells)
        else if ir = 5 then (if s.pwr.tapIr = 5 then t else t.send (.boundary 2 0))
        else if s.pwr.tapIr < 3 then t else t.send (.boundary 0 0)))
end

