-- ==== Sys2Proof/Laws/Map.lean ====
section
/-!
SUPPORT. Laws of sparse maps: a read after a write of the same key gives the value written, a write leaves every other key
alone, and every operation keeps the canonical form. Laws of bit fields.
-/
namespace Sys2Proof.Machine

namespace KMap
variable {α : Type}

/-- Keys above `lo`. -/
theorem find_filter_ne (m : KMap α) (k k' : Nat) (h : k' ≠ k) : find (m.filter fun e => e.1 != k) k' = find m k' := by
  induction m with
  | nil => rfl
  | cons e r ih =>
    obtain ⟨a, v⟩ := e
    by_cases ha : a = k
    · subst ha; simp [find, h, ih]
    · simp [ha, find, ih]

theorem find_filter_self (m : KMap α) (k : Nat) : find (m.filter fun e => e.1 != k) k = none := by
  induction m with
  | nil => rfl
  | cons e r ih =>
    obtain ⟨a, v⟩ := e
    by_cases ha : a = k
    · subst ha; simpa using ih
    · simp [ha, find, ih, Ne.symm ha]

theorem find_insertAt_self (m : KMap α) (k : Nat) (v : α) (h : find m k = none) : find (insertAt k v m) k = some v := by
  induction m with
  | nil => simp [insertAt, find]
  | cons e r ih =>
    obtain ⟨a, w⟩ := e
    have hk : k ≠ a := by rintro rfl; simp [find] at h
    rw [find, if_neg hk] at h
    rw [insertAt]; split
    · simp [find]
    · rw [find, if_neg hk]; exact ih h

theorem find_insertAt_ne (m : KMap α) (k k' : Nat) (v : α) (h : k' ≠ k) : find (insertAt k v m) k' = find m k' := by
  induction m with
  | nil => simp [insertAt, find, h]
  | cons e r ih =>
    obtain ⟨a, w⟩ := e
    rw [insertAt]; split
    · simp [find, h]
    · simp only [find, ih]

variable [DecidableEq α]

/-- A read after a write of the same key. -/
@[simp] theorem get_put_self (d : Nat → α) (m : KMap α) (k : Nat) (v : α) : (m.put d k v).get d k = v := by
  unfold put get
  by_cases h : v = d k
  · simp [h, find_filter_self]
  · simp [h, find_insertAt_self _ _ _ (find_filter_self m k)]

/-- A write leaves every other key alone. -/
theorem get_put_ne (d : Nat → α) (m : KMap α) (k k' : Nat) (v : α) (h : k' ≠ k) : (m.put d k v).get d k' = m.get d k' := by
  unfold put get
  by_cases hv : v = d k
  · simp [hv, find_filter_ne _ _ _ h]
  · simp [hv, find_insertAt_ne _ _ _ _ h, find_filter_ne _ _ _ h]

/-- A read after a write, in one law. -/
theorem get_put (d : Nat → α) (m : KMap α) (k k' : Nat) (v : α) :
    (m.put d k v).get d k' = if k' = k then v else m.get d k' := by
  split
  · next h => rw [h]; exact get_put_self d m k v
  · next h => exact get_put_ne d m k k' v h

omit [DecidableEq α] in
@[simp] theorem get_nil (d : Nat → α) (k : Nat) : get d [] k = d k := rfl

/-! ### The canonical form -/

/-- Every key of the list lies above `lo`. -/
def above (lo : Option Nat) (k : Nat) : Bool := match lo with | none => true | some l => decide (l < k)

theorem wfFrom_cons (d : Nat → α) (lo : Option Nat) (k : Nat) (v : α) (r : KMap α) :
    wfFrom d lo ((k, v) :: r) = true ↔ above lo k = true ∧ v ≠ d k ∧ wfFrom d (some k) r = true := by
  cases lo <;> simp [wfFrom, above, and_assoc]

theorem above_trans {lo : Option Nat} {a b : Nat} (h : above lo a = true) (hb : a < b) : above lo b = true := by
  cases lo with
  | none => rfl
  | some l => simp [above] at *; omega

theorem wfFrom_weaken (d : Nat → α) {lo : Option Nat} {a : Nat} (h : above lo a = true) :
    ∀ {m : KMap α}, wfFrom d (some a) m = true → wfFrom d lo m = true
  | [], _ => rfl
  | (k, v) :: r, hm => by
    rw [wfFrom_cons] at hm ⊢
    exact ⟨above_trans h (by simpa [above] using hm.1), hm.2⟩

theorem wfFrom_filter (d : Nat → α) (p : Nat × α → Bool) :
    ∀ (m : KMap α) (lo : Option Nat), wfFrom d lo m = true → wfFrom d lo (m.filter p) = true
  | [], _, _ => rfl
  | (k, v) :: r, lo, h => by
    rw [wfFrom_cons] at h
    by_cases hp : p (k, v) = true
    · rw [List.filter_cons, if_pos hp, wfFrom_cons]
      exact ⟨h.1, h.2.1, wfFrom_filter d p r _ h.2.2⟩
    · rw [List.filter_cons, if_neg hp]
      exact wfFrom_weaken d h.1 (wfFrom_filter d p r _ h.2.2)

theorem wfFrom_insertAt (d : Nat → α) (k : Nat) (v : α) (hv : v ≠ d k) :
    ∀ (m : KMap α) (lo : Option Nat), above lo k = true → find m k = none → wfFrom d lo m = true →
      wfFrom d lo (insertAt k v m) = true
  | [], lo, ha, _, _ => by rw [insertAt, wfFrom_cons]; exact ⟨ha, hv, rfl⟩
  | (a, w) :: r, lo, ha, hf, h => by
    have hk : k ≠ a := by rintro rfl; simp [find] at hf
    rw [find, if_neg hk] at hf
    rw [wfFrom_cons] at h
    rw [insertAt]; split
    · next hl => rw [wfFrom_cons, wfFrom_cons]; exact ⟨ha, hv, by simpa [above] using hl, h.2⟩
    · next hl =>
      rw [wfFrom_cons]
      exact ⟨h.1, h.2.1, wfFrom_insertAt d k v hv r _ (by simp [above]; omega) hf h.2.2⟩

/-- A write keeps the canonical form. -/
theorem wf_put (d : Nat → α) (m : KMap α) (k : Nat) (v : α) (h : m.wf d = true) : (m.put d k v).wf d = true := by
  have hf : wfFrom d none (m.filter fun e => e.1 != k) = true := wfFrom_filter d _ m none h
  unfold put wf
  by_cases hv : v = d k
  · simpa [hv] using hf
  · simpa [hv] using wfFrom_insertAt d k v hv _ none rfl (find_filter_self m k) hf

/-- Forgetting keys keeps the canonical form. -/
theorem wf_keep (d : Nat → α) (m : KMap α) (p : Nat → Bool) (h : m.wf d = true) : (m.keep p).wf d = true :=
  wfFrom_filter d _ m none h

/-- Rewriting every entry keeps the canonical form. -/
theorem wf_remap (d : Nat → α) (f : Nat → α → α) (m : KMap α) (h : m.wf d = true) : (m.remap d f).wf d = true := by
  suffices ∀ (m : KMap α) (lo : Option Nat), wfFrom d lo m = true → wfFrom d lo (m.remap d f) = true from this m none h
  intro m
  induction m with
  | nil => intro _ _; rfl
  | cons e r ih =>
    obtain ⟨k, v⟩ := e
    intro lo h
    rw [wfFrom_cons] at h
    rw [remap]; split
    · exact wfFrom_weaken d h.1 (ih _ h.2.2)
    · next hv => rw [wfFrom_cons]; exact ⟨h.1, hv, ih _ h.2.2⟩

end KMap

/-! ### Bit fields -/

/-- A field reads what was written to it, cut to its width. -/
@[simp] theorem bitsOf_setBitsOf_self (n lo w v : Nat) : bitsOf (setBitsOf n lo w v) lo w = v % 2 ^ w := by
  have hp : 0 < 2 ^ lo := Nat.two_pow_pos lo
  have e : setBitsOf n lo w v = n % 2 ^ lo + 2 ^ lo * (v % 2 ^ w + 2 ^ w * (n / 2 ^ (lo + w))) := by
    unfold setBitsOf; rw [Nat.pow_add]; ring
  rw [bitsOf, e, Nat.add_mul_div_left _ _ hp, Nat.div_eq_of_lt (Nat.mod_lt _ hp), Nat.zero_add,
    Nat.add_mul_mod_self_left, Nat.mod_mod]

/-- A field below the one written reads as before. -/
theorem bitsOf_setBitsOf_below (n lo w v a b : Nat) (h : a + b ≤ lo) : bitsOf (setBitsOf n lo w v) a b = bitsOf n a b := by
  obtain ⟨c, rfl⟩ := Nat.exists_eq_add_of_le h
  have hp : 0 < 2 ^ a := Nat.two_pow_pos a
  have e : setBitsOf n (a + b + c) w v = n % 2 ^ (a + b + c) +
      2 ^ (a + b) * (2 ^ c * (v % 2 ^ w + 2 ^ w * (n / 2 ^ (a + b + c + w)))) := by
    unfold setBitsOf; simp only [Nat.pow_add]; ring
  have q (x : Nat) : bitsOf x a b = x % 2 ^ (a + b) / 2 ^ a := by
    rw [bitsOf, Nat.pow_add, Nat.mod_mul_right_div_self]
  rw [q, q, e, Nat.add_mul_mod_self_left, Nat.mod_mod_of_dvd _ (pow_dvd_pow 2 (Nat.le_add_right _ _))]

/-- A field above the one written reads as before. -/
theorem bitsOf_setBitsOf_above (n lo w v a b : Nat) (h : lo + w ≤ a) : bitsOf (setBitsOf n lo w v) a b = bitsOf n a b := by
  obtain ⟨c, rfl⟩ := Nat.exists_eq_add_of_le h
  have hp : 0 < 2 ^ (lo + w) := Nat.two_pow_pos _
  have hl : v % 2 ^ w * 2 ^ lo + n % 2 ^ lo < 2 ^ (lo + w) := by
    have h1 : v % 2 ^ w < 2 ^ w := Nat.mod_lt _ (Nat.two_pow_pos w)
    have h2 : n % 2 ^ lo < 2 ^ lo := Nat.mod_lt _ (Nat.two_pow_pos lo)
    have h3 : (v % 2 ^ w + 1) * 2 ^ lo ≤ 2 ^ w * 2 ^ lo := Nat.mul_le_mul_right _ h1
    rw [Nat.pow_add, Nat.mul_comm (2 ^ lo)]; rw [Nat.add_mul, Nat.one_mul] at h3; omega
  have e : setBitsOf n lo w v / 2 ^ (lo + w) = n / 2 ^ (lo + w) := by
    rw [setBitsOf, Nat.add_assoc, Nat.add_comm, Nat.add_mul_div_right _ _ hp, Nat.div_eq_of_lt hl, Nat.zero_add]
  rw [bitsOf, bitsOf, Nat.pow_add 2 (lo + w) c, ← Nat.div_div_eq_div_mul, ← Nat.div_div_eq_div_mul, e]

/-- A number within a width survives its bytes. -/
theorem leNat_leBytes (n len : Nat) : leNat (leBytes n len) = n % 256 ^ len := by
  induction len generalizing n with
  | zero => simp [leBytes, leNat, Nat.mod_one]
  | succ k ih =>
    have e : (256 : Nat) ^ (k + 1) = 256 * 256 ^ k := Nat.pow_succ'
    rw [leBytes, leNat, ih, BitVec.toNat_ofNat, e, Nat.mod_mul]

@[simp] theorem leBytes_length (n len : Nat) : (leBytes n len).length = len := by
  induction len generalizing n with
  | zero => rfl
  | succ k ih => simp [leBytes, ih]

@[simp] theorem beBytes_length (n len : Nat) : (beBytes n len).length = len := by simp [beBytes]

/-- Numbers survive the wire order too. -/
theorem beNat_beBytes (n len : Nat) : beNat (beBytes n len) = n % 256 ^ len := by
  rw [beNat, beBytes, List.reverse_reverse, leNat_leBytes]

end Sys2Proof.Machine
end

