-- ==== Sys2Proof/Laws/State.lean ====
section
/-!
SUPPORT. What each update of the state leaves in each field, so that no proof unfolds a record update; and what a register
field reads as after a write of it or of another.
-/
namespace Sys2Proof.Machine

/-! ### `modClk` -/

@[simp] theorem State.modClk_clk (s : State) (f : Clk → Clk) : (s.modClk f).clk = f s.clk := rfl
@[simp] theorem State.modClk_regs (s : State) (f : Clk → Clk) : (s.modClk f).regs = s.regs := rfl
@[simp] theorem State.modClk_ctrs (s : State) (f : Clk → Clk) : (s.modClk f).ctrs = s.ctrs := rfl
@[simp] theorem State.modClk_latch (s : State) (f : Clk → Clk) : (s.modClk f).latch = s.latch := rfl
@[simp] theorem State.modClk_claims (s : State) (f : Clk → Clk) : (s.modClk f).claims = s.claims := rfl
@[simp] theorem State.modClk_hif (s : State) (f : Clk → Clk) : (s.modClk f).hif = s.hif := rfl
@[simp] theorem State.modClk_flt (s : State) (f : Clk → Clk) : (s.modClk f).flt = s.flt := rfl
@[simp] theorem State.modClk_pwr (s : State) (f : Clk → Clk) : (s.modClk f).pwr = s.pwr := rfl
@[simp] theorem State.modClk_ports (s : State) (f : Clk → Clk) : (s.modClk f).ports = s.ports := rfl
@[simp] theorem State.modClk_rx (s : State) (f : Clk → Clk) : (s.modClk f).rx = s.rx := rfl
@[simp] theorem State.modClk_courses (s : State) (f : Clk → Clk) : (s.modClk f).courses = s.courses := rfl
@[simp] theorem State.modClk_tbl (s : State) (f : Clk → Clk) : (s.modClk f).tbl = s.tbl := rfl
@[simp] theorem State.modClk_meters (s : State) (f : Clk → Clk) : (s.modClk f).meters = s.meters := rfl
@[simp] theorem State.modClk_gen (s : State) (f : Clk → Clk) : (s.modClk f).gen = s.gen := rfl
@[simp] theorem State.modClk_bas (s : State) (f : Clk → Clk) : (s.modClk f).bas = s.bas := rfl
@[simp] theorem State.modClk_eng (s : State) (f : Clk → Clk) : (s.modClk f).eng = s.eng := rfl
@[simp] theorem State.modClk_punts (s : State) (f : Clk → Clk) : (s.modClk f).punts = s.punts := rfl
@[simp] theorem State.modClk_reports (s : State) (f : Clk → Clk) : (s.modClk f).reports = s.reports := rfl
@[simp] theorem State.modClk_tal (s : State) (f : Clk → Clk) : (s.modClk f).tal = s.tal := rfl
@[simp] theorem State.modClk_dram (s : State) (f : Clk → Clk) : (s.modClk f).dram = s.dram := rfl
@[simp] theorem State.modClk_fab (s : State) (f : Clk → Clk) : (s.modClk f).fab = s.fab := rfl
@[simp] theorem State.modClk_twin (s : State) (f : Clk → Clk) : (s.modClk f).twin = s.twin := rfl
@[simp] theorem State.modClk_sec (s : State) (f : Clk → Clk) : (s.modClk f).sec = s.sec := rfl
@[simp] theorem State.modClk_out (s : State) (f : Clk → Clk) : (s.modClk f).out = s.out := rfl
@[simp] theorem State.modClk_draws (s : State) (f : Clk → Clk) : (s.modClk f).draws = s.draws := rfl
@[simp] theorem State.modClk_pending (s : State) (f : Clk → Clk) : (s.modClk f).pending = s.pending := rfl

/-! ### `modHif` -/

@[simp] theorem State.modHif_clk (s : State) (f : Hif → Hif) : (s.modHif f).clk = s.clk := rfl
@[simp] theorem State.modHif_regs (s : State) (f : Hif → Hif) : (s.modHif f).regs = s.regs := rfl
@[simp] theorem State.modHif_ctrs (s : State) (f : Hif → Hif) : (s.modHif f).ctrs = s.ctrs := rfl
@[simp] theorem State.modHif_latch (s : State) (f : Hif → Hif) : (s.modHif f).latch = s.latch := rfl
@[simp] theorem State.modHif_claims (s : State) (f : Hif → Hif) : (s.modHif f).claims = s.claims := rfl
@[simp] theorem State.modHif_hif (s : State) (f : Hif → Hif) : (s.modHif f).hif = f s.hif := rfl
@[simp] theorem State.modHif_flt (s : State) (f : Hif → Hif) : (s.modHif f).flt = s.flt := rfl
@[simp] theorem State.modHif_pwr (s : State) (f : Hif → Hif) : (s.modHif f).pwr = s.pwr := rfl
@[simp] theorem State.modHif_ports (s : State) (f : Hif → Hif) : (s.modHif f).ports = s.ports := rfl
@[simp] theorem State.modHif_rx (s : State) (f : Hif → Hif) : (s.modHif f).rx = s.rx := rfl
@[simp] theorem State.modHif_courses (s : State) (f : Hif → Hif) : (s.modHif f).courses = s.courses := rfl
@[simp] theorem State.modHif_tbl (s : State) (f : Hif → Hif) : (s.modHif f).tbl = s.tbl := rfl
@[simp] theorem State.modHif_meters (s : State) (f : Hif → Hif) : (s.modHif f).meters = s.meters := rfl
@[simp] theorem State.modHif_gen (s : State) (f : Hif → Hif) : (s.modHif f).gen = s.gen := rfl
@[simp] theorem State.modHif_bas (s : State) (f : Hif → Hif) : (s.modHif f).bas = s.bas := rfl
@[simp] theorem State.modHif_eng (s : State) (f : Hif → Hif) : (s.modHif f).eng = s.eng := rfl
@[simp] theorem State.modHif_punts (s : State) (f : Hif → Hif) : (s.modHif f).punts = s.punts := rfl
@[simp] theorem State.modHif_reports (s : State) (f : Hif → Hif) : (s.modHif f).reports = s.reports := rfl
@[simp] theorem State.modHif_tal (s : State) (f : Hif → Hif) : (s.modHif f).tal = s.tal := rfl
@[simp] theorem State.modHif_dram (s : State) (f : Hif → Hif) : (s.modHif f).dram = s.dram := rfl
@[simp] theorem State.modHif_fab (s : State) (f : Hif → Hif) : (s.modHif f).fab = s.fab := rfl
@[simp] theorem State.modHif_twin (s : State) (f : Hif → Hif) : (s.modHif f).twin = s.twin := rfl
@[simp] theorem State.modHif_sec (s : State) (f : Hif → Hif) : (s.modHif f).sec = s.sec := rfl
@[simp] theorem State.modHif_out (s : State) (f : Hif → Hif) : (s.modHif f).out = s.out := rfl
@[simp] theorem State.modHif_draws (s : State) (f : Hif → Hif) : (s.modHif f).draws = s.draws := rfl
@[simp] theorem State.modHif_pending (s : State) (f : Hif → Hif) : (s.modHif f).pending = s.pending := rfl

/-! ### `modFlt` -/

@[simp] theorem State.modFlt_clk (s : State) (f : Flt → Flt) : (s.modFlt f).clk = s.clk := rfl
@[simp] theorem State.modFlt_regs (s : State) (f : Flt → Flt) : (s.modFlt f).regs = s.regs := rfl
@[simp] theorem State.modFlt_ctrs (s : State) (f : Flt → Flt) : (s.modFlt f).ctrs = s.ctrs := rfl
@[simp] theorem State.modFlt_latch (s : State) (f : Flt → Flt) : (s.modFlt f).latch = s.latch := rfl
@[simp] theorem State.modFlt_claims (s : State) (f : Flt → Flt) : (s.modFlt f).claims = s.claims := rfl
@[simp] theorem State.modFlt_hif (s : State) (f : Flt → Flt) : (s.modFlt f).hif = s.hif := rfl
@[simp] theorem State.modFlt_flt (s : State) (f : Flt → Flt) : (s.modFlt f).flt = f s.flt := rfl
@[simp] theorem State.modFlt_pwr (s : State) (f : Flt → Flt) : (s.modFlt f).pwr = s.pwr := rfl
@[simp] theorem State.modFlt_ports (s : State) (f : Flt → Flt) : (s.modFlt f).ports = s.ports := rfl
@[simp] theorem State.modFlt_rx (s : State) (f : Flt → Flt) : (s.modFlt f).rx = s.rx := rfl
@[simp] theorem State.modFlt_courses (s : State) (f : Flt → Flt) : (s.modFlt f).courses = s.courses := rfl
@[simp] theorem State.modFlt_tbl (s : State) (f : Flt → Flt) : (s.modFlt f).tbl = s.tbl := rfl
@[simp] theorem State.modFlt_meters (s : State) (f : Flt → Flt) : (s.modFlt f).meters = s.meters := rfl
@[simp] theorem State.modFlt_gen (s : State) (f : Flt → Flt) : (s.modFlt f).gen = s.gen := rfl
@[simp] theorem State.modFlt_bas (s : State) (f : Flt → Flt) : (s.modFlt f).bas = s.bas := rfl
@[simp] theorem State.modFlt_eng (s : State) (f : Flt → Flt) : (s.modFlt f).eng = s.eng := rfl
@[simp] theorem State.modFlt_punts (s : State) (f : Flt → Flt) : (s.modFlt f).punts = s.punts := rfl
@[simp] theorem State.modFlt_reports (s : State) (f : Flt → Flt) : (s.modFlt f).reports = s.reports := rfl
@[simp] theorem State.modFlt_tal (s : State) (f : Flt → Flt) : (s.modFlt f).tal = s.tal := rfl
@[simp] theorem State.modFlt_dram (s : State) (f : Flt → Flt) : (s.modFlt f).dram = s.dram := rfl
@[simp] theorem State.modFlt_fab (s : State) (f : Flt → Flt) : (s.modFlt f).fab = s.fab := rfl
@[simp] theorem State.modFlt_twin (s : State) (f : Flt → Flt) : (s.modFlt f).twin = s.twin := rfl
@[simp] theorem State.modFlt_sec (s : State) (f : Flt → Flt) : (s.modFlt f).sec = s.sec := rfl
@[simp] theorem State.modFlt_out (s : State) (f : Flt → Flt) : (s.modFlt f).out = s.out := rfl
@[simp] theorem State.modFlt_draws (s : State) (f : Flt → Flt) : (s.modFlt f).draws = s.draws := rfl
@[simp] theorem State.modFlt_pending (s : State) (f : Flt → Flt) : (s.modFlt f).pending = s.pending := rfl

/-! ### `modPwr` -/

@[simp] theorem State.modPwr_clk (s : State) (f : Pwr → Pwr) : (s.modPwr f).clk = s.clk := rfl
@[simp] theorem State.modPwr_regs (s : State) (f : Pwr → Pwr) : (s.modPwr f).regs = s.regs := rfl
@[simp] theorem State.modPwr_ctrs (s : State) (f : Pwr → Pwr) : (s.modPwr f).ctrs = s.ctrs := rfl
@[simp] theorem State.modPwr_latch (s : State) (f : Pwr → Pwr) : (s.modPwr f).latch = s.latch := rfl
@[simp] theorem State.modPwr_claims (s : State) (f : Pwr → Pwr) : (s.modPwr f).claims = s.claims := rfl
@[simp] theorem State.modPwr_hif (s : State) (f : Pwr → Pwr) : (s.modPwr f).hif = s.hif := rfl
@[simp] theorem State.modPwr_flt (s : State) (f : Pwr → Pwr) : (s.modPwr f).flt = s.flt := rfl
@[simp] theorem State.modPwr_pwr (s : State) (f : Pwr → Pwr) : (s.modPwr f).pwr = f s.pwr := rfl
@[simp] theorem State.modPwr_ports (s : State) (f : Pwr → Pwr) : (s.modPwr f).ports = s.ports := rfl
@[simp] theorem State.modPwr_rx (s : State) (f : Pwr → Pwr) : (s.modPwr f).rx = s.rx := rfl
@[simp] theorem State.modPwr_courses (s : State) (f : Pwr → Pwr) : (s.modPwr f).courses = s.courses := rfl
@[simp] theorem State.modPwr_tbl (s : State) (f : Pwr → Pwr) : (s.modPwr f).tbl = s.tbl := rfl
@[simp] theorem State.modPwr_meters (s : State) (f : Pwr → Pwr) : (s.modPwr f).meters = s.meters := rfl
@[simp] theorem State.modPwr_gen (s : State) (f : Pwr → Pwr) : (s.modPwr f).gen = s.gen := rfl
@[simp] theorem State.modPwr_bas (s : State) (f : Pwr → Pwr) : (s.modPwr f).bas = s.bas := rfl
@[simp] theorem State.modPwr_eng (s : State) (f : Pwr → Pwr) : (s.modPwr f).eng = s.eng := rfl
@[simp] theorem State.modPwr_punts (s : State) (f : Pwr → Pwr) : (s.modPwr f).punts = s.punts := rfl
@[simp] theorem State.modPwr_reports (s : State) (f : Pwr → Pwr) : (s.modPwr f).reports = s.reports := rfl
@[simp] theorem State.modPwr_tal (s : State) (f : Pwr → Pwr) : (s.modPwr f).tal = s.tal := rfl
@[simp] theorem State.modPwr_dram (s : State) (f : Pwr → Pwr) : (s.modPwr f).dram = s.dram := rfl
@[simp] theorem State.modPwr_fab (s : State) (f : Pwr → Pwr) : (s.modPwr f).fab = s.fab := rfl
@[simp] theorem State.modPwr_twin (s : State) (f : Pwr → Pwr) : (s.modPwr f).twin = s.twin := rfl
@[simp] theorem State.modPwr_sec (s : State) (f : Pwr → Pwr) : (s.modPwr f).sec = s.sec := rfl
@[simp] theorem State.modPwr_out (s : State) (f : Pwr → Pwr) : (s.modPwr f).out = s.out := rfl
@[simp] theorem State.modPwr_draws (s : State) (f : Pwr → Pwr) : (s.modPwr f).draws = s.draws := rfl
@[simp] theorem State.modPwr_pending (s : State) (f : Pwr → Pwr) : (s.modPwr f).pending = s.pending := rfl

/-! ### `modGen` -/

@[simp] theorem State.modGen_clk (s : State) (f : Gen → Gen) : (s.modGen f).clk = s.clk := rfl
@[simp] theorem State.modGen_regs (s : State) (f : Gen → Gen) : (s.modGen f).regs = s.regs := rfl
@[simp] theorem State.modGen_ctrs (s : State) (f : Gen → Gen) : (s.modGen f).ctrs = s.ctrs := rfl
@[simp] theorem State.modGen_latch (s : State) (f : Gen → Gen) : (s.modGen f).latch = s.latch := rfl
@[simp] theorem State.modGen_claims (s : State) (f : Gen → Gen) : (s.modGen f).claims = s.claims := rfl
@[simp] theorem State.modGen_hif (s : State) (f : Gen → Gen) : (s.modGen f).hif = s.hif := rfl
@[simp] theorem State.modGen_flt (s : State) (f : Gen → Gen) : (s.modGen f).flt = s.flt := rfl
@[simp] theorem State.modGen_pwr (s : State) (f : Gen → Gen) : (s.modGen f).pwr = s.pwr := rfl
@[simp] theorem State.modGen_ports (s : State) (f : Gen → Gen) : (s.modGen f).ports = s.ports := rfl
@[simp] theorem State.modGen_rx (s : State) (f : Gen → Gen) : (s.modGen f).rx = s.rx := rfl
@[simp] theorem State.modGen_courses (s : State) (f : Gen → Gen) : (s.modGen f).courses = s.courses := rfl
@[simp] theorem State.modGen_tbl (s : State) (f : Gen → Gen) : (s.modGen f).tbl = s.tbl := rfl
@[simp] theorem State.modGen_meters (s : State) (f : Gen → Gen) : (s.modGen f).meters = s.meters := rfl
@[simp] theorem State.modGen_gen (s : State) (f : Gen → Gen) : (s.modGen f).gen = f s.gen := rfl
@[simp] theorem State.modGen_bas (s : State) (f : Gen → Gen) : (s.modGen f).bas = s.bas := rfl
@[simp] theorem State.modGen_eng (s : State) (f : Gen → Gen) : (s.modGen f).eng = s.eng := rfl
@[simp] theorem State.modGen_punts (s : State) (f : Gen → Gen) : (s.modGen f).punts = s.punts := rfl
@[simp] theorem State.modGen_reports (s : State) (f : Gen → Gen) : (s.modGen f).reports = s.reports := rfl
@[simp] theorem State.modGen_tal (s : State) (f : Gen → Gen) : (s.modGen f).tal = s.tal := rfl
@[simp] theorem State.modGen_dram (s : State) (f : Gen → Gen) : (s.modGen f).dram = s.dram := rfl
@[simp] theorem State.modGen_fab (s : State) (f : Gen → Gen) : (s.modGen f).fab = s.fab := rfl
@[simp] theorem State.modGen_twin (s : State) (f : Gen → Gen) : (s.modGen f).twin = s.twin := rfl
@[simp] theorem State.modGen_sec (s : State) (f : Gen → Gen) : (s.modGen f).sec = s.sec := rfl
@[simp] theorem State.modGen_out (s : State) (f : Gen → Gen) : (s.modGen f).out = s.out := rfl
@[simp] theorem State.modGen_draws (s : State) (f : Gen → Gen) : (s.modGen f).draws = s.draws := rfl
@[simp] theorem State.modGen_pending (s : State) (f : Gen → Gen) : (s.modGen f).pending = s.pending := rfl

/-! ### `modBas` -/

@[simp] theorem State.modBas_clk (s : State) (f : Basin → Basin) : (s.modBas f).clk = s.clk := rfl
@[simp] theorem State.modBas_regs (s : State) (f : Basin → Basin) : (s.modBas f).regs = s.regs := rfl
@[simp] theorem State.modBas_ctrs (s : State) (f : Basin → Basin) : (s.modBas f).ctrs = s.ctrs := rfl
@[simp] theorem State.modBas_latch (s : State) (f : Basin → Basin) : (s.modBas f).latch = s.latch := rfl
@[simp] theorem State.modBas_claims (s : State) (f : Basin → Basin) : (s.modBas f).claims = s.claims := rfl
@[simp] theorem State.modBas_hif (s : State) (f : Basin → Basin) : (s.modBas f).hif = s.hif := rfl
@[simp] theorem State.modBas_flt (s : State) (f : Basin → Basin) : (s.modBas f).flt = s.flt := rfl
@[simp] theorem State.modBas_pwr (s : State) (f : Basin → Basin) : (s.modBas f).pwr = s.pwr := rfl
@[simp] theorem State.modBas_ports (s : State) (f : Basin → Basin) : (s.modBas f).ports = s.ports := rfl
@[simp] theorem State.modBas_rx (s : State) (f : Basin → Basin) : (s.modBas f).rx = s.rx := rfl
@[simp] theorem State.modBas_courses (s : State) (f : Basin → Basin) : (s.modBas f).courses = s.courses := rfl
@[simp] theorem State.modBas_tbl (s : State) (f : Basin → Basin) : (s.modBas f).tbl = s.tbl := rfl
@[simp] theorem State.modBas_meters (s : State) (f : Basin → Basin) : (s.modBas f).meters = s.meters := rfl
@[simp] theorem State.modBas_gen (s : State) (f : Basin → Basin) : (s.modBas f).gen = s.gen := rfl
@[simp] theorem State.modBas_bas (s : State) (f : Basin → Basin) : (s.modBas f).bas = f s.bas := rfl
@[simp] theorem State.modBas_eng (s : State) (f : Basin → Basin) : (s.modBas f).eng = s.eng := rfl
@[simp] theorem State.modBas_punts (s : State) (f : Basin → Basin) : (s.modBas f).punts = s.punts := rfl
@[simp] theorem State.modBas_reports (s : State) (f : Basin → Basin) : (s.modBas f).reports = s.reports := rfl
@[simp] theorem State.modBas_tal (s : State) (f : Basin → Basin) : (s.modBas f).tal = s.tal := rfl
@[simp] theorem State.modBas_dram (s : State) (f : Basin → Basin) : (s.modBas f).dram = s.dram := rfl
@[simp] theorem State.modBas_fab (s : State) (f : Basin → Basin) : (s.modBas f).fab = s.fab := rfl
@[simp] theorem State.modBas_twin (s : State) (f : Basin → Basin) : (s.modBas f).twin = s.twin := rfl
@[simp] theorem State.modBas_sec (s : State) (f : Basin → Basin) : (s.modBas f).sec = s.sec := rfl
@[simp] theorem State.modBas_out (s : State) (f : Basin → Basin) : (s.modBas f).out = s.out := rfl
@[simp] theorem State.modBas_draws (s : State) (f : Basin → Basin) : (s.modBas f).draws = s.draws := rfl
@[simp] theorem State.modBas_pending (s : State) (f : Basin → Basin) : (s.modBas f).pending = s.pending := rfl

/-! ### `modEng` -/

@[simp] theorem State.modEng_clk (s : State) (f : Engines → Engines) : (s.modEng f).clk = s.clk := rfl
@[simp] theorem State.modEng_regs (s : State) (f : Engines → Engines) : (s.modEng f).regs = s.regs := rfl
@[simp] theorem State.modEng_ctrs (s : State) (f : Engines → Engines) : (s.modEng f).ctrs = s.ctrs := rfl
@[simp] theorem State.modEng_latch (s : State) (f : Engines → Engines) : (s.modEng f).latch = s.latch := rfl
@[simp] theorem State.modEng_claims (s : State) (f : Engines → Engines) : (s.modEng f).claims = s.claims := rfl
@[simp] theorem State.modEng_hif (s : State) (f : Engines → Engines) : (s.modEng f).hif = s.hif := rfl
@[simp] theorem State.modEng_flt (s : State) (f : Engines → Engines) : (s.modEng f).flt = s.flt := rfl
@[simp] theorem State.modEng_pwr (s : State) (f : Engines → Engines) : (s.modEng f).pwr = s.pwr := rfl
@[simp] theorem State.modEng_ports (s : State) (f : Engines → Engines) : (s.modEng f).ports = s.ports := rfl
@[simp] theorem State.modEng_rx (s : State) (f : Engines → Engines) : (s.modEng f).rx = s.rx := rfl
@[simp] theorem State.modEng_courses (s : State) (f : Engines → Engines) : (s.modEng f).courses = s.courses := rfl
@[simp] theorem State.modEng_tbl (s : State) (f : Engines → Engines) : (s.modEng f).tbl = s.tbl := rfl
@[simp] theorem State.modEng_meters (s : State) (f : Engines → Engines) : (s.modEng f).meters = s.meters := rfl
@[simp] theorem State.modEng_gen (s : State) (f : Engines → Engines) : (s.modEng f).gen = s.gen := rfl
@[simp] theorem State.modEng_bas (s : State) (f : Engines → Engines) : (s.modEng f).bas = s.bas := rfl
@[simp] theorem State.modEng_eng (s : State) (f : Engines → Engines) : (s.modEng f).eng = f s.eng := rfl
@[simp] theorem State.modEng_punts (s : State) (f : Engines → Engines) : (s.modEng f).punts = s.punts := rfl
@[simp] theorem State.modEng_reports (s : State) (f : Engines → Engines) : (s.modEng f).reports = s.reports := rfl
@[simp] theorem State.modEng_tal (s : State) (f : Engines → Engines) : (s.modEng f).tal = s.tal := rfl
@[simp] theorem State.modEng_dram (s : State) (f : Engines → Engines) : (s.modEng f).dram = s.dram := rfl
@[simp] theorem State.modEng_fab (s : State) (f : Engines → Engines) : (s.modEng f).fab = s.fab := rfl
@[simp] theorem State.modEng_twin (s : State) (f : Engines → Engines) : (s.modEng f).twin = s.twin := rfl
@[simp] theorem State.modEng_sec (s : State) (f : Engines → Engines) : (s.modEng f).sec = s.sec := rfl
@[simp] theorem State.modEng_out (s : State) (f : Engines → Engines) : (s.modEng f).out = s.out := rfl
@[simp] theorem State.modEng_draws (s : State) (f : Engines → Engines) : (s.modEng f).draws = s.draws := rfl
@[simp] theorem State.modEng_pending (s : State) (f : Engines → Engines) : (s.modEng f).pending = s.pending := rfl

/-! ### `modDram` -/

@[simp] theorem State.modDram_clk (s : State) (f : Dram → Dram) : (s.modDram f).clk = s.clk := rfl
@[simp] theorem State.modDram_regs (s : State) (f : Dram → Dram) : (s.modDram f).regs = s.regs := rfl
@[simp] theorem State.modDram_ctrs (s : State) (f : Dram → Dram) : (s.modDram f).ctrs = s.ctrs := rfl
@[simp] theorem State.modDram_latch (s : State) (f : Dram → Dram) : (s.modDram f).latch = s.latch := rfl
@[simp] theorem State.modDram_claims (s : State) (f : Dram → Dram) : (s.modDram f).claims = s.claims := rfl
@[simp] theorem State.modDram_hif (s : State) (f : Dram → Dram) : (s.modDram f).hif = s.hif := rfl
@[simp] theorem State.modDram_flt (s : State) (f : Dram → Dram) : (s.modDram f).flt = s.flt := rfl
@[simp] theorem State.modDram_pwr (s : State) (f : Dram → Dram) : (s.modDram f).pwr = s.pwr := rfl
@[simp] theorem State.modDram_ports (s : State) (f : Dram → Dram) : (s.modDram f).ports = s.ports := rfl
@[simp] theorem State.modDram_rx (s : State) (f : Dram → Dram) : (s.modDram f).rx = s.rx := rfl
@[simp] theorem State.modDram_courses (s : State) (f : Dram → Dram) : (s.modDram f).courses = s.courses := rfl
@[simp] theorem State.modDram_tbl (s : State) (f : Dram → Dram) : (s.modDram f).tbl = s.tbl := rfl
@[simp] theorem State.modDram_meters (s : State) (f : Dram → Dram) : (s.modDram f).meters = s.meters := rfl
@[simp] theorem State.modDram_gen (s : State) (f : Dram → Dram) : (s.modDram f).gen = s.gen := rfl
@[simp] theorem State.modDram_bas (s : State) (f : Dram → Dram) : (s.modDram f).bas = s.bas := rfl
@[simp] theorem State.modDram_eng (s : State) (f : Dram → Dram) : (s.modDram f).eng = s.eng := rfl
@[simp] theorem State.modDram_punts (s : State) (f : Dram → Dram) : (s.modDram f).punts = s.punts := rfl
@[simp] theorem State.modDram_reports (s : State) (f : Dram → Dram) : (s.modDram f).reports = s.reports := rfl
@[simp] theorem State.modDram_tal (s : State) (f : Dram → Dram) : (s.modDram f).tal = s.tal := rfl
@[simp] theorem State.modDram_dram (s : State) (f : Dram → Dram) : (s.modDram f).dram = f s.dram := rfl
@[simp] theorem State.modDram_fab (s : State) (f : Dram → Dram) : (s.modDram f).fab = s.fab := rfl
@[simp] theorem State.modDram_twin (s : State) (f : Dram → Dram) : (s.modDram f).twin = s.twin := rfl
@[simp] theorem State.modDram_sec (s : State) (f : Dram → Dram) : (s.modDram f).sec = s.sec := rfl
@[simp] theorem State.modDram_out (s : State) (f : Dram → Dram) : (s.modDram f).out = s.out := rfl
@[simp] theorem State.modDram_draws (s : State) (f : Dram → Dram) : (s.modDram f).draws = s.draws := rfl
@[simp] theorem State.modDram_pending (s : State) (f : Dram → Dram) : (s.modDram f).pending = s.pending := rfl

/-! ### `modFab` -/

@[simp] theorem State.modFab_clk (s : State) (f : Fab → Fab) : (s.modFab f).clk = s.clk := rfl
@[simp] theorem State.modFab_regs (s : State) (f : Fab → Fab) : (s.modFab f).regs = s.regs := rfl
@[simp] theorem State.modFab_ctrs (s : State) (f : Fab → Fab) : (s.modFab f).ctrs = s.ctrs := rfl
@[simp] theorem State.modFab_latch (s : State) (f : Fab → Fab) : (s.modFab f).latch = s.latch := rfl
@[simp] theorem State.modFab_claims (s : State) (f : Fab → Fab) : (s.modFab f).claims = s.claims := rfl
@[simp] theorem State.modFab_hif (s : State) (f : Fab → Fab) : (s.modFab f).hif = s.hif := rfl
@[simp] theorem State.modFab_flt (s : State) (f : Fab → Fab) : (s.modFab f).flt = s.flt := rfl
@[simp] theorem State.modFab_pwr (s : State) (f : Fab → Fab) : (s.modFab f).pwr = s.pwr := rfl
@[simp] theorem State.modFab_ports (s : State) (f : Fab → Fab) : (s.modFab f).ports = s.ports := rfl
@[simp] theorem State.modFab_rx (s : State) (f : Fab → Fab) : (s.modFab f).rx = s.rx := rfl
@[simp] theorem State.modFab_courses (s : State) (f : Fab → Fab) : (s.modFab f).courses = s.courses := rfl
@[simp] theorem State.modFab_tbl (s : State) (f : Fab → Fab) : (s.modFab f).tbl = s.tbl := rfl
@[simp] theorem State.modFab_meters (s : State) (f : Fab → Fab) : (s.modFab f).meters = s.meters := rfl
@[simp] theorem State.modFab_gen (s : State) (f : Fab → Fab) : (s.modFab f).gen = s.gen := rfl
@[simp] theorem State.modFab_bas (s : State) (f : Fab → Fab) : (s.modFab f).bas = s.bas := rfl
@[simp] theorem State.modFab_eng (s : State) (f : Fab → Fab) : (s.modFab f).eng = s.eng := rfl
@[simp] theorem State.modFab_punts (s : State) (f : Fab → Fab) : (s.modFab f).punts = s.punts := rfl
@[simp] theorem State.modFab_reports (s : State) (f : Fab → Fab) : (s.modFab f).reports = s.reports := rfl
@[simp] theorem State.modFab_tal (s : State) (f : Fab → Fab) : (s.modFab f).tal = s.tal := rfl
@[simp] theorem State.modFab_dram (s : State) (f : Fab → Fab) : (s.modFab f).dram = s.dram := rfl
@[simp] theorem State.modFab_fab (s : State) (f : Fab → Fab) : (s.modFab f).fab = f s.fab := rfl
@[simp] theorem State.modFab_twin (s : State) (f : Fab → Fab) : (s.modFab f).twin = s.twin := rfl
@[simp] theorem State.modFab_sec (s : State) (f : Fab → Fab) : (s.modFab f).sec = s.sec := rfl
@[simp] theorem State.modFab_out (s : State) (f : Fab → Fab) : (s.modFab f).out = s.out := rfl
@[simp] theorem State.modFab_draws (s : State) (f : Fab → Fab) : (s.modFab f).draws = s.draws := rfl
@[simp] theorem State.modFab_pending (s : State) (f : Fab → Fab) : (s.modFab f).pending = s.pending := rfl

/-! ### `modTwin` -/

@[simp] theorem State.modTwin_clk (s : State) (f : Twin → Twin) : (s.modTwin f).clk = s.clk := rfl
@[simp] theorem State.modTwin_regs (s : State) (f : Twin → Twin) : (s.modTwin f).regs = s.regs := rfl
@[simp] theorem State.modTwin_ctrs (s : State) (f : Twin → Twin) : (s.modTwin f).ctrs = s.ctrs := rfl
@[simp] theorem State.modTwin_latch (s : State) (f : Twin → Twin) : (s.modTwin f).latch = s.latch := rfl
@[simp] theorem State.modTwin_claims (s : State) (f : Twin → Twin) : (s.modTwin f).claims = s.claims := rfl
@[simp] theorem State.modTwin_hif (s : State) (f : Twin → Twin) : (s.modTwin f).hif = s.hif := rfl
@[simp] theorem State.modTwin_flt (s : State) (f : Twin → Twin) : (s.modTwin f).flt = s.flt := rfl
@[simp] theorem State.modTwin_pwr (s : State) (f : Twin → Twin) : (s.modTwin f).pwr = s.pwr := rfl
@[simp] theorem State.modTwin_ports (s : State) (f : Twin → Twin) : (s.modTwin f).ports = s.ports := rfl
@[simp] theorem State.modTwin_rx (s : State) (f : Twin → Twin) : (s.modTwin f).rx = s.rx := rfl
@[simp] theorem State.modTwin_courses (s : State) (f : Twin → Twin) : (s.modTwin f).courses = s.courses := rfl
@[simp] theorem State.modTwin_tbl (s : State) (f : Twin → Twin) : (s.modTwin f).tbl = s.tbl := rfl
@[simp] theorem State.modTwin_meters (s : State) (f : Twin → Twin) : (s.modTwin f).meters = s.meters := rfl
@[simp] theorem State.modTwin_gen (s : State) (f : Twin → Twin) : (s.modTwin f).gen = s.gen := rfl
@[simp] theorem State.modTwin_bas (s : State) (f : Twin → Twin) : (s.modTwin f).bas = s.bas := rfl
@[simp] theorem State.modTwin_eng (s : State) (f : Twin → Twin) : (s.modTwin f).eng = s.eng := rfl
@[simp] theorem State.modTwin_punts (s : State) (f : Twin → Twin) : (s.modTwin f).punts = s.punts := rfl
@[simp] theorem State.modTwin_reports (s : State) (f : Twin → Twin) : (s.modTwin f).reports = s.reports := rfl
@[simp] theorem State.modTwin_tal (s : State) (f : Twin → Twin) : (s.modTwin f).tal = s.tal := rfl
@[simp] theorem State.modTwin_dram (s : State) (f : Twin → Twin) : (s.modTwin f).dram = s.dram := rfl
@[simp] theorem State.modTwin_fab (s : State) (f : Twin → Twin) : (s.modTwin f).fab = s.fab := rfl
@[simp] theorem State.modTwin_twin (s : State) (f : Twin → Twin) : (s.modTwin f).twin = f s.twin := rfl
@[simp] theorem State.modTwin_sec (s : State) (f : Twin → Twin) : (s.modTwin f).sec = s.sec := rfl
@[simp] theorem State.modTwin_out (s : State) (f : Twin → Twin) : (s.modTwin f).out = s.out := rfl
@[simp] theorem State.modTwin_draws (s : State) (f : Twin → Twin) : (s.modTwin f).draws = s.draws := rfl
@[simp] theorem State.modTwin_pending (s : State) (f : Twin → Twin) : (s.modTwin f).pending = s.pending := rfl

/-! ### `modTal` -/

@[simp] theorem State.modTal_clk (s : State) (f : Tally → Tally) : (s.modTal f).clk = s.clk := rfl
@[simp] theorem State.modTal_regs (s : State) (f : Tally → Tally) : (s.modTal f).regs = s.regs := rfl
@[simp] theorem State.modTal_ctrs (s : State) (f : Tally → Tally) : (s.modTal f).ctrs = s.ctrs := rfl
@[simp] theorem State.modTal_latch (s : State) (f : Tally → Tally) : (s.modTal f).latch = s.latch := rfl
@[simp] theorem State.modTal_claims (s : State) (f : Tally → Tally) : (s.modTal f).claims = s.claims := rfl
@[simp] theorem State.modTal_hif (s : State) (f : Tally → Tally) : (s.modTal f).hif = s.hif := rfl
@[simp] theorem State.modTal_flt (s : State) (f : Tally → Tally) : (s.modTal f).flt = s.flt := rfl
@[simp] theorem State.modTal_pwr (s : State) (f : Tally → Tally) : (s.modTal f).pwr = s.pwr := rfl
@[simp] theorem State.modTal_ports (s : State) (f : Tally → Tally) : (s.modTal f).ports = s.ports := rfl
@[simp] theorem State.modTal_rx (s : State) (f : Tally → Tally) : (s.modTal f).rx = s.rx := rfl
@[simp] theorem State.modTal_courses (s : State) (f : Tally → Tally) : (s.modTal f).courses = s.courses := rfl
@[simp] theorem State.modTal_tbl (s : State) (f : Tally → Tally) : (s.modTal f).tbl = s.tbl := rfl
@[simp] theorem State.modTal_meters (s : State) (f : Tally → Tally) : (s.modTal f).meters = s.meters := rfl
@[simp] theorem State.modTal_gen (s : State) (f : Tally → Tally) : (s.modTal f).gen = s.gen := rfl
@[simp] theorem State.modTal_bas (s : State) (f : Tally → Tally) : (s.modTal f).bas = s.bas := rfl
@[simp] theorem State.modTal_eng (s : State) (f : Tally → Tally) : (s.modTal f).eng = s.eng := rfl
@[simp] theorem State.modTal_punts (s : State) (f : Tally → Tally) : (s.modTal f).punts = s.punts := rfl
@[simp] theorem State.modTal_reports (s : State) (f : Tally → Tally) : (s.modTal f).reports = s.reports := rfl
@[simp] theorem State.modTal_tal (s : State) (f : Tally → Tally) : (s.modTal f).tal = f s.tal := rfl
@[simp] theorem State.modTal_dram (s : State) (f : Tally → Tally) : (s.modTal f).dram = s.dram := rfl
@[simp] theorem State.modTal_fab (s : State) (f : Tally → Tally) : (s.modTal f).fab = s.fab := rfl
@[simp] theorem State.modTal_twin (s : State) (f : Tally → Tally) : (s.modTal f).twin = s.twin := rfl
@[simp] theorem State.modTal_sec (s : State) (f : Tally → Tally) : (s.modTal f).sec = s.sec := rfl
@[simp] theorem State.modTal_out (s : State) (f : Tally → Tally) : (s.modTal f).out = s.out := rfl
@[simp] theorem State.modTal_draws (s : State) (f : Tally → Tally) : (s.modTal f).draws = s.draws := rfl
@[simp] theorem State.modTal_pending (s : State) (f : Tally → Tally) : (s.modTal f).pending = s.pending := rfl

/-! ### `modSec` -/

@[simp] theorem State.modSec_clk (s : State) (f : Sec → Sec) : (s.modSec f).clk = s.clk := rfl
@[simp] theorem State.modSec_regs (s : State) (f : Sec → Sec) : (s.modSec f).regs = s.regs := rfl
@[simp] theorem State.modSec_ctrs (s : State) (f : Sec → Sec) : (s.modSec f).ctrs = s.ctrs := rfl
@[simp] theorem State.modSec_latch (s : State) (f : Sec → Sec) : (s.modSec f).latch = s.latch := rfl
@[simp] theorem State.modSec_claims (s : State) (f : Sec → Sec) : (s.modSec f).claims = s.claims := rfl
@[simp] theorem State.modSec_hif (s : State) (f : Sec → Sec) : (s.modSec f).hif = s.hif := rfl
@[simp] theorem State.modSec_flt (s : State) (f : Sec → Sec) : (s.modSec f).flt = s.flt := rfl
@[simp] theorem State.modSec_pwr (s : State) (f : Sec → Sec) : (s.modSec f).pwr = s.pwr := rfl
@[simp] theorem State.modSec_ports (s : State) (f : Sec → Sec) : (s.modSec f).ports = s.ports := rfl
@[simp] theorem State.modSec_rx (s : State) (f : Sec → Sec) : (s.modSec f).rx = s.rx := rfl
@[simp] theorem State.modSec_courses (s : State) (f : Sec → Sec) : (s.modSec f).courses = s.courses := rfl
@[simp] theorem State.modSec_tbl (s : State) (f : Sec → Sec) : (s.modSec f).tbl = s.tbl := rfl
@[simp] theorem State.modSec_meters (s : State) (f : Sec → Sec) : (s.modSec f).meters = s.meters := rfl
@[simp] theorem State.modSec_gen (s : State) (f : Sec → Sec) : (s.modSec f).gen = s.gen := rfl
@[simp] theorem State.modSec_bas (s : State) (f : Sec → Sec) : (s.modSec f).bas = s.bas := rfl
@[simp] theorem State.modSec_eng (s : State) (f : Sec → Sec) : (s.modSec f).eng = s.eng := rfl
@[simp] theorem State.modSec_punts (s : State) (f : Sec → Sec) : (s.modSec f).punts = s.punts := rfl
@[simp] theorem State.modSec_reports (s : State) (f : Sec → Sec) : (s.modSec f).reports = s.reports := rfl
@[simp] theorem State.modSec_tal (s : State) (f : Sec → Sec) : (s.modSec f).tal = s.tal := rfl
@[simp] theorem State.modSec_dram (s : State) (f : Sec → Sec) : (s.modSec f).dram = s.dram := rfl
@[simp] theorem State.modSec_fab (s : State) (f : Sec → Sec) : (s.modSec f).fab = s.fab := rfl
@[simp] theorem State.modSec_twin (s : State) (f : Sec → Sec) : (s.modSec f).twin = s.twin := rfl
@[simp] theorem State.modSec_sec (s : State) (f : Sec → Sec) : (s.modSec f).sec = f s.sec := rfl
@[simp] theorem State.modSec_out (s : State) (f : Sec → Sec) : (s.modSec f).out = s.out := rfl
@[simp] theorem State.modSec_draws (s : State) (f : Sec → Sec) : (s.modSec f).draws = s.draws := rfl
@[simp] theorem State.modSec_pending (s : State) (f : Sec → Sec) : (s.modSec f).pending = s.pending := rfl

/-! ### `wr` -/

@[simp] theorem State.wr_clk (s : State) (k : Nat) (w : Word) : (s.wr k w).clk = s.clk := rfl
@[simp] theorem State.wr_regs (s : State) (k : Nat) (w : Word) : (s.wr k w).regs = s.regs.put regDflt k w := rfl
@[simp] theorem State.wr_ctrs (s : State) (k : Nat) (w : Word) : (s.wr k w).ctrs = s.ctrs := rfl
@[simp] theorem State.wr_latch (s : State) (k : Nat) (w : Word) : (s.wr k w).latch = s.latch := rfl
@[simp] theorem State.wr_claims (s : State) (k : Nat) (w : Word) : (s.wr k w).claims = s.claims := rfl
@[simp] theorem State.wr_hif (s : State) (k : Nat) (w : Word) : (s.wr k w).hif = s.hif := rfl
@[simp] theorem State.wr_flt (s : State) (k : Nat) (w : Word) : (s.wr k w).flt = s.flt := rfl
@[simp] theorem State.wr_pwr (s : State) (k : Nat) (w : Word) : (s.wr k w).pwr = s.pwr := rfl
@[simp] theorem State.wr_ports (s : State) (k : Nat) (w : Word) : (s.wr k w).ports = s.ports := rfl
@[simp] theorem State.wr_rx (s : State) (k : Nat) (w : Word) : (s.wr k w).rx = s.rx := rfl
@[simp] theorem State.wr_courses (s : State) (k : Nat) (w : Word) : (s.wr k w).courses = s.courses := rfl
@[simp] theorem State.wr_tbl (s : State) (k : Nat) (w : Word) : (s.wr k w).tbl = s.tbl := rfl
@[simp] theorem State.wr_meters (s : State) (k : Nat) (w : Word) : (s.wr k w).meters = s.meters := rfl
@[simp] theorem State.wr_gen (s : State) (k : Nat) (w : Word) : (s.wr k w).gen = s.gen := rfl
@[simp] theorem State.wr_bas (s : State) (k : Nat) (w : Word) : (s.wr k w).bas = s.bas := rfl
@[simp] theorem State.wr_eng (s : State) (k : Nat) (w : Word) : (s.wr k w).eng = s.eng := rfl
@[simp] theorem State.wr_punts (s : State) (k : Nat) (w : Word) : (s.wr k w).punts = s.punts := rfl
@[simp] theorem State.wr_reports (s : State) (k : Nat) (w : Word) : (s.wr k w).reports = s.reports := rfl
@[simp] theorem State.wr_tal (s : State) (k : Nat) (w : Word) : (s.wr k w).tal = s.tal := rfl
@[simp] theorem State.wr_dram (s : State) (k : Nat) (w : Word) : (s.wr k w).dram = s.dram := rfl
@[simp] theorem State.wr_fab (s : State) (k : Nat) (w : Word) : (s.wr k w).fab = s.fab := rfl
@[simp] theorem State.wr_twin (s : State) (k : Nat) (w : Word) : (s.wr k w).twin = s.twin := rfl
@[simp] theorem State.wr_sec (s : State) (k : Nat) (w : Word) : (s.wr k w).sec = s.sec := rfl
@[simp] theorem State.wr_out (s : State) (k : Nat) (w : Word) : (s.wr k w).out = s.out := rfl
@[simp] theorem State.wr_draws (s : State) (k : Nat) (w : Word) : (s.wr k w).draws = s.draws := rfl
@[simp] theorem State.wr_pending (s : State) (k : Nat) (w : Word) : (s.wr k w).pending = s.pending := rfl

/-! ### `setFS` -/

@[simp] theorem State.setFS_clk (s : State) (u sel : Nat) (f : Fld) (v : Nat) : (s.setFS u sel f v).clk = s.clk := rfl
@[simp] theorem State.setFS_ctrs (s : State) (u sel : Nat) (f : Fld) (v : Nat) : (s.setFS u sel f v).ctrs = s.ctrs := rfl
@[simp] theorem State.setFS_latch (s : State) (u sel : Nat) (f : Fld) (v : Nat) : (s.setFS u sel f v).latch = s.latch := rfl
@[simp] theorem State.setFS_claims (s : State) (u sel : Nat) (f : Fld) (v : Nat) : (s.setFS u sel f v).claims = s.claims := rfl
@[simp] theorem State.setFS_hif (s : State) (u sel : Nat) (f : Fld) (v : Nat) : (s.setFS u sel f v).hif = s.hif := rfl
@[simp] theorem State.setFS_flt (s : State) (u sel : Nat) (f : Fld) (v : Nat) : (s.setFS u sel f v).flt = s.flt := rfl
@[simp] theorem State.setFS_pwr (s : State) (u sel : Nat) (f : Fld) (v : Nat) : (s.setFS u sel f v).pwr = s.pwr := rfl
@[simp] theorem State.setFS_ports (s : State) (u sel : Nat) (f : Fld) (v : Nat) : (s.setFS u sel f v).ports = s.ports := rfl
@[simp] theorem State.setFS_rx (s : State) (u sel : Nat) (f : Fld) (v : Nat) : (s.setFS u sel f v).rx = s.rx := rfl
@[simp] theorem State.setFS_courses (s : State) (u sel : Nat) (f : Fld) (v : Nat) : (s.setFS u sel f v).courses = s.courses := rfl
@[simp] theorem State.setFS_tbl (s : State) (u sel : Nat) (f : Fld) (v : Nat) : (s.setFS u sel f v).tbl = s.tbl := rfl
@[simp] theorem State.setFS_meters (s : State) (u sel : Nat) (f : Fld) (v : Nat) : (s.setFS u sel f v).meters = s.meters := rfl
@[simp] theorem State.setFS_gen (s : State) (u sel : Nat) (f : Fld) (v : Nat) : (s.setFS u sel f v).gen = s.gen := rfl
@[simp] theorem State.setFS_bas (s : State) (u sel : Nat) (f : Fld) (v : Nat) : (s.setFS u sel f v).bas = s.bas := rfl
@[simp] theorem State.setFS_eng (s : State) (u sel : Nat) (f : Fld) (v : Nat) : (s.setFS u sel f v).eng = s.eng := rfl
@[simp] theorem State.setFS_punts (s : State) (u sel : Nat) (f : Fld) (v : Nat) : (s.setFS u sel f v).punts = s.punts := rfl
@[simp] theorem State.setFS_reports (s : State) (u sel : Nat) (f : Fld) (v : Nat) : (s.setFS u sel f v).reports = s.reports := rfl
@[simp] theorem State.setFS_tal (s : State) (u sel : Nat) (f : Fld) (v : Nat) : (s.setFS u sel f v).tal = s.tal := rfl
@[simp] theorem State.setFS_dram (s : State) (u sel : Nat) (f : Fld) (v : Nat) : (s.setFS u sel f v).dram = s.dram := rfl
@[simp] theorem State.setFS_fab (s : State) (u sel : Nat) (f : Fld) (v : Nat) : (s.setFS u sel f v).fab = s.fab := rfl
@[simp] theorem State.setFS_twin (s : State) (u sel : Nat) (f : Fld) (v : Nat) : (s.setFS u sel f v).twin = s.twin := rfl
@[simp] theorem State.setFS_sec (s : State) (u sel : Nat) (f : Fld) (v : Nat) : (s.setFS u sel f v).sec = s.sec := rfl
@[simp] theorem State.setFS_out (s : State) (u sel : Nat) (f : Fld) (v : Nat) : (s.setFS u sel f v).out = s.out := rfl
@[simp] theorem State.setFS_draws (s : State) (u sel : Nat) (f : Fld) (v : Nat) : (s.setFS u sel f v).draws = s.draws := rfl
@[simp] theorem State.setFS_pending (s : State) (u sel : Nat) (f : Fld) (v : Nat) : (s.setFS u sel f v).pending = s.pending := rfl

/-! ### `setF` -/

@[simp] theorem State.setF_clk (s : State) (u : Nat) (f : Fld) (v : Nat) : (s.setF u f v).clk = s.clk := rfl
@[simp] theorem State.setF_ctrs (s : State) (u : Nat) (f : Fld) (v : Nat) : (s.setF u f v).ctrs = s.ctrs := rfl
@[simp] theorem State.setF_latch (s : State) (u : Nat) (f : Fld) (v : Nat) : (s.setF u f v).latch = s.latch := rfl
@[simp] theorem State.setF_claims (s : State) (u : Nat) (f : Fld) (v : Nat) : (s.setF u f v).claims = s.claims := rfl
@[simp] theorem State.setF_hif (s : State) (u : Nat) (f : Fld) (v : Nat) : (s.setF u f v).hif = s.hif := rfl
@[simp] theorem State.setF_flt (s : State) (u : Nat) (f : Fld) (v : Nat) : (s.setF u f v).flt = s.flt := rfl
@[simp] theorem State.setF_pwr (s : State) (u : Nat) (f : Fld) (v : Nat) : (s.setF u f v).pwr = s.pwr := rfl
@[simp] theorem State.setF_ports (s : State) (u : Nat) (f : Fld) (v : Nat) : (s.setF u f v).ports = s.ports := rfl
@[simp] theorem State.setF_rx (s : State) (u : Nat) (f : Fld) (v : Nat) : (s.setF u f v).rx = s.rx := rfl
@[simp] theorem State.setF_courses (s : State) (u : Nat) (f : Fld) (v : Nat) : (s.setF u f v).courses = s.courses := rfl
@[simp] theorem State.setF_tbl (s : State) (u : Nat) (f : Fld) (v : Nat) : (s.setF u f v).tbl = s.tbl := rfl
@[simp] theorem State.setF_meters (s : State) (u : Nat) (f : Fld) (v : Nat) : (s.setF u f v).meters = s.meters := rfl
@[simp] theorem State.setF_gen (s : State) (u : Nat) (f : Fld) (v : Nat) : (s.setF u f v).gen = s.gen := rfl
@[simp] theorem State.setF_bas (s : State) (u : Nat) (f : Fld) (v : Nat) : (s.setF u f v).bas = s.bas := rfl
@[simp] theorem State.setF_eng (s : State) (u : Nat) (f : Fld) (v : Nat) : (s.setF u f v).eng = s.eng := rfl
@[simp] theorem State.setF_punts (s : State) (u : Nat) (f : Fld) (v : Nat) : (s.setF u f v).punts = s.punts := rfl
@[simp] theorem State.setF_reports (s : State) (u : Nat) (f : Fld) (v : Nat) : (s.setF u f v).reports = s.reports := rfl
@[simp] theorem State.setF_tal (s : State) (u : Nat) (f : Fld) (v : Nat) : (s.setF u f v).tal = s.tal := rfl
@[simp] theorem State.setF_dram (s : State) (u : Nat) (f : Fld) (v : Nat) : (s.setF u f v).dram = s.dram := rfl
@[simp] theorem State.setF_fab (s : State) (u : Nat) (f : Fld) (v : Nat) : (s.setF u f v).fab = s.fab := rfl
@[simp] theorem State.setF_twin (s : State) (u : Nat) (f : Fld) (v : Nat) : (s.setF u f v).twin = s.twin := rfl
@[simp] theorem State.setF_sec (s : State) (u : Nat) (f : Fld) (v : Nat) : (s.setF u f v).sec = s.sec := rfl
@[simp] theorem State.setF_out (s : State) (u : Nat) (f : Fld) (v : Nat) : (s.setF u f v).out = s.out := rfl
@[simp] theorem State.setF_draws (s : State) (u : Nat) (f : Fld) (v : Nat) : (s.setF u f v).draws = s.draws := rfl
@[simp] theorem State.setF_pending (s : State) (u : Nat) (f : Fld) (v : Nat) : (s.setF u f v).pending = s.pending := rfl

/-! ### `addF` -/

@[simp] theorem State.addF_clk (s : State) (u : Nat) (f : Fld) (n : Nat) : (s.addF u f n).clk = s.clk := rfl
@[simp] theorem State.addF_ctrs (s : State) (u : Nat) (f : Fld) (n : Nat) : (s.addF u f n).ctrs = s.ctrs := rfl
@[simp] theorem State.addF_latch (s : State) (u : Nat) (f : Fld) (n : Nat) : (s.addF u f n).latch = s.latch := rfl
@[simp] theorem State.addF_claims (s : State) (u : Nat) (f : Fld) (n : Nat) : (s.addF u f n).claims = s.claims := rfl
@[simp] theorem State.addF_hif (s : State) (u : Nat) (f : Fld) (n : Nat) : (s.addF u f n).hif = s.hif := rfl
@[simp] theorem State.addF_flt (s : State) (u : Nat) (f : Fld) (n : Nat) : (s.addF u f n).flt = s.flt := rfl
@[simp] theorem State.addF_pwr (s : State) (u : Nat) (f : Fld) (n : Nat) : (s.addF u f n).pwr = s.pwr := rfl
@[simp] theorem State.addF_ports (s : State) (u : Nat) (f : Fld) (n : Nat) : (s.addF u f n).ports = s.ports := rfl
@[simp] theorem State.addF_rx (s : State) (u : Nat) (f : Fld) (n : Nat) : (s.addF u f n).rx = s.rx := rfl
@[simp] theorem State.addF_courses (s : State) (u : Nat) (f : Fld) (n : Nat) : (s.addF u f n).courses = s.courses := rfl
@[simp] theorem State.addF_tbl (s : State) (u : Nat) (f : Fld) (n : Nat) : (s.addF u f n).tbl = s.tbl := rfl
@[simp] theorem State.addF_meters (s : State) (u : Nat) (f : Fld) (n : Nat) : (s.addF u f n).meters = s.meters := rfl
@[simp] theorem State.addF_gen (s : State) (u : Nat) (f : Fld) (n : Nat) : (s.addF u f n).gen = s.gen := rfl
@[simp] theorem State.addF_bas (s : State) (u : Nat) (f : Fld) (n : Nat) : (s.addF u f n).bas = s.bas := rfl
@[simp] theorem State.addF_eng (s : State) (u : Nat) (f : Fld) (n : Nat) : (s.addF u f n).eng = s.eng := rfl
@[simp] theorem State.addF_punts (s : State) (u : Nat) (f : Fld) (n : Nat) : (s.addF u f n).punts = s.punts := rfl
@[simp] theorem State.addF_reports (s : State) (u : Nat) (f : Fld) (n : Nat) : (s.addF u f n).reports = s.reports := rfl
@[simp] theorem State.addF_tal (s : State) (u : Nat) (f : Fld) (n : Nat) : (s.addF u f n).tal = s.tal := rfl
@[simp] theorem State.addF_dram (s : State) (u : Nat) (f : Fld) (n : Nat) : (s.addF u f n).dram = s.dram := rfl
@[simp] theorem State.addF_fab (s : State) (u : Nat) (f : Fld) (n : Nat) : (s.addF u f n).fab = s.fab := rfl
@[simp] theorem State.addF_twin (s : State) (u : Nat) (f : Fld) (n : Nat) : (s.addF u f n).twin = s.twin := rfl
@[simp] theorem State.addF_sec (s : State) (u : Nat) (f : Fld) (n : Nat) : (s.addF u f n).sec = s.sec := rfl
@[simp] theorem State.addF_out (s : State) (u : Nat) (f : Fld) (n : Nat) : (s.addF u f n).out = s.out := rfl
@[simp] theorem State.addF_draws (s : State) (u : Nat) (f : Fld) (n : Nat) : (s.addF u f n).draws = s.draws := rfl
@[simp] theorem State.addF_pending (s : State) (u : Nat) (f : Fld) (n : Nat) : (s.addF u f n).pending = s.pending := rfl

/-! ### `addCtr` -/

@[simp] theorem State.addCtr_clk (s : State) (i n : Nat) : (s.addCtr i n).clk = s.clk := rfl
@[simp] theorem State.addCtr_regs (s : State) (i n : Nat) : (s.addCtr i n).regs = s.regs := rfl
@[simp] theorem State.addCtr_ctrs (s : State) (i n : Nat) : (s.addCtr i n).ctrs = s.ctrs.put (fun _ => 0) i (s.ctr i + BitVec.ofNat 64 n) := rfl
@[simp] theorem State.addCtr_latch (s : State) (i n : Nat) : (s.addCtr i n).latch = s.latch := rfl
@[simp] theorem State.addCtr_claims (s : State) (i n : Nat) : (s.addCtr i n).claims = s.claims := rfl
@[simp] theorem State.addCtr_hif (s : State) (i n : Nat) : (s.addCtr i n).hif = s.hif := rfl
@[simp] theorem State.addCtr_flt (s : State) (i n : Nat) : (s.addCtr i n).flt = s.flt := rfl
@[simp] theorem State.addCtr_pwr (s : State) (i n : Nat) : (s.addCtr i n).pwr = s.pwr := rfl
@[simp] theorem State.addCtr_ports (s : State) (i n : Nat) : (s.addCtr i n).ports = s.ports := rfl
@[simp] theorem State.addCtr_rx (s : State) (i n : Nat) : (s.addCtr i n).rx = s.rx := rfl
@[simp] theorem State.addCtr_courses (s : State) (i n : Nat) : (s.addCtr i n).courses = s.courses := rfl
@[simp] theorem State.addCtr_tbl (s : State) (i n : Nat) : (s.addCtr i n).tbl = s.tbl := rfl
@[simp] theorem State.addCtr_meters (s : State) (i n : Nat) : (s.addCtr i n).meters = s.meters := rfl
@[simp] theorem State.addCtr_gen (s : State) (i n : Nat) : (s.addCtr i n).gen = s.gen := rfl
@[simp] theorem State.addCtr_bas (s : State) (i n : Nat) : (s.addCtr i n).bas = s.bas := rfl
@[simp] theorem State.addCtr_eng (s : State) (i n : Nat) : (s.addCtr i n).eng = s.eng := rfl
@[simp] theorem State.addCtr_punts (s : State) (i n : Nat) : (s.addCtr i n).punts = s.punts := rfl
@[simp] theorem State.addCtr_reports (s : State) (i n : Nat) : (s.addCtr i n).reports = s.reports := rfl
@[simp] theorem State.addCtr_tal (s : State) (i n : Nat) : (s.addCtr i n).tal = s.tal := rfl
@[simp] theorem State.addCtr_dram (s : State) (i n : Nat) : (s.addCtr i n).dram = s.dram := rfl
@[simp] theorem State.addCtr_fab (s : State) (i n : Nat) : (s.addCtr i n).fab = s.fab := rfl
@[simp] theorem State.addCtr_twin (s : State) (i n : Nat) : (s.addCtr i n).twin = s.twin := rfl
@[simp] theorem State.addCtr_sec (s : State) (i n : Nat) : (s.addCtr i n).sec = s.sec := rfl
@[simp] theorem State.addCtr_out (s : State) (i n : Nat) : (s.addCtr i n).out = s.out := rfl
@[simp] theorem State.addCtr_draws (s : State) (i n : Nat) : (s.addCtr i n).draws = s.draws := rfl
@[simp] theorem State.addCtr_pending (s : State) (i n : Nat) : (s.addCtr i n).pending = s.pending := rfl

/-! ### `send` -/

@[simp] theorem State.send_clk (s : State) (x : Out) : (s.send x).clk = s.clk := rfl
@[simp] theorem State.send_regs (s : State) (x : Out) : (s.send x).regs = s.regs := rfl
@[simp] theorem State.send_ctrs (s : State) (x : Out) : (s.send x).ctrs = s.ctrs := rfl
@[simp] theorem State.send_latch (s : State) (x : Out) : (s.send x).latch = s.latch := rfl
@[simp] theorem State.send_claims (s : State) (x : Out) : (s.send x).claims = s.claims := rfl
@[simp] theorem State.send_hif (s : State) (x : Out) : (s.send x).hif = s.hif := rfl
@[simp] theorem State.send_flt (s : State) (x : Out) : (s.send x).flt = s.flt := rfl
@[simp] theorem State.send_pwr (s : State) (x : Out) : (s.send x).pwr = s.pwr := rfl
@[simp] theorem State.send_ports (s : State) (x : Out) : (s.send x).ports = s.ports := rfl
@[simp] theorem State.send_rx (s : State) (x : Out) : (s.send x).rx = s.rx := rfl
@[simp] theorem State.send_courses (s : State) (x : Out) : (s.send x).courses = s.courses := rfl
@[simp] theorem State.send_tbl (s : State) (x : Out) : (s.send x).tbl = s.tbl := rfl
@[simp] theorem State.send_meters (s : State) (x : Out) : (s.send x).meters = s.meters := rfl
@[simp] theorem State.send_gen (s : State) (x : Out) : (s.send x).gen = s.gen := rfl
@[simp] theorem State.send_bas (s : State) (x : Out) : (s.send x).bas = s.bas := rfl
@[simp] theorem State.send_eng (s : State) (x : Out) : (s.send x).eng = s.eng := rfl
@[simp] theorem State.send_punts (s : State) (x : Out) : (s.send x).punts = s.punts := rfl
@[simp] theorem State.send_reports (s : State) (x : Out) : (s.send x).reports = s.reports := rfl
@[simp] theorem State.send_tal (s : State) (x : Out) : (s.send x).tal = s.tal := rfl
@[simp] theorem State.send_dram (s : State) (x : Out) : (s.send x).dram = s.dram := rfl
@[simp] theorem State.send_fab (s : State) (x : Out) : (s.send x).fab = s.fab := rfl
@[simp] theorem State.send_twin (s : State) (x : Out) : (s.send x).twin = s.twin := rfl
@[simp] theorem State.send_sec (s : State) (x : Out) : (s.send x).sec = s.sec := rfl
@[simp] theorem State.send_out (s : State) (x : Out) : (s.send x).out = s.out ++ [x] := rfl
@[simp] theorem State.send_draws (s : State) (x : Out) : (s.send x).draws = s.draws := rfl
@[simp] theorem State.send_pending (s : State) (x : Out) : (s.send x).pending = s.pending := rfl

/-! ### `setPunts` -/

@[simp] theorem State.setPunts_clk (s : State) (l : List PuntPkt) : (s.setPunts l).clk = s.clk := rfl
@[simp] theorem State.setPunts_regs (s : State) (l : List PuntPkt) : (s.setPunts l).regs = s.regs := rfl
@[simp] theorem State.setPunts_ctrs (s : State) (l : List PuntPkt) : (s.setPunts l).ctrs = s.ctrs := rfl
@[simp] theorem State.setPunts_latch (s : State) (l : List PuntPkt) : (s.setPunts l).latch = s.latch := rfl
@[simp] theorem State.setPunts_claims (s : State) (l : List PuntPkt) : (s.setPunts l).claims = s.claims := rfl
@[simp] theorem State.setPunts_hif (s : State) (l : List PuntPkt) : (s.setPunts l).hif = s.hif := rfl
@[simp] theorem State.setPunts_flt (s : State) (l : List PuntPkt) : (s.setPunts l).flt = s.flt := rfl
@[simp] theorem State.setPunts_pwr (s : State) (l : List PuntPkt) : (s.setPunts l).pwr = s.pwr := rfl
@[simp] theorem State.setPunts_ports (s : State) (l : List PuntPkt) : (s.setPunts l).ports = s.ports := rfl
@[simp] theorem State.setPunts_rx (s : State) (l : List PuntPkt) : (s.setPunts l).rx = s.rx := rfl
@[simp] theorem State.setPunts_courses (s : State) (l : List PuntPkt) : (s.setPunts l).courses = s.courses := rfl
@[simp] theorem State.setPunts_tbl (s : State) (l : List PuntPkt) : (s.setPunts l).tbl = s.tbl := rfl
@[simp] theorem State.setPunts_meters (s : State) (l : List PuntPkt) : (s.setPunts l).meters = s.meters := rfl
@[simp] theorem State.setPunts_gen (s : State) (l : List PuntPkt) : (s.setPunts l).gen = s.gen := rfl
@[simp] theorem State.setPunts_bas (s : State) (l : List PuntPkt) : (s.setPunts l).bas = s.bas := rfl
@[simp] theorem State.setPunts_eng (s : State) (l : List PuntPkt) : (s.setPunts l).eng = s.eng := rfl
@[simp] theorem State.setPunts_punts (s : State) (l : List PuntPkt) : (s.setPunts l).punts = l := rfl
@[simp] theorem State.setPunts_reports (s : State) (l : List PuntPkt) : (s.setPunts l).reports = s.reports := rfl
@[simp] theorem State.setPunts_tal (s : State) (l : List PuntPkt) : (s.setPunts l).tal = s.tal := rfl
@[simp] theorem State.setPunts_dram (s : State) (l : List PuntPkt) : (s.setPunts l).dram = s.dram := rfl
@[simp] theorem State.setPunts_fab (s : State) (l : List PuntPkt) : (s.setPunts l).fab = s.fab := rfl
@[simp] theorem State.setPunts_twin (s : State) (l : List PuntPkt) : (s.setPunts l).twin = s.twin := rfl
@[simp] theorem State.setPunts_sec (s : State) (l : List PuntPkt) : (s.setPunts l).sec = s.sec := rfl
@[simp] theorem State.setPunts_out (s : State) (l : List PuntPkt) : (s.setPunts l).out = s.out := rfl
@[simp] theorem State.setPunts_draws (s : State) (l : List PuntPkt) : (s.setPunts l).draws = s.draws := rfl
@[simp] theorem State.setPunts_pending (s : State) (l : List PuntPkt) : (s.setPunts l).pending = s.pending := rfl

/-! ### `setPort` -/

@[simp] theorem State.setPort_clk (s : State) (p : Nat) (x : Port) : (s.setPort p x).clk = s.clk := rfl
@[simp] theorem State.setPort_regs (s : State) (p : Nat) (x : Port) : (s.setPort p x).regs = s.regs := rfl
@[simp] theorem State.setPort_ctrs (s : State) (p : Nat) (x : Port) : (s.setPort p x).ctrs = s.ctrs := rfl
@[simp] theorem State.setPort_latch (s : State) (p : Nat) (x : Port) : (s.setPort p x).latch = s.latch := rfl
@[simp] theorem State.setPort_claims (s : State) (p : Nat) (x : Port) : (s.setPort p x).claims = s.claims := rfl
@[simp] theorem State.setPort_hif (s : State) (p : Nat) (x : Port) : (s.setPort p x).hif = s.hif := rfl
@[simp] theorem State.setPort_flt (s : State) (p : Nat) (x : Port) : (s.setPort p x).flt = s.flt := rfl
@[simp] theorem State.setPort_pwr (s : State) (p : Nat) (x : Port) : (s.setPort p x).pwr = s.pwr := rfl
@[simp] theorem State.setPort_ports (s : State) (p : Nat) (x : Port) : (s.setPort p x).ports = s.ports.put (fun _ => {}) p x := rfl
@[simp] theorem State.setPort_rx (s : State) (p : Nat) (x : Port) : (s.setPort p x).rx = s.rx := rfl
@[simp] theorem State.setPort_courses (s : State) (p : Nat) (x : Port) : (s.setPort p x).courses = s.courses := rfl
@[simp] theorem State.setPort_tbl (s : State) (p : Nat) (x : Port) : (s.setPort p x).tbl = s.tbl := rfl
@[simp] theorem State.setPort_meters (s : State) (p : Nat) (x : Port) : (s.setPort p x).meters = s.meters := rfl
@[simp] theorem State.setPort_gen (s : State) (p : Nat) (x : Port) : (s.setPort p x).gen = s.gen := rfl
@[simp] theorem State.setPort_bas (s : State) (p : Nat) (x : Port) : (s.setPort p x).bas = s.bas := rfl
@[simp] theorem State.setPort_eng (s : State) (p : Nat) (x : Port) : (s.setPort p x).eng = s.eng := rfl
@[simp] theorem State.setPort_punts (s : State) (p : Nat) (x : Port) : (s.setPort p x).punts = s.punts := rfl
@[simp] theorem State.setPort_reports (s : State) (p : Nat) (x : Port) : (s.setPort p x).reports = s.reports := rfl
@[simp] theorem State.setPort_tal (s : State) (p : Nat) (x : Port) : (s.setPort p x).tal = s.tal := rfl
@[simp] theorem State.setPort_dram (s : State) (p : Nat) (x : Port) : (s.setPort p x).dram = s.dram := rfl
@[simp] theorem State.setPort_fab (s : State) (p : Nat) (x : Port) : (s.setPort p x).fab = s.fab := rfl
@[simp] theorem State.setPort_twin (s : State) (p : Nat) (x : Port) : (s.setPort p x).twin = s.twin := rfl
@[simp] theorem State.setPort_sec (s : State) (p : Nat) (x : Port) : (s.setPort p x).sec = s.sec := rfl
@[simp] theorem State.setPort_out (s : State) (p : Nat) (x : Port) : (s.setPort p x).out = s.out := rfl
@[simp] theorem State.setPort_draws (s : State) (p : Nat) (x : Port) : (s.setPort p x).draws = s.draws := rfl
@[simp] theorem State.setPort_pending (s : State) (p : Nat) (x : Port) : (s.setPort p x).pending = s.pending := rfl

/-! ### `setRx` -/

@[simp] theorem State.setRx_clk (s : State) (b : Nat) (l : List RxFrame) : (s.setRx b l).clk = s.clk := rfl
@[simp] theorem State.setRx_regs (s : State) (b : Nat) (l : List RxFrame) : (s.setRx b l).regs = s.regs := rfl
@[simp] theorem State.setRx_ctrs (s : State) (b : Nat) (l : List RxFrame) : (s.setRx b l).ctrs = s.ctrs := rfl
@[simp] theorem State.setRx_latch (s : State) (b : Nat) (l : List RxFrame) : (s.setRx b l).latch = s.latch := rfl
@[simp] theorem State.setRx_claims (s : State) (b : Nat) (l : List RxFrame) : (s.setRx b l).claims = s.claims := rfl
@[simp] theorem State.setRx_hif (s : State) (b : Nat) (l : List RxFrame) : (s.setRx b l).hif = s.hif := rfl
@[simp] theorem State.setRx_flt (s : State) (b : Nat) (l : List RxFrame) : (s.setRx b l).flt = s.flt := rfl
@[simp] theorem State.setRx_pwr (s : State) (b : Nat) (l : List RxFrame) : (s.setRx b l).pwr = s.pwr := rfl
@[simp] theorem State.setRx_ports (s : State) (b : Nat) (l : List RxFrame) : (s.setRx b l).ports = s.ports := rfl
@[simp] theorem State.setRx_rx (s : State) (b : Nat) (l : List RxFrame) : (s.setRx b l).rx = s.rx.put (fun _ => []) b l := rfl
@[simp] theorem State.setRx_courses (s : State) (b : Nat) (l : List RxFrame) : (s.setRx b l).courses = s.courses := rfl
@[simp] theorem State.setRx_tbl (s : State) (b : Nat) (l : List RxFrame) : (s.setRx b l).tbl = s.tbl := rfl
@[simp] theorem State.setRx_meters (s : State) (b : Nat) (l : List RxFrame) : (s.setRx b l).meters = s.meters := rfl
@[simp] theorem State.setRx_gen (s : State) (b : Nat) (l : List RxFrame) : (s.setRx b l).gen = s.gen := rfl
@[simp] theorem State.setRx_bas (s : State) (b : Nat) (l : List RxFrame) : (s.setRx b l).bas = s.bas := rfl
@[simp] theorem State.setRx_eng (s : State) (b : Nat) (l : List RxFrame) : (s.setRx b l).eng = s.eng := rfl
@[simp] theorem State.setRx_punts (s : State) (b : Nat) (l : List RxFrame) : (s.setRx b l).punts = s.punts := rfl
@[simp] theorem State.setRx_reports (s : State) (b : Nat) (l : List RxFrame) : (s.setRx b l).reports = s.reports := rfl
@[simp] theorem State.setRx_tal (s : State) (b : Nat) (l : List RxFrame) : (s.setRx b l).tal = s.tal := rfl
@[simp] theorem State.setRx_dram (s : State) (b : Nat) (l : List RxFrame) : (s.setRx b l).dram = s.dram := rfl
@[simp] theorem State.setRx_fab (s : State) (b : Nat) (l : List RxFrame) : (s.setRx b l).fab = s.fab := rfl
@[simp] theorem State.setRx_twin (s : State) (b : Nat) (l : List RxFrame) : (s.setRx b l).twin = s.twin := rfl
@[simp] theorem State.setRx_sec (s : State) (b : Nat) (l : List RxFrame) : (s.setRx b l).sec = s.sec := rfl
@[simp] theorem State.setRx_out (s : State) (b : Nat) (l : List RxFrame) : (s.setRx b l).out = s.out := rfl
@[simp] theorem State.setRx_draws (s : State) (b : Nat) (l : List RxFrame) : (s.setRx b l).draws = s.draws := rfl
@[simp] theorem State.setRx_pending (s : State) (b : Nat) (l : List RxFrame) : (s.setRx b l).pending = s.pending := rfl

/-! ### `setClaim` -/

@[simp] theorem State.setClaim_clk (s : State) (k : Nat) (c : Option Claim) : (s.setClaim k c).clk = s.clk := rfl
@[simp] theorem State.setClaim_regs (s : State) (k : Nat) (c : Option Claim) : (s.setClaim k c).regs = s.regs := rfl
@[simp] theorem State.setClaim_ctrs (s : State) (k : Nat) (c : Option Claim) : (s.setClaim k c).ctrs = s.ctrs := rfl
@[simp] theorem State.setClaim_latch (s : State) (k : Nat) (c : Option Claim) : (s.setClaim k c).latch = s.latch := rfl
@[simp] theorem State.setClaim_claims (s : State) (k : Nat) (c : Option Claim) : (s.setClaim k c).claims = s.claims.put (fun _ => none) k c := rfl
@[simp] theorem State.setClaim_hif (s : State) (k : Nat) (c : Option Claim) : (s.setClaim k c).hif = s.hif := rfl
@[simp] theorem State.setClaim_flt (s : State) (k : Nat) (c : Option Claim) : (s.setClaim k c).flt = s.flt := rfl
@[simp] theorem State.setClaim_pwr (s : State) (k : Nat) (c : Option Claim) : (s.setClaim k c).pwr = s.pwr := rfl
@[simp] theorem State.setClaim_ports (s : State) (k : Nat) (c : Option Claim) : (s.setClaim k c).ports = s.ports := rfl
@[simp] theorem State.setClaim_rx (s : State) (k : Nat) (c : Option Claim) : (s.setClaim k c).rx = s.rx := rfl
@[simp] theorem State.setClaim_courses (s : State) (k : Nat) (c : Option Claim) : (s.setClaim k c).courses = s.courses := rfl
@[simp] theorem State.setClaim_tbl (s : State) (k : Nat) (c : Option Claim) : (s.setClaim k c).tbl = s.tbl := rfl
@[simp] theorem State.setClaim_meters (s : State) (k : Nat) (c : Option Claim) : (s.setClaim k c).meters = s.meters := rfl
@[simp] theorem State.setClaim_gen (s : State) (k : Nat) (c : Option Claim) : (s.setClaim k c).gen = s.gen := rfl
@[simp] theorem State.setClaim_bas (s : State) (k : Nat) (c : Option Claim) : (s.setClaim k c).bas = s.bas := rfl
@[simp] theorem State.setClaim_eng (s : State) (k : Nat) (c : Option Claim) : (s.setClaim k c).eng = s.eng := rfl
@[simp] theorem State.setClaim_punts (s : State) (k : Nat) (c : Option Claim) : (s.setClaim k c).punts = s.punts := rfl
@[simp] theorem State.setClaim_reports (s : State) (k : Nat) (c : Option Claim) : (s.setClaim k c).reports = s.reports := rfl
@[simp] theorem State.setClaim_tal (s : State) (k : Nat) (c : Option Claim) : (s.setClaim k c).tal = s.tal := rfl
@[simp] theorem State.setClaim_dram (s : State) (k : Nat) (c : Option Claim) : (s.setClaim k c).dram = s.dram := rfl
@[simp] theorem State.setClaim_fab (s : State) (k : Nat) (c : Option Claim) : (s.setClaim k c).fab = s.fab := rfl
@[simp] theorem State.setClaim_twin (s : State) (k : Nat) (c : Option Claim) : (s.setClaim k c).twin = s.twin := rfl
@[simp] theorem State.setClaim_sec (s : State) (k : Nat) (c : Option Claim) : (s.setClaim k c).sec = s.sec := rfl
@[simp] theorem State.setClaim_out (s : State) (k : Nat) (c : Option Claim) : (s.setClaim k c).out = s.out := rfl
@[simp] theorem State.setClaim_draws (s : State) (k : Nat) (c : Option Claim) : (s.setClaim k c).draws = s.draws := rfl
@[simp] theorem State.setClaim_pending (s : State) (k : Nat) (c : Option Claim) : (s.setClaim k c).pending = s.pending := rfl

/-! ### Registers, fields, counters -/

/-- A register reads what was last written to it. -/
theorem State.rd_wr (s : State) (k k' : Nat) (w : Word) : (s.wr k w).rd k' = if k' = k then w else s.rd k' :=
  KMap.get_put regDflt s.regs k k' w

@[simp] theorem State.rd_wr_self (s : State) (k : Nat) (w : Word) : (s.wr k w).rd k = w := KMap.get_put_self regDflt s.regs k w

theorem State.rd_wr_ne (s : State) {k k' : Nat} (w : Word) (h : k' ≠ k) : (s.wr k w).rd k' = s.rd k' :=
  KMap.get_put_ne regDflt s.regs k k' w h

/-- A write keeps the canonical form of the register file. -/
theorem State.wr_wf (s : State) (k : Nat) (w : Word) (h : s.regs.wf regDflt = true) : (s.wr k w).regs.wf regDflt = true :=
  KMap.wf_put regDflt s.regs k w h

theorem setBitsOf_lt (n lo w v : Nat) (hn : n < 2 ^ 32) (h : lo + w ≤ 32) : setBitsOf n lo w v < 2 ^ 32 := by
  obtain ⟨c, hc⟩ := Nat.exists_eq_add_of_le h
  have h1 : n / 2 ^ (lo + w) < 2 ^ c := by
    rw [Nat.div_lt_iff_lt_mul (Nat.two_pow_pos _), ← Nat.pow_add, Nat.add_comm c, ← hc]; exact hn
  have h2 : v % 2 ^ w + 1 ≤ 2 ^ w := Nat.mod_lt _ (Nat.two_pow_pos w)
  have h3 : n % 2 ^ lo < 2 ^ lo := Nat.mod_lt _ (Nat.two_pow_pos lo)
  have h4 : (v % 2 ^ w + 1) * 2 ^ lo ≤ 2 ^ w * 2 ^ lo := Nat.mul_le_mul_right _ h2
  have h5 : (n / 2 ^ (lo + w) + 1) * 2 ^ (lo + w) ≤ 2 ^ c * 2 ^ (lo + w) := Nat.mul_le_mul_right _ h1
  have e1 : 2 ^ c * 2 ^ (lo + w) = 2 ^ 32 := by rw [← Nat.pow_add, Nat.add_comm c, ← hc]
  have e2 : 2 ^ w * 2 ^ lo = 2 ^ (lo + w) := by rw [← Nat.pow_add, Nat.add_comm]
  rw [Nat.add_mul, Nat.one_mul] at h4 h5
  rw [setBitsOf]; omega

/-- A field of 32 bits or fewer reads what was written to it, cut to its width. -/
theorem State.getFS_setFS_self (s : State) (u sel : Nat) (f : Fld) (v : Nat) (h : f.lo + f.w ≤ 32) :
    (s.setFS u sel f v).getFS u sel f = v % 2 ^ f.w := by
  unfold State.getFS State.setFS
  rw [State.rd_wr_self, BitVec.toNat_ofNat, Nat.mod_eq_of_lt (setBitsOf_lt _ _ _ _ (BitVec.isLt _) h), bitsOf_setBitsOf_self]

theorem State.getF_setF_self (s : State) (u : Nat) (f : Fld) (v : Nat) (h : f.lo + f.w ≤ 32) :
    (s.setF u f v).getF u f = v % 2 ^ f.w := s.getFS_setFS_self u 0 f v h

/-- A field of another register reads as before. -/
theorem State.getFS_setFS_reg (s : State) (u sel u' sel' : Nat) (f f' : Fld) (v : Nat)
    (h : regKey u' sel' f'.off ≠ regKey u sel f.off) : (s.setFS u sel f v).getFS u' sel' f' = s.getFS u' sel' f' := by
  unfold State.getFS State.setFS; rw [State.rd_wr_ne _ _ h]

theorem State.getF_setF_reg (s : State) (u u' : Nat) (f f' : Fld) (v : Nat) (h : regKey u' 0 f'.off ≠ regKey u 0 f.off) :
    (s.setF u f v).getF u' f' = s.getF u' f' := s.getFS_setFS_reg u 0 u' 0 f f' v h

/-- Another field of the same register reads as before. -/
theorem State.getF_setF_field (s : State) (u : Nat) (f f' : Fld) (v : Nat) (hw : f.lo + f.w ≤ 32)
    (h : f'.lo + f'.w ≤ f.lo ∨ f.lo + f.w ≤ f'.lo) (ho : f'.off = f.off) : (s.setF u f v).getF u f' = s.getF u f' := by
  unfold State.getF State.setF State.getFS State.setFS
  rw [ho, State.rd_wr_self, BitVec.toNat_ofNat, Nat.mod_eq_of_lt (setBitsOf_lt _ _ _ _ (BitVec.isLt _) hw)]
  rcases h with h | h
  · exact bitsOf_setBitsOf_below _ _ _ _ _ _ h
  · exact bitsOf_setBitsOf_above _ _ _ _ _ _ h

/-- A counter counts, and no other does. -/
theorem State.ctr_addCtr (s : State) (i j n : Nat) :
    (s.addCtr i n).ctr j = if j = i then s.ctr i + BitVec.ofNat 64 n else s.ctr j := KMap.get_put _ s.ctrs i j _

/-- A claim reads what was last written to it. -/
theorem State.claim_setClaim (s : State) (k j : Nat) (c : Option Claim) :
    (s.setClaim k c).claim j = if j = k then c else s.claim j := KMap.get_put _ s.claims k j c

/-! ### Time -/

/-- Plinth time never decreases when it is brought to a moment. -/
theorem State.reach_now (s : State) (t : Nat) : (s.reach t).clk.now = max s.clk.now (t * 65536) := by
  unfold State.reach; split
  · next h => simp [Clk.pass]; omega
  · next h => omega

theorem State.reach_still (s : State) (t : Nat) (h : t * 65536 ≤ s.clk.now) : s.reach t = s := if_neg (by omega)

end Sys2Proof.Machine
end

