-- ==== Sys2Proof/Laws/Frame.lean ====
section
/-!
SUPPORT. What events, host records, counts and fault reports can change: registers, counters, the host interface and what
the device sends, and a report also the list of reports. Everything else of the state is as it was.
-/
namespace Sys2Proof.Machine

/-- `t` differs from `s` at most in registers, counters, the host interface, reports and what was sent. -/
structure State.HostOnly (s t : State) : Prop where
  clk : t.clk = s.clk
  latch : t.latch = s.latch
  claims : t.claims = s.claims
  flt : t.flt = s.flt
  pwr : t.pwr = s.pwr
  ports : t.ports = s.ports
  rx : t.rx = s.rx
  courses : t.courses = s.courses
  tbl : t.tbl = s.tbl
  meters : t.meters = s.meters
  gen : t.gen = s.gen
  bas : t.bas = s.bas
  eng : t.eng = s.eng
  punts : t.punts = s.punts
  tal : t.tal = s.tal
  dram : t.dram = s.dram
  fab : t.fab = s.fab
  twin : t.twin = s.twin
  sec : t.sec = s.sec
  draws : t.draws = s.draws
  pending : t.pending = s.pending

namespace State.HostOnly
variable {s t u : State}

theorem refl (s : State) : s.HostOnly s := by constructor <;> rfl

theorem trans (h : s.HostOnly t) (h' : t.HostOnly u) : s.HostOnly u where
  clk := h'.clk.trans h.clk
  latch := h'.latch.trans h.latch
  claims := h'.claims.trans h.claims
  flt := h'.flt.trans h.flt
  pwr := h'.pwr.trans h.pwr
  ports := h'.ports.trans h.ports
  rx := h'.rx.trans h.rx
  courses := h'.courses.trans h.courses
  tbl := h'.tbl.trans h.tbl
  meters := h'.meters.trans h.meters
  gen := h'.gen.trans h.gen
  bas := h'.bas.trans h.bas
  eng := h'.eng.trans h.eng
  punts := h'.punts.trans h.punts
  tal := h'.tal.trans h.tal
  dram := h'.dram.trans h.dram
  fab := h'.fab.trans h.fab
  twin := h'.twin.trans h.twin
  sec := h'.sec.trans h.sec
  draws := h'.draws.trans h.draws
  pending := h'.pending.trans h.pending

/-- A choice between two such updates is one. -/
theorem ite {c : Prop} [Decidable c] (h : s.HostOnly t) (h' : s.HostOnly u) : s.HostOnly (if c then t else u) := by
  split <;> assumption

/-- A fold of such updates is one. -/
theorem foldl {α : Type} (f : State → α → State) (hf : ∀ (s : State) x, s.HostOnly (f s x)) (l : List α) (s : State) :
    s.HostOnly (l.foldl f s) := by
  induction l generalizing s with
  | nil => exact refl s
  | cons x r ih => exact (hf s x).trans (ih _)

end State.HostOnly

theorem State.wr_frame (s : State) (k : Nat) (w : Word) : s.HostOnly (s.wr k w) := by constructor <;> rfl
theorem State.setFS_frame (s : State) (u sel : Nat) (f : Fld) (v : Nat) : s.HostOnly (s.setFS u sel f v) := s.wr_frame _ _
theorem State.setF_frame (s : State) (u : Nat) (f : Fld) (v : Nat) : s.HostOnly (s.setF u f v) := s.wr_frame _ _
theorem State.addFS_frame (s : State) (u sel : Nat) (f : Fld) (n : Nat) : s.HostOnly (s.addFS u sel f n) := s.wr_frame _ _
theorem State.addF_frame (s : State) (u : Nat) (f : Fld) (n : Nat) : s.HostOnly (s.addF u f n) := s.wr_frame _ _
theorem State.addCtr_frame (s : State) (i n : Nat) : s.HostOnly (s.addCtr i n) := by constructor <;> rfl
theorem State.send_frame (s : State) (x : Out) : s.HostOnly (s.send x) := by constructor <;> rfl
theorem State.modHif_frame (s : State) (f : Hif → Hif) : s.HostOnly (s.modHif f) := by constructor <;> rfl
theorem State.setRing_frame (s : State) (r : Nat) (x : Ring) : s.HostOnly (s.setRing r x) := s.modHif_frame _
theorem State.writeBack_frame (s : State) (r : Nat) : s.HostOnly (s.writeBack r) :=
  (s.send_frame _).trans (State.setRing_frame _ _ _)
theorem State.evtLost_frame (s : State) : s.HostOnly s.evtLost := s.addF_frame _ _ _

theorem State.sendMsix_frame (s : State) (m v : Nat) : s.HostOnly (s.sendMsix m v) := by
  unfold State.sendMsix; split
  · exact s.wr_frame _ _
  · exact s.send_frame _

theorem State.ringInterrupt_frame (s : State) (r v : Nat) : s.HostOnly (s.ringInterrupt r v) := by
  unfold State.ringInterrupt; split
  · exact .refl s
  · exact ((s.sendMsix_frame _ _).trans (State.setRing_frame _ _ _)).trans (State.writeBack_frame _ _)

theorem State.ringPending_frame (s : State) (r : Nat) : s.HostOnly (s.ringPending r) := by
  unfold State.ringPending
  exact .ite (.ite ((s.setRing_frame _ _).trans (State.ringInterrupt_frame _ _ _)) (s.setRing_frame _ _)) (.refl s)

theorem State.putEntry_frame (s : State) (r : Nat) (d : List Byte) : s.HostOnly (s.putEntry r d) := by
  unfold State.putEntry; simp only
  have h := fun l => ((State.HostOnly.foldl State.send State.send_frame l s).trans
    (State.setFS_frame _ uHIF r F.RING_STATUS_DEV_INDEX ((s.ringIndex r + 1) % 2 ^ (s.ringLog r + 1)))).trans
    (State.ringPending_frame _ r)
  split
  · exact (h _).trans (State.writeBack_frame _ _)
  · exact h _

theorem State.backlogEvent_frame (s : State) (d : List Byte) : s.HostOnly (s.backlogEvent d) := by
  unfold State.backlogEvent
  exact .ite (s.modHif_frame _) s.evtLost_frame

theorem State.hold_frame (s : State) (x : Held) : s.HostOnly (s.hold x) := s.modHif_frame _

theorem State.overflowTell_frame (s : State) (m : Nat) (e : List Byte) : s.HostOnly (s.overflowTell m e) := by
  unfold State.overflowTell; split
  · exact s.hold_frame _
  · split
    · exact .ite (s.addFS_frame _ _ _ _) (s.putEntry_frame _ _)
    · exact .ite (s.backlogEvent_frame _) s.evtLost_frame

theorem State.overflowEvent_frame (s : State) (r : Nat) : s.HostOnly (s.overflowEvent r) := by
  unfold State.overflowEvent; split
  · exact .refl s
  · exact .ite (.refl s) ((s.setRing_frame _ _).trans (State.overflowTell_frame _ _ _))

theorem State.ringOverflow_frame (s : State) (r : Nat) : s.HostOnly (s.ringOverflow r) :=
  (s.addFS_frame _ _ _ _).trans (State.overflowEvent_frame _ _)

theorem State.recordNow_frame (s : State) (r t : Nat) (d : List Byte) : s.HostOnly (s.recordNow r t d) := by
  unfold State.recordNow; split
  · exact s.addFS_frame _ _ _ _
  · split
    · exact s.ringOverflow_frame _
    · exact s.putEntry_frame _ _

theorem State.record_frame (s : State) (r t : Nat) (d : List Byte) : s.HostOnly (s.record r t d) := by
  unfold State.record
  exact .ite (s.hold_frame _) (s.recordNow_frame _ _ _)

theorem State.eventTo_frame (s : State) (r : Nat) (d : List Byte) : s.HostOnly (s.eventTo r d) :=
  .ite (s.recordNow_frame _ _ _) s.evtLost_frame

theorem State.defaultTo_frame (s : State) (m : Nat) (d : List Byte) : s.HostOnly (s.defaultTo m d) := by
  unfold State.defaultTo; split
  · exact s.recordNow_frame _ _ _
  · exact .ite (s.backlogEvent_frame _) s.evtLost_frame

theorem State.eventDefault_frame (s : State) (m : Nat) (d : List Byte) : s.HostOnly (s.eventDefault m d) :=
  .ite (s.hold_frame _) (s.defaultTo_frame _ _)

/-- An event is a record on a ring, one kept for PF0, or one counted as lost; nothing else changes. -/
theorem State.event_frame (s : State) (code source uid arg0 arg1 : Nat) : s.HostOnly (s.event code source uid arg0 arg1) := by
  unfold State.event
  exact .ite (.refl s) (.ite s.evtLost_frame (.ite (s.eventDefault_frame _ _) (.ite (s.hold_frame _) (s.eventTo_frame _ _))))

theorem State.eventFn_frame (s : State) (m code uid arg0 arg1 : Nat) : s.HostOnly (s.eventFn m code uid arg0 arg1) := by
  unfold State.eventFn
  exact .ite (.refl s) (s.eventDefault_frame _ _)

theorem State.evtRange_frame (s : State) (bar off master reason dat : Nat) : s.HostOnly (s.evtRange bar off master reason dat) :=
  s.event_frame _ _ _ _ _

theorem State.pmcWrap_frame (s : State) (u k : Nat) : s.HostOnly (s.pmcWrap u k) := by
  unfold State.pmcWrap; simp only; split
  · exact (s.setF_frame _ _ _).trans (State.event_frame _ _ _ _ _ _)
  · exact s.setF_frame _ _ _

/-- Writing a counter changes nothing else. -/
theorem State.ctrs_frame (s : State) (c : KMap DWord) : s.HostOnly { s with ctrs := c } := by constructor <;> rfl

/-- A report joins the list. -/
theorem State.reports_frame (s : State) (l : List Report) : s.HostOnly { s with reports := l } := by constructor <;> rfl

theorem State.pmcAdd_frame (s : State) (u k n : Nat) : s.HostOnly (s.pmcAdd u k n) := by
  unfold State.pmcAdd
  exact .ite (s.ctrs_frame _) (.ite (.ite ((s.ctrs_frame _).trans (State.ctrs_frame _ _))
    (((s.ctrs_frame _).trans (State.ctrs_frame _ _)).trans (State.pmcWrap_frame _ _ _)))
    ((s.ctrs_frame _).trans (State.pmcWrap_frame _ _ _)))

/-- Counting an occurrence changes counters, and at a wrap what an event changes. -/
theorem State.occur_frame (s : State) (u event cls : Nat) (master : Option Nat) (addr n : Nat) :
    s.HostOnly (s.occur u event cls master addr n) := by
  unfold State.occur; split
  · exact .refl s
  · refine State.HostOnly.foldl _ (fun s k => ?_) _ _
    split
    · exact s.pmcAdd_frame _ _ _
    · exact .refl s

theorem State.reportMark_frame (s : State) (u src detail : Nat) : s.HostOnly (s.reportMark u src detail) := by
  unfold State.reportMark
  exact .ite (.refl s) (.ite (s.setF_frame _ _ _) ((s.setF_frame _ _ _).trans (State.reports_frame _ _)))

/-- A report counts, marks the source's summary bit, and joins the list FLT reacts to. -/
theorem State.report_frame (s : State) (u src detail : Nat) : s.HostOnly (s.report u src detail) := by
  unfold State.report
  exact .ite (.refl s) (((s.addF_frame _ _ _).trans (State.occur_frame _ _ _ _ _ _ _)).trans (State.reportMark_frame _ _ _ _))

end Sys2Proof.Machine
end

