-- ==== Sys2Proof/Laws/Command.lean ====
section
/-!
SUPPORT. What every command has in common: how its effect begins and ends, accepted register accesses, the slots of a
microword, a generation command whose checks pass, and a twin message that comes next in order.
-/
namespace Sys2Proof.Machine

/-! ### How a command's effect is taken up -/

/-- A command of the running device answers the end of its effect. -/
theorem State.act_run {s : State} (t : State) (h : s.running = true) : s.act t = .next (s.after t) := by simp [State.act, h]

/-- While the device does not run, the command changes nothing. -/
theorem State.act_still {s : State} (t : State) (h : s.running = false) : s.act t = .next s := by simp [State.act, h]

/-- Everything a command of the running device can answer. -/
theorem State.act_next {s t u : State} (h : s.act t = .next u) :
    (s.running = true ∧ u = s.after t) ∨ (s.running = false ∧ u = s) := by
  cases hr : s.running with
  | true => rw [State.act_run t hr] at h; exact .inl ⟨rfl, (Host.Outcome.next.inj h).symm⟩
  | false => rw [State.act_still t hr] at h; exact .inr ⟨rfl, (Host.Outcome.next.inj h).symm⟩

/-- A command of the plinth answers the end of its effect while its clock runs. -/
theorem State.actPln_run {s : State} (t : State) (h : s.clk.running = true) : s.actPln t = .next (s.after t) := by
  simp [State.actPln, h]

theorem State.actPln_still {s : State} (t : State) (h : s.clk.running = false) : s.actPln t = .next s := by
  simp [State.actPln, h]

theorem State.actPln_next {s t u : State} (h : s.actPln t = .next u) :
    (s.clk.running = true ∧ u = s.after t) ∨ (s.clk.running = false ∧ u = s) := by
  cases hr : s.clk.running with
  | true => rw [State.actPln_run t hr] at h; exact .inl ⟨rfl, (Host.Outcome.next.inj h).symm⟩
  | false => rw [State.actPln_still t hr] at h; exact .inr ⟨rfl, (Host.Outcome.next.inj h).symm⟩

/-- The end of an effect in which no time passed. -/
theorem State.after_still {s t : State} (h : t.clk.core ≤ s.clk.core) : s.after t = t.ended := by
  unfold State.after State.elapse
  rw [if_pos (.inl (h.trans (le_max_left _ _)))]

/-- Faults react only where some were reported. -/
theorem State.react_quiet {t : State} (h : t.reports = []) : t.react = t := by simp [State.react, h]

theorem State.ended_quiet {t : State} (h : t.reports = []) : t.ended = t.alertSync.ppsDrain := by
  simp [State.ended, State.react_quiet h]

/-! ### Accesses by the host -/

/-- A write that every check lets pass stores the register and makes its effect. -/
theorem State.busWrite_ok {s : State} {m u off v : Nat} (h : s.writeOk m u off v) :
    s.busWrite m 0 (4096 * u + off) 4 v = s.wrote m u off v := by
  obtain ⟨h1, h2, h3, h4, h5, h6, h7, h8, h9⟩ := h
  have e1 : (4096 * u + off) / 4096 = u := by omega
  have e2 : (4096 * u + off) % 4096 = off := by omega
  have e3 : v % 2 ^ 32 = v := Nat.mod_eq_of_lt h7
  have hb : barSize m 0 = 2 ^ 26 := by simp [barSize, h3]
  unfold State.busWrite
  rw [if_neg (by decide), if_neg (by rw [hb, h2]; simp; omega), if_neg (by simp [h1])]
  show State.bar0Write (s.seen m (4096 * u + off)) m (4096 * u + off) 4 v = _
  unfold State.bar0Write
  simp -zeta only [e1, e2, e3]
  rw [if_neg (by omega), if_neg (by rw [h8]; decide)]
  refine (if_pos trivial).trans ?_
  exact if_neg (not_not.2 h9)

/-- An accepted write to a DEV register. -/
theorem State.busWrite_dev {s : State} {m off v : Nat} (h : s.writeOk m uDEV off v) (h2 : 0x100 ≤ off) (h3 : off < 0xE80) :
    s.busWrite m 0 (4096 * uDEV + off) 4 v = State.devEffect (s.seen m (4096 * uDEV + off)) off v (s.stored m uDEV off v) := by
  rw [State.busWrite_ok h]; unfold State.wrote State.regEffect
  rw [if_neg (by omega), if_neg (by omega), if_neg (by omega)]; rfl

/-- An accepted write to a PLN register. -/
theorem State.busWrite_pln {s : State} {m off v : Nat} (h : s.writeOk m uPLN off v) (h2 : 0x100 ≤ off) (h3 : off < 0xE80) :
    s.busWrite m 0 (4096 * uPLN + off) 4 v = State.plnEffect (s.seen m (4096 * uPLN + off)) off v (s.stored m uPLN off v) := by
  rw [State.busWrite_ok h]; unfold State.wrote State.regEffect
  rw [if_neg (by omega), if_neg (by omega), if_neg (by omega)]; rfl

/-- An accepted write to TWN_CMD. -/
theorem State.busWrite_twn {s : State} {m v : Nat} (h : s.writeOk m uTWN 0x114 v) :
    s.busWrite m 0 (4096 * uTWN + 0x114) 4 v = State.twnEffect 0x114 v (s.stored m uTWN 0x114 v) := by
  rw [State.busWrite_ok h]; unfold State.wrote State.regEffect
  rw [if_neg (by omega), if_neg (by omega), if_neg (by omega)]; rfl

/-- An accepted write to a unit's command register runs the command. -/
theorem State.busWrite_ucb {s : State} {m u tag cmd : Nat} (hc : cmd < 8) (h : s.writeOk m u 0x10 (tag % 256 * 256 + cmd)) :
    s.busWrite m 0 (4096 * u + 0x10) 4 (tag % 256 * 256 + cmd) =
      (s.stored m u 0x10 (tag % 256 * 256 + cmd)).unitCmd u cmd (tag % 256) := by
  rw [State.busWrite_ok h]; unfold State.wrote State.regEffect
  rw [if_pos rfl, show (tag % 256 * 256 + cmd) % 8 = cmd by omega, show (tag % 256 * 256 + cmd) / 256 % 256 = tag % 256 by omega]

theorem bitsOf_word (x : Nat) : bitsOf x 0 32 = x % 2 ^ 32 := by simp [bitsOf]

/-- An aligned 4-byte read of a register answers what it shows, and makes the effect a read has. -/
theorem State.busRead_reg {s : State} {m u off : Nat} (h1 : s.running = true) (h2 : s.reaches m = true) (h3 : m ≤ 4) (h4 : u < 2 ^ 14)
   (h5 : off < 4096) (h6 : off % 4 = 0) (h7 : (kindOf u).isSome = true)
   (h8 : (s.occur uHIF 0x100 0 (some m) (4096 * u + off) 1).domainOff u off = false) :
   s.busRead m 0 (4096 * u + off) 4 = ((s.occur uHIF 0x100 0 (some m) (4096 * u + off) 1).readEffect u off).send
     (.data ((s.occur uHIF 0x100 0 (some m) (4096 * u + off) 1).regView u off % 2 ^ 32)) := by
  have hb : barSize m 0 = 2 ^ 26 := by simp [barSize, h3]
  have e1 : (4096 * u + off) / 4096 = u := by omega
  have e2 : (4096 * u + off) % 4096 = off := by omega
  have hc : coveredRegs (4096 * u + off) 4 = [4096 * u + off] := by
    have a1 : (4096 * u + off + 4 + 3) / 4 - (4096 * u + off) / 4 = 1 := by omega
    simp [coveredRegs, a1, List.range_succ]; omega
  have a3 : 8 * ((4096 * u + off) % 4) = 0 := by omega
  generalize hx : s.occur uHIF 0x100 0 (some m) (4096 * u + off) 1 = x at h8
  unfold State.busRead
  rw [if_neg (by decide), if_neg (by rw [hb, h2]; simp; omega), if_neg (by simp [h1]), hx, hc]
  simp only [List.find?_cons, List.find?_nil, e1, e2, h8, if_true, State.readRegs, State.readReg, h7, a3, Nat.zero_mul, Nat.add_zero]
  rw [bitsOf_word]

/-! ### Slots of a microword -/

/-- The memory slot of a thread that issues acts once. -/
theorem State.memSlot_ready {s : State} {k op : Nat} {corr : Bool} {f : State → Nat → State} (h : s.memReady k op) :
    s.memSlot k op corr f = f (s.memIss k corr) (s.word k) := by
  obtain ⟨h1, h2, h3, h4, h5, h6⟩ := h
  have hc : ¬ ((!(s.beginIssue k).go) = true ∨ uSeq (s.beginIssue k).word = 0 ∨ uBop (s.beginIssue k).word ≠ op ∨
      ((s.beginIssue k).state.thread k).memDone = true ∨
      ¬ (((s.beginIssue k).state.thread k).aluDone = true ∨ uAop (s.beginIssue k).word = 0) ∨
      (s.beginIssue k).state.sharedWait k (s.beginIssue k).word = true) := by
    rintro (h | h | h | h | h | h)
    · simp [h1] at h
    · exact h2 h
    · exact h h3
    · rw [State.iss] at h4; simp [h4] at h
    · exact h h5
    · exact Bool.false_ne_true (h6.symm.trans h)
  exact if_neg hc

/-- The ALU slot of a thread that issues gives its result and flags once. -/
theorem State.aluSlot_ready {s : State} {k op : Nat} {f fl} (h : s.aluReady k op) :
    s.aluSlot k op f fl = (s.iss k).gives k (s.word k)
      (f ((s.iss k).operand k (uSa (s.word k))) ((s.iss k).opB k (s.word k)) (uSh (s.word k)))
      (fl ((s.iss k).operand k (uSa (s.word k))) ((s.iss k).opB k (s.word k))
        (f ((s.iss k).operand k (uSa (s.word k))) ((s.iss k).opB k (s.word k)) (uSh (s.word k)))) := by
  obtain ⟨h1, h2, h3, h4⟩ := h
  have hc : ¬ ((!(s.beginIssue k).go) = true ∨ uSeq (s.beginIssue k).word = 0 ∨ uAop (s.beginIssue k).word ≠ op ∨
      ((s.beginIssue k).state.thread k).aluDone = true) := by
    rintro (h | h | h | h)
    · simp [h1] at h
    · exact h2 h
    · exact h h3
    · rw [State.iss] at h4; simp [h4] at h
  exact if_neg hc

/-- The sequencer ends the microword. -/
theorem State.seqSlot_ready {s : State} {k op : Nat} {corr : Bool} {nx} (h : s.seqReady k op) :
    s.seqSlot k op corr nx =
      match nx ((s.iss k).thread k) (s.word k) with
      | some (pc, st) => ((s.iss k).when corr fun s => s.csCorrected k).endIssue k (s.word k) pc st
      | none => ((s.iss k).when corr fun s => s.csCorrected k).threadFault k := by
  obtain ⟨h1, h2, h3, h4⟩ := h
  have hc : ¬ ((!(s.beginIssue k).go) = true ∨ uSeq (s.beginIssue k).word ≠ op ∨
      ¬ (((s.beginIssue k).state.thread k).aluDone = true ∨ uAop (s.beginIssue k).word = 0) ∨
      ¬ (((s.beginIssue k).state.thread k).memDone = true ∨ uBop (s.beginIssue k).word = 0)) := by
    rintro (h | h | h | h)
    · simp [h1] at h
    · exact h h2
    · exact h h3
    · exact h h4
  exact if_neg hc

/-! ### Generation commands -/

/-- A generation command whose checks pass begins. -/
theorem State.genCmd_ready {s : State} {src op operand d go} (h : s.genReady src op operand d) :
    s.genCmd src op operand true go = go ((s.countTable src (tcmdOf d.w0 d.w1 d.w2 (leBytes operand 8))).setDesc src d.idx fun d => { d with begun := true }) := by
  obtain ⟨⟨e1,e2,e3,e4⟩,e5,h2,h3,h4,h5,h6⟩ := h
  have a1 : d.len = 8 := by simp [genCmdOk] at h3; exact h3.1.1
  have a2 : d.w2 = 0 := by simp [genCmdOk] at h3; exact h3.1.2
  unfold State.genCmd
  rw [e2]
  refine (if_neg (by rw [e3, e5]; simp)).trans ?_
  refine (if_neg (by rw [e4]; simp)).trans ?_
  refine (if_neg (by rw [a1, a2]; simp)).trans ?_
  refine (if_neg (by rw [h2]; simp)).trans ?_
  refine (if_neg (by simp)).trans ?_
  refine (if_neg (by rw [h3]; simp)).trans ?_
  refine (if_neg (by rw [h4]; simp)).trans ?_
  refine (if_neg (not_not.2 h5)).trans ?_
  exact if_neg (by rw [h6]; simp)

/-! ### Twin messages -/

/-- A whole, valid message is taken by its type. -/
theorem State.twinIn_reads {s : State} {type : Nat} {m : List Byte} {h : TwinHdr} (lead : Nat) (hr : s.twinReads type m h) :
    s.twinIn type m lead = (if h.type = 0 then (if (s.heard h).twinPaired then (s.heard h).heartbeatIn h.body else s.heard h)
          else if h.type = 11 then (if (s.heard h).twinPaired then (s.heard h).twinResend else s.heard h)
          else if h.type = 9 then (s.heard h).helloIn (beNat h.body) h.ack
          else (s.heard h).numbered h lead) := by
  obtain ⟨h1,h2,h3,h4,h5,h6⟩ := hr
  unfold State.twinIn
  rw [if_neg (by simp [h2]), h4]
  refine (if_neg (by simp [h3, h5])).trans ?_
  subst h5
  exact if_neg h6

/-- The next message in order takes effect at once, or waits. -/
theorem State.numbered_next {s : State} {h : TwinHdr} (lead : Nat) (hn : s.nextMsg h) :
    (s.heard h).numbered h lead = (match (s.msgIn h lead).applyMsg ⟨h.seq, h.type, h.body, lead⟩ with
      | none => (s.msgIn h lead).modTwin fun w => { w with waitAt := some (w.waitAt.getD (s.msgIn h lead).ns) }
      | some t => (t.modTwin fun w => { w with held := [], waitAt := none })) := by
  obtain ⟨h1,h2⟩ := hn
  have e : advanceGot [⟨h.seq, h.type, h.body, lead⟩] (s.heard h).twin.got = h.seq := by simp [advanceGot, h2]
  have e0 : (s.heard h).numbered h lead = (s.msgIn h lead).twinRun := by
    unfold State.numbered
    rw [if_neg (by rw [h1]; simp; omega)]
    simp only [h1, insertMsg, e]
    simp only [List.any_cons, List.any_nil, Nat.lt_irrefl, decide_false, Bool.or_false, Bool.false_and, Bool.false_eq_true, false_and, if_false]
    rfl
  rw [e0]
  unfold State.twinRun
  have e2 : (s.msgIn h lead).twin.held = [⟨h.seq, h.type, h.body, lead⟩] := rfl
  rw [e2]
  show State.twinApply 2 _ = _
  unfold State.twinApply
  rw [e2]
  simp -zeta only
  rw [if_neg (by show ¬ (h.seq < h.seq); omega)]
  cases (s.msgIn h lead).applyMsg ⟨h.seq, h.type, h.body, lead⟩ with
  | none => rfl
  | some t => simp only; unfold State.twinApply; rfl

/-- A numbered message that comes next and does not wait. -/
theorem State.twinIn_next {s t : State} {h : TwinHdr} {m type} (lead : Nat) (hr : s.twinReads type m h) (h0 : type ≠ 0) (h11 : type ≠ 11) (h9 : type ≠ 9) (hn : s.nextMsg h)
    (ht : (s.msgIn h lead).applyMsg ⟨h.seq, h.type, h.body, lead⟩ = some t) : s.twinIn type m lead = t.msgOut := by
  have h5 := hr.2.2.2.2.1
  rw [State.twinIn_reads lead hr, if_neg (by omega), if_neg (by omega), if_neg (by omega), State.numbered_next lead hn, ht]; rfl

/-! ### SMB_ALERT_N -/

/-- Its causes are read from registers and the supply warning alone. -/
theorem State.alertCause_congr {s t : State} (hr : t.regs = s.regs) (hw : t.pwr.supplyWarn = s.pwr.supplyWarn) :
    t.alertCause = s.alertCause := by
  unfold State.alertCause State.bit State.getF State.getFS State.rd
  rw [hr, hw]

/-- The pin follows its causes whatever the state was. -/
theorem State.alertSync_inv (t : State) : t.alertSync.alertInv := by
  unfold State.alertInv State.alertSync
  split <;> rename_i hc
  · split <;> rename_i ho
    · exact fun _ => ho
    · exact fun _ => rfl
  · split
    · intro h
      exact absurd ((State.alertCause_congr (s := t) rfl rfl).symm.trans h) hc
    · exact fun h => absurd h hc

end Sys2Proof.Machine
end

