-- ==== Sys2Proof/Laws/Memory.lean ====
section
/-!
SUPPORT. The DRAM's bytes: their canonical form, kept by every operation that changes them, and a read after a write.
-/
namespace Sys2Proof.Machine

theorem Memory.wf_reset : Memory.wf State.reset.dram.bytes = true := rfl

/-- Writing a byte keeps the form. -/
theorem Memory.wf_setDramByte (s : State) (ch l : Nat) (b : Byte) (h : Memory.wf s.dram.bytes = true) :
    Memory.wf (s.setDramByte ch l b).dram.bytes = true :=
  KMap.wf_put (fun _ => none) s.dram.bytes (dramKey ch l) (some b) h

/-- Forgetting bytes (a channel reset, a training row) keeps the form. -/
theorem Memory.wf_keep (m : KMap (Option Byte)) (p : Nat → Bool) (h : Memory.wf m = true) : Memory.wf (m.keep p) = true :=
  KMap.wf_keep (fun _ => none) m p h

theorem Memory.wf_modDram (s : State) (f : Dram → Dram) (h : Memory.wf (f s.dram).bytes = true) :
    Memory.wf (s.modDram f).dram.bytes = true := h

/-! ### Accesses touch banks, counters and events, and no byte -/

/-- What changes only registers, counters, the host interface and reports changes no byte. -/
theorem State.HostOnly.bytes {s t : State} (h : s.HostOnly t) : t.dram.bytes = s.dram.bytes := by rw [h.dram]

theorem State.setBank_bytes (s : State) (b : Nat) (x : Bank) : (s.setBank b x).dram.bytes = s.dram.bytes := by
  unfold State.setBank; simp

theorem State.throttle_bytes (s : State) (ch b : Nat) (top : Option Nat) : (s.throttle ch b top).dram.bytes = s.dram.bytes := by
  cases top with
  | none => rfl
  | some t =>
    unfold State.throttle
    simp only
    rw [(State.report_frame _ _ _ _).bytes, (State.event_frame _ _ _ _ _ _).bytes, (State.addF_frame _ _ _ _).bytes,
      State.setBank_bytes]

theorem State.reachRaw_bytes (s : State) (t : Nat) : (s.reachRaw t).dram.bytes = s.dram.bytes := by
  unfold State.reachRaw; split <;> rfl

/-- The wait of a throttled source changes no byte. -/
theorem State.throttleWait_bytes (s : State) (ch b src : Nat) : (s.throttleWait ch b src).dram.bytes = s.dram.bytes := by
  unfold State.throttleWait
  simp only
  split
  · rw [State.setBank_bytes, State.reachRaw_bytes]
  · rfl

/-- An activation changes no byte. -/
theorem State.activate_bytes (s : State) (ch b src : Nat) : (s.activate ch b src).dram.bytes = s.dram.bytes := by
  unfold State.activate
  simp only
  split
  · rw [(State.addF_frame _ _ _ _).bytes, State.setBank_bytes]
  · split
    · rw [State.throttle_bytes, State.setBank_bytes]
    · rw [State.setBank_bytes]

theorem State.touchBank_bytes (s : State) (ch b r : Nat) : (s.touchBank ch b r).dram.bytes = s.dram.bytes := by
  unfold State.touchBank
  rw [State.setBank_bytes, State.modDram_dram]

theorem State.touch_bytes (s : State) (ch l src : Nat) (wr : Bool) : (s.touch ch l src wr).dram.bytes = s.dram.bytes := by
  unfold State.touch State.touchRow
  simp only
  rw [(State.occur_frame _ _ _ _ _ _ _).bytes]
  split
  · exact State.touchBank_bytes _ _ _ _
  · rw [State.activate_bytes, State.touchBank_bytes, State.throttleWait_bytes]

theorem State.dramOff_bytes (s : State) (ch : Option Nat) : (s.dramOff ch).dram.bytes = s.dram.bytes := by
  unfold State.dramOff
  cases ch with
  | none => exact (State.addF_frame _ _ _ _).bytes
  | some c =>
    simp only
    split
    · exact (State.addF_frame _ _ _ _).bytes
    · rw [(State.event_frame _ _ _ _ _ _).bytes, State.modDram_dram]
      exact (State.addF_frame _ _ _ _).bytes

theorem State.dramThrough_bytes (s : State) (src : Nat) (wr : Bool) (c : Option (Nat × Nat)) :
    (s.dramThrough src wr c).2.dram.bytes = s.dram.bytes := by
  cases c with
  | none => exact s.dramOff_bytes none
  | some p =>
    obtain ⟨ch, l⟩ := p
    unfold State.dramThrough
    simp only
    cases s.chanOn ch with
    | true => exact s.touch_bytes ch l src wr
    | false => exact s.dramOff_bytes (some ch)

/-- An access changes no byte. -/
theorem State.dramAt_bytes (s : State) (src a : Nat) (wr : Bool) : (s.dramAt src a wr).2.dram.bytes = s.dram.bytes :=
  s.dramThrough_bytes src wr _

theorem Memory.wf_setDramRun (s : State) (ch l n k : Nat) (bs : List Byte) (h : Memory.wf s.dram.bytes = true) :
    Memory.wf (s.setDramRun ch l n k bs).dram.bytes = true := by
  unfold State.setDramRun State.each
  generalize List.range n = r
  induction r generalizing s with
  | nil => exact h
  | cons i r ih => exact ih _ (Memory.wf_setDramByte _ _ _ _ h)

theorem Memory.wf_writeAt (a lo n : Nat) (bs : List Byte) (done : Nat) (x : Option (Nat × Nat) × State)
    (h : Memory.wf x.2.dram.bytes = true) : Memory.wf (dramWriteAt a lo n bs done x).2.2.dram.bytes = true := by
  obtain ⟨o, t⟩ := x
  cases o with
  | none => exact h
  | some c => exact Memory.wf_setDramRun _ _ _ _ _ _ h

theorem Memory.wf_writeLine (src a : Nat) (bs : List Byte) (p : Bool × Nat × State) (la : Nat)
    (h : Memory.wf p.2.2.dram.bytes = true) : Memory.wf (dramWriteLine src a bs p la).2.2.dram.bytes = true := by
  unfold dramWriteLine
  split
  · exact h
  · refine Memory.wf_writeAt _ _ _ _ _ _ ?_
    rw [State.dramAt_bytes]; exact h

/-- A write of any length keeps the form. -/
theorem Memory.wf_dramWrite (s : State) (src a : Nat) (bs : List Byte) (h : Memory.wf s.dram.bytes = true) :
    Memory.wf (s.dramWrite src a bs).2.dram.bytes = true := by
  unfold State.dramWrite
  suffices ∀ (ls : List Nat) (p : Bool × Nat × State), Memory.wf p.2.2.dram.bytes = true →
      Memory.wf (ls.foldl (dramWriteLine src a bs) p).2.2.dram.bytes = true from this _ _ h
  intro ls
  induction ls with
  | nil => intro p hp; exact hp
  | cons la r ih => intro p hp; exact ih _ (Memory.wf_writeLine src a bs p la hp)

/-- Accesses to a run of lines change no byte. -/
theorem State.touchRun_bytes (s : State) (ch l n src : Nat) (wr : Bool) :
    (s.touchRun ch l n src wr).dram.bytes = s.dram.bytes := by
  unfold State.touchRun State.each
  generalize lines l n = r
  induction r generalizing s with
  | nil => rfl
  | cons a r ih => exact (ih _).trans (s.touch_bytes ch a src wr)

/-- A vent write keeps the form. -/
theorem Memory.wf_blockWrite (s : State) (x : Inst) (h : Memory.wf s.dram.bytes = true) :
    Memory.wf (s.blockWrite x).dram.bytes = true := by
  unfold State.blockWrite
  split
  · exact h
  · refine Memory.wf_setDramRun _ _ _ _ _ _ ?_
    rw [State.touchRun_bytes]; exact h

/-- A block's move keeps the form. -/
theorem Memory.wf_blockMove (s : State) (x : Inst) (b : Blk) (h : Memory.wf s.dram.bytes = true) :
    Memory.wf (s.blockMove x b).dram.bytes = true := by
  unfold State.blockMove
  refine Memory.wf_setDramRun _ _ _ _ _ _ ?_
  rw [State.touchRun_bytes, State.touchRun_bytes]; exact h

/-- An entry's write into its page keeps the form. -/
theorem Memory.wf_pagePut (s : State) (q pg : Nat) (e : QEnt) (h : Memory.wf s.dram.bytes = true) :
    Memory.wf (s.pagePut q pg e).dram.bytes = true := by
  unfold State.pagePut
  have hq : ∀ (t : State) (l : List QEnt), (t.setQueue q l).dram = t.dram := fun _ _ => rfl
  have hd : s.draw.2.dram = s.dram := rfl
  rw [hq]
  exact Memory.wf_dramWrite _ _ _ _ (by rw [hd]; exact h)

/-- A byte reads what was written to it. -/
@[simp] theorem State.dramByte_setDramByte_self (s : State) (ch l : Nat) (b : Byte) :
    (s.setDramByte ch l b).dramByte ch l = b := by
  unfold State.dramByte State.setDramByte
  simp

/-- A write of one byte leaves every other byte of the DRAM alone. -/
theorem State.dramByte_setDramByte_ne (s : State) (ch l ch' l' : Nat) (b : Byte) (h : dramKey ch' l' ≠ dramKey ch l) :
    (s.setDramByte ch l b).dramByte ch' l' = s.dramByte ch' l' := by
  have e : (s.setDramByte ch l b).dram.bytes.get (fun _ => none) (dramKey ch' l') = s.dram.bytes.get (fun _ => none) (dramKey ch' l') :=
    KMap.get_put_ne (fun _ => none) s.dram.bytes (dramKey ch l) (dramKey ch' l') (some b) h
  unfold State.dramByte
  rw [e]
  rfl

/-- Keys of bytes within a channel's 2^36 addresses differ with the channel or the address. -/
theorem dramKey_inj {ch l ch' l' : Nat} (h : l < 2 ^ 36) (h' : l' < 2 ^ 36) (e : dramKey ch l = dramKey ch' l') : ch = ch' ∧ l = l' := by
  unfold dramKey at e; omega

end Sys2Proof.Machine
end

