-- ==== Sys2Proof/WellFormed.lean ====
section
/-!
DEFINITION. Which commands are well formed: every operand that numbers a part of the device names one it has (Tables 1 and 2
of spec/01_architecture.md and the tables of each chapter). The meanings are total; an ill-formed command acts on no part, or
on the part its number names modulo the parts there are.
-/
namespace Sys2Proof

/-- The operands of a command are in range. -/
def Instr.wellFormed : Instr → Bool
  | .frameReceive port _ _ _ _ _ _ _ => decide (port < 264)
  | .pauseExpire port cls => decide (port < 264) && decide (cls < 9)
  | .headerAdmit course _ _ _ _ _ => decide (course < 8)
  | .camSearchSkip course => decide (course < 8)
  | .recirculationAdmit course _ _ _ _ => decide (course < 8)
  | .handOff course => decide (course < 8)
  | .ventCellWrite _ => true
  | .ventStateReturn _ _ => true
  | .returnFetch _ => true
  | .returnBlockCheck _ _ => true
  | .deepTransferTimeout _ _ => true
  | .bpmRelocate channel => decide (channel < 12)
  | .tmDecision quadrant scheduler => decide (quadrant < 4) && decide (scheduler < 9)
  | .entryPageRead _ _ => true
  | .entryPageLost _ => true
  | .portFlushStep port => decide (port < 264)
  | .egressPass port _ _ _ _ => decide (port < 264)
  | .frameTransmitEnd port => decide (port < 264)
  | .jobAccept cluster _ => decide (cluster < 16)
  | .jobDispatch cluster => decide (cluster < 16)
  | .jobRelease cluster => decide (cluster < 16)
  | .jobBudgetExpire cluster engine thread => decide (cluster < 16) && decide (engine < 17) && decide (thread < 8)
  | .engineStall cluster engine => decide (cluster < 16) && decide (engine < 17)
  | .waitTimeout cluster engine thread => decide (cluster < 16) && decide (engine < 17) && decide (thread < 8)
  | .memoryResultReturn cluster engine thread _ => decide (cluster < 16) && decide (engine < 17) && decide (thread < 8)
  | .goto cluster engine thread _ => decide (cluster < 16) && decide (engine < 17) && decide (thread < 8)
  | .call cluster engine thread _ => decide (cluster < 16) && decide (engine < 17) && decide (thread < 8)
  | .ret cluster engine thread _ => decide (cluster < 16) && decide (engine < 17) && decide (thread < 8)
  | .jumpa cluster engine thread _ => decide (cluster < 16) && decide (engine < 17) && decide (thread < 8)
  | .fault cluster engine thread _ => decide (cluster < 16) && decide (engine < 17) && decide (thread < 8)
  | .mov cluster engine thread => decide (cluster < 16) && decide (engine < 17) && decide (thread < 8)
  | .add cluster engine thread => decide (cluster < 16) && decide (engine < 17) && decide (thread < 8)
  | .sub cluster engine thread => decide (cluster < 16) && decide (engine < 17) && decide (thread < 8)
  | .and cluster engine thread => decide (cluster < 16) && decide (engine < 17) && decide (thread < 8)
  | .or cluster engine thread => decide (cluster < 16) && decide (engine < 17) && decide (thread < 8)
  | .xor cluster engine thread => decide (cluster < 16) && decide (engine < 17) && decide (thread < 8)
  | .andn cluster engine thread => decide (cluster < 16) && decide (engine < 17) && decide (thread < 8)
  | .shl cluster engine thread => decide (cluster < 16) && decide (engine < 17) && decide (thread < 8)
  | .shr cluster engine thread => decide (cluster < 16) && decide (engine < 17) && decide (thread < 8)
  | .sar cluster engine thread => decide (cluster < 16) && decide (engine < 17) && decide (thread < 8)
  | .cmp cluster engine thread => decide (cluster < 16) && decide (engine < 17) && decide (thread < 8)
  | .shrm cluster engine thread => decide (cluster < 16) && decide (engine < 17) && decide (thread < 8)
  | .shla cluster engine thread => decide (cluster < 16) && decide (engine < 17) && decide (thread < 8)
  | .mul cluster engine thread => decide (cluster < 16) && decide (engine < 17) && decide (thread < 8)
  | .min cluster engine thread => decide (cluster < 16) && decide (engine < 17) && decide (thread < 8)
  | .max cluster engine thread => decide (cluster < 16) && decide (engine < 17) && decide (thread < 8)
  | .bswap cluster engine thread => decide (cluster < 16) && decide (engine < 17) && decide (thread < 8)
  | .crc cluster engine thread => decide (cluster < 16) && decide (engine < 17) && decide (thread < 8)
  | .setf cluster engine thread => decide (cluster < 16) && decide (engine < 17) && decide (thread < 8)
  | .popc cluster engine thread => decide (cluster < 16) && decide (engine < 17) && decide (thread < 8)
  | .clz cluster engine thread => decide (cluster < 16) && decide (engine < 17) && decide (thread < 8)
  | .ldl cluster engine thread _ _ => decide (cluster < 16) && decide (engine < 17) && decide (thread < 8)
  | .stl cluster engine thread _ => decide (cluster < 16) && decide (engine < 17) && decide (thread < 8)
  | .ldp cluster engine thread _ => decide (cluster < 16) && decide (engine < 17) && decide (thread < 8)
  | .stp cluster engine thread _ => decide (cluster < 16) && decide (engine < 17) && decide (thread < 8)
  | .ldd cluster engine thread _ _ => decide (cluster < 16) && decide (engine < 17) && decide (thread < 8)
  | .std cluster engine thread _ => decide (cluster < 16) && decide (engine < 17) && decide (thread < 8)
  | .ext cluster engine thread _ => decide (cluster < 16) && decide (engine < 17) && decide (thread < 8)
  | .ins cluster engine thread _ => decide (cluster < 16) && decide (engine < 17) && decide (thread < 8)
  | .lookup cluster engine thread _ _ _ _ _ => decide (cluster < 16) && decide (engine < 17) && decide (thread < 8)
  | .chres cluster engine thread _ => decide (cluster < 16) && decide (engine < 17) && decide (thread < 8)
  | .chcmt cluster engine thread _ => decide (cluster < 16) && decide (engine < 17) && decide (thread < 8)
  | .chrd cluster engine thread _ => decide (cluster < 16) && decide (engine < 17) && decide (thread < 8)
  | .lock cluster engine thread _ => decide (cluster < 16) && decide (engine < 17) && decide (thread < 8)
  | .unlock cluster engine thread _ => decide (cluster < 16) && decide (engine < 17) && decide (thread < 8)
  | .jobrd cluster engine thread _ => decide (cluster < 16) && decide (engine < 17) && decide (thread < 8)
  | .jobend cluster engine thread _ _ => decide (cluster < 16) && decide (engine < 17) && decide (thread < 8)
  | .sadd cluster engine thread _ => decide (cluster < 16) && decide (engine < 17) && decide (thread < 8)
  | .halt ring => decide (ring < 32768)
  | .resume ring => decide (ring < 32768)
  | .step ring => decide (ring < 32768)
  | .readGregs ring => decide (ring < 32768)
  | .writeGreg ring _ _ => decide (ring < 32768)
  | .readLmem ring => decide (ring < 32768)
  | .writeLmem ring _ _ => decide (ring < 32768)
  | .readCstore ring => decide (ring < 32768)
  | .stepEnd cluster engine thread => decide (cluster < 16) && decide (engine < 17) && decide (thread < 8)
  | .ucodeLoad ring _ _ => decide (ring < 32768)
  | .linkFault port _ => decide (port < 264)
  | .linkFaultClear port => decide (port < 264)
  | .downDebounceExpire port => decide (port < 264)
  | .signalDetect port => decide (port < 264)
  | .trainingDone port _ => decide (port < 264)
  | .trainingTimeout port => decide (port < 264)
  | .upDebounceExpire port => decide (port < 264)
  | .holdExpire port => decide (port < 264)
  | .portAdminUp _ port => decide (port < 264)
  | .portAdminDown _ port => decide (port < 264)
  | .laneReadapt _ _ => true
  | .readaptTimeout _ => true
  | .pauseRepeat port cls => decide (port < 264) && decide (cls < 9)
  | .pfcWatchdogExpire port prio => decide (port < 264) && decide (prio < 8)
  | .pfcWatchdogIgnoreEnd port prio => decide (port < 264) && decide (prio < 8)
  | .reset _ uid tag => decide (uid < 2 ^ 14) && decide (tag < 256)
  | .test _ uid tag => decide (uid < 2 ^ 14) && decide (tag < 256)
  | .unitAdmit _ uid tag => decide (uid < 2 ^ 14) && decide (tag < 256)
  | .drain _ uid tag => decide (uid < 2 ^ 14) && decide (tag < 256)
  | .retire _ uid tag => decide (uid < 2 ^ 14) && decide (tag < 256)
  | .isolate _ uid tag => decide (uid < 2 ^ 14) && decide (tag < 256)
  | .unitResetDone uid _ _ _ => decide (uid < 2 ^ 14)
  | .unitTestDone uid _ _ _ => decide (uid < 2 ^ 14)
  | .unitDrainDone uid => decide (uid < 2 ^ 14)
  | .drainLimitExpire uid => decide (uid < 2 ^ 14)
  | .groupCmdAdvance uid => decide (uid < 2 ^ 14)
  | .devSetupLock _ => true
  | .registerWrite _ bar _ _ _ => [0, 2, 4, 7].contains bar
  | .latchingRead _ bar _ _ => [0, 2, 4, 7].contains bar
  | .rcRead _ bar _ _ => [0, 2, 4, 7].contains bar
  | .claimRead _ claim => decide (claim < 64)
  | .claimRelease _ claim => decide (claim < 64)
  | .claimExpire claim => decide (claim < 64)
  | .crossingTimeout _ _ _ _ => true
  | .wardenLost => true
  | .hostLinkDown link => decide (link < 2)
  | .flr _ => true
  | .flrEnd _ => true
  | .vfEnableClear _ => true
  | .ringEnable _ _ => true
  | .ringDisable _ => true
  | .ringFlushEnd ring => decide (ring < 32768)
  | .ringFlushTimeout ring => decide (ring < 32768)
  | .doorbellSq _ _ _ _ _ => true
  | .doorbellCq _ _ _ => true
  | .descriptorRead ring w0 w1 w2 w3 _ => decide (ring < 32768) && decide (w0 < 2 ^ 64) && decide (w1 < 2 ^ 64) && decide (w2 < 2 ^ 64) && decide (w3 < 2 ^ 64)
  | .chainReread ring _ _ => decide (ring < 32768)
  | .writeBack ring => decide (ring < 32768)
  | .cqWaitTimeout ring => decide (ring < 32768)
  | .ringModTimer ring => decide (ring < 32768)
  | .nop ring => decide (ring < 32768)
  | .fence ring => decide (ring < 32768)
  | .fenceDone => true
  | .injectCourse ring _ _ => decide (ring < 32768)
  | .injectQueue ring _ _ => decide (ring < 32768)
  | .buffer ring => decide (ring < 32768)
  | .puntWrite ring => decide (ring < 32768)
  | .cfgWrite ring _ _ => decide (ring < 32768)
  | .tcwTimeout pf => decide (pf < 4)
  | .read _ _ _ _ _ _ => true
  | .write _ _ _ _ _ _ => true
  | .insert _ _ _ _ _ _ => true
  | .delete _ _ _ _ _ _ => true
  | .ageIfUnhit _ _ _ _ _ _ => true
  | .testAndSet _ _ _ _ _ _ => true
  | .readSlot _ _ _ _ _ _ => true
  | .hitScan _ _ _ _ _ _ => true
  | .emRehash _ _ _ => true
  | .commit _ _ _ => true
  | .commitAccept => true
  | .commitTwinTimeout => true
  | .genAbort _ _ _ => true
  | .genWait _ => true
  | .genInvalidate _ _ _ _ _ _ => true
  | .genQueueTimeout _ => true
  | .genHorizonExpire => true
  | .sweepEnd _ => true
  | .egressFence _ => true
  | .egressFenceDone => true
  | .egressFenceBound => true
  | .emRehashDone _ _ => true
  | .shadowCompareSlice _ _ _ _ => true
  | .camScrubSlice _ _ _ _ _ => true
  | .workPeriodBoundary => true
  | .tallyRecordWrite => true
  | .telemetryRecordWrite quadrant => decide (quadrant < 4)
  | .captureBatchWrite => true
  | .flowCacheWriteback _ _ => true
  | .flowWritebackTimeout _ => true
  | .samplerDataRead _ cluster engine => decide (cluster < 16) && decide (engine < 17)
  | .fabCellSend port _ => decide (port < 127)
  | .fabCellReceive _ => true
  | .reorderWaitExpire _ => true
  | .fcCellReceive _ => true
  | .xoffExpire _ => true
  | .fcCellRepeat _ => true
  | .fabricLaneDown lane => decide (lane < 128)
  | .rankPowerDown channel rank => decide (channel < 12) && decide (rank < 2)
  | .dmcScrubSlice channel _ _ _ => decide (channel < 12)
  | .trainingHelperGo _ channel _ => decide (channel < 12)
  | .trainingHelperEnd channel _ => decide (channel < 12)
  | .h2d mover _ _ => decide (mover < 32)
  | .d2h mover _ => decide (mover < 32)
  | .d2d mover _ => decide (mover < 32)
  | .fill mover => decide (mover < 32)
  | .gate mover => decide (mover < 32)
  | .signal mover => decide (mover < 32)
  | .moverTransferDone mover _ _ _ => decide (mover < 32)
  | .gateLimitExpire mover => decide (mover < 32)
  | .faultReport uid _ _ => decide (uid < 2 ^ 14)
  | .substitutionEnd uid _ => decide (uid < 2 ^ 14)
  | .railMismatch uid => decide (uid < 2 ^ 14)
  | .histUnfreeze _ => true
  | .enter _ => true
  | .exit _ => true
  | .footingUngateDone _ => true
  | .courseHandback course => decide (course < 8)
  | .handbackTimeout course => decide (course < 8)
  | .checkUnitScan unit_ _ _ _ => decide (unit_ < 64)
  | .aliveTimeout unit_ => decide (unit_ < 64)
  | .powerOnReset => true
  | .chipReset pin => decide (pin < 2)
  | .resetRelease _ _ _ _ => true
  | .brownOut _ => true
  | .supplyWarn _ => true
  | .railLoss => true
  | .clockLoss _ => true
  | .powerUpRailTimeout => true
  | .thermalSample _ _ => true
  | .governorSample _ => true
  | .wearSecond => true
  | .devSoftReset _ => true
  | .deviceSoftResetEnd => true
  | .banked _ => true
  | .active _ => true
  | .plinthOnly _ => true
  | .powerDrainDone => true
  | .powerDrainTimeout => true
  | .bankedExitDone _ _ => true
  | .wake _ => true
  | .timeSet _ => true
  | .plnSlew _ _ => true
  | .timeComparatorFire _ => true
  | .ppsEdge _ _ => true
  | .wardenLoad ring _ _ => decide (ring < 32768)
  | .wardenSwitch ring => decide (ring < 32768)
  | .wardenSwitchTimeout => true
  | .configImage ring _ _ => decide (ring < 32768)
  | .fuseUpdate ring _ _ => decide (ring < 32768)
  | .mbOutWrite _ channel _ => decide (channel < 32)
  | .mbInAck _ channel => decide (channel < 32)
  | .mbInWrite channel _ => decide (channel < 32)
  | .mbCrossTimeout channel => decide (channel < 32)
  | .ping channel => decide (channel < 32)
  | .status channel => decide (channel < 32)
  | .attest channel => decide (channel < 32)
  | .mbAuthGo _ _ => true
  | .authVerifyDone => true
  | .lockoutEnd => true
  | .mbAuthClose _ => true
  | .getVersion pf _ => decide (pf < 5)
  | .getCapabilities pf _ => decide (pf < 5)
  | .negotiateAlgorithms pf _ => decide (pf < 5)
  | .getDigests pf _ => decide (pf < 5)
  | .getCertificate pf _ => decide (pf < 5)
  | .challenge pf _ => decide (pf < 5)
  | .getMeasurements pf _ => decide (pf < 5)
  | .heartbeatSend => true
  | .heartbeat _ => true
  | .twinTableCmd _ _ => true
  | .cfgEntries _ => true
  | .commitReq _ => true
  | .commitOk _ => true
  | .commitGo _ => true
  | .snapshot _ => true
  | .resyncEntry _ => true
  | .resyncDone _ => true
  | .hello _ => true
  | .release _ => true
  | .nak _ => true
  | .twinResendTimeout => true
  | .twinLost => true
  | .takeoverWindowEnd => true
  | .pair _ => true
  | .unpair _ => true
  | .takeover _ => true
  | .twnRelease _ => true
  | .deviceInfo addr _ => decide (addr < 128)
  | .avsTarget addr _ => decide (addr < 128)
  | .vddSense addr _ => decide (addr < 128)
  | .tj addr _ => decide (addr < 128)
  | .smbPower addr _ => decide (addr < 128)
  | .resetCause addr _ => decide (addr < 128)
  | .powerState addr _ => decide (addr < 128)
  | .wear addr _ => decide (addr < 128)
  | .faultStatus addr _ => decide (addr < 128)
  | .hist addr _ => decide (addr < 128)
  | .histSel addr _ _ => decide (addr < 128)
  | .smbTime addr _ => decide (addr < 128)
  | .smbClockTimeout => true
  | .alertResponse => true
  | .bypass => true
  | .idcode => true
  | .samplePreload _ _ => true
  | .extest _ _ => true
  | .clamp => true
  | .highz => true
  | .extestPulse _ _ => true
  | .extestTrain _ _ => true
  | .tapReset => true
  | .laneReadaptDone _ => true
  | .fabricLaneUp lane => decide (lane < 128)
  | .twinLaneDown lane => decide (lane < 8)
  | .twinLaneUp lane => decide (lane < 8)
  | .hostLinkUp link _ _ => decide (link < 2)
  | .corePwrEnRetry => true
  | .supplyWarnEnd _ => true
  | .slewAbsorbed => true
  | .mbOutAck channel => decide (channel < 32)
  | .rankRefresh channel rank => decide (channel < 12) && decide (rank < 2)
  | .openPageIdleClose channel _ => decide (channel < 12)
  | .ventWriteDone _ => true
  | .flowWritebackDone _ _ => true
  | .ucodeLoadDone => true
  | .wardenSwitchDone => true
  | .helloResend => true
  | .twinHoldEdge _ => true
  | .engineSampleTimeout cluster engine thread => decide (cluster < 16) && decide (engine < 17) && decide (thread < 8)

end Sys2Proof
end

