-- ==== Sys2Proof/Tests/Slice0.lean ====
section
/-!
SUPPORT. Tests: an ill-formed command for each check of Instr.wellFormed; the spec's worked examples and a few single steps;
and for each statement of Obligations.lean, clause by clause, a state and operands that meet its hypotheses. The images
and the session signature of the security tests are signed with a key pair of the tests' own.
-/
open Sys2Proof Sys2Proof.Machine
namespace Sys2Proof.Tests
section
set_option Elab.async false
set_option linter.unusedVariables false

/-! ### Ill-formed commands are refused -/

theorem test_wf_frameReceive : (Instr.frameReceive 264 [] false false 0 0 0 0).wellFormed = false := by decide
theorem test_wf_pauseExpire : (Instr.pauseExpire 264 0).wellFormed = false ∧ (Instr.pauseExpire 0 9).wellFormed = false := by decide
theorem test_wf_headerAdmit : (Instr.headerAdmit 8 false 0 0 0 0).wellFormed = false := by decide
theorem test_wf_camSearchSkip : (Instr.camSearchSkip 8).wellFormed = false := by decide
theorem test_wf_recirculationAdmit : (Instr.recirculationAdmit 8 0 0 0 0).wellFormed = false := by decide
theorem test_wf_handOff : (Instr.handOff 8).wellFormed = false := by decide
theorem test_wf_bpmRelocate : (Instr.bpmRelocate 12).wellFormed = false := by decide
theorem test_wf_tmDecision : (Instr.tmDecision 4 0).wellFormed = false ∧ (Instr.tmDecision 0 9).wellFormed = false := by decide
theorem test_wf_portFlushStep : (Instr.portFlushStep 264).wellFormed = false := by decide
theorem test_wf_egressPass : (Instr.egressPass 264 0 0 0 0).wellFormed = false := by decide
theorem test_wf_frameTransmitEnd : (Instr.frameTransmitEnd 264).wellFormed = false := by decide
theorem test_wf_jobAccept : (Instr.jobAccept 16 0).wellFormed = false := by decide
theorem test_wf_jobDispatch : (Instr.jobDispatch 16).wellFormed = false := by decide
theorem test_wf_jobRelease : (Instr.jobRelease 16).wellFormed = false := by decide
theorem test_wf_jobBudgetExpire :
    (Instr.jobBudgetExpire 16 0 0).wellFormed = false ∧
    (Instr.jobBudgetExpire 0 17 0).wellFormed = false ∧
    (Instr.jobBudgetExpire 0 0 8).wellFormed = false := by decide
theorem test_wf_engineStall : (Instr.engineStall 16 0).wellFormed = false ∧ (Instr.engineStall 0 17).wellFormed = false := by decide
theorem test_wf_waitTimeout :
    (Instr.waitTimeout 16 0 0).wellFormed = false ∧
    (Instr.waitTimeout 0 17 0).wellFormed = false ∧
    (Instr.waitTimeout 0 0 8).wellFormed = false := by decide
theorem test_wf_memoryResultReturn :
    (Instr.memoryResultReturn 16 0 0 0).wellFormed = false ∧
    (Instr.memoryResultReturn 0 17 0 0).wellFormed = false ∧
    (Instr.memoryResultReturn 0 0 8 0).wellFormed = false := by decide
theorem test_wf_goto :
    (Instr.goto 16 0 0 false).wellFormed = false ∧
    (Instr.goto 0 17 0 false).wellFormed = false ∧
    (Instr.goto 0 0 8 false).wellFormed = false := by decide
theorem test_wf_call :
    (Instr.call 16 0 0 false).wellFormed = false ∧
    (Instr.call 0 17 0 false).wellFormed = false ∧
    (Instr.call 0 0 8 false).wellFormed = false := by decide
theorem test_wf_ret :
    (Instr.ret 16 0 0 false).wellFormed = false ∧
    (Instr.ret 0 17 0 false).wellFormed = false ∧
    (Instr.ret 0 0 8 false).wellFormed = false := by decide
theorem test_wf_jumpa :
    (Instr.jumpa 16 0 0 false).wellFormed = false ∧
    (Instr.jumpa 0 17 0 false).wellFormed = false ∧
    (Instr.jumpa 0 0 8 false).wellFormed = false := by decide
theorem test_wf_fault :
    (Instr.fault 16 0 0 0).wellFormed = false ∧
    (Instr.fault 0 17 0 0).wellFormed = false ∧
    (Instr.fault 0 0 8 0).wellFormed = false := by decide
theorem test_wf_mov :
    (Instr.mov 16 0 0).wellFormed = false ∧
    (Instr.mov 0 17 0).wellFormed = false ∧
    (Instr.mov 0 0 8).wellFormed = false := by decide
theorem test_wf_add :
    (Instr.add 16 0 0).wellFormed = false ∧
    (Instr.add 0 17 0).wellFormed = false ∧
    (Instr.add 0 0 8).wellFormed = false := by decide
theorem test_wf_sub :
    (Instr.sub 16 0 0).wellFormed = false ∧
    (Instr.sub 0 17 0).wellFormed = false ∧
    (Instr.sub 0 0 8).wellFormed = false := by decide
theorem test_wf_and :
    (Instr.and 16 0 0).wellFormed = false ∧
    (Instr.and 0 17 0).wellFormed = false ∧
    (Instr.and 0 0 8).wellFormed = false := by decide
theorem test_wf_or : (Instr.or 16 0 0).wellFormed = false ∧ (Instr.or 0 17 0).wellFormed = false ∧ (Instr.or 0 0 8).wellFormed = false := by decide
theorem test_wf_xor :
    (Instr.xor 16 0 0).wellFormed = false ∧
    (Instr.xor 0 17 0).wellFormed = false ∧
    (Instr.xor 0 0 8).wellFormed = false := by decide
theorem test_wf_andn :
    (Instr.andn 16 0 0).wellFormed = false ∧
    (Instr.andn 0 17 0).wellFormed = false ∧
    (Instr.andn 0 0 8).wellFormed = false := by decide
theorem test_wf_shl :
    (Instr.shl 16 0 0).wellFormed = false ∧
    (Instr.shl 0 17 0).wellFormed = false ∧
    (Instr.shl 0 0 8).wellFormed = false := by decide
theorem test_wf_shr :
    (Instr.shr 16 0 0).wellFormed = false ∧
    (Instr.shr 0 17 0).wellFormed = false ∧
    (Instr.shr 0 0 8).wellFormed = false := by decide
theorem test_wf_sar :
    (Instr.sar 16 0 0).wellFormed = false ∧
    (Instr.sar 0 17 0).wellFormed = false ∧
    (Instr.sar 0 0 8).wellFormed = false := by decide
theorem test_wf_cmp :
    (Instr.cmp 16 0 0).wellFormed = false ∧
    (Instr.cmp 0 17 0).wellFormed = false ∧
    (Instr.cmp 0 0 8).wellFormed = false := by decide
theorem test_wf_shrm :
    (Instr.shrm 16 0 0).wellFormed = false ∧
    (Instr.shrm 0 17 0).wellFormed = false ∧
    (Instr.shrm 0 0 8).wellFormed = false := by decide
theorem test_wf_shla :
    (Instr.shla 16 0 0).wellFormed = false ∧
    (Instr.shla 0 17 0).wellFormed = false ∧
    (Instr.shla 0 0 8).wellFormed = false := by decide
theorem test_wf_mul :
    (Instr.mul 16 0 0).wellFormed = false ∧
    (Instr.mul 0 17 0).wellFormed = false ∧
    (Instr.mul 0 0 8).wellFormed = false := by decide
theorem test_wf_min :
    (Instr.min 16 0 0).wellFormed = false ∧
    (Instr.min 0 17 0).wellFormed = false ∧
    (Instr.min 0 0 8).wellFormed = false := by decide
theorem test_wf_max :
    (Instr.max 16 0 0).wellFormed = false ∧
    (Instr.max 0 17 0).wellFormed = false ∧
    (Instr.max 0 0 8).wellFormed = false := by decide
theorem test_wf_bswap :
    (Instr.bswap 16 0 0).wellFormed = false ∧
    (Instr.bswap 0 17 0).wellFormed = false ∧
    (Instr.bswap 0 0 8).wellFormed = false := by decide
theorem test_wf_crc :
    (Instr.crc 16 0 0).wellFormed = false ∧
    (Instr.crc 0 17 0).wellFormed = false ∧
    (Instr.crc 0 0 8).wellFormed = false := by decide
theorem test_wf_setf :
    (Instr.setf 16 0 0).wellFormed = false ∧
    (Instr.setf 0 17 0).wellFormed = false ∧
    (Instr.setf 0 0 8).wellFormed = false := by decide
theorem test_wf_popc :
    (Instr.popc 16 0 0).wellFormed = false ∧
    (Instr.popc 0 17 0).wellFormed = false ∧
    (Instr.popc 0 0 8).wellFormed = false := by decide
theorem test_wf_clz :
    (Instr.clz 16 0 0).wellFormed = false ∧
    (Instr.clz 0 17 0).wellFormed = false ∧
    (Instr.clz 0 0 8).wellFormed = false := by decide
theorem test_wf_ldl :
    (Instr.ldl 16 0 0 0 false).wellFormed = false ∧
    (Instr.ldl 0 17 0 0 false).wellFormed = false ∧
    (Instr.ldl 0 0 8 0 false).wellFormed = false := by decide
theorem test_wf_stl :
    (Instr.stl 16 0 0 false).wellFormed = false ∧
    (Instr.stl 0 17 0 false).wellFormed = false ∧
    (Instr.stl 0 0 8 false).wellFormed = false := by decide
theorem test_wf_ldp :
    (Instr.ldp 16 0 0 false).wellFormed = false ∧
    (Instr.ldp 0 17 0 false).wellFormed = false ∧
    (Instr.ldp 0 0 8 false).wellFormed = false := by decide
theorem test_wf_stp :
    (Instr.stp 16 0 0 false).wellFormed = false ∧
    (Instr.stp 0 17 0 false).wellFormed = false ∧
    (Instr.stp 0 0 8 false).wellFormed = false := by decide
theorem test_wf_ldd :
    (Instr.ldd 16 0 0 0 false).wellFormed = false ∧
    (Instr.ldd 0 17 0 0 false).wellFormed = false ∧
    (Instr.ldd 0 0 8 0 false).wellFormed = false := by decide
theorem test_wf_std :
    (Instr.std 16 0 0 false).wellFormed = false ∧
    (Instr.std 0 17 0 false).wellFormed = false ∧
    (Instr.std 0 0 8 false).wellFormed = false := by decide
theorem test_wf_ext :
    (Instr.ext 16 0 0 false).wellFormed = false ∧
    (Instr.ext 0 17 0 false).wellFormed = false ∧
    (Instr.ext 0 0 8 false).wellFormed = false := by decide
theorem test_wf_ins :
    (Instr.ins 16 0 0 false).wellFormed = false ∧
    (Instr.ins 0 17 0 false).wellFormed = false ∧
    (Instr.ins 0 0 8 false).wellFormed = false := by decide
theorem test_wf_lookup :
    (Instr.lookup 16 0 0 0 0 0 0 false).wellFormed = false ∧
    (Instr.lookup 0 17 0 0 0 0 0 false).wellFormed = false ∧
    (Instr.lookup 0 0 8 0 0 0 0 false).wellFormed = false := by decide
theorem test_wf_chres :
    (Instr.chres 16 0 0 false).wellFormed = false ∧
    (Instr.chres 0 17 0 false).wellFormed = false ∧
    (Instr.chres 0 0 8 false).wellFormed = false := by decide
theorem test_wf_chcmt :
    (Instr.chcmt 16 0 0 false).wellFormed = false ∧
    (Instr.chcmt 0 17 0 false).wellFormed = false ∧
    (Instr.chcmt 0 0 8 false).wellFormed = false := by decide
theorem test_wf_chrd :
    (Instr.chrd 16 0 0 false).wellFormed = false ∧
    (Instr.chrd 0 17 0 false).wellFormed = false ∧
    (Instr.chrd 0 0 8 false).wellFormed = false := by decide
theorem test_wf_lock :
    (Instr.lock 16 0 0 false).wellFormed = false ∧
    (Instr.lock 0 17 0 false).wellFormed = false ∧
    (Instr.lock 0 0 8 false).wellFormed = false := by decide
theorem test_wf_unlock :
    (Instr.unlock 16 0 0 false).wellFormed = false ∧
    (Instr.unlock 0 17 0 false).wellFormed = false ∧
    (Instr.unlock 0 0 8 false).wellFormed = false := by decide
theorem test_wf_jobrd :
    (Instr.jobrd 16 0 0 false).wellFormed = false ∧
    (Instr.jobrd 0 17 0 false).wellFormed = false ∧
    (Instr.jobrd 0 0 8 false).wellFormed = false := by decide
theorem test_wf_jobend :
    (Instr.jobend 16 0 0 0 false).wellFormed = false ∧
    (Instr.jobend 0 17 0 0 false).wellFormed = false ∧
    (Instr.jobend 0 0 8 0 false).wellFormed = false := by decide
theorem test_wf_sadd :
    (Instr.sadd 16 0 0 false).wellFormed = false ∧
    (Instr.sadd 0 17 0 false).wellFormed = false ∧
    (Instr.sadd 0 0 8 false).wellFormed = false := by decide
theorem test_wf_halt : (Instr.halt 32768).wellFormed = false := by decide
theorem test_wf_resume : (Instr.resume 32768).wellFormed = false := by decide
theorem test_wf_step : (Instr.step 32768).wellFormed = false := by decide
theorem test_wf_readGregs : (Instr.readGregs 32768).wellFormed = false := by decide
theorem test_wf_writeGreg : (Instr.writeGreg 32768 [] false).wellFormed = false := by decide
theorem test_wf_readLmem : (Instr.readLmem 32768).wellFormed = false := by decide
theorem test_wf_writeLmem : (Instr.writeLmem 32768 [] false).wellFormed = false := by decide
theorem test_wf_readCstore : (Instr.readCstore 32768).wellFormed = false := by decide
theorem test_wf_stepEnd :
    (Instr.stepEnd 16 0 0).wellFormed = false ∧
    (Instr.stepEnd 0 17 0).wellFormed = false ∧
    (Instr.stepEnd 0 0 8).wellFormed = false := by decide
theorem test_wf_ucodeLoad : (Instr.ucodeLoad 32768 [] false).wellFormed = false := by decide
theorem test_wf_linkFault : (Instr.linkFault 264 0).wellFormed = false := by decide
theorem test_wf_linkFaultClear : (Instr.linkFaultClear 264).wellFormed = false := by decide
theorem test_wf_downDebounceExpire : (Instr.downDebounceExpire 264).wellFormed = false := by decide
theorem test_wf_signalDetect : (Instr.signalDetect 264).wellFormed = false := by decide
theorem test_wf_trainingDone : (Instr.trainingDone 264 false).wellFormed = false := by decide
theorem test_wf_trainingTimeout : (Instr.trainingTimeout 264).wellFormed = false := by decide
theorem test_wf_upDebounceExpire : (Instr.upDebounceExpire 264).wellFormed = false := by decide
theorem test_wf_holdExpire : (Instr.holdExpire 264).wellFormed = false := by decide
theorem test_wf_portAdminUp : (Instr.portAdminUp 0 264).wellFormed = false := by decide
theorem test_wf_portAdminDown : (Instr.portAdminDown 0 264).wellFormed = false := by decide
theorem test_wf_pauseRepeat : (Instr.pauseRepeat 264 0).wellFormed = false ∧ (Instr.pauseRepeat 0 9).wellFormed = false := by decide
theorem test_wf_pfcWatchdogExpire : (Instr.pfcWatchdogExpire 264 0).wellFormed = false ∧ (Instr.pfcWatchdogExpire 0 8).wellFormed = false := by decide
theorem test_wf_pfcWatchdogIgnoreEnd :
    (Instr.pfcWatchdogIgnoreEnd 264 0).wellFormed = false ∧
    (Instr.pfcWatchdogIgnoreEnd 0 8).wellFormed = false := by decide
theorem test_wf_reset : (Instr.reset 0 (2 ^ 14) 0).wellFormed = false ∧ (Instr.reset 0 0 256).wellFormed = false := by decide
theorem test_wf_test : (Instr.test 0 (2 ^ 14) 0).wellFormed = false ∧ (Instr.test 0 0 256).wellFormed = false := by decide
theorem test_wf_unitAdmit : (Instr.unitAdmit 0 (2 ^ 14) 0).wellFormed = false ∧ (Instr.unitAdmit 0 0 256).wellFormed = false := by decide
theorem test_wf_drain : (Instr.drain 0 (2 ^ 14) 0).wellFormed = false ∧ (Instr.drain 0 0 256).wellFormed = false := by decide
theorem test_wf_retire : (Instr.retire 0 (2 ^ 14) 0).wellFormed = false ∧ (Instr.retire 0 0 256).wellFormed = false := by decide
theorem test_wf_isolate : (Instr.isolate 0 (2 ^ 14) 0).wellFormed = false ∧ (Instr.isolate 0 0 256).wellFormed = false := by decide
theorem test_wf_unitResetDone : (Instr.unitResetDone (2 ^ 14) false 0 0).wellFormed = false := by decide
theorem test_wf_unitTestDone : (Instr.unitTestDone (2 ^ 14) 0 [] false).wellFormed = false := by decide
theorem test_wf_unitDrainDone : (Instr.unitDrainDone (2 ^ 14)).wellFormed = false := by decide
theorem test_wf_drainLimitExpire : (Instr.drainLimitExpire (2 ^ 14)).wellFormed = false := by decide
theorem test_wf_groupCmdAdvance : (Instr.groupCmdAdvance (2 ^ 14)).wellFormed = false := by decide
theorem test_wf_registerWrite : (Instr.registerWrite 0 1 0 0 0).wellFormed = false := by decide
theorem test_wf_latchingRead : (Instr.latchingRead 0 1 0 0).wellFormed = false := by decide
theorem test_wf_rcRead : (Instr.rcRead 0 1 0 0).wellFormed = false := by decide
theorem test_wf_claimRead : (Instr.claimRead 0 64).wellFormed = false := by decide
theorem test_wf_claimRelease : (Instr.claimRelease 0 64).wellFormed = false := by decide
theorem test_wf_claimExpire : (Instr.claimExpire 64).wellFormed = false := by decide
theorem test_wf_hostLinkDown : (Instr.hostLinkDown 2).wellFormed = false := by decide
theorem test_wf_ringFlushEnd : (Instr.ringFlushEnd 32768).wellFormed = false := by decide
theorem test_wf_ringFlushTimeout : (Instr.ringFlushTimeout 32768).wellFormed = false := by decide
theorem test_wf_descriptorRead :
    (Instr.descriptorRead 32768 0 0 0 0 false).wellFormed = false ∧
    (Instr.descriptorRead 0 (2 ^ 64) 0 0 0 false).wellFormed = false ∧
    (Instr.descriptorRead 0 0 (2 ^ 64) 0 0 false).wellFormed = false ∧
    (Instr.descriptorRead 0 0 0 (2 ^ 64) 0 false).wellFormed = false ∧
    (Instr.descriptorRead 0 0 0 0 (2 ^ 64) false).wellFormed = false := by decide
theorem test_wf_chainReread : (Instr.chainReread 32768 0 false).wellFormed = false := by decide
theorem test_wf_writeBack : (Instr.writeBack 32768).wellFormed = false := by decide
theorem test_wf_cqWaitTimeout : (Instr.cqWaitTimeout 32768).wellFormed = false := by decide
theorem test_wf_ringModTimer : (Instr.ringModTimer 32768).wellFormed = false := by decide
theorem test_wf_nop : (Instr.nop 32768).wellFormed = false := by decide
theorem test_wf_fence : (Instr.fence 32768).wellFormed = false := by decide
theorem test_wf_injectCourse : (Instr.injectCourse 32768 [] false).wellFormed = false := by decide
theorem test_wf_injectQueue : (Instr.injectQueue 32768 [] false).wellFormed = false := by decide
theorem test_wf_buffer : (Instr.buffer 32768).wellFormed = false := by decide
theorem test_wf_puntWrite : (Instr.puntWrite 32768).wellFormed = false := by decide
theorem test_wf_cfgWrite : (Instr.cfgWrite 32768 [] false).wellFormed = false := by decide
theorem test_wf_tcwTimeout : (Instr.tcwTimeout 4).wellFormed = false := by decide
theorem test_wf_telemetryRecordWrite : (Instr.telemetryRecordWrite 4).wellFormed = false := by decide
theorem test_wf_samplerDataRead : (Instr.samplerDataRead 0 16 0).wellFormed = false ∧ (Instr.samplerDataRead 0 0 17).wellFormed = false := by decide
theorem test_wf_fabCellSend : (Instr.fabCellSend 127 0).wellFormed = false := by decide
theorem test_wf_fabricLaneDown : (Instr.fabricLaneDown 128).wellFormed = false := by decide
theorem test_wf_rankPowerDown : (Instr.rankPowerDown 12 0).wellFormed = false ∧ (Instr.rankPowerDown 0 2).wellFormed = false := by decide
theorem test_wf_dmcScrubSlice : (Instr.dmcScrubSlice 12 false [] []).wellFormed = false := by decide
theorem test_wf_trainingHelperGo : (Instr.trainingHelperGo 0 12 0).wellFormed = false := by decide
theorem test_wf_trainingHelperEnd : (Instr.trainingHelperEnd 12 []).wellFormed = false := by decide
theorem test_wf_h2d : (Instr.h2d 32 [] false).wellFormed = false := by decide
theorem test_wf_d2h : (Instr.d2h 32 0).wellFormed = false := by decide
theorem test_wf_d2d : (Instr.d2d 32 0).wellFormed = false := by decide
theorem test_wf_fill : (Instr.fill 32).wellFormed = false := by decide
theorem test_wf_gate : (Instr.gate 32).wellFormed = false := by decide
theorem test_wf_signal : (Instr.signal 32).wellFormed = false := by decide
theorem test_wf_moverTransferDone : (Instr.moverTransferDone 32 [] false 0).wellFormed = false := by decide
theorem test_wf_gateLimitExpire : (Instr.gateLimitExpire 32).wellFormed = false := by decide
theorem test_wf_faultReport : (Instr.faultReport (2 ^ 14) 0 0).wellFormed = false := by decide
theorem test_wf_substitutionEnd : (Instr.substitutionEnd (2 ^ 14) []).wellFormed = false := by decide
theorem test_wf_railMismatch : (Instr.railMismatch (2 ^ 14)).wellFormed = false := by decide
theorem test_wf_courseHandback : (Instr.courseHandback 8).wellFormed = false := by decide
theorem test_wf_handbackTimeout : (Instr.handbackTimeout 8).wellFormed = false := by decide
theorem test_wf_checkUnitScan : (Instr.checkUnitScan 64 [] false false).wellFormed = false := by decide
theorem test_wf_aliveTimeout : (Instr.aliveTimeout 64).wellFormed = false := by decide
theorem test_wf_chipReset : (Instr.chipReset 2).wellFormed = false := by decide
theorem test_wf_wardenLoad : (Instr.wardenLoad 32768 [] false).wellFormed = false := by decide
theorem test_wf_wardenSwitch : (Instr.wardenSwitch 32768).wellFormed = false := by decide
theorem test_wf_configImage : (Instr.configImage 32768 [] false).wellFormed = false := by decide
theorem test_wf_fuseUpdate : (Instr.fuseUpdate 32768 [] false).wellFormed = false := by decide
theorem test_wf_mbOutWrite : (Instr.mbOutWrite 0 32 0).wellFormed = false := by decide
theorem test_wf_mbInAck : (Instr.mbInAck 0 32).wellFormed = false := by decide
theorem test_wf_mbInWrite : (Instr.mbInWrite 32 none).wellFormed = false := by decide
theorem test_wf_mbCrossTimeout : (Instr.mbCrossTimeout 32).wellFormed = false := by decide
theorem test_wf_ping : (Instr.ping 32).wellFormed = false := by decide
theorem test_wf_status : (Instr.status 32).wellFormed = false := by decide
theorem test_wf_attest : (Instr.attest 32).wellFormed = false := by decide
theorem test_wf_getVersion : (Instr.getVersion 5 []).wellFormed = false := by decide
theorem test_wf_getCapabilities : (Instr.getCapabilities 5 []).wellFormed = false := by decide
theorem test_wf_negotiateAlgorithms : (Instr.negotiateAlgorithms 5 []).wellFormed = false := by decide
theorem test_wf_getDigests : (Instr.getDigests 5 []).wellFormed = false := by decide
theorem test_wf_getCertificate : (Instr.getCertificate 5 []).wellFormed = false := by decide
theorem test_wf_challenge : (Instr.challenge 5 []).wellFormed = false := by decide
theorem test_wf_getMeasurements : (Instr.getMeasurements 5 []).wellFormed = false := by decide
theorem test_wf_deviceInfo : (Instr.deviceInfo 128 false).wellFormed = false := by decide
theorem test_wf_avsTarget : (Instr.avsTarget 128 false).wellFormed = false := by decide
theorem test_wf_vddSense : (Instr.vddSense 128 false).wellFormed = false := by decide
theorem test_wf_tj : (Instr.tj 128 false).wellFormed = false := by decide
theorem test_wf_smbPower : (Instr.smbPower 128 false).wellFormed = false := by decide
theorem test_wf_resetCause : (Instr.resetCause 128 false).wellFormed = false := by decide
theorem test_wf_powerState : (Instr.powerState 128 false).wellFormed = false := by decide
theorem test_wf_wear : (Instr.wear 128 false).wellFormed = false := by decide
theorem test_wf_faultStatus : (Instr.faultStatus 128 false).wellFormed = false := by decide
theorem test_wf_hist : (Instr.hist 128 false).wellFormed = false := by decide
theorem test_wf_histSel : (Instr.histSel 128 0 none).wellFormed = false := by decide
theorem test_wf_smbTime : (Instr.smbTime 128 false).wellFormed = false := by decide
theorem test_wf_fabricLaneUp : (Instr.fabricLaneUp 128).wellFormed = false := by decide
theorem test_wf_twinLaneDown : (Instr.twinLaneDown 8).wellFormed = false := by decide
theorem test_wf_twinLaneUp : (Instr.twinLaneUp 8).wellFormed = false := by decide
theorem test_wf_hostLinkUp : (Instr.hostLinkUp 2 0 0).wellFormed = false := by decide
theorem test_wf_mbOutAck : (Instr.mbOutAck 32).wellFormed = false := by decide
theorem test_wf_rankRefresh : (Instr.rankRefresh 12 0).wellFormed = false ∧ (Instr.rankRefresh 0 2).wellFormed = false := by decide
theorem test_wf_openPageIdleClose : (Instr.openPageIdleClose 12 0).wellFormed = false := by decide
theorem test_wf_engineSampleTimeout :
    (Instr.engineSampleTimeout 16 0 0).wellFormed = false ∧
    (Instr.engineSampleTimeout 0 17 0).wellFormed = false ∧
    (Instr.engineSampleTimeout 0 0 8).wellFormed = false := by decide

/-! ### Small states -/

/-- Reset state with the units of a list in State `n`. -/
def inState (s : State) (n : Nat) (us : List Nat) : State := us.foldl (fun s u => s.setF u F.UCB_STATE_STATE n) s
/-- The reset state, its clock at `t` ns. -/
def atNs (t : Nat) : State := { State.reset with clk := { now := t * 65536 } }
def z : State := State.reset
def e0 : QEnt := { inst := 0, copy := { queue := 0 }, cells := 0, row := 0, enq := 0, admitAt := 0 }
/-- Course 0 and its units Active. -/
def crs : State := inState z 4 [uADM 0, uSIV 0, uLKP 0, uRSV 0, uEGR 0, uMAC 0]
/-- Port 0 alive on course 0: port block 0 in mode 1, link UP. -/
def port0 : State := ((crs.setF (uMAC 0) F.MAC_MODE_MODE 1).setF (uMAC 0) (F.PORT_STATUS_LINK_STATE.i 0) 3).setF (uMAC 0) (F.PORT_CTL_MTU.i 0) 1518
def frame60 : List Byte := List.replicate 60 0
def hand0 (f : Fate) : Hand := { pkt := {}, fate := f }
/-- Course 0 holds a header with a fate. -/
def handed (s : State) (f : Fate) : State := s.setCourse 0 { hand := [hand0 f] }
/-- The hand-off of course 0 may pick cluster 0. -/
def home0 : State := ((inState crs 4 [uCSH 0, uENG 0 0]).setF (uRSV 0) F.RSV_ENG_HOME_COUNT 1)
/-- An instance of a packet: 1 cell of row 0, column 0, direct unless `place` says otherwise. -/
def inst0 (place : Nat) : Inst :=
  { id := 0, row := 0, col := 0, cells := 1, ref := 1, place := place, left := 1, at_ := 0, ch := 0, pool := 0, block := 0, req := 0,
    refCtr := false, blkRef := 1, lost := false, pkt := {} }
def withInst (x : Inst) : State := z.modBas fun b => { b with insts := [(0, some x)] }
/-- Queue 0 holds `e`, instance 0 is `x`. -/
def queued (e : QEnt) (x : Inst) : State := z.modBas fun b => { b with insts := [(0, some x)], queues := [(0, [e])] }
/-- Queue 0 on port 0, its path enabled, one copy of instance 0 waiting. -/
def sched (e : QEnt) : State :=
  inState ((((queued e (inst0 0)).setEnt 0x50 0 0 (2 ^ 63)).setEnt 0x51 0 0 (2 ^ 63)).setEnt 0x52 0 0 (2 ^ 63) |>.setF (uMAC 0)
    (F.PORT_STATUS_LINK_STATE.i 0) 3) 4 [uMAC 0, uTMQ 0]
/-- Ring 0 belongs to the first function, 16 entries of a type, and holds descriptors. -/
def ring0 (s : State) (type : Nat) (ds : List Desc) : State :=
  ((((s.setFS uHIF 1 F.HIF_FN_RINGS_COUNT 1).setFS uHIF 0 F.RING_CFG_TYPE type).setFS uHIF 0 F.RING_SIZE_RING_LOG2 4).setFS uHIF 0
    F.RING_STATUS_STATE 1).setRing 0 { log := 4, descs := ds }
/-- A descriptor of an opcode with its length, address and third word. -/
def desc (op len w2 : Nat) : Desc := { w0 := op * 2 ^ 56 + len, w1 := 0, w2 := w2, w3 := 0, idx := 0 }
def job0 : Job := { src := 0, course := 0, prio := 0, slow := 0, user := 0, cells := 1, handle := 0, win := frame60, punt := none, pkt := {} }
def out0 (e : Option (List Nat)) : OutJob := { seq := 0, thread := some 0, ending := e, act := 0, ring := 0, job := job0 }
/-- Cluster 0's router holds a copy of instance 0 on its column. -/
def routed (e : QEnt) : State := (inState (withInst (inst0 0)) 4 [uCSH 0, uEC 0, uENG 0 0]).modBas fun b => { b with router := [(0, [e])] }
/-- Engine 0 of cluster 0 in service. -/
def eng0 : State := inState z 4 [uCSH 0, uEC 0, uENG 0 0]
/-- Thread 0 of engine 0 in the middle of issuing microword `w`. -/
def issuing (w : Nat) (x : Thread) : State :=
  (eng0.setThread 0 x).modEng fun e => { e with engines := [(0, { issuing := some 0 })], cs := [(0, w)], clusters := [(0, { outst := [out0 none] })] }
/-- One DRAM channel Active, 1 GiB of it interleaved. -/
def dram1 (s : State) : State := ((inState s 4 [uDMC 0]).setF uDRM F.DRM_ILV_CFG_MASK 1).setF uDRM F.DRM_ILV_CFG_SIZE_GIB 1
/-- Local memory of engine 0 with four words at 0x100. -/
def ending (s : State) (ws : List Nat) : State := s.setLmemBytes 0 0x100 (ws.flatMap fun w => leBytes w 8)
/-- Port 0 in mode 1 with its link in LINK_STATE `n`, its lane Active. -/
def link (n : Nat) : State := (inState (port0.setF (uMAC 0) (F.PORT_STATUS_LINK_STATE.i 0) n) 4 ((List.range 8).map (uLane 0)))
/-- A unit command running on a leaf. -/
def uRun (u cmd : Nat) : URun := ⟨u, cmd, 0, [], some u, 0, none⟩
def running1 (s : State) (r : URun) : State := s.modFlt fun f => { f with runs := [r] }
/-- The first function may write tables; ring 0 is its TABLE ring. -/
def tbl (ds : List Desc) : State := ring0 (z.setFS uHIF 1 F.HIF_FN_CFG_TABLE_WR 1) 3 ds
/-- PF 3's table command window holds OP `op` on TABLE `t`. -/
def tcw (op t : Nat) : State :=
  (((z.setFS uHIF 4 F.HIF_FN_CFG_TABLE_WR 1).setF (uTCW 3) F.TCW_CMD_OP op).setF (uTCW 3) F.TCW_CMD_TABLE t).modHif fun h => { h with tcwAt := [(3, some 0)] }
/-- A line card whose FAB and lanes 0 and 127 are Active. -/
def card : State := (inState z 4 [uFAB, uLane 16 0, uLane 31 7]).setF uFAB F.FAB_MODE_LINECARD 1
def syncCell (sync : Bool) (seq : Nat) : List Byte := cellBytes 0 0 1 255 seq sync [1]
/-- Mover 31 and channel 0 Active, descriptors on ring 0. -/
def movers (ds : List Desc) : State := ring0 (dram1 (inState z 4 [uMV 31])) 6 ds
/-- Mover 31 with a descriptor under way. -/
def moving (r : MvRun) : State := (movers []).modDram fun d => { d with mv := [(31, some r)] }
/-- Ring 0 is the first function's image ring with a descriptor of an opcode; `open_` says whether the secure session is. -/
def imgRing (op w2 : Nat) (open_ : Bool) : State := (ring0 z 4 [desc op 8 w2]).setF uBAR4 F.MB_AUTH_STATUS_OPEN (if open_ then 1 else 0)
/-- Both devices are twins: link STATE `st`, ROLE `role`. -/
def twin (st role : Nat) : State :=
  ((inState z 4 [uTWN]).setF uTWN F.TWN_STATUS_STATE st).setF uTWN F.TWN_STATUS_ROLE role
def hdr (type : Nat) (body : List Byte) : TwinHdr := ⟨type, 1, if type = 0 ∨ type = 11 then 0 else 1, 0, body⟩
def msg (type : Nat) (body : List Byte) : List Byte := twinBytes type 1 (if type = 0 ∨ type = 11 then 0 else 1) 0 body
/-- A state whose twin device is a standby: its ports are squelched. -/
def squelch (s : State) : State := s.modTwin fun w => { w with squelched := true }

/-- The state a command leaves. -/
def nextOf (o : Host.Outcome State Fault Refusal) : State := match o with | .next s => s | _ => z

/-! ### Values from the spec's worked examples -/

/-- spec/17_faults_and_repair.md gives the CRC-32C of "123456789". -/
theorem test_crc32c_check : crc32c 0xFFFFFFFF#32 [0x31, 0x32, 0x33, 0x34, 0x35, 0x36, 0x37, 0x38, 0x39] = 0xE3069283#32 := by decide +kernel
/-- The same for CRC-64/ECMA-182. -/
theorem test_crc64_check : crc64 0#64 [0x31, 0x32, 0x33, 0x34, 0x35, 0x36, 0x37, 0x38, 0x39] = 0x6C40DF5F0B497347#64 := by decide +kernel
/-- spec/01_architecture.md: XP(5,32) is UID 0x2160. -/
theorem test_crosspoint_uid : uXP 5 32 = 0x2160 := by decide
/-- spec/02_units_and_setup_space.md: BSN lists 35 ranges and 1,157 children. -/
theorem test_basin_children : (childRanges 0x800).length = 35 ∧ ((childRanges 0x800).map fun r => r.2.2).sum = 1157 := by decide +kernel
/-- spec/13_traffic_manager.md: a detour of priority 3 to EC05 joins queue 131,051. -/
theorem test_internal_queue : internalQueue 5 3 = 131051 := by decide
/-- spec/04_ports.md: 0xFFFF quanta of a 400G port last 83.885 us. -/
theorem test_pause_quanta : (State.quantaNs (z.setF (uMAC 0) F.MAC_MODE_MODE 2) 0 0xFFFF) = 83885 := by decide +kernel
/-- spec/06_lookup_tables.md: H[31:16] = 40,503 picks member 7 of 12 and 9 of 16. -/
theorem test_hash_pick : hashPick (40503 * 2 ^ 16) 12 = 7 ∧ hashPick (40503 * 2 ^ 16) 16 = 9 := by decide +kernel
/-- spec/15_dram_and_movers.md: twelve channels of BASE 8 GiB, SIZE 56 GiB. -/
def twelve : State := ((List.range 12).foldl (fun s c => s.setF (uDMC c) F.DMC_ILV_BASE_BASE_GIB 8) z).setF uDRM F.DRM_ILV_CFG_MASK 0xFFF
theorem test_dram_map : (twelve.setF uDRM F.DRM_ILV_CFG_SIZE_GIB 56).dramMap 0x0000001234567ABC = some (7, 0x3845C8ABC) := by decide +kernel
/-- spec/11_microcode.md: the fields of microword 0x0A1, from its bytes as stored. -/
def word0A1 : Nat := leNat [0xE0, 0, 0, 0, 0, 0, 0x61, 0x38, 0x03, 0x10, 0x10, 0x44, 0x43, 0x0A, 0x00, 0x01]
theorem test_microword : uSeq word0A1 = 1 ∧ uAop word0A1 = 0x0D ∧ uSetc word0A1 = false ∧ uSa word0A1 = 8 ∧ uSb word0A1 = 2 ∧
    uBop word0A1 = 7 ∧ uReg word0A1 = 3 ∧ uAreg word0A1 = 2 ∧ uSz word0A1 = 0 ∧ uDisp word0A1 = 0 ∧ fLen word0A1 = 8 ∧
    ((List.range 10).all fun n => uCheck n word0A1) = true := by decide +kernel
/-- spec/02_units_and_setup_space.md: the warden's first read of a free claim gives 0, PF0's then 0x8000. -/
theorem test_claim_read : (nextOf (execClaimRead 0 5 z)).out = [.data 0] ∧
    (nextOf (execClaimRead 1 5 (z.setClaim 5 (some ⟨0, 0⟩)))).out = [.data 0x8000] := by decide +kernel

/-! ### One step -/

/-- Log entry 4: an idle step is one plinth tick of 4 ns. -/
theorem test_idle_step : (nextOf (step z)).ns = z.ns + 4 := by decide +kernel
/-- Tables of condition bits and ALU operations of spec/11_microcode.md: 2^64 - 1 plus 1 is 0 with Z and C set, into g3, by thread 0 of engine 0. -/
def adds : State := issuing (2 * 2 ^ 94 + 2 ^ 93 + 3 * 2 ^ 87 + 2 ^ 81 + 2 * 2 ^ 75 + 2 ^ 120) { g := [(1, 0xFFFFFFFFFFFFFFFF#64), (2, 1#64)] }
theorem test_add_wraps : ((nextOf (execAdd 0 0 0 adds)).thread 0).aluRes = 0#64 ∧
    bitsOf ((nextOf (execAdd 0 0 0 adds)).thread 0).cond 0 4 = 5 ∧ ((nextOf (execAdd 0 0 0 adds)).thread 0).aluDone = true := by
  decide +kernel
/-- R111: a good frame waits in the receive buffer; one of 59 bytes does not. -/
theorem test_frame_receive : ((nextOf (execFrameReceive 0 frame60 true false 0 0 0 0 port0)).rxBlock 0).length = 1 ∧
    ((nextOf (execFrameReceive 0 (List.replicate 59 0) true false 0 0 0 0 port0)).rxBlock 0).length = 0 := by decide +kernel
/-- A command at the front of the queue runs with the queue's rest. -/
theorem test_step_takes_front : (nextOf (step { z with pending := [.camSearchSkip 0, .handOff 0] })).pending = [.handOff 0] := by
  decide +kernel
/-- The table gives no row any bits. -/
theorem test_no_words : decodeTableWord 8 0 = none ∧ z.withFetchWord 8 0 = z := by decide +kernel
/-- FIPS 180-4: SHA-384 of "abc". -/
theorem test_sha384_abc : sha384 [0x61, 0x62, 0x63] =
    beBytes 0xcb00753f45a35e8bb5a03d699ac65007272c32ab0eded1631a8b605a43ff5bed8086072ba1e7cc2358baeca134c825a7 48 := by decide +kernel
/-- RFC 6979, A.2.6: its signature of "sample" verifies; of another message it does not. -/
def rfcKey : List Byte :=
  beBytes 0xEC3A4E415B4E19A4568618029F427FA5DA9A8BC4AE92E02E06AAE5286B300C64DEF8F0EA9055866064A254515480BC13 48 ++
  beBytes 0x8015D9B72D7D57244EA8EF9AC0C621896708A59367F9DFB9F54CA84B3F1C9DB1288B231C3AE0D4FE7344FD2533264720 48
def rfcSig : List Byte :=
  beBytes 0x94EDBB92A5ECB8AAD4736E56C691916B3F88140666CE9FA73D64C4EA95AD133C81A648152E44ACF96E36DD1E80FABE46 48 ++
  beBytes 0x99EF4AEB15F178CEA1FE40DB2603138F130E740A19624526203B6351D0A3A94FA329C145786E679E7B82C71A38628AC8 48
theorem test_ecdsa : ecdsaVerify rfcKey (sha384 [0x73, 0x61, 0x6D, 0x70, 0x6C, 0x65]) rfcSig = true ∧
    ecdsaVerify rfcKey (sha384 [0x73, 0x61, 0x6D, 0x70, 0x6C, 0x66]) rfcSig = false := by decide +kernel

/-! ### Witnesses -/

/-! StepRunsFrontCommand -/
theorem witness_StepRunsFrontCommand_0 : ∃ (s : State) (c : Instr) (rest : List Instr),
    s.pending = c :: rest :=
  ⟨{ z with pending := [.camSearchSkip 0] }, .camSearchSkip 0, [], by decide +kernel⟩

/-! EmptyQueueTicks -/
theorem witness_EmptyQueueTicks_0 : ∃ (s : State),
    s.pending = [] ∧ s.clk.running = true :=
  ⟨z, by decide +kernel⟩
theorem witness_EmptyQueueTicks_1 : ∃ (s : State),
    s.pending = [] ∧ s.clk.running = false :=
  ⟨{ z with clk := { running := false } }, by decide +kernel⟩

/-! QuietCommandEndsInItsEffect -/
theorem witness_QuietCommandEndsInItsEffect_0 : ∃ (s : State) (t : State),
    t.clk.core ≤ s.clk.core ∧ t.reports = [] :=
  ⟨z, z, by decide +kernel⟩
theorem witness_QuietCommandEndsInItsEffect_1 : ∃ (s : State) (t : State),
    t.clk.core ≤ s.clk.core ∧ t.reports = [] ∧ (([1, 2] : List Nat).all fun o => t.pwr.outUntil.get (fun _ => 0) o == 0) = true :=
  ⟨z, z, by decide +kernel⟩

/-! FieldsOfOneWordAreApart -/
theorem witness_FieldsOfOneWordAreApart_1 : ∃ (lo : Nat) (w : Nat) (lo' : Nat) (w' : Nat),
    (lo' + w' ≤ lo ∨ lo + w ≤ lo') :=
  ⟨4, 4, 0, 4, by decide +kernel⟩
theorem witness_FieldsOfOneWordAreApart_2 : ∃ (f : Fld),
    f.lo + f.w ≤ 32 :=
  ⟨F.PLN_SUPPLY_TARGET_MV, by decide +kernel⟩
theorem witness_FieldsOfOneWordAreApart_3 : ∃ (f : Fld) (g : Fld),
    f.lo + f.w ≤ 32 ∧ g.lo + g.w ≤ 32 ∧ ((g.off = f.off → g.lo + g.w ≤ f.lo ∨ f.lo + f.w ≤ g.lo)) :=
  ⟨F.PLN_SUPPLY_TARGET_MV, F.PLN_SUPPLY_VDD_MV, by decide +kernel⟩

/-! DeadlineAndAgeChecks -/
theorem witness_DeadlineAndAgeChecks_2 : ∃ (s : State) (p : Pkt),
    s.ns = p.adm.admitAt + p.adm.deadline :=
  ⟨z, {}, by decide +kernel⟩
theorem witness_DeadlineAndAgeChecks_3 : ∃ (s : State) (q : Nat) (e : QEnt),
    s.ns = e.admitAt + s.ageNs q :=
  ⟨atNs (z.ageNs 0), 0, e0, by decide +kernel⟩

/-! LatchedFaultSourceOnlyCounts -/
theorem witness_LatchedFaultSourceOnlyCounts_0 : ∃ (s : State) (u : Nat) (src : Nat),
    let t := (s.addF u (F.FLT_SRC_COUNT_COUNT.i src) 1).occur u 0x005 (s.sevOf u src) none 0 1
    nsrc u ≠ 0 ∧ bitsOf (t.getF u F.UCB_FAULT_SUM_SRC) src 1 = 1 :=
  ⟨z.setF uPLN F.UCB_FAULT_SUM_SRC 8, uPLN, 3, by decide +kernel⟩
theorem witness_LatchedFaultSourceOnlyCounts_1 : ∃ (src : Nat),
    src < 16 :=
  ⟨15, by decide +kernel⟩
theorem witness_LatchedFaultSourceOnlyCounts_2 : ∃ (s : State) (u : Nat) (src : Nat),
    let t := (s.addF u (F.FLT_SRC_COUNT_COUNT.i src) 1).occur u 0x005 (s.sevOf u src) none 0 1
    let x := t.setF u F.UCB_FAULT_SUM_SRC (setBitsOf (t.getF u F.UCB_FAULT_SUM_SRC) src 1 1)
    nsrc u ≠ 0 ∧ bitsOf (t.getF u F.UCB_FAULT_SUM_SRC) src 1 = 0 ∧ bitsOf (x.getF u F.UCB_FAULT_MASK_MASK) src 1 = 0 :=
  ⟨z, uPLN, 3, by decide +kernel⟩

/-! FrameReceiveQueuesGoodFrames -/
theorem witness_FrameReceiveQueuesGoodFrames_0 : ∃ (s : State) (port : Nat) (frame : List Byte) (n : Nat),
    let t := (s.portCtr port 0 1).portCtr port 1 (frame.length + 4)
    s.running = true ∧ s.portExists port = true ∧ s.portLive port = true ∧ s.pwr.drainAt = none ∧ s.rxCheck port (frame.length + 4) true false false = none ∧ fb2 frame 12 ≠ 0x8808 ∧ t.serving (port / 32) = some n ∧ t.twin.squelched = false ∧ ((t.rxBlock (port / 8)).map (·.frame.length)).sum + frame.length ≤ 131072 :=
  ⟨port0, 0, frame60, 0, by decide +kernel⟩
theorem witness_FrameReceiveQueuesGoodFrames_1 : ∃ (s : State) (port : Nat) (frame : List Byte) (fcsOk : Bool) (pcsBad : Bool) (code : Nat) (k : Nat),
    s.running = true ∧ s.portExists port = true ∧ s.portLive port = true ∧ s.pwr.drainAt = none ∧ s.rxCheck port (frame.length + 4) fcsOk pcsBad false = some (code, k) :=
  ⟨port0, 0, List.replicate 59 0, true, false, 2, 3, by decide +kernel⟩

/-! HeadersEnterTheirCourse -/
theorem witness_HeadersEnterTheirCourse_0 : ∃ (s : State) (c : Nat) (x : RxFrame),
    let n := c % 8
    s.running = true ∧ s.taking = true ∧ s.courseUp n = true ∧ s.nextFrame n = some x :=
  ⟨port0.setRx 0 [⟨0, frame60, 0, 0⟩], 0, ⟨0, frame60, 0, 0⟩, by decide +kernel⟩
theorem witness_HeadersEnterTheirCourse_1 : ∃ (s : State) (c : Nat) (f : Inject) (rest : List Inject),
    let n := c % 8
    s.running = true ∧ s.taking = true ∧ ((s.ust (uADM n) = 4 ∨ s.ust (uADM n) = 5)) ∧ s.getF (uADM n) F.UCB_STATE_ISOLATED = 0 ∧ (s.course n).inject = f :: rest :=
  ⟨crs.setCourse 0 { inject := [⟨0, 0, 60, frame60⟩] }, 8, ⟨0, 0, 60, frame60⟩, [], by decide +kernel⟩
theorem witness_HeadersEnterTheirCourse_3 : ∃ (s : State) (c : Nat) (x : Recirc) (rest : List Recirc),
    let n := c % 8
    let t := s.setCourse n { s.course n with recirc := rest }
    s.running = true ∧ s.taking = true ∧ ((s.ust (uADM n) = 4 ∨ s.ust (uADM n) = 5)) ∧ s.getF (uADM n) F.UCB_STATE_ISOLATED = 0 ∧ (s.course n).recirc = x :: rest ∧ t.footing = false ∧ t.pastDeadline x.pkt = false ∧ x.pkt.adm.pass = 1 ∧ ((t.takeSkip n).2.parse n x.profile { x.pkt with slots := [], adm := { x.pkt.adm with pass := 2, slow := false, mal := false, malReason := 0, bos := 0 } }).1.isSome = true :=
  ⟨(inState (z.setEnt 0x02 0 0 (2^62)) 4 [uADM 0]).setCourse 0 { recirc := [⟨{ frame := frame60, adm := { pass := 1 } }, 0, 0⟩] }, 0, ⟨{ frame := frame60, adm := { pass := 1 } }, 0, 0⟩, [], by decide +kernel⟩

/-! HandOffPlacesItsOldestHeader -/
theorem witness_HandOffPlacesItsOldestHeader_0 : ∃ (s : State) (c : Nat) (h : Hand) (rest : List Hand),
    let n := c % 8
    let t := s.setCourse n { s.course n with hand := rest }
    s.running = true ∧ (s.course n).hand = h :: rest ∧ t.pastDeadline h.pkt = true :=
  ⟨handed (atNs 1) .detour, 0, hand0 .detour, [], by decide +kernel⟩
theorem witness_HandOffPlacesItsOldestHeader_1 : ∃ (s : State) (c : Nat) (h : Hand) (rest : List Hand) (y : _),
    let n := c % 8
    let t := s.setCourse n { s.course n with hand := rest }
    s.running = true ∧ (s.course n).hand = h :: rest ∧ t.pastDeadline h.pkt = false ∧ h.fate = .queue y :=
  ⟨handed crs (.queue { queue := 5 }), 0, hand0 (.queue { queue := 5 }), [], { queue := 5 }, by decide +kernel⟩
theorem witness_HandOffPlacesItsOldestHeader_2 : ∃ (s : State) (c : Nat) (h : Hand) (rest : List Hand) (l : _) (foot : _),
    let n := c % 8
    let t := s.setCourse n { s.course n with hand := rest }
    s.running = true ∧ (s.course n).hand = h :: rest ∧ t.pastDeadline h.pkt = false ∧ h.fate = .list l foot :=
  ⟨handed crs (.list 1 false), 0, hand0 (.list 1 false), [], 1, false, by decide +kernel⟩
theorem witness_HandOffPlacesItsOldestHeader_3 : ∃ (s : State) (c : Nat) (h : Hand) (rest : List Hand) (k : Nat),
    let n := c % 8
    let t := s.setCourse n { s.course n with hand := rest }
    let u := match h.learn with | some key => t.learn n h.pkt.adm.port key | none => t
    let prio := u.getF (uRSV n) (F.RSV_ENG_CLASS_PRIO.i h.pkt.adm.slowClass)
    s.running = true ∧ (s.course n).hand = h :: rest ∧ t.pastDeadline h.pkt = false ∧ h.fate = .detour ∧ u.pickCluster n h.pkt prio = some k :=
  ⟨handed home0 .detour, 0, hand0 .detour, [], 0, by decide +kernel⟩
theorem witness_HandOffPlacesItsOldestHeader_4 : ∃ (s : State) (c : Nat) (h : Hand) (rest : List Hand),
    let n := c % 8
    let t := s.setCourse n { s.course n with hand := rest }
    let u := match h.learn with | some key => t.learn n h.pkt.adm.port key | none => t
    let prio := u.getF (uRSV n) (F.RSV_ENG_CLASS_PRIO.i h.pkt.adm.slowClass)
    s.running = true ∧ (s.course n).hand = h :: rest ∧ t.pastDeadline h.pkt = false ∧ h.fate = .detour ∧ u.pickCluster n h.pkt prio = none :=
  ⟨handed crs .detour, 0, hand0 .detour, [], by decide +kernel⟩
theorem witness_HandOffPlacesItsOldestHeader_5 : ∃ (s : State) (c : Nat) (h : Hand) (rest : List Hand) (ring : _) (reason : _) (k : Nat),
    let n := c % 8
    let t := s.setCourse n { s.course n with hand := rest }
    let u := match h.learn with | some key => t.learn n h.pkt.adm.port key | none => t
    s.running = true ∧ (s.course n).hand = h :: rest ∧ t.pastDeadline h.pkt = false ∧ h.fate = .punt ring reason ∧ u.pickCluster n h.pkt 0 = some k :=
  ⟨handed home0 (.punt 1 2), 0, hand0 (.punt 1 2), [], 1, 2, 0, by decide +kernel⟩
theorem witness_HandOffPlacesItsOldestHeader_6 : ∃ (s : State) (c : Nat) (h : Hand) (rest : List Hand) (ring : _) (reason : _),
    let n := c % 8
    let t := s.setCourse n { s.course n with hand := rest }
    let u := match h.learn with | some key => t.learn n h.pkt.adm.port key | none => t
    s.running = true ∧ (s.course n).hand = h :: rest ∧ t.pastDeadline h.pkt = false ∧ h.fate = .punt ring reason ∧ u.pickCluster n h.pkt 0 = none :=
  ⟨handed crs (.punt 1 2), 0, hand0 (.punt 1 2), [], 1, 2, by decide +kernel⟩

/-! DeepBufferCommandsComplete -/
theorem witness_DeepBufferCommandsComplete_0 : ∃ (s : State) (i : Nat) (x : Inst) (l : List Inst),
    s.running = true ∧ s.footing = false ∧ s.getF uBSN F.BSN_VENT_GOV_PCT ≠ 0 ∧ ((s.up uBPM = true ∨ s.ust uBPM = 5)) ∧ s.ventTurn = some i ∧ s.ventQueue i = x :: l :=
  ⟨inState (withInst (inst0 1)) 4 [uBPM], 0, inst0 1, [], by decide +kernel⟩
theorem witness_DeepBufferCommandsComplete_1 : ∃ (s : State) (id : Nat) (x : Inst),
    s.running = true ∧ s.inst id = some x ∧ x.place = 2 :=
  ⟨withInst (inst0 2), 0, inst0 2, by decide +kernel⟩
theorem witness_DeepBufferCommandsComplete_2 : ∃ (s : State) (i : Nat) (q : Nat),
    s.running = true ∧ s.inVent i q = true ∧ s.queue q = [] ∧ s.directCells i q ≤ s.vc q F.BSN_VC_CFG_LOW_CELLS :=
  ⟨z.setVent 0 0 true, 0, 0, by decide +kernel⟩
theorem witness_DeepBufferCommandsComplete_3 : ∃ (s : State) (j : Nat) (q : Nat),
    s.running = true ∧ (s.colUp j).fetchTurn j = some q :=
  ⟨inState ((queued { e0 with cells := 1 } (inst0 3)).setF uBSN (F.BSN_VC_RET_AHEAD_CELLS.i 0) 8) 4 [uDMC 0, uXP 33 0, uBPM], 0, 0, by decide +kernel⟩
theorem witness_DeepBufferCommandsComplete_4 : ∃ (s : State) (q : Nat) (ecc : Nat) (e : QEnt) (x : Inst),
    let j := portCol (s.queuePort q)
    let t := s.dramEcc x.ch (s.blockAddr x.blk + 64 * (ecc / 8)) (ecc % 8)
    s.running = true ∧ (s.bas.limbo.find? fun l => l.1 == q) = none ∧ ((s.queue q).find? fun e => e.fetch.isSome && !e.back) = some e ∧ s.inst e.inst = some x ∧ s.footing = false ∧ x.lost = false ∧ ((s.ust (uDMC x.ch) = 4 ∨ s.ust (uDMC x.ch) = 5)) ∧ t.up (uXP 33 j) = true ∧ t.aged q e = false :=
  ⟨inState (queued { e0 with cells := 1, fetch := some 0 } (inst0 3)) 4 [uDMC 0, uXP 33 0], 0, 0, { e0 with cells := 1, fetch := some 0 }, inst0 3, by decide +kernel⟩
theorem witness_DeepBufferCommandsComplete_5 : ∃ (s : State) (q : Nat) (l : Nat × Blk),
    s.running = true ∧ (s.bas.limbo.find? fun l => l.1 == q) = some l :=
  ⟨z.modBas fun b => { b with limbo := [(0, ⟨0, 0, 1, 0⟩)] }, 0, (0, ⟨0, 0, 1, 0⟩), by decide +kernel⟩
theorem witness_DeepBufferCommandsComplete_6 : ∃ (s : State) (n : Nat) (x : Inst),
    s.running = true ∧ s.inst n = some x ∧ x.place = 2 :=
  ⟨withInst (inst0 2), 0, inst0 2, by decide +kernel⟩
theorem witness_DeepBufferCommandsComplete_7 : ∃ (s : State) (q : Nat) (e : QEnt) (x : Inst),
    let t := s.reach (e.fetch.getD 0 + 100000)
    s.running = true ∧ ((s.queue q).find? fun e => e.fetch.isSome && !e.back) = some e ∧ t.inst e.inst = some x ∧ x.place = 3 :=
  ⟨queued { e0 with cells := 1, fetch := some 0 } { inst0 3 with blkRef := 2 }, 0, { e0 with cells := 1, fetch := some 0 }, { inst0 3 with blkRef := 2 }, by decide +kernel⟩
theorem witness_DeepBufferCommandsComplete_8 : ∃ (s : State) (ch : Nat) (to_ : Nat) (l : List Nat) (x : Inst),
    s.running = true ∧ s.firstBlock ch = some x ∧ s.ust (uDMC ch) = 5 ∧ s.up (uXP 33 33) = true ∧ s.freeChans x.pool = to_ :: l ∧ (s.takeBlock x.pool to_ x.req).isSome = true :=
  ⟨(((inState (withInst (inst0 3)) 4 [uXP 33 33, uDMC 1]).setF (uDMC 0) F.UCB_STATE_STATE 5).setFS uBPM 1 F.BPM_CH_POOL0_BLOCKS 4), 0, 1, [], inst0 3, by decide +kernel⟩

/-! QueuesSendTheirCopies -/
theorem witness_QueuesSendTheirCopies_0 : ∃ (s : State) (qd : Nat) (sc : Nat) (p : Nat) (q : Nat),
    let k := qd % 4
    let u := uTMQ k
    let a := s.each ((s.busyQueues k).filter fun q => (schedPorts k sc).contains (s.queuePort q)) fun s q =>
      s.comeUp (s.queue q).length q
    let b := if a.footing then a else a.noteAll k sc
    s.running = true ∧ ((s.ust u = 4 ∨ s.ust u = 5)) ∧ s.getF u F.UCB_STATE_ISOLATED ≠ 1 ∧ s.fwdOn = true ∧ b.pickPort k sc = some p ∧ (((b.modBas fun x => { x with lastPort := b.bas.lastPort.put (fun _ => 2 ^ 16) (k * 16 + sc) p }).descend k p).any fun y => (y.2.queue y.1).head?.any fun e => y.2.aged y.1 e == true) = true :=
  ⟨{ sched e0 with clk := { now := 2000000000 * 65536 } }, 0, 0, 0, 0, by decide +kernel⟩
theorem witness_QueuesSendTheirCopies_1 : ∃ (s : State) (qd : Nat) (sc : Nat) (p : Nat) (q : Nat),
    let k := qd % 4
    let u := uTMQ k
    let a := s.each ((s.busyQueues k).filter fun q => (schedPorts k sc).contains (s.queuePort q)) fun s q =>
      s.comeUp (s.queue q).length q
    let b := if a.footing then a else a.noteAll k sc
    s.running = true ∧ ((s.ust u = 4 ∨ s.ust u = 5)) ∧ s.getF u F.UCB_STATE_ISOLATED ≠ 1 ∧ s.fwdOn = true ∧ b.pickPort k sc = some p ∧ (((b.modBas fun x => { x with lastPort := b.bas.lastPort.put (fun _ => 2 ^ 16) (k * 16 + sc) p }).descend k p).any fun y => (y.2.queue y.1).head?.any fun e => y.2.aged y.1 e == false) = true :=
  ⟨sched e0, 0, 0, 0, 0, by decide +kernel⟩
theorem witness_QueuesSendTheirCopies_2 : ∃ (s : State) (q : Nat) (pg : Nat) (at_ : Nat),
    s.running = true ∧ s.headPage q = some pg ∧ s.pageAsked q = some at_ ∧ s.pageBefore q at_ = true :=
  ⟨z.modBas fun b => { b with insts := [(0, some (inst0 0))], queues := [(0, [{ e0 with page := some 3, pageAt := some 0 }]), (1, [{ e0 with page := some 3, pageAt := some 1 }])] }, 1, 3, 1, by decide +kernel⟩
theorem witness_QueuesSendTheirCopies_3 : ∃ (s : State) (q : Nat) (pg : Nat) (at_ : Nat),
    s.running = true ∧ s.headPage q = some pg ∧ s.pageAsked q = some at_ ∧ s.pageBefore q at_ = false :=
  ⟨queued { e0 with page := some 3, pageAt := some 0 } (inst0 0), 0, 3, 0, by decide +kernel⟩
theorem witness_QueuesSendTheirCopies_4 : ∃ (s : State) (q : Nat) (pg : Nat) (at_ : Nat),
    s.running = true ∧ s.headPage q = some pg ∧ s.pageAsked q = some at_ :=
  ⟨queued { e0 with page := some 3, pageAt := some 0 } (inst0 0), 0, 3, 0, by decide +kernel⟩
theorem witness_QueuesSendTheirCopies_5 : ∃ (s : State) (p : Nat) (n : Nat) (q : Nat) (e : QEnt) (l : List QEnt) (qs : List Nat),
    s.running = true ∧ (s.port p).flush = some n ∧ s.portQueues p = q :: qs ∧ s.queue q = e :: l :=
  ⟨(sched e0).setPort 0 { flush := some 2 }, 0, 2, 0, e0, [], [], by decide +kernel⟩
theorem witness_QueuesSendTheirCopies_6 : ∃ (s : State) (p : Nat) (n : Nat),
    s.running = true ∧ (s.port p).flush = some n ∧ s.portQueues p = [] :=
  ⟨z.setPort 0 { flush := some 2 }, 0, 2, by decide +kernel⟩
theorem witness_QueuesSendTheirCopies_7 : ∃ (s : State) (p : Nat) (n : Nat) (err : Nat) (x : EgItem) (i : Inst),
    let t := s.modBas fun b => { b with egress := s.bas.egress.erase x }
    let k := { i.pkt with color := x.ent.color, adm := { i.pkt.adm with pass := i.pkt.adm.pass + 1 } }
    s.running = true ∧ (s.bas.egress.find? fun y => y.port == p) = some x ∧ s.inst x.ent.inst = some i ∧ (t.readOut x.col err x.ent i).1 = true ∧ ((t.readOut x.col err x.ent i).2.sampleHeader x.col k).serving (p / 32) = some n :=
  ⟨(inState (withInst (inst0 0)) 4 [uADM 0, uSIV 0, uLKP 0, uRSV 0, uEGR 0]).modBas fun b => { b with egress := [⟨0, e0, 0⟩] }, 0, 0, 0, ⟨0, e0, 0⟩, inst0 0, by decide +kernel⟩
theorem witness_QueuesSendTheirCopies_8 : ∃ (s : State) (p : Nat) (err : Nat) (x : EgItem) (i : Inst),
    let k := { i.pkt with color := x.ent.color, adm := { i.pkt.adm with pass := i.pkt.adm.pass + 1 } }
    s.running = true ∧ (s.bas.egress.find? fun y => y.port == p) = some x ∧ s.inst x.ent.inst = some i ∧ ((s.modBas fun b => { b with egress := s.bas.egress.erase x }).readOut x.col err x.ent i).1 = true ∧ (((s.modBas fun b => { b with egress := s.bas.egress.erase x }).readOut x.col err x.ent i).2.sampleHeader x.col k).serving (p / 32) = none :=
  ⟨(withInst (inst0 0)).modBas fun b => { b with egress := [⟨0, e0, 0⟩] }, 0, 0, ⟨0, e0, 0⟩, inst0 0, by decide +kernel⟩
theorem witness_QueuesSendTheirCopies_9 : ∃ (s : State) (p : Nat) (err : Nat) (x : EgItem) (i : Inst),
    s.running = true ∧ (s.bas.egress.find? fun y => y.port == p) = some x ∧ s.inst x.ent.inst = some i ∧ ((s.modBas fun b => { b with egress := s.bas.egress.erase x }).readOut x.col err x.ent i).1 = false :=
  ⟨(withInst { inst0 0 with lost := true }).modBas fun b => { b with egress := [⟨0, e0, 0⟩] }, 0, 0, ⟨0, e0, 0⟩, { inst0 0 with lost := true }, by decide +kernel⟩
theorem witness_QueuesSendTheirCopies_10 : ∃ (s : State) (p : Nat) (x : TxItem),
    s.running = true ∧ (s.txBegin p).txHead p = some x :=
  ⟨z.modBas fun b => { b with sending := [{ port := 0, queue := 0, pkt := {}, data := [1], started := true }] }, 0, { port := 0, queue := 0, pkt := {}, data := [1], started := true }, by decide +kernel⟩

/-! JobsReachThreadsAndLeave -/
theorem witness_JobsReachThreadsAndLeave_0 : ∃ (s : State) (n : Nat) (err : Nat) (e : QEnt) (rest : List QEnt) (i : Inst) (r : _),
    let c := n % 16
    s.running = true ∧ s.bas.router.get (fun _ => []) c = e :: rest ∧ s.routerReady c = true ∧ s.fwdOn = true ∧ s.footing = false ∧ s.inst e.inst = some i ∧ ((s.modBas fun b => { b with router := s.bas.router.put (fun _ => []) c rest }).readOut 32 err e i).1 = true ∧ e.copy.punt = some r :=
  ⟨routed { e0 with copy := { queue := 0, punt := some 1 } }, 0, 0, { e0 with copy := { queue := 0, punt := some 1 } }, [], inst0 0, 1, by decide +kernel⟩
theorem witness_JobsReachThreadsAndLeave_1 : ∃ (s : State) (n : Nat) (err : Nat) (e : QEnt) (rest : List QEnt) (i : Inst),
    let c := n % 16
    s.running = true ∧ s.bas.router.get (fun _ => []) c = e :: rest ∧ s.routerReady c = true ∧ s.fwdOn = true ∧ s.footing = false ∧ s.inst e.inst = some i ∧ ((s.modBas fun b => { b with router := s.bas.router.put (fun _ => []) c rest }).readOut 32 err e i).1 = true ∧ e.copy.punt = none :=
  ⟨routed e0, 0, 0, e0, [], inst0 0, by decide +kernel⟩
theorem witness_JobsReachThreadsAndLeave_2 : ∃ (s : State) (n : Nat) (err : Nat) (e : QEnt) (rest : List QEnt) (i : Inst),
    let c := n % 16
    s.running = true ∧ s.bas.router.get (fun _ => []) c = e :: rest ∧ s.routerReady c = true ∧ s.fwdOn = true ∧ s.footing = false ∧ s.inst e.inst = some i ∧ ((s.modBas fun b => { b with router := s.bas.router.put (fun _ => []) c rest }).readOut 32 err e i).1 = false :=
  ⟨routed { e0 with gone := true }, 0, 0, { e0 with gone := true }, [], inst0 0, by decide +kernel⟩
theorem witness_JobsReachThreadsAndLeave_3 : ∃ (s : State) (n : Nat) (t : Nat) (j : Job) (rest : List Job),
    let c := n % 16
    s.running = true ∧ (s.cluster c).queued = j :: rest ∧ s.longestWaiter c = some t ∧ (s.cluster c).outst.length < 256 ∧ s.pastDeadline j.pkt = false :=
  ⟨eng0.setCluster 0 { queued := [job0], waiting := [0] }, 0, 0, job0, [], by decide +kernel⟩
theorem witness_JobsReachThreadsAndLeave_4 : ∃ (s : State) (n : Nat) (t : Nat) (j : Job) (rest : List Job),
    let c := n % 16
    s.running = true ∧ (s.cluster c).queued = j :: rest ∧ s.longestWaiter c = some t ∧ (s.cluster c).outst.length < 256 ∧ s.pastDeadline j.pkt = true :=
  ⟨{ eng0.setCluster 0 { queued := [job0], waiting := [0] } with clk := { now := 65536 } }, 0, 0, job0, [], by decide +kernel⟩
theorem witness_JobsReachThreadsAndLeave_5 : ∃ (s : State) (n : Nat) (j : OutJob),
    let c := n % 16
    let e := j.ending.getD []
    s.running = true ∧ firstRelease [] (s.cluster c).outst = some j ∧ endKind e = 1 :=
  ⟨eng0.setCluster 0 { outst := [out0 (some [1 * 2 ^ 60, 0, 0, 0])] }, 0, out0 (some [1 * 2 ^ 60, 0, 0, 0]), by decide +kernel⟩
theorem witness_JobsReachThreadsAndLeave_6 : ∃ (s : State) (n : Nat) (j : OutJob),
    let c := n % 16
    let e := j.ending.getD []
    s.running = true ∧ firstRelease [] (s.cluster c).outst = some j ∧ endKind e = 2 :=
  ⟨eng0.setCluster 0 { outst := [out0 (some [2 * 2 ^ 60, 0, 0, 0])] }, 0, out0 (some [2 * 2 ^ 60, 0, 0, 0]), by decide +kernel⟩
theorem witness_JobsReachThreadsAndLeave_7 : ∃ (s : State) (n : Nat) (j : OutJob),
    let c := n % 16
    let e := j.ending.getD []
    s.running = true ∧ firstRelease [] (s.cluster c).outst = some j ∧ endKind e = 3 :=
  ⟨eng0.setCluster 0 { outst := [out0 (some [3 * 2 ^ 60, 0, 0, 0])] }, 0, out0 (some [3 * 2 ^ 60, 0, 0, 0]), by decide +kernel⟩
theorem witness_JobsReachThreadsAndLeave_8 : ∃ (s : State) (r : Nat) (x : PuntPkt),
    let t := s.setPunts (s.punts.erase x)
    let bytes := puntHeader x ++ x.pkt.frame
    s.running = true ∧ (s.punts.find? fun x => x.ring == r) = some x ∧ t.ringLog r ≠ 0 ∧ t.ringType r = 2 ∧ t.ringState r ≠ 0 ∧ t.ringState r ≠ 4 ∧ t.ringUp r 2 = true ∧ bytes.length ≤ ((t.posted r).map (·.len)).sum ∧ x.sample = false :=
  ⟨(ring0 z 2 [{ desc 0x08 128 0 with wait := some 0 }]).setPunts [⟨0, 0, 0, { frame := frame60 }, none, 0, false⟩], 0, ⟨0, 0, 0, { frame := frame60 }, none, 0, false⟩, by decide +kernel⟩

/-! ThreadTimersAndReturns -/
theorem witness_ThreadTimersAndReturns_0 : ∃ (s : State) (c : Nat) (e : Nat) (t : Nat) (j : OutJob),
    let k := thrKey c e t
    s.running = true ∧ s.jobOf k = some j ∧ (s.thread k).st ≠ 6 :=
  ⟨eng0.setCluster 0 { outst := [out0 none] }, 0, 0, 0, out0 none, by decide +kernel⟩
theorem witness_ThreadTimersAndReturns_1 : ∃ (s : State) (c : Nat) (e : Nat) (t : Nat) (sp : Nat) (m : MemOp),
    let k := thrKey c e t
    s.running = true ∧ ((s.thread k).mem.find? fun m => m.space == sp && m.space != 5) = some m :=
  ⟨eng0.setThread 0 { mem := [⟨1, 5, 2, 0, false, false, none⟩] }, 0, 0, 0, 2, ⟨1, 5, 2, 0, false, false, none⟩, by decide +kernel⟩
theorem witness_ThreadTimersAndReturns_2 : ∃ (s : State) (c : Nat) (e : Nat) (t : Nat),
    let k := thrKey c e t
    let x := s.thread k
    let first := x.mem.all fun m => decide (x.waitAt ≤ m.since)
    s.running = true ∧ x.waitSt = 2 ∧ first = true :=
  ⟨(eng0.setThread 0 { waitSt := 2 }).setCluster 0 { waiting := [0] }, 0, 0, 0, by decide +kernel⟩
theorem witness_ThreadTimersAndReturns_3 : ∃ (s : State) (c : Nat) (e : Nat) (t : Nat),
    let k := thrKey c e t
    let x := s.thread k
    let first := x.mem.all fun m => decide (x.waitAt ≤ m.since)
    s.running = true ∧ x.waitSt = 3 ∧ first = true :=
  ⟨(eng0.setThread 0 { waitSt := 3, waitObj := 3 }).modEng fun e => { e with chans := [(3, { waiting := [0] })] }, 0, 0, 0, by decide +kernel⟩
theorem witness_ThreadTimersAndReturns_4 : ∃ (s : State) (c : Nat) (e : Nat) (t : Nat),
    let k := thrKey c e t
    let x := s.thread k
    let first := x.mem.all fun m => decide (x.waitAt ≤ m.since)
    s.running = true ∧ x.waitSt = 4 ∧ first = true :=
  ⟨(eng0.setThread 0 { waitSt := 4, waitObj := 255 }).modEng fun e => { e with locks := [(255, { waiting := [0] })] }, 0, 0, 0, by decide +kernel⟩
theorem witness_ThreadTimersAndReturns_5 : ∃ (s : State) (c : Nat) (e : Nat) (t : Nat) (m : _) (l : _),
    let k := thrKey c e t
    let x := s.thread k
    let first := x.mem.all fun m => decide (x.waitAt ≤ m.since)
    s.running = true ∧ (x.waitSt = 0 ∨ first = false) ∧ x.mem = m :: l :=
  ⟨eng0.setThread 0 { mem := [⟨1, 5, 2, 0, false, false, none⟩] }, 0, 0, 0, ⟨1, 5, 2, 0, false, false, none⟩, [], by decide +kernel⟩
theorem witness_ThreadTimersAndReturns_6 : ∃ (s : State) (c : Nat) (e : Nat),
    let g := 32 * (c % 16) + e % 32
    let t := s.stallTold (c % 16) (e % 32)
    s.running = true ∧ s.stalled g = true ∧ s.engineRuns (uENG (c % 16) (e % 32)) = true ∧ t.getF (uENG (c % 16) (e % 32)) F.ENG_CFG_STALL_HALT = 0 :=
  ⟨(eng0.setThread 0 { st := 4, waitObj := 7 }).modEng fun e => { e with locks := [(7, { owner := some 0, waiting := [0] })] }, 0, 0, by decide +kernel⟩
theorem witness_ThreadTimersAndReturns_7 : ∃ (s : State) (c : Nat) (e : Nat),
    let g := 32 * (c % 16) + e % 32
    let t := s.stallTold (c % 16) (e % 32)
    s.running = true ∧ s.stalled g = true ∧ s.engineRuns (uENG (c % 16) (e % 32)) = true ∧ t.getF (uENG (c % 16) (e % 32)) F.ENG_CFG_STALL_HALT = 1 :=
  ⟨((eng0.setThread 0 { st := 4, waitObj := 7 }).modEng fun e => { e with locks := [(7, { owner := some 0, waiting := [0] })] }).setF (uENG 0 0) F.ENG_CFG_STALL_HALT 1, 0, 0, by decide +kernel⟩
theorem witness_ThreadTimersAndReturns_8 : ∃ (s : State) (c : Nat) (e : Nat) (t : Nat) (p : Sample),
    let k := thrKey c e t
    s.running = true ∧ (s.thread k).sample = some p :=
  ⟨eng0.setThread 0 { sample := some ⟨1, 2, 3, false⟩ }, 0, 0, 0, ⟨1, 2, 3, false⟩, by decide +kernel⟩
theorem witness_ThreadTimersAndReturns_9 : ∃ (s : State) (c : Nat) (e : Nat) (t : Nat),
    let k := thrKey c e t
    s.running = true ∧ (s.thread k).st = 1 ∧ (s.thread k).stepLeft = some 0 :=
  ⟨eng0.setThread 0 { st := 1, stepLeft := some 0 }, 0, 0, 0, by decide +kernel⟩

/-! DebugCommandsReachTheEngine -/
theorem witness_DebugCommandsReachTheEngine_0 : ∃ (s : State) (r : Nat) (d : Desc),
    s.running = true ∧ s.dbgReady r 0x40 d (fun d => dbgArg d == 0 && d.len == 8) (· != 0) false :=
  ⟨ring0 (eng0.setThread 0 { st := 6 }) 5 [(desc 0x40 8 (0x410 * 2 ^ 50 + 1 * 2 ^ 40 + 0))], 0, (desc 0x40 8 (0x410 * 2 ^ 50 + 1 * 2 ^ 40 + 0)), by unfold State.dbgReady; decide +kernel⟩
theorem witness_DebugCommandsReachTheEngine_1 : ∃ (s : State) (r : Nat) (d : Desc),
    s.running = true ∧ s.dbgReady r 0x41 d (fun d => dbgArg d == 0 && d.len == 8) (· != 0) true :=
  ⟨ring0 (eng0.setThread 0 { st := 6 }) 5 [(desc 0x41 8 (0x410 * 2 ^ 50 + 1 * 2 ^ 40 + 0))], 0, (desc 0x41 8 (0x410 * 2 ^ 50 + 1 * 2 ^ 40 + 0)), by unfold State.dbgReady; decide +kernel⟩
theorem witness_DebugCommandsReachTheEngine_2 : ∃ (s : State) (r : Nat) (d : Desc),
    s.running = true ∧ s.dbgReady r 0x42 d (fun d => 1 ≤ dbgArg d && dbgArg d ≤ 65535 && d.len == 8) oneBit true :=
  ⟨ring0 (eng0.setThread 0 { st := 6 }) 5 [(desc 0x42 8 (0x410 * 2 ^ 50 + 1 * 2 ^ 40 + 1))], 0, (desc 0x42 8 (0x410 * 2 ^ 50 + 1 * 2 ^ 40 + 1)), by unfold State.dbgReady; decide +kernel⟩
theorem witness_DebugCommandsReachTheEngine_3 : ∃ (s : State) (r : Nat) (d : Desc),
    s.running = true ∧ s.dbgReady r 0x43 d (fun d => dbgArg d == 0 && d.len == 256) oneBit true :=
  ⟨ring0 (eng0.setThread 0 { st := 6 }) 5 [(desc 0x43 256 (0x410 * 2 ^ 50 + 1 * 2 ^ 40 + 0))], 0, (desc 0x43 256 (0x410 * 2 ^ 50 + 1 * 2 ^ 40 + 0)), by unfold State.dbgReady; decide +kernel⟩
theorem witness_DebugCommandsReachTheEngine_4 : ∃ (s : State) (r : Nat) (d : Desc),
    s.running = true ∧ s.dbgReady r 0x44 d (fun d => dbgArg d < 32 && d.len == 8) oneBit true :=
  ⟨ring0 (eng0.setThread 0 { st := 6 }) 5 [(desc 0x44 8 (0x410 * 2 ^ 50 + 1 * 2 ^ 40 + 31))], 0, (desc 0x44 8 (0x410 * 2 ^ 50 + 1 * 2 ^ 40 + 31)), by unfold State.dbgReady; decide +kernel⟩
theorem witness_DebugCommandsReachTheEngine_5 : ∃ (s : State) (r : Nat) (d : Desc),
    s.running = true ∧ s.dbgReady r 0x44 d (fun d => dbgArg d < 32 && d.len == 8) oneBit true :=
  ⟨ring0 (eng0.setThread 0 { st := 6 }) 5 [(desc 0x44 8 (0x410 * 2 ^ 50 + 1 * 2 ^ 40 + 31))], 0, (desc 0x44 8 (0x410 * 2 ^ 50 + 1 * 2 ^ 40 + 31)), by unfold State.dbgReady; decide +kernel⟩
theorem witness_DebugCommandsReachTheEngine_6 : ∃ (s : State) (r : Nat) (d : Desc),
    s.running = true ∧ s.dbgReady r 0x45 d lmemForm (· == 0) false :=
  ⟨ring0 (eng0.setThread 0 { st := 6 }) 5 [(desc 0x45 4096 (0x410 * 2 ^ 50 + 0 * 2 ^ 40 + 258048))], 0, (desc 0x45 4096 (0x410 * 2 ^ 50 + 0 * 2 ^ 40 + 258048)), by unfold State.dbgReady; decide +kernel⟩
theorem witness_DebugCommandsReachTheEngine_7 : ∃ (s : State) (r : Nat) (d : Desc),
    s.running = true ∧ s.dbgReady r 0x46 d lmemForm (· == 0) false :=
  ⟨ring0 (eng0.setThread 0 { st := 6 }) 5 [(desc 0x46 4096 (0x410 * 2 ^ 50 + 0 * 2 ^ 40 + 258048))], 0, (desc 0x46 4096 (0x410 * 2 ^ 50 + 0 * 2 ^ 40 + 258048)), by unfold State.dbgReady; decide +kernel⟩
theorem witness_DebugCommandsReachTheEngine_8 : ∃ (s : State) (r : Nat) (d : Desc),
    s.running = true ∧ s.dbgReady r 0x46 d lmemForm (· == 0) false :=
  ⟨ring0 (eng0.setThread 0 { st := 6 }) 5 [(desc 0x46 4096 (0x410 * 2 ^ 50 + 0 * 2 ^ 40 + 258048))], 0, (desc 0x46 4096 (0x410 * 2 ^ 50 + 0 * 2 ^ 40 + 258048)), by unfold State.dbgReady; decide +kernel⟩
theorem witness_DebugCommandsReachTheEngine_9 : ∃ (s : State) (r : Nat) (d : Desc),
    s.running = true ∧ s.dbgReady r 0x47 d (fun d => dbgArg d < 4096 && d.len % 16 == 0 && d.len ≤ 4096 && 16 * dbgArg d + d.len ≤ 65536) (· == 0) false :=
  ⟨ring0 (eng0.setThread 0 { st := 6 }) 5 [(desc 0x47 4096 (0x410 * 2 ^ 50 + 0 * 2 ^ 40 + 3840))], 0, (desc 0x47 4096 (0x410 * 2 ^ 50 + 0 * 2 ^ 40 + 3840)), by unfold State.dbgReady; decide +kernel⟩

/-! MicrocodeImagesLoad -/
theorem witness_MicrocodeImagesLoad_1 : ∃ (s : State) (r : Nat) (data : List Byte) (d : Desc) (st : _) (info : _),
    s.running = true ∧ s.nextDesc r 0x31 = some d ∧ s.wardenFree = true ∧ s.bit uWDN F.WDN_FW_STATUS_RECOVERY = false ∧ s.firstRead s.imgOps d = true ∧ s.fwdOn = true ∧ s.loadStart (sliceBytes data 0 d.len) (namedEngines d.w2) r d.idx = .error (st, info) :=
  ⟨ring0 z 1 [(desc 0x31 0 1)], 0, [], (desc 0x31 0 1), 0x47, 1, by decide +kernel⟩
theorem witness_MicrocodeImagesLoad_2 : ∃ (s : State) (r : Nat) (d : Desc),
    s.running = true ∧ s.nextDesc r 0x31 = some d ∧ s.wardenFree = true ∧ s.bit uWDN F.WDN_FW_STATUS_RECOVERY = false ∧ s.firstRead s.imgOps d = true ∧ s.fwdOn = true :=
  ⟨ring0 z 1 [(desc 0x31 0 1)], 0, (desc 0x31 0 1), by decide +kernel⟩
theorem witness_MicrocodeImagesLoad_3 : ∃ (s : State) (r : Nat) (d : Desc),
    s.running = true ∧ s.nextDesc r 0x31 = some d ∧ s.wardenFree = true ∧ s.bit uWDN F.WDN_FW_STATUS_RECOVERY = false ∧ s.firstRead s.imgOps d = true ∧ s.fwdOn = false :=
  ⟨ring0 { z with pwr := { z.pwr with fwdOff := true } } 1 [(desc 0x31 0 1)], 0, (desc 0x31 0 1), by decide +kernel⟩
theorem witness_MicrocodeImagesLoad_4 : ∃ (s : State) (l : ULoad),
    s.running = true ∧ s.eng.load = some l :=
  ⟨z.modEng fun e => { e with load := some ⟨0, 0, [], 0, 0, 0, []⟩ }, ⟨0, 0, [], 0, 0, 0, []⟩, by decide +kernel⟩

/-! AluRowsGiveTheirResults -/
theorem witness_AluRowsGiveTheirResults_0 : ∃ (s : State) (c : Nat) (e : Nat) (t : Nat),
    let k := thrKey c e t
    s.running = true ∧ s.aluReady k 0x01 :=
  ⟨issuing (1 * 2 ^ 94 + 2 ^ 120) {}, 0, 0, 0, by unfold State.aluReady; decide +kernel⟩
theorem witness_AluRowsGiveTheirResults_1 : ∃ (s : State) (c : Nat) (e : Nat) (t : Nat),
    let k := thrKey c e t
    s.running = true ∧ s.aluReady k 0x02 :=
  ⟨issuing (2 * 2 ^ 94 + 2 ^ 120) {}, 0, 0, 0, by unfold State.aluReady; decide +kernel⟩
theorem witness_AluRowsGiveTheirResults_2 : ∃ (s : State) (c : Nat) (e : Nat) (t : Nat),
    let k := thrKey c e t
    s.running = true ∧ s.aluReady k 0x03 :=
  ⟨issuing (3 * 2 ^ 94 + 2 ^ 120) {}, 0, 0, 0, by unfold State.aluReady; decide +kernel⟩
theorem witness_AluRowsGiveTheirResults_3 : ∃ (s : State) (c : Nat) (e : Nat) (t : Nat),
    let k := thrKey c e t
    s.running = true ∧ s.aluReady k 0x04 :=
  ⟨issuing (4 * 2 ^ 94 + 2 ^ 120) {}, 0, 0, 0, by unfold State.aluReady; decide +kernel⟩
theorem witness_AluRowsGiveTheirResults_4 : ∃ (s : State) (c : Nat) (e : Nat) (t : Nat),
    let k := thrKey c e t
    s.running = true ∧ s.aluReady k 0x05 :=
  ⟨issuing (5 * 2 ^ 94 + 2 ^ 120) {}, 0, 0, 0, by unfold State.aluReady; decide +kernel⟩
theorem witness_AluRowsGiveTheirResults_5 : ∃ (s : State) (c : Nat) (e : Nat) (t : Nat),
    let k := thrKey c e t
    s.running = true ∧ s.aluReady k 0x06 :=
  ⟨issuing (6 * 2 ^ 94 + 2 ^ 120) {}, 0, 0, 0, by unfold State.aluReady; decide +kernel⟩
theorem witness_AluRowsGiveTheirResults_6 : ∃ (s : State) (c : Nat) (e : Nat) (t : Nat),
    let k := thrKey c e t
    s.running = true ∧ s.aluReady k 0x07 :=
  ⟨issuing (7 * 2 ^ 94 + 2 ^ 120) {}, 0, 0, 0, by unfold State.aluReady; decide +kernel⟩
theorem witness_AluRowsGiveTheirResults_7 : ∃ (s : State) (c : Nat) (e : Nat) (t : Nat),
    let k := thrKey c e t
    s.running = true ∧ s.aluReady k 0x08 :=
  ⟨issuing (8 * 2 ^ 94 + 2 ^ 120) {}, 0, 0, 0, by unfold State.aluReady; decide +kernel⟩
theorem witness_AluRowsGiveTheirResults_8 : ∃ (s : State) (c : Nat) (e : Nat) (t : Nat),
    let k := thrKey c e t
    s.running = true ∧ s.aluReady k 0x09 :=
  ⟨issuing (9 * 2 ^ 94 + 2 ^ 120) {}, 0, 0, 0, by unfold State.aluReady; decide +kernel⟩
theorem witness_AluRowsGiveTheirResults_9 : ∃ (s : State) (c : Nat) (e : Nat) (t : Nat),
    let k := thrKey c e t
    s.running = true ∧ s.aluReady k 0x0A :=
  ⟨issuing (10 * 2 ^ 94 + 2 ^ 120) {}, 0, 0, 0, by unfold State.aluReady; decide +kernel⟩
theorem witness_AluRowsGiveTheirResults_10 : ∃ (s : State) (c : Nat) (e : Nat) (t : Nat),
    let k := thrKey c e t
    s.running = true ∧ s.aluReady k 0x0B :=
  ⟨issuing (11 * 2 ^ 94 + 2 ^ 120) {}, 0, 0, 0, by unfold State.aluReady; decide +kernel⟩
theorem witness_AluRowsGiveTheirResults_11 : ∃ (s : State) (c : Nat) (e : Nat) (t : Nat),
    let k := thrKey c e t
    s.running = true ∧ s.aluReady k 0x0C :=
  ⟨issuing (12 * 2 ^ 94 + 2 ^ 120) {}, 0, 0, 0, by unfold State.aluReady; decide +kernel⟩
theorem witness_AluRowsGiveTheirResults_12 : ∃ (s : State) (c : Nat) (e : Nat) (t : Nat),
    let k := thrKey c e t
    s.running = true ∧ s.aluReady k 0x0D :=
  ⟨issuing (13 * 2 ^ 94 + 2 ^ 120) {}, 0, 0, 0, by unfold State.aluReady; decide +kernel⟩
theorem witness_AluRowsGiveTheirResults_13 : ∃ (s : State) (c : Nat) (e : Nat) (t : Nat),
    let k := thrKey c e t
    s.running = true ∧ s.aluReady k 0x0E :=
  ⟨issuing (14 * 2 ^ 94 + 2 ^ 120) {}, 0, 0, 0, by unfold State.aluReady; decide +kernel⟩
theorem witness_AluRowsGiveTheirResults_14 : ∃ (s : State) (c : Nat) (e : Nat) (t : Nat),
    let k := thrKey c e t
    s.running = true ∧ s.aluReady k 0x0F :=
  ⟨issuing (15 * 2 ^ 94 + 2 ^ 120) {}, 0, 0, 0, by unfold State.aluReady; decide +kernel⟩
theorem witness_AluRowsGiveTheirResults_15 : ∃ (s : State) (c : Nat) (e : Nat) (t : Nat),
    let k := thrKey c e t
    s.running = true ∧ s.aluReady k 0x10 :=
  ⟨issuing (16 * 2 ^ 94 + 2 ^ 120) {}, 0, 0, 0, by unfold State.aluReady; decide +kernel⟩
theorem witness_AluRowsGiveTheirResults_16 : ∃ (s : State) (c : Nat) (e : Nat) (t : Nat),
    let k := thrKey c e t
    s.running = true ∧ s.aluReady k 0x11 :=
  ⟨issuing (17 * 2 ^ 94 + 2 ^ 120) {}, 0, 0, 0, by unfold State.aluReady; decide +kernel⟩
theorem witness_AluRowsGiveTheirResults_17 : ∃ (s : State) (c : Nat) (e : Nat) (t : Nat),
    let k := thrKey c e t
    s.running = true ∧ s.aluReady k 0x12 :=
  ⟨issuing (18 * 2 ^ 94 + 2 ^ 120) {}, 0, 0, 0, by unfold State.aluReady; decide +kernel⟩
theorem witness_AluRowsGiveTheirResults_18 : ∃ (s : State) (c : Nat) (e : Nat) (t : Nat),
    let k := thrKey c e t
    s.running = true ∧ s.aluReady k 0x14 :=
  ⟨issuing (20 * 2 ^ 94 + 2 ^ 120) {}, 0, 0, 0, by unfold State.aluReady; decide +kernel⟩
theorem witness_AluRowsGiveTheirResults_19 : ∃ (s : State) (c : Nat) (e : Nat) (t : Nat),
    let k := thrKey c e t
    s.running = true ∧ s.aluReady k 0x15 :=
  ⟨issuing (21 * 2 ^ 94 + 2 ^ 120) {}, 0, 0, 0, by unfold State.aluReady; decide +kernel⟩
theorem witness_AluRowsGiveTheirResults_20 : ∃ (s : State) (c : Nat) (e : Nat) (t : Nat),
    let k := thrKey c e t
    s.running = true ∧ s.aluReady k 0x13 :=
  ⟨issuing (19 * 2 ^ 94 + 2 ^ 120) {}, 0, 0, 0, by unfold State.aluReady; decide +kernel⟩

/-! AluSlotChangesOneThread -/
theorem witness_AluSlotChangesOneThread_1 : ∃ (k : Nat) (j : _),
    j ≠ k :=
  ⟨0, 1, by decide +kernel⟩
theorem witness_AluSlotChangesOneThread_5 : ∃ (w : Nat),
    uSetc w = false :=
  ⟨0, by decide +kernel⟩
theorem witness_AluSlotChangesOneThread_6 : ∃ (w : Nat),
    uSetc w = true :=
  ⟨2 ^ 93, by decide +kernel⟩
theorem witness_AluSlotChangesOneThread_7 : ∃ (w : Nat),
    uSetc w = true :=
  ⟨2 ^ 93, by decide +kernel⟩
theorem witness_AluSlotChangesOneThread_8 : ∃ (w : Nat),
    uSetc w = true :=
  ⟨2 ^ 93, by decide +kernel⟩
theorem witness_AluSlotChangesOneThread_9 : ∃ (w : Nat),
    uSetc w = true :=
  ⟨2 ^ 93, by decide +kernel⟩

/-! SequencerRowsEndTheMicroword -/
theorem witness_SequencerRowsEndTheMicroword_0 : ∃ (s : State) (c : Nat) (e : Nat) (t : Nat),
    let k := thrKey c e t
    s.running = true ∧ s.seqReady k 0x01 :=
  ⟨issuing (2 ^ 120) {}, 0, 0, 0, by unfold State.seqReady; decide +kernel⟩
theorem witness_SequencerRowsEndTheMicroword_1 : ∃ (s : State) (c : Nat) (e : Nat) (t : Nat),
    let k := thrKey c e t
    let x := (s.iss k).thread k
    s.running = true ∧ s.seqReady k 0x02 ∧ x.stack.length < 8 :=
  ⟨issuing (2 * 2 ^ 120) { stack := List.replicate 7 0 }, 0, 0, 0, by unfold State.seqReady; decide +kernel⟩
theorem witness_SequencerRowsEndTheMicroword_2 : ∃ (s : State) (c : Nat) (e : Nat) (t : Nat),
    let k := thrKey c e t
    let x := (s.iss k).thread k
    s.running = true ∧ s.seqReady k 0x02 ∧ 8 ≤ x.stack.length :=
  ⟨issuing (2 * 2 ^ 120) { stack := List.replicate 8 0 }, 0, 0, 0, by unfold State.seqReady; decide +kernel⟩
theorem witness_SequencerRowsEndTheMicroword_3 : ∃ (s : State) (c : Nat) (e : Nat) (t : Nat) (a : _) (l : _),
    let k := thrKey c e t
    let x := (s.iss k).thread k
    s.running = true ∧ s.seqReady k 0x03 ∧ x.stack = a :: l :=
  ⟨issuing (3 * 2 ^ 120) { stack := [7] }, 0, 0, 0, 7, [], by unfold State.seqReady; decide +kernel⟩
theorem witness_SequencerRowsEndTheMicroword_4 : ∃ (s : State) (c : Nat) (e : Nat) (t : Nat),
    let k := thrKey c e t
    let x := (s.iss k).thread k
    s.running = true ∧ s.seqReady k 0x03 ∧ x.stack = [] :=
  ⟨issuing (3 * 2 ^ 120) {}, 0, 0, 0, by unfold State.seqReady; decide +kernel⟩
theorem witness_SequencerRowsEndTheMicroword_5 : ∃ (s : State) (c : Nat) (e : Nat) (t : Nat),
    let k := thrKey c e t
    s.running = true ∧ s.seqReady k 0x04 :=
  ⟨issuing (4 * 2 ^ 120) {}, 0, 0, 0, by unfold State.seqReady; decide +kernel⟩
theorem witness_SequencerRowsEndTheMicroword_6 : ∃ (s : State) (c : Nat) (e : Nat) (t : Nat) (ecc : _),
    let k := thrKey c e t
    let w := s.word k
    s.running = true ∧ (s.beginIssue k).go = true ∧ ((uSeq w = 0 ∨ ecc = 2)) :=
  ⟨issuing 0 {}, 0, 0, 0, 0, by decide +kernel⟩

/-! LoadsAndStoresOfThreads -/
theorem witness_LoadsAndStoresOfThreads_0 : ∃ (s : State) (c : Nat) (e : Nat) (t : Nat) (corr : Bool) (ecc : _),
    let k := thrKey c e t
    let w := s.word k
    let u := s.memIss k corr
    let a := u.opAddr k w (uDisp w)
    let n := uBytesN w
    s.running = true ∧ s.memReady k 0x01 ∧ a % n = 0 ∧ (u.localRead k a n ecc).1.isSome = true :=
  ⟨issuing (2 ^ 120 + 1 * 2 ^ 59 + 3 * 2 ^ 45 + 24568 * 2 ^ 28) {}, 0, 0, 0, false, 0, by unfold State.memReady; decide +kernel⟩
theorem witness_LoadsAndStoresOfThreads_1 : ∃ (s : State) (c : Nat) (e : Nat) (t : Nat) (corr : Bool) (ecc : _),
    let k := thrKey c e t
    let w := s.word k
    let u := s.memIss k corr
    let a := u.opAddr k w (uDisp w)
    let n := uBytesN w
    s.running = true ∧ s.memReady k 0x01 ∧ a % n = 0 ∧ (u.localRead k a n ecc).1 = none :=
  ⟨issuing (2 ^ 120 + 1 * 2 ^ 59 + 3 * 2 ^ 45 + 24568 * 2 ^ 28) {}, 0, 0, 0, false, 2, by unfold State.memReady; decide +kernel⟩
theorem witness_LoadsAndStoresOfThreads_2 : ∃ (s : State) (c : Nat) (e : Nat) (t : Nat) (corr : Bool),
    let k := thrKey c e t
    let w := s.word k
    let u := s.memIss k corr
    let a := u.opAddr k w (uDisp w)
    let n := uBytesN w
    s.running = true ∧ s.memReady k 0x01 ∧ a % n ≠ 0 :=
  ⟨issuing (2 ^ 120 + 1 * 2 ^ 59 + 3 * 2 ^ 45 + 4 * 2 ^ 28) {}, 0, 0, 0, false, by unfold State.memReady; decide +kernel⟩
theorem witness_LoadsAndStoresOfThreads_3 : ∃ (s : State) (c : Nat) (e : Nat) (t : Nat) (corr : Bool) (o : _),
    let k := thrKey c e t
    let w := s.word k
    let u := s.memIss k corr
    let a := u.opAddr k w (uDisp w)
    let n := uBytesN w
    s.running = true ∧ s.memReady k 0x02 ∧ a % n = 0 ∧ localAt (thrOf k) a n = .phys o :=
  ⟨issuing (2 ^ 120 + 2 * 2 ^ 59 + 3 * 2 ^ 45 + 24568 * 2 ^ 28) {}, 0, 0, 0, false, 0x5FF8, by unfold State.memReady; decide +kernel⟩
theorem witness_LoadsAndStoresOfThreads_4 : ∃ (s : State) (c : Nat) (e : Nat) (t : Nat) (corr : Bool) (i : _) (r : _) (b : Nat),
    let k := thrKey c e t
    let w := s.word k
    let u := s.memIss k corr
    let a := u.opAddr k w (uDisp w)
    let n := uBytesN w
    let j := k / 8 * 8 + i
    s.running = true ∧ s.memReady k 0x02 ∧ a % n = 0 ∧ localAt (thrOf k) a n = .greg i r b ∧ (u.thread j).st = 0 :=
  ⟨issuing (2 ^ 120 + 2 * 2 ^ 59 + 3 * 2 ^ 45 + 0 * 2 ^ 28 + 2 ^ 47) { g := [(1, 0x20108#64)] }, 0, 0, 0, false, 1, 1, 0, by unfold State.memReady; decide +kernel⟩
theorem witness_LoadsAndStoresOfThreads_5 : ∃ (s : State) (c : Nat) (e : Nat) (t : Nat) (corr : Bool) (i : _) (r : _) (b : Nat),
    let k := thrKey c e t
    let w := s.word k
    let u := s.memIss k corr
    let a := u.opAddr k w (uDisp w)
    let n := uBytesN w
    let j := k / 8 * 8 + i
    s.running = true ∧ s.memReady k 0x02 ∧ a % n = 0 ∧ localAt (thrOf k) a n = .greg i r b ∧ (u.thread j).st ≠ 0 :=
  ⟨(issuing (2 ^ 120 + 2 * 2 ^ 59 + 3 * 2 ^ 45 + 0 * 2 ^ 28 + 2 ^ 47) { g := [(1, 0x20108#64)] }).setThread 1 { st := 1 }, 0, 0, 0, false, 1, 1, 0, by unfold State.memReady; decide +kernel⟩
theorem witness_LoadsAndStoresOfThreads_6 : ∃ (s : State) (c : Nat) (e : Nat) (t : Nat) (corr : Bool) (i : _),
    let k := thrKey c e t
    let w := s.word k
    let u := s.memIss k corr
    let a := u.opAddr k w (uDisp w)
    let n := uBytesN w
    let j := k / 8 * 8 + i
    s.running = true ∧ s.memReady k 0x02 ∧ a % n = 0 ∧ localAt (thrOf k) a n = .start i ∧ (u.thread j).st = 0 :=
  ⟨issuing (2 ^ 120 + 2 * 2 ^ 59 + 3 * 2 ^ 45 + 0 * 2 ^ 28 + 2 ^ 47) { g := [(1, 0x20808#64)] }, 0, 0, 0, false, 1, by unfold State.memReady; decide +kernel⟩
theorem witness_LoadsAndStoresOfThreads_7 : ∃ (s : State) (c : Nat) (e : Nat) (t : Nat) (corr : Bool) (i : _),
    let k := thrKey c e t
    let w := s.word k
    let u := s.memIss k corr
    let a := u.opAddr k w (uDisp w)
    let n := uBytesN w
    let j := k / 8 * 8 + i
    s.running = true ∧ s.memReady k 0x02 ∧ a % n = 0 ∧ localAt (thrOf k) a n = .start i ∧ (u.thread j).st ≠ 0 :=
  ⟨(issuing (2 ^ 120 + 2 * 2 ^ 59 + 3 * 2 ^ 45 + 0 * 2 ^ 28 + 2 ^ 47) { g := [(1, 0x20808#64)] }).setThread 1 { st := 1 }, 0, 0, 0, false, 1, by unfold State.memReady; decide +kernel⟩
theorem witness_LoadsAndStoresOfThreads_8 : ∃ (s : State) (c : Nat) (e : Nat) (t : Nat) (corr : Bool),
    let k := thrKey c e t
    let w := s.word k
    let u := s.memIss k corr
    let a := u.opAddr k w (uDisp w)
    let n := uBytesN w
    s.running = true ∧ s.memReady k 0x02 ∧ ((a % n ≠ 0 ∨ localAt (thrOf k) a n = .bad)) :=
  ⟨issuing (2 ^ 120 + 2 * 2 ^ 59 + 0 * 2 ^ 45 + 24576 * 2 ^ 28) {}, 0, 0, 0, false, by unfold State.memReady; decide +kernel⟩
theorem witness_LoadsAndStoresOfThreads_9 : ∃ (s : State) (c : Nat) (e : Nat) (t : Nat) (corr : Bool),
    let k := thrKey c e t
    let w := s.word k
    let u := s.memIss k corr
    let a := u.opAddr k w (uDisp w)
    let n := uBytesN w
    s.running = true ∧ s.memReady k 0x03 ∧ u.inWin k a n = true :=
  ⟨issuing (2 ^ 120 + 3 * 2 ^ 59 + 3 * 2 ^ 45 + 52 * 2 ^ 28) {}, 0, 0, 0, false, by unfold State.memReady; decide +kernel⟩
theorem witness_LoadsAndStoresOfThreads_10 : ∃ (s : State) (c : Nat) (e : Nat) (t : Nat) (corr : Bool),
    let k := thrKey c e t
    let w := s.word k
    let u := s.memIss k corr
    let a := u.opAddr k w (uDisp w)
    let n := uBytesN w
    s.running = true ∧ s.memReady k 0x04 ∧ u.inWin k a n = true :=
  ⟨issuing (2 ^ 120 + 4 * 2 ^ 59 + 3 * 2 ^ 45 + 52 * 2 ^ 28) {}, 0, 0, 0, false, by unfold State.memReady; decide +kernel⟩
theorem witness_LoadsAndStoresOfThreads_11 : ∃ (s : State) (c : Nat) (e : Nat) (t : Nat) (corr : Bool),
    let k := thrKey c e t
    let w := s.word k
    let u := s.memIss k corr
    let a := u.opAddr k w (uDisp w)
    let n := uBytesN w
    s.running = true ∧ s.memReady k 0x03 ∧ u.inWin k a n = false :=
  ⟨issuing (2 ^ 120 + 3 * 2 ^ 59 + 3 * 2 ^ 45 + 56 * 2 ^ 28) {}, 0, 0, 0, false, by unfold State.memReady; decide +kernel⟩
theorem witness_LoadsAndStoresOfThreads_12 : ∃ (s : State) (c : Nat) (e : Nat) (t : Nat) (corr : Bool),
    let k := thrKey c e t
    let w := s.word k
    let u := s.memIss k corr
    let a := u.opAddr k w (uDisp w)
    let n := uBytesN w
    s.running = true ∧ s.memReady k 0x04 ∧ u.inWin k a n = false :=
  ⟨issuing (2 ^ 120 + 4 * 2 ^ 59 + 3 * 2 ^ 45 + 56 * 2 ^ 28) {}, 0, 0, 0, false, by unfold State.memReady; decide +kernel⟩
theorem witness_LoadsAndStoresOfThreads_13 : ∃ (s : State) (c : Nat) (e : Nat) (t : Nat) (corr : Bool) (d : _) (ecc : _),
    let k := thrKey c e t
    let w := s.word k
    let u := s.memIss k corr
    let a := u.opAddr k w (uDisp w)
    let n := uBytesN w
    s.running = true ∧ s.memReady k 0x05 ∧ a % n = 0 ∧ u.ecWindow (ecOf k) a n = some d ∧ (u.dramRead (thrSrc k) d n ecc).1.isSome = true :=
  ⟨dram1 (((issuing (2 ^ 120 + 5 * 2 ^ 59 + 3 * 2 ^ 45 + 4088 * 2 ^ 28) {}).setF uDRM (F.DRM_ECWIN_SIZE_PAGES.i 0) 1)), 0, 0, 0, false, 4088, 0, by unfold State.memReady; decide +kernel⟩
theorem witness_LoadsAndStoresOfThreads_14 : ∃ (s : State) (c : Nat) (e : Nat) (t : Nat) (corr : Bool) (d : _) (ecc : _),
    let k := thrKey c e t
    let w := s.word k
    let u := s.memIss k corr
    let a := u.opAddr k w (uDisp w)
    let n := uBytesN w
    s.running = true ∧ s.memReady k 0x05 ∧ a % n = 0 ∧ u.ecWindow (ecOf k) a n = some d ∧ (u.dramRead (thrSrc k) d n ecc).1 = none :=
  ⟨dram1 (((issuing (2 ^ 120 + 5 * 2 ^ 59 + 3 * 2 ^ 45 + 4088 * 2 ^ 28) {}).setF uDRM (F.DRM_ECWIN_SIZE_PAGES.i 0) 1)), 0, 0, 0, false, 4088, 2, by unfold State.memReady; decide +kernel⟩
theorem witness_LoadsAndStoresOfThreads_15 : ∃ (s : State) (c : Nat) (e : Nat) (t : Nat) (corr : Bool) (d : _),
    let k := thrKey c e t
    let w := s.word k
    let u := s.memIss k corr
    let a := u.opAddr k w (uDisp w)
    let n := uBytesN w
    s.running = true ∧ s.memReady k 0x06 ∧ a % n = 0 ∧ u.ecWindow (ecOf k) a n = some d :=
  ⟨((issuing (2 ^ 120 + 6 * 2 ^ 59 + 3 * 2 ^ 45 + 4088 * 2 ^ 28) {}).setF uDRM (F.DRM_ECWIN_SIZE_PAGES.i 0) 1), 0, 0, 0, false, 4088, by unfold State.memReady; decide +kernel⟩
theorem witness_LoadsAndStoresOfThreads_16 : ∃ (s : State) (c : Nat) (e : Nat) (t : Nat) (corr : Bool),
    let k := thrKey c e t
    let w := s.word k
    let u := s.memIss k corr
    let a := u.opAddr k w (uDisp w)
    let n := uBytesN w
    s.running = true ∧ s.memReady k 0x05 ∧ ((a % n ≠ 0 ∨ u.ecWindow (ecOf k) a n = none)) :=
  ⟨((issuing (2 ^ 120 + 5 * 2 ^ 59 + 3 * 2 ^ 45 + 4096 * 2 ^ 28) {}).setF uDRM (F.DRM_ECWIN_SIZE_PAGES.i 0) 1), 0, 0, 0, false, by unfold State.memReady; decide +kernel⟩
theorem witness_LoadsAndStoresOfThreads_17 : ∃ (s : State) (c : Nat) (e : Nat) (t : Nat) (corr : Bool),
    let k := thrKey c e t
    let w := s.word k
    let u := s.memIss k corr
    let a := u.opAddr k w (uDisp w)
    let n := uBytesN w
    s.running = true ∧ s.memReady k 0x06 ∧ ((a % n ≠ 0 ∨ u.ecWindow (ecOf k) a n = none)) :=
  ⟨issuing (2 ^ 120 + 6 * 2 ^ 59 + 3 * 2 ^ 45 + 0 * 2 ^ 28) {}, 0, 0, 0, false, by unfold State.memReady; decide +kernel⟩
theorem witness_LoadsAndStoresOfThreads_18 : ∃ (s : State) (c : Nat) (e : Nat) (t : Nat) (corr : Bool),
    let k := thrKey c e t
    let w := s.word k
    let u := s.memIss k corr
    let f := u.opAddr k w (fByte w)
    s.running = true ∧ s.memReady k 0x07 ∧ u.inWin k f (fSpan w) = true :=
  ⟨issuing (2 ^ 120 + 7 * 2 ^ 59 + 59 * 2 ^ 14 + 7 * 2 ^ 5) {}, 0, 0, 0, false, by unfold State.memReady; decide +kernel⟩
theorem witness_LoadsAndStoresOfThreads_19 : ∃ (s : State) (c : Nat) (e : Nat) (t : Nat) (corr : Bool),
    let k := thrKey c e t
    let w := s.word k
    let u := s.memIss k corr
    let f := u.opAddr k w (fByte w)
    s.running = true ∧ s.memReady k 0x08 ∧ u.inWin k f (fSpan w) = true :=
  ⟨issuing (2 ^ 120 + 8 * 2 ^ 59 + 59 * 2 ^ 14 + 7 * 2 ^ 5) {}, 0, 0, 0, false, by unfold State.memReady; decide +kernel⟩
theorem witness_LoadsAndStoresOfThreads_20 : ∃ (s : State) (c : Nat) (e : Nat) (t : Nat) (corr : Bool),
    let k := thrKey c e t
    let w := s.word k
    let u := s.memIss k corr
    let f := u.opAddr k w (fByte w)
    s.running = true ∧ s.memReady k 0x07 ∧ u.inWin k f (fSpan w) = false :=
  ⟨issuing (2 ^ 120 + 7 * 2 ^ 59 + 60 * 2 ^ 14 + 7 * 2 ^ 5) {}, 0, 0, 0, false, by unfold State.memReady; decide +kernel⟩
theorem witness_LoadsAndStoresOfThreads_21 : ∃ (s : State) (c : Nat) (e : Nat) (t : Nat) (corr : Bool),
    let k := thrKey c e t
    let w := s.word k
    let u := s.memIss k corr
    let f := u.opAddr k w (fByte w)
    s.running = true ∧ s.memReady k 0x08 ∧ u.inWin k f (fSpan w) = false :=
  ⟨issuing (2 ^ 120 + 8 * 2 ^ 59 + 60 * 2 ^ 14 + 7 * 2 ^ 5) {}, 0, 0, 0, false, by unfold State.memReady; decide +kernel⟩
theorem witness_LoadsAndStoresOfThreads_22 : ∃ (k : Nat) (a : Nat) (n : Nat) (o : Nat),
    localAt (thrOf k) a n = .phys o :=
  ⟨0, 0x5FF8, 8, 0x5FF8, by decide +kernel⟩
theorem witness_LoadsAndStoresOfThreads_23 : ∃ (k : Nat) (a : Nat) (n : Nat) (i : Nat) (r : Nat) (b : Nat),
    localAt (thrOf k) a n = .greg i r b :=
  ⟨0, 0x207F8, 8, 7, 31, 0, by decide +kernel⟩
theorem witness_LoadsAndStoresOfThreads_24 : ∃ (k : Nat) (a : Nat) (n : Nat) (i : Nat) (r : Nat) (b : Nat),
    localAt (thrOf k) a n = .greg i r b :=
  ⟨0, 0x207F8, 8, 7, 31, 0, by decide +kernel⟩
theorem witness_LoadsAndStoresOfThreads_25 : ∃ (k : Nat) (a : Nat) (n : Nat) (i : Nat) (r : Nat) (b : Nat),
    localAt (thrOf k) a n = .greg i r b :=
  ⟨0, 0x207F8, 8, 7, 31, 0, by decide +kernel⟩
theorem witness_LoadsAndStoresOfThreads_26 : ∃ (k : Nat) (a : Nat) (n : Nat),
    localAt (thrOf k) a n = .bad :=
  ⟨0, 0x20840, 1, by decide +kernel⟩

/-! LookupsChannelsLocksAndJobPort -/
theorem witness_LookupsChannelsLocksAndJobPort_0 : ∃ (s : State) (c : Nat) (e : Nat) (t : Nat) (corr : Bool) (lecc : _),
    let k := thrKey c e t
    let w := s.word k
    let u := s.memIss k corr
    let a := u.opAddr k w (uDisp w)
    let kt := uLit w / 256 % 256
    s.running = true ∧ s.memReady k 0x09 ∧ (u.localRead k a (u.keyLen (uLit w % 256) kt) lecc).1.isSome = true :=
  ⟨issuing (2 ^ 120 + 9 * 2 ^ 59 + 0x12) {}, 0, 0, 0, false, 0, by unfold State.memReady; decide +kernel⟩
theorem witness_LookupsChannelsLocksAndJobPort_1 : ∃ (s : State) (c : Nat) (e : Nat) (t : Nat) (corr : Bool) (lecc : _) (j : OutJob),
    let k := thrKey c e t
    let w := s.word k
    let u := s.memIss k corr
    let a := u.opAddr k w (uDisp w)
    let kt := uLit w / 256 % 256
    s.running = true ∧ s.memReady k 0x09 ∧ (u.localRead k a (u.keyLen (uLit w % 256) kt) lecc).1.isSome = true ∧ (u.localRead k a (u.keyLen (uLit w % 256) kt) lecc).2.jobOf k = some j ∧ j.job.pkt.adm.admitAt < (u.localRead k a (u.keyLen (uLit w % 256) kt) lecc).2.gen.retired.get (fun _ => 0) j.job.pkt.adm.gen :=
  ⟨(issuing (2 ^ 120 + 9 * 2 ^ 59 + 0x12) {}).modGen fun g => { g with retired := [(0, 1)] }, 0, 0, 0, false, 0, out0 none, by unfold State.memReady; decide +kernel⟩
theorem witness_LookupsChannelsLocksAndJobPort_2 : ∃ (s : State) (c : Nat) (e : Nat) (t : Nat) (corr : Bool) (lecc : _) (j : OutJob),
    let k := thrKey c e t
    let w := s.word k
    let u := s.memIss k corr
    let a := u.opAddr k w (uDisp w)
    let kt := uLit w / 256 % 256
    s.running = true ∧ s.memReady k 0x09 ∧ (u.localRead k a (u.keyLen (uLit w % 256) kt) lecc).1.isSome = true ∧ (u.localRead k a (u.keyLen (uLit w % 256) kt) lecc).2.jobOf k = some j ∧ (u.localRead k a (u.keyLen (uLit w % 256) kt) lecc).2.gen.retired.get (fun _ => 0) j.job.pkt.adm.gen ≤ j.job.pkt.adm.admitAt :=
  ⟨issuing (2 ^ 120 + 9 * 2 ^ 59 + 0x12) {}, 0, 0, 0, false, 0, out0 none, by unfold State.memReady; decide +kernel⟩
theorem witness_LookupsChannelsLocksAndJobPort_3 : ∃ (s : State) (c : Nat) (e : Nat) (t : Nat) (corr : Bool),
    let k := thrKey c e t
    let w := s.word k
    let u := s.memIss k corr
    s.running = true ∧ s.memReady k 0x0A ∧ u.mayWrite k (uDisp w % 64) = false :=
  ⟨issuing (2 ^ 120 + 10 * 2 ^ 59 + 63 * 2 ^ 28) {}, 0, 0, 0, false, by unfold State.memReady; decide +kernel⟩
theorem witness_LookupsChannelsLocksAndJobPort_4 : ∃ (s : State) (c : Nat) (e : Nat) (t : Nat) (corr : Bool),
    let k := thrKey c e t
    let w := s.word k
    let u := s.memIss k corr
    let m := ecOf k
    let ch := u.chan m (uDisp w % 64)
    s.running = true ∧ s.memReady k 0x0B ∧ ((u.mayWrite k (uDisp w % 64) = false ∨ ch.reserved.contains (tidOf k) = false)) :=
  ⟨issuing (2 ^ 120 + 11 * 2 ^ 59 + 63 * 2 ^ 28) {}, 0, 0, 0, false, by unfold State.memReady; decide +kernel⟩
theorem witness_LookupsChannelsLocksAndJobPort_5 : ∃ (s : State) (c : Nat) (e : Nat) (t : Nat),
    let k := thrKey c e t
    let w := s.word k
    s.running = true ∧ (s.iss k).sharedWait k w = true :=
  ⟨((eng0.setThread 8 {}).modEng fun e => { e with engines := [(0, { issuing := some 0 }), (1, { issuing := some 0 })], cs := [(0, 2 ^ 120 + 10 * 2 ^ 59 + 63 * 2 ^ 28), (4096, 2 ^ 120 + 10 * 2 ^ 59 + 63 * 2 ^ 28)] }), 0, 1, 0, by decide +kernel⟩
theorem witness_LookupsChannelsLocksAndJobPort_6 : ∃ (s : State) (c : Nat) (e : Nat) (t : Nat),
    let k := thrKey c e t
    let w := s.word k
    s.running = true ∧ (s.iss k).sharedWait k w = true :=
  ⟨((eng0.setThread 8 {}).modEng fun e => { e with engines := [(0, { issuing := some 0 }), (1, { issuing := some 0 })], cs := [(0, 2 ^ 120 + 11 * 2 ^ 59 + 63 * 2 ^ 28), (4096, 2 ^ 120 + 11 * 2 ^ 59 + 63 * 2 ^ 28)] }), 0, 1, 0, by decide +kernel⟩
theorem witness_LookupsChannelsLocksAndJobPort_7 : ∃ (s : State) (c : Nat) (e : Nat) (t : Nat),
    let k := thrKey c e t
    let w := s.word k
    s.running = true ∧ (s.iss k).sharedWait k w = true :=
  ⟨((eng0.setThread 8 {}).modEng fun e => { e with engines := [(0, { issuing := some 0 }), (1, { issuing := some 0 })], cs := [(0, 2 ^ 120 + 12 * 2 ^ 59 + 63 * 2 ^ 28), (4096, 2 ^ 120 + 12 * 2 ^ 59 + 63 * 2 ^ 28)] }), 0, 1, 0, by decide +kernel⟩
theorem witness_LookupsChannelsLocksAndJobPort_8 : ∃ (s : State) (c : Nat) (e : Nat) (t : Nat),
    let k := thrKey c e t
    let w := s.word k
    s.running = true ∧ (s.iss k).sharedWait k w = true :=
  ⟨((eng0.setThread 8 {}).modEng fun e => { e with engines := [(0, { issuing := some 0 }), (1, { issuing := some 0 })], cs := [(0, 2 ^ 120 + 13 * 2 ^ 59 + 255 * 2 ^ 28), (4096, 2 ^ 120 + 13 * 2 ^ 59 + 255 * 2 ^ 28)] }), 0, 1, 0, by decide +kernel⟩
theorem witness_LookupsChannelsLocksAndJobPort_9 : ∃ (s : State) (c : Nat) (e : Nat) (t : Nat),
    let k := thrKey c e t
    let w := s.word k
    s.running = true ∧ (s.iss k).sharedWait k w = true :=
  ⟨((eng0.setThread 8 {}).modEng fun e => { e with engines := [(0, { issuing := some 0 }), (1, { issuing := some 0 })], cs := [(0, 2 ^ 120 + 14 * 2 ^ 59 + 255 * 2 ^ 28), (4096, 2 ^ 120 + 14 * 2 ^ 59 + 255 * 2 ^ 28)] }), 0, 1, 0, by decide +kernel⟩
theorem witness_LookupsChannelsLocksAndJobPort_10 : ∃ (s : State) (c : Nat) (e : Nat) (t : Nat),
    let k := thrKey c e t
    let w := s.word k
    s.running = true ∧ (s.iss k).sharedWait k w = true :=
  ⟨((eng0.setThread 8 {}).modEng fun e => { e with engines := [(0, { issuing := some 0 }), (1, { issuing := some 0 })], cs := [(0, 2 ^ 120 + 17 * 2 ^ 59 + 255 * 2 ^ 28), (4096, 2 ^ 120 + 17 * 2 ^ 59 + 255 * 2 ^ 28)] }), 0, 1, 0, by decide +kernel⟩
theorem witness_LookupsChannelsLocksAndJobPort_11 : ∃ (s : State) (c : Nat) (e : Nat) (t : Nat) (corr : Bool),
    let k := thrKey c e t
    let w := s.word k
    let u := s.memIss k corr
    let m := ecOf k
    let ch := u.chan m (uDisp w % 64)
    s.running = true ∧ s.memReady k 0x0A ∧ u.mayWrite k (uDisp w % 64) = true ∧ ch.reserved.length + ch.msgs.length < 16 ∧ (ch.reserved.filter (· == tidOf k)).length < 2 :=
  ⟨(issuing (2 ^ 120 + 10 * 2 ^ 59 + 63 * 2 ^ 28) {}).setF (uCSH 0) (F.CSH_CHAN_CFG_WRITERS.i 63) 1, 0, 0, 0, false, by unfold State.memReady; decide +kernel⟩
theorem witness_LookupsChannelsLocksAndJobPort_12 : ∃ (s : State) (c : Nat) (e : Nat) (t : Nat) (corr : Bool),
    let k := thrKey c e t
    let w := s.word k
    let u := s.memIss k corr
    let m := ecOf k
    let ch := u.chan m (uDisp w % 64)
    s.running = true ∧ s.memReady k 0x0A ∧ u.mayWrite k (uDisp w % 64) = true ∧ ((16 ≤ ch.reserved.length + ch.msgs.length ∨ 2 ≤ (ch.reserved.filter (· == tidOf k)).length)) :=
  ⟨((issuing (2 ^ 120 + 10 * 2 ^ 59 + 63 * 2 ^ 28) {}).setF (uCSH 0) (F.CSH_CHAN_CFG_WRITERS.i 63) 1).modEng fun e => { e with chans := [(63, { reserved := [0, 0] })] }, 0, 0, 0, false, by unfold State.memReady; decide +kernel⟩
theorem witness_LookupsChannelsLocksAndJobPort_13 : ∃ (s : State) (c : Nat) (e : Nat) (t : Nat) (corr : Bool),
    let k := thrKey c e t
    let w := s.word k
    let u := s.memIss k corr
    let m := ecOf k
    let ch := u.chan m (uDisp w % 64)
    s.running = true ∧ s.memReady k 0x0B ∧ u.mayWrite k (uDisp w % 64) = true ∧ ch.reserved.contains (tidOf k) = true :=
  ⟨((issuing (2 ^ 120 + 11 * 2 ^ 59 + 63 * 2 ^ 28) {}).setF (uCSH 0) (F.CSH_CHAN_CFG_WRITERS.i 63) 1).modEng fun e => { e with chans := [(63, { reserved := [0, 0] })] }, 0, 0, 0, false, by unfold State.memReady; decide +kernel⟩
theorem witness_LookupsChannelsLocksAndJobPort_14 : ∃ (s : State) (c : Nat) (e : Nat) (t : Nat) (corr : Bool) (x : _) (xs : _),
    let k := thrKey c e t
    let w := s.word k
    let u := s.memIss k corr
    let m := ecOf k
    let ch := u.chan m (uDisp w % 64)
    s.running = true ∧ s.memReady k 0x0C ∧ ch.msgs = x :: xs :=
  ⟨(issuing (2 ^ 120 + 12 * 2 ^ 59 + 63 * 2 ^ 28) {}).modEng fun e => { e with chans := [(63, { msgs := [[0]] })] }, 0, 0, 0, false, [0], [], by unfold State.memReady; decide +kernel⟩
theorem witness_LookupsChannelsLocksAndJobPort_15 : ∃ (s : State) (c : Nat) (e : Nat) (t : Nat) (corr : Bool),
    let k := thrKey c e t
    let w := s.word k
    let u := s.memIss k corr
    let m := ecOf k
    let ch := u.chan m (uDisp w % 64)
    s.running = true ∧ s.memReady k 0x0C ∧ ch.msgs = [] :=
  ⟨issuing (2 ^ 120 + 12 * 2 ^ 59) {}, 0, 0, 0, false, by unfold State.memReady; decide +kernel⟩
theorem witness_LookupsChannelsLocksAndJobPort_16 : ∃ (s : State) (c : Nat) (e : Nat) (t : Nat) (corr : Bool),
    let k := thrKey c e t
    let w := s.word k
    let u := s.memIss k corr
    let m := ecOf k
    let lk := u.lockSt m (uDisp w % 256)
    s.running = true ∧ s.memReady k 0x0D ∧ lk.owner = none :=
  ⟨issuing (2 ^ 120 + 13 * 2 ^ 59 + 255 * 2 ^ 28) {}, 0, 0, 0, false, by unfold State.memReady; decide +kernel⟩
theorem witness_LookupsChannelsLocksAndJobPort_17 : ∃ (s : State) (c : Nat) (e : Nat) (t : Nat) (corr : Bool) (o : _),
    let k := thrKey c e t
    let w := s.word k
    let u := s.memIss k corr
    let m := ecOf k
    let lk := u.lockSt m (uDisp w % 256)
    s.running = true ∧ s.memReady k 0x0D ∧ lk.owner = some o :=
  ⟨(issuing (2 ^ 120 + 13 * 2 ^ 59 + 255 * 2 ^ 28) {}).modEng fun e => { e with locks := [(255, { owner := some 0 })] }, 0, 0, 0, false, 0, by unfold State.memReady; decide +kernel⟩
theorem witness_LookupsChannelsLocksAndJobPort_18 : ∃ (s : State) (c : Nat) (e : Nat) (t : Nat) (corr : Bool),
    let k := thrKey c e t
    let w := s.word k
    let u := s.memIss k corr
    let m := ecOf k
    let lk := u.lockSt m (uDisp w % 256)
    s.running = true ∧ s.memReady k 0x0E ∧ lk.owner = some (tidOf k) ∧ (u.thread k).mem.any (fun m => m.space == 5 && m.reg == uDisp w % 256) = false :=
  ⟨(issuing (2 ^ 120 + 14 * 2 ^ 59 + 255 * 2 ^ 28) {}).modEng fun e => { e with locks := [(255, { owner := some 0 })] }, 0, 0, 0, false, by unfold State.memReady; decide +kernel⟩
theorem witness_LookupsChannelsLocksAndJobPort_19 : ∃ (s : State) (c : Nat) (e : Nat) (t : Nat) (corr : Bool),
    let k := thrKey c e t
    let w := s.word k
    let u := s.memIss k corr
    let m := ecOf k
    let lk := u.lockSt m (uDisp w % 256)
    s.running = true ∧ s.memReady k 0x0E ∧ lk.owner ≠ some (tidOf k) :=
  ⟨issuing (2 ^ 120 + 14 * 2 ^ 59 + 255 * 2 ^ 28) {}, 0, 0, 0, false, by unfold State.memReady; decide +kernel⟩
theorem witness_LookupsChannelsLocksAndJobPort_20 : ∃ (s : State) (c : Nat) (e : Nat) (t : Nat) (corr : Bool),
    let k := thrKey c e t
    let u := s.memIss k corr
    s.running = true ∧ s.memReady k 0x0F ∧ ((u.ust (engUid k) ≠ 5 ∨ (u.jobOf k).isSome = true)) :=
  ⟨issuing (2 ^ 120 + 15 * 2 ^ 59) {}, 0, 0, 0, false, by unfold State.memReady; decide +kernel⟩
theorem witness_LookupsChannelsLocksAndJobPort_21 : ∃ (s : State) (c : Nat) (e : Nat) (t : Nat) (corr : Bool),
    let k := thrKey c e t
    let u := s.memIss k corr
    s.running = true ∧ s.memReady k 0x0F ∧ u.ust (engUid k) = 5 ∧ u.jobOf k = none :=
  ⟨((issuing (2 ^ 120 + 15 * 2 ^ 59) {}).modEng fun e => { e with clusters := [] }).setF (uENG 0 0) F.UCB_STATE_STATE 5, 0, 0, 0, false, by unfold State.memReady; decide +kernel⟩
theorem witness_LookupsChannelsLocksAndJobPort_22 : ∃ (s : State) (c : Nat) (e : Nat) (t : Nat) (corr : Bool) (lecc : _) (j : OutJob),
    let k := thrKey c e t
    let w := s.word k
    let u := s.memIss k corr
    let a := u.opAddr k w (uDisp w)
    let r := (List.range 4).map fun i => leNat (sliceBytes ((u.localRead k a 32 lecc).1.getD []) (8 * i) 8)
    s.running = true ∧ s.memReady k 0x10 ∧ (u.localRead k a 32 lecc).1.isSome = true ∧ (u.localRead k a 32 lecc).2.jobOf k = some j ∧ (u.localRead k a 32 lecc).2.endingOk r j.job.win.length = true ∧ endKind r = 4 :=
  ⟨ending (issuing (2 ^ 120 + 16 * 2 ^ 59 + 0x100 * 2 ^ 28) {}) [4 * 2 ^ 60 + 2 ^ 52, 768 * 2 ^ 44, 0, 0], 0, 0, 0, false, 0, out0 none, by unfold State.memReady; decide +kernel⟩
theorem witness_LookupsChannelsLocksAndJobPort_23 : ∃ (s : State) (c : Nat) (e : Nat) (t : Nat) (corr : Bool) (lecc : _) (j : OutJob),
    let k := thrKey c e t
    let w := s.word k
    let u := s.memIss k corr
    let a := u.opAddr k w (uDisp w)
    let r := (List.range 4).map fun i => leNat (sliceBytes ((u.localRead k a 32 lecc).1.getD []) (8 * i) 8)
    s.running = true ∧ s.memReady k 0x10 ∧ (u.localRead k a 32 lecc).1.isSome = true ∧ (u.localRead k a 32 lecc).2.jobOf k = some j ∧ (u.localRead k a 32 lecc).2.endingOk r j.job.win.length = true ∧ endKind r ≠ 4 :=
  ⟨ending (inState (issuing (2 ^ 120 + 16 * 2 ^ 59 + 0x100 * 2 ^ 28) {}) 4 [uTMQ 0]) [2 * 2 ^ 60, 768 * 2 ^ 44 + 60, 0, 0], 0, 0, 0, false, 0, out0 none, by unfold State.memReady; decide +kernel⟩
theorem witness_LookupsChannelsLocksAndJobPort_24 : ∃ (s : State) (c : Nat) (e : Nat) (t : Nat) (corr : Bool) (lecc : _) (j : OutJob),
    let k := thrKey c e t
    let w := s.word k
    let u := s.memIss k corr
    let a := u.opAddr k w (uDisp w)
    s.running = true ∧ s.memReady k 0x10 ∧ (u.localRead k a 32 lecc).1.isSome = true ∧ (u.localRead k a 32 lecc).2.jobOf k = some j ∧ (u.localRead k a 32 lecc).2.endingOk ((List.range 4).map fun i => leNat (sliceBytes ((u.localRead k a 32 lecc).1.getD []) (8 * i) 8)) j.job.win.length = false :=
  ⟨ending (issuing (2 ^ 120 + 16 * 2 ^ 59 + 0x100 * 2 ^ 28) {}) [0, 0, 0, 0], 0, 0, 0, false, 0, out0 none, by unfold State.memReady; decide +kernel⟩
theorem witness_LookupsChannelsLocksAndJobPort_25 : ∃ (s : State) (c : Nat) (e : Nat) (t : Nat) (corr : Bool) (lecc : _),
    let k := thrKey c e t
    let w := s.word k
    let u := s.memIss k corr
    let a := u.opAddr k w (uDisp w)
    s.running = true ∧ s.memReady k 0x10 ∧ (u.localRead k a 32 lecc).1 = none :=
  ⟨issuing (2 ^ 120 + 16 * 2 ^ 59 + 0x100 * 2 ^ 28) {}, 0, 0, 0, false, 2, by unfold State.memReady; decide +kernel⟩
theorem witness_LookupsChannelsLocksAndJobPort_26 : ∃ (s : State) (c : Nat) (e : Nat) (t : Nat),
    let k := thrKey c e t
    s.running = true ∧ s.memReady k 0x11 :=
  ⟨issuing (2 ^ 120 + 17 * 2 ^ 59) {}, 0, 0, 0, by unfold State.memReady; decide +kernel⟩

/-! LinksFollowTheirStates -/
theorem witness_LinksFollowTheirStates_0 : ∃ (s : State) (p : Nat) (reason : Nat),
    let l := s.laneLoss p reason
    s.running = true ∧ l.portExists p = true ∧ l.twin.squelched = true ∧ reason = 6 :=
  ⟨squelch (link 3), 0, 6, by decide +kernel⟩
theorem witness_LinksFollowTheirStates_1 : ∃ (s : State) (p : Nat) (reason : Nat),
    let l := s.laneLoss p reason
    s.running = true ∧ l.portExists p = true ∧ ((l.twin.squelched = false ∨ reason ≠ 6)) ∧ l.linkState p = 3 :=
  ⟨link 3, 0, 2, by decide +kernel⟩
theorem witness_LinksFollowTheirStates_2 : ∃ (s : State) (p : Nat) (reason : Nat),
    let l := s.laneLoss p reason
    s.running = true ∧ l.portExists p = true ∧ ((l.twin.squelched = false ∨ reason ≠ 6)) ∧ l.linkState p = 2 ∧ reason ≠ 8 :=
  ⟨link 2, 0, 3, by decide +kernel⟩
theorem witness_LinksFollowTheirStates_3 : ∃ (s : State) (p : Nat) (reason : Nat),
    let l := s.laneLoss p reason
    s.running = true ∧ l.portExists p = true ∧ ((l.twin.squelched = false ∨ reason ≠ 6)) ∧ l.linkState p = 4 ∧ reason = 8 :=
  ⟨link 4, 0, 8, by decide +kernel⟩
theorem witness_LinksFollowTheirStates_4 : ∃ (s : State) (p : Nat) (reason : Nat),
    let l := s.laneLoss p reason
    s.running = true ∧ l.portExists p = true ∧ ((l.twin.squelched = false ∨ reason ≠ 6)) ∧ l.linkState p = 5 ∧ reason = 8 :=
  ⟨link 5, 0, 8, by decide +kernel⟩
theorem witness_LinksFollowTheirStates_5 : ∃ (s : State) (p : Nat) (reason : Nat),
    let l := s.laneLoss p reason
    s.running = true ∧ l.portExists p = true ∧ ((l.twin.squelched = false ∨ reason ≠ 6)) ∧ ((l.linkState p = 1 ∨ l.linkState p = 2)) ∧ reason = 8 :=
  ⟨link 1, 0, 8, by decide +kernel⟩
theorem witness_LinksFollowTheirStates_6 : ∃ (s : State) (p : Nat),
    s.running = true ∧ s.linkState p = 4 ∧ (s.portLanes p).all s.laneOk = true :=
  ⟨link 4, 0, by decide +kernel⟩
theorem witness_LinksFollowTheirStates_7 : ∃ (s : State) (p : Nat),
    s.running = true ∧ s.linkState p = 4 :=
  ⟨link 4, 0, by decide +kernel⟩
theorem witness_LinksFollowTheirStates_8 : ∃ (s : State) (p : Nat),
    let u := s.each (s.portLanes p) fun s u => s.setF u F.LANE_STATUS_SIGNAL 1
    s.running = true ∧ s.portExists p = true ∧ s.linkState p = 5 ∧ u.linkState p = 5 ∧ (u.portLanes p).all (fun l => u.laneOk l && u.getF l F.LANE_STATUS_SIGNAL == 1) = true :=
  ⟨link 5, 0, by decide +kernel⟩
theorem witness_LinksFollowTheirStates_9 : ∃ (s : State) (p : Nat),
    s.running = true ∧ s.portExists p = true ∧ s.linkState p = 1 ∧ s.allSignal p = false :=
  ⟨link 1, 0, by decide +kernel⟩
theorem witness_LinksFollowTheirStates_10 : ∃ (s : State) (p : Nat),
    s.running = true ∧ s.linkState p = 1 :=
  ⟨link 1, 0, by decide +kernel⟩
theorem witness_LinksFollowTheirStates_11 : ∃ (s : State) (p : Nat),
    s.running = true ∧ s.linkState p = 1 ∧ s.twin.squelched = true :=
  ⟨squelch (link 1), 0, by decide +kernel⟩
theorem witness_LinksFollowTheirStates_12 : ∃ (s : State) (p : Nat),
    s.running = true ∧ s.linkState p = 1 ∧ s.mac p F.PORT_CTL_AN_EN = 1 ∧ s.twin.squelched = false :=
  ⟨(link 1).setMac 0 F.PORT_CTL_AN_EN 1, 0, by decide +kernel⟩
theorem witness_LinksFollowTheirStates_13 : ∃ (s : State) (p : Nat),
    s.running = true ∧ s.linkState p = 1 ∧ s.allSignal p = true :=
  ⟨((List.range 8).foldl (fun s l => s.setF (uLane 0 l) F.LANE_STATUS_SIGNAL 1) (link 1)), 0, by decide +kernel⟩
theorem witness_LinksFollowTheirStates_14 : ∃ (s : State) (p : Nat),
    s.running = true ∧ s.linkState p = 1 ∧ s.allSignal p = false :=
  ⟨link 1, 0, by decide +kernel⟩
theorem witness_LinksFollowTheirStates_15 : ∃ (s : State) (p : Nat),
    s.running = true ∧ s.linkState p = 2 :=
  ⟨link 2, 0, by decide +kernel⟩
theorem witness_LinksFollowTheirStates_16 : ∃ (s : State) (p : Nat),
    s.running = true ∧ s.mac p F.PORT_STATUS_HELD = 1 ∧ s.linkState p ≠ 3 :=
  ⟨(link 0).setMac 0 F.PORT_STATUS_HELD 1, 0, by decide +kernel⟩

/-! AdminAndAdaptationCommands -/
theorem witness_AdminAndAdaptationCommands_0 : ∃ (s : State) (m : Nat) (p : Nat),
    let u := uMAC (p / 8)
    let f := F.PORT_CTL_ADMIN_UP.i (p % 8)
    let v := setBitsOf (s.regView u f.off) f.lo f.w 1
    p < 256 ∧ s.writeOk m u f.off v ∧ (s.stored m u f.off v).mac p F.PORT_CTL_ADMIN_UP = 1 :=
  ⟨port0.setMac 0 F.PORT_CTL_FEC 3, 1, 0, by unfold State.writeOk; decide +kernel⟩
theorem witness_AdminAndAdaptationCommands_1 : ∃ (s : State) (m : Nat) (p : Nat),
    let u := uMAC (p / 8)
    let f := F.PORT_CTL_ADMIN_UP.i (p % 8)
    let v := setBitsOf (s.regView u f.off) f.lo f.w 0
    p < 256 ∧ s.writeOk m u f.off v ∧ (s.seen m (4096 * u + f.off)).mac p F.PORT_CTL_ADMIN_UP = 1 ∧ (s.stored m u f.off v).mac p F.PORT_CTL_ADMIN_UP = 0 :=
  ⟨port0.setMac 0 F.PORT_CTL_ADMIN_UP 1, 1, 0, by unfold State.writeOk; decide +kernel⟩
theorem witness_AdminAndAdaptationCommands_2 : ∃ (s : State) (m : Nat) (u : Nat),
    let v := setBitsOf (s.regView u F.LANE_ADAPT_READAPT.off) F.LANE_ADAPT_READAPT.lo F.LANE_ADAPT_READAPT.w 1
    ((kindOf u = some .lane ∨ kindOf u = some .twinLane)) ∧ s.writeOk m u F.LANE_ADAPT_READAPT.off v :=
  ⟨link 3, 1, uLane 0 0, by unfold State.writeOk; decide +kernel⟩
theorem witness_AdminAndAdaptationCommands_3 : ∃ (s : State) (u : Nat),
    s.running = true ∧ s.getF u F.LANE_ADAPT_READAPT = 1 :=
  ⟨(link 3).setF (uLane 0 0) F.LANE_ADAPT_READAPT 1, uLane 0 0, by decide +kernel⟩
theorem witness_AdminAndAdaptationCommands_4 : ∃ (s : State) (u : Nat),
    s.running = true ∧ s.getF u F.LANE_ADAPT_READAPT = 1 :=
  ⟨(link 3).setF (uLane 0 0) F.LANE_ADAPT_READAPT 1, uLane 0 0, by decide +kernel⟩

/-! FlowControlTimers -/
theorem witness_FlowControlTimers_0 : ∃ (s : State) (p : Nat) (r : Nat),
    let t := (s.port p).pauseTill.get (fun _ => 0) r
    s.running = true ∧ t ≠ 0 :=
  ⟨(link 3).setPort 0 { pauseTill := [(8, 5)] }, 0, 8, by decide +kernel⟩
theorem witness_FlowControlTimers_1 : ∃ (s : State) (p : Nat) (r : Nat),
    s.running = true ∧ ((if r = 8 then s.mac p F.PORT_CTL_FC_MODE = 1 ∧ s.mac p F.PORT_STATUS_TX_XOFF = 0xFF else s.mac p F.PORT_CTL_FC_MODE = 2 ∧ bitsOf (s.mac p F.PORT_STATUS_TX_XOFF) r 1 = 1 ∧ bitsOf (s.mac p F.PORT_PFC_TX_EN) r 1 = 1)) :=
  ⟨((link 3).setMac 0 F.PORT_STATUS_TX_XOFF 0xFF).setMac 0 F.PORT_CTL_FC_MODE 1, 0, 8, by decide +kernel⟩
theorem witness_FlowControlTimers_2 : ∃ (s : State) (p : Nat) (r : Nat),
    let wd := s.mac p F.PORT_PFC_WD_WD_MS * 1000000
    let x := s.port p
    let due := x.pauseAt.get (fun _ => 0) r + wd
    s.running = true ∧ wd ≠ 0 ∧ due < x.pauseTill.get (fun _ => 0) r :=
  ⟨((link 3).setMac 0 F.PORT_PFC_WD_WD_MS 1).setPort 0 { pauseTill := [(7, 1000001)] }, 0, 7, by decide +kernel⟩
theorem witness_FlowControlTimers_3 : ∃ (s : State) (p : Nat) (r : Nat),
    let t := (s.port p).ignoreTill.get (fun _ => 0) r
    s.running = true ∧ t ≠ 0 :=
  ⟨(link 3).setPort 0 { ignoreTill := [(7, 5)] }, 0, 7, by decide +kernel⟩

/-! UnitCommandsBeginOnLeaves -/
theorem witness_UnitCommandsBeginOnLeaves_0 : ∃ (s : State) (m : Nat) (u : Nat) (tag : Nat) (cmd : Nat),
    let x := s.stored m u 0x10 (tag % 256 * 256 + cmd)
    s.writeOk m u 0x10 (tag % 256 * 256 + cmd) ∧ isGroup u = false ∧ cmd = 1 ∧ x.cmdResult u 1 = 0 :=
  ⟨inState z 0 [uLane 0 0], 1, uLane 0 0, 255, 1, by unfold State.writeOk; decide +kernel⟩
theorem witness_UnitCommandsBeginOnLeaves_1 : ∃ (s : State) (m : Nat) (u : Nat) (tag : Nat) (cmd : Nat),
    let x := s.stored m u 0x10 (tag % 256 * 256 + cmd)
    s.writeOk m u 0x10 (tag % 256 * 256 + cmd) ∧ isGroup u = false ∧ cmd = 2 ∧ x.cmdResult u 2 = 0 :=
  ⟨inState z 3 [uLane 0 0], 1, uLane 0 0, 255, 2, by unfold State.writeOk; decide +kernel⟩
theorem witness_UnitCommandsBeginOnLeaves_2 : ∃ (s : State) (m : Nat) (u : Nat) (tag : Nat) (cmd : Nat),
    let x := s.stored m u 0x10 (tag % 256 * 256 + cmd)
    s.writeOk m u 0x10 (tag % 256 * 256 + cmd) ∧ isGroup u = false ∧ cmd = 3 ∧ x.cmdResult u 3 = 0 :=
  ⟨inState z 5 [uLane 0 0], 1, uLane 0 0, 255, 3, by unfold State.writeOk; decide +kernel⟩
theorem witness_UnitCommandsBeginOnLeaves_3 : ∃ (s : State) (m : Nat) (u : Nat) (tag : Nat) (cmd : Nat),
    let x := s.stored m u 0x10 (tag % 256 * 256 + cmd)
    s.writeOk m u 0x10 (tag % 256 * 256 + cmd) ∧ isGroup u = false ∧ cmd = 4 ∧ x.cmdResult u 4 = 0 ∧ drainsAtOnce u = false :=
  ⟨inState z 4 [uMAC 0], 1, uMAC 0, 255, 4, by unfold State.writeOk; decide +kernel⟩
theorem witness_UnitCommandsBeginOnLeaves_4 : ∃ (s : State) (m : Nat) (u : Nat) (tag : Nat) (cmd : Nat),
    let x := s.stored m u 0x10 (tag % 256 * 256 + cmd)
    s.writeOk m u 0x10 (tag % 256 * 256 + cmd) ∧ isGroup u = false ∧ cmd = 4 ∧ x.cmdResult u 4 = 0 ∧ drainsAtOnce u = true :=
  ⟨inState z 4 [uLane 0 0], 1, uLane 0 0, 255, 4, by unfold State.writeOk; decide +kernel⟩
theorem witness_UnitCommandsBeginOnLeaves_5 : ∃ (s : State) (m : Nat) (u : Nat) (tag : Nat) (cmd : Nat),
    let x := s.stored m u 0x10 (tag % 256 * 256 + cmd)
    s.writeOk m u 0x10 (tag % 256 * 256 + cmd) ∧ isGroup u = false ∧ cmd = 5 ∧ x.cmdResult u 5 = 0 :=
  ⟨inState z 4 [uLane 0 0], 1, uLane 0 0, 255, 5, by unfold State.writeOk; decide +kernel⟩
theorem witness_UnitCommandsBeginOnLeaves_6 : ∃ (s : State) (m : Nat) (u : Nat) (tag : Nat) (cmd : Nat),
    let x := s.stored m u 0x10 (tag % 256 * 256 + cmd)
    s.writeOk m u 0x10 (tag % 256 * 256 + cmd) ∧ isGroup u = false ∧ cmd = 6 ∧ x.cmdResult u 6 = 0 :=
  ⟨inState z 4 [uLane 0 0], 1, uLane 0 0, 255, 6, by unfold State.writeOk; decide +kernel⟩
theorem witness_UnitCommandsBeginOnLeaves_7 : ∃ (s : State) (m : Nat) (u : Nat) (tag : Nat) (cmd : Nat),
    let x := s.stored m u 0x10 (tag % 256 * 256 + cmd)
    s.writeOk m u 0x10 (tag % 256 * 256 + cmd) ∧ isGroup u = true ∧ x.cmdResult u cmd = 0 ∧ cmd = 1 :=
  ⟨inState z 0 ((List.range 8).map (uLane 0)), 1, uPB 0, 255, 1, by unfold State.writeOk; decide +kernel⟩
theorem witness_UnitCommandsBeginOnLeaves_8 : ∃ (s : State) (m : Nat) (u : Nat) (tag : Nat) (cmd : Nat),
    let x := s.stored m u 0x10 (tag % 256 * 256 + cmd)
    s.writeOk m u 0x10 (tag % 256 * 256 + cmd) ∧ isGroup u = true ∧ x.cmdResult u cmd = 0 ∧ cmd = 2 :=
  ⟨inState z 3 (children (uPB 0)), 1, uPB 0, 255, 2, by unfold State.writeOk; decide +kernel⟩
theorem witness_UnitCommandsBeginOnLeaves_9 : ∃ (s : State) (m : Nat) (u : Nat) (tag : Nat) (cmd : Nat),
    let x := s.stored m u 0x10 (tag % 256 * 256 + cmd)
    s.writeOk m u 0x10 (tag % 256 * 256 + cmd) ∧ isGroup u = true ∧ x.cmdResult u cmd = 0 ∧ cmd = 3 :=
  ⟨inState z 5 (children (uPB 0)), 1, uPB 0, 255, 3, by unfold State.writeOk; decide +kernel⟩
theorem witness_UnitCommandsBeginOnLeaves_10 : ∃ (s : State) (m : Nat) (u : Nat) (tag : Nat) (cmd : Nat),
    let x := s.stored m u 0x10 (tag % 256 * 256 + cmd)
    s.writeOk m u 0x10 (tag % 256 * 256 + cmd) ∧ isGroup u = true ∧ x.cmdResult u cmd = 0 ∧ cmd = 4 :=
  ⟨inState z 4 (children (uPB 0)), 1, uPB 0, 255, 4, by unfold State.writeOk; decide +kernel⟩
theorem witness_UnitCommandsBeginOnLeaves_11 : ∃ (s : State) (m : Nat) (u : Nat) (tag : Nat) (cmd : Nat),
    let x := s.stored m u 0x10 (tag % 256 * 256 + cmd)
    s.writeOk m u 0x10 (tag % 256 * 256 + cmd) ∧ isGroup u = true ∧ x.cmdResult u cmd = 0 ∧ cmd = 5 :=
  ⟨inState z 4 (children (uPB 0)), 1, uPB 0, 255, 5, by unfold State.writeOk; decide +kernel⟩
theorem witness_UnitCommandsBeginOnLeaves_12 : ∃ (s : State) (m : Nat) (u : Nat) (tag : Nat) (cmd : Nat),
    let x := s.stored m u 0x10 (tag % 256 * 256 + cmd)
    s.writeOk m u 0x10 (tag % 256 * 256 + cmd) ∧ isGroup u = true ∧ x.cmdResult u cmd = 0 ∧ cmd = 6 :=
  ⟨inState z 4 (children (uPB 0)), 1, uPB 0, 255, 6, by unfold State.writeOk; decide +kernel⟩
theorem witness_UnitCommandsBeginOnLeaves_13 : ∃ (s : State) (m : Nat) (u : Nat) (tag : Nat) (cmd : Nat),
    let x := s.stored m u 0x10 (tag % 256 * 256 + cmd)
    s.writeOk m u 0x10 (tag % 256 * 256 + cmd) ∧ x.cmdResult u cmd ≠ 0 ∧ cmd = 1 :=
  ⟨inState z 4 [uLane 0 0], 1, uLane 0 0, 255, 1, by unfold State.writeOk; decide +kernel⟩
theorem witness_UnitCommandsBeginOnLeaves_14 : ∃ (s : State) (m : Nat) (u : Nat) (tag : Nat) (cmd : Nat),
    let x := s.stored m u 0x10 (tag % 256 * 256 + cmd)
    s.writeOk m u 0x10 (tag % 256 * 256 + cmd) ∧ x.cmdResult u cmd ≠ 0 ∧ cmd = 2 :=
  ⟨z, 1, uMAC 0, 255, 2, by unfold State.writeOk; decide +kernel⟩
theorem witness_UnitCommandsBeginOnLeaves_15 : ∃ (s : State) (m : Nat) (u : Nat) (tag : Nat) (cmd : Nat),
    let x := s.stored m u 0x10 (tag % 256 * 256 + cmd)
    s.writeOk m u 0x10 (tag % 256 * 256 + cmd) ∧ x.cmdResult u cmd ≠ 0 ∧ cmd = 3 :=
  ⟨z, 1, uMAC 0, 255, 3, by unfold State.writeOk; decide +kernel⟩
theorem witness_UnitCommandsBeginOnLeaves_16 : ∃ (s : State) (m : Nat) (u : Nat) (tag : Nat) (cmd : Nat),
    let x := s.stored m u 0x10 (tag % 256 * 256 + cmd)
    s.writeOk m u 0x10 (tag % 256 * 256 + cmd) ∧ x.cmdResult u cmd ≠ 0 ∧ cmd = 4 :=
  ⟨z, 1, uMAC 0, 255, 4, by unfold State.writeOk; decide +kernel⟩
theorem witness_UnitCommandsBeginOnLeaves_17 : ∃ (s : State) (m : Nat) (u : Nat) (tag : Nat) (cmd : Nat),
    let x := s.stored m u 0x10 (tag % 256 * 256 + cmd)
    s.writeOk m u 0x10 (tag % 256 * 256 + cmd) ∧ x.cmdResult u cmd ≠ 0 ∧ cmd = 5 :=
  ⟨z, 1, uMAC 0, 255, 5, by unfold State.writeOk; decide +kernel⟩
theorem witness_UnitCommandsBeginOnLeaves_18 : ∃ (s : State) (m : Nat) (u : Nat) (tag : Nat) (cmd : Nat),
    let x := s.stored m u 0x10 (tag % 256 * 256 + cmd)
    s.writeOk m u 0x10 (tag % 256 * 256 + cmd) ∧ x.cmdResult u cmd ≠ 0 ∧ cmd = 6 :=
  ⟨z, 1, uMAC 0, 255, 6, by unfold State.writeOk; decide +kernel⟩

/-! UnitCommandsEnd -/
theorem witness_UnitCommandsEnd_0 : ∃ (s : State) (u : Nat) (run : URun),
    s.running = true ∧ s.leafRun u 1 = some run ∧ ([Kind.lane, .twinLane, .dmc].map some).contains (kindOf u) = false :=
  ⟨running1 (inState z 1 [uMAC 0]) (uRun (uMAC 0) 1), uMAC 0, uRun (uMAC 0) 1, by decide +kernel⟩
theorem witness_UnitCommandsEnd_1 : ∃ (s : State) (u : Nat) (run : URun),
    s.running = true ∧ s.leafRun u 1 = some run ∧ ([Kind.lane, .twinLane, .dmc].map some).contains (kindOf u) = false :=
  ⟨running1 (inState z 1 [uMAC 0]) (uRun (uMAC 0) 1), uMAC 0, uRun (uMAC 0) 1, by decide +kernel⟩
theorem witness_UnitCommandsEnd_2 : ∃ (s : State) (u : Nat) (run : URun),
    s.running = true ∧ s.leafRun u 2 = some run ∧ kindOf u ≠ some .engine :=
  ⟨running1 (inState z 2 [uMAC 0]) (uRun (uMAC 0) 2), uMAC 0, uRun (uMAC 0) 2, by decide +kernel⟩
theorem witness_UnitCommandsEnd_3 : ∃ (s : State) (u : Nat) (run : URun),
    s.running = true ∧ s.leafRun u 2 = some run ∧ kindOf u ≠ some .engine :=
  ⟨running1 (inState z 2 [uMAC 0]) (uRun (uMAC 0) 2), uMAC 0, uRun (uMAC 0) 2, by decide +kernel⟩
theorem witness_UnitCommandsEnd_4 : ∃ (s : State) (u : Nat) (run : URun),
    s.running = true ∧ isGroup u = false ∧ s.ust u = 5 ∧ s.holds u = false ∧ (s.drained u).leafRun u 4 = some run :=
  ⟨running1 (inState z 5 [uMAC 0]) (uRun (uMAC 0) 4), uMAC 0, uRun (uMAC 0) 4, by decide +kernel⟩
theorem witness_UnitCommandsEnd_5 : ∃ (s : State) (u : Nat) (run : URun),
    s.running = true ∧ s.leafRun u 4 = some run :=
  ⟨running1 (inState z 5 [uMAC 0]) (uRun (uMAC 0) 4), uMAC 0, uRun (uMAC 0) 4, by decide +kernel⟩
theorem witness_UnitCommandsEnd_6 : ∃ (s : State) (u : Nat) (run : URun) (f : UFrame) (rest : List Nat) (up : List UFrame) (c : Nat),
    s.running = true ∧ s.runOf u = some run ∧ run.stack = f :: up ∧ f.failed = none ∧ run.leaf = none ∧ run.ended = none ∧ ((run.cmd = 4 → kindOf f.uid = some .cluster → f.passed = false → s.routerBusy f.uid = false)) ∧ f.todo.dropWhile (s.skips run.cmd) = c :: rest :=
  ⟨running1 (inState z 3 [uLane 0 0]) ⟨uPB 0, 4, 0, [⟨uPB 0, [uLane 0 0, uLane 0 1], none, 0, false⟩], none, 0, none⟩, uPB 0, ⟨uPB 0, 4, 0, [⟨uPB 0, [uLane 0 0, uLane 0 1], none, 0, false⟩], none, 0, none⟩, ⟨uPB 0, [uLane 0 0, uLane 0 1], none, 0, false⟩, [], [], uLane 0 1, by decide +kernel⟩
theorem witness_UnitCommandsEnd_7 : ∃ (s : State) (u : Nat) (run : URun) (f : UFrame) (up : List UFrame),
    s.running = true ∧ s.runOf u = some run ∧ run.stack = f :: up ∧ f.failed = none ∧ run.leaf = none ∧ run.ended = none ∧ ((run.cmd = 4 → kindOf f.uid = some .cluster → f.passed = false → s.routerBusy f.uid = false)) ∧ f.todo.dropWhile (s.skips run.cmd) = [] :=
  ⟨running1 (inState z 3 [uLane 0 0, uLane 0 1]) ⟨uPB 0, 4, 0, [⟨uPB 0, [uLane 0 0, uLane 0 1], none, 0, false⟩], none, 0, none⟩, uPB 0, ⟨uPB 0, 4, 0, [⟨uPB 0, [uLane 0 0, uLane 0 1], none, 0, false⟩], none, 0, none⟩, ⟨uPB 0, [uLane 0 0, uLane 0 1], none, 0, false⟩, [], by decide +kernel⟩

/-! UnitsThatRefuseEveryCommand -/
theorem witness_UnitsThatRefuseEveryCommand_0 : ∃ (s : State) (u : Nat) (cmd : Nat),
    1 ≤ cmd ∧ cmd ≤ 6 ∧ (kindOf u).isSome = true ∧ (([Kind.pln, .wdn, .hif, .flt, .tal].map some).contains (kindOf u) = true ∨ s.modeOff u = true) :=
  ⟨z, uHIF, 6, by decide +kernel⟩

/-! RegisterAccesses -/
theorem witness_RegisterAccesses_0 : ∃ (s : State) (m : Nat) (u : Nat) (off : Nat) (v : Nat),
    s.writeOk m u off v :=
  ⟨port0, 1, uMAC 0, F.PORT_DEBOUNCE_DOWN_US.off, 0, by unfold State.writeOk; decide +kernel⟩
theorem witness_RegisterAccesses_1 : ∃ (s : State),
    s.writeOk 1 uDEV 0x100 1 ∧ (s.seen 1 (4096 * uDEV + 0x100)).bit uDEV F.DEV_SETUP_LOCK_LOCK = true :=
  ⟨z.setF uDEV F.DEV_SETUP_LOCK_LOCK 1, by unfold State.writeOk; decide +kernel⟩
theorem witness_RegisterAccesses_2 : ∃ (s : State),
    s.writeOk 1 uDEV 0x100 1 ∧ (s.seen 1 (4096 * uDEV + 0x100)).bit uDEV F.DEV_SETUP_LOCK_LOCK = false :=
  ⟨z, by unfold State.writeOk; decide +kernel⟩
theorem witness_RegisterAccesses_3 : ∃ (s : State) (m : Nat) (u : Nat) (off : Nat) (v : Nat),
    let x := s.seen m (4096 * u + off)
    s.running = true ∧ s.reaches m = true ∧ m ≤ 4 ∧ u < 2 ^ 14 ∧ off < 4096 ∧ off % 4 = 0 ∧ v < 2 ^ 32 ∧ x.domainOff u off = false ∧ x.bar0Reason m u off v ≠ 0 :=
  ⟨z, 4, uPLN, 0, 0, by decide +kernel⟩
theorem witness_RegisterAccesses_4 : ∃ (s : State) (m : Nat) (u : Nat) (off : Nat),
    let x := s.occur uHIF 0x100 0 (some m) (4096 * u + off) 1
    s.running = true ∧ s.reaches m = true ∧ m ≤ 4 ∧ u < 2 ^ 14 ∧ off < 4096 ∧ off % 4 = 0 ∧ (kindOf u).isSome = true ∧ x.domainOff u off = false :=
  ⟨z, 1, uPLN, 4092, by decide +kernel⟩
theorem witness_RegisterAccesses_5 : ∃ (s : State) (m : Nat) (u : Nat) (off : Nat),
    let x := s.occur uHIF 0x100 0 (some m) (4096 * u + off) 1
    s.running = true ∧ s.reaches m = true ∧ m ≤ 4 ∧ u < 2 ^ 14 ∧ off < 4096 ∧ off % 4 = 0 ∧ (kindOf u).isSome = true ∧ x.domainOff u off = false :=
  ⟨z, 1, uPLN, 4092, by decide +kernel⟩
theorem witness_RegisterAccesses_6 : ∃ (s : State) (m : Nat) (u : Nat) (c : Nat) (e : Nat),
    let u := uENG c e
    let x := s.occur uHIF 0x100 0 (some m) (4096 * u + 0x310) 1
    s.running = true ∧ s.reaches m = true ∧ m ≤ 4 ∧ c < 16 ∧ e < 17 ∧ x.domainOff u 0x310 = false :=
  ⟨z, 1, 0, 15, 16, by decide +kernel⟩

/-! ClaimsGrantAndPeek -/
theorem witness_ClaimsGrantAndPeek_0 : ∃ (s : State) (m : Nat) (k : Nat),
    let x := s.occur uHIF 0x100 2 (some m) (4 * k) 1
    s.running = true ∧ s.reaches m = true ∧ ((m = 0 ∨ masters.contains m = true)) ∧ k < 64 ∧ x.claim k = none :=
  ⟨z, 4, 63, by decide +kernel⟩
theorem witness_ClaimsGrantAndPeek_1 : ∃ (s : State) (m : Nat) (k : Nat) (c : _),
    let x := s.occur uHIF 0x100 2 (some m) (4 * k) 1
    s.running = true ∧ s.reaches m = true ∧ ((m = 0 ∨ masters.contains m = true)) ∧ k < 64 ∧ x.claim k = some c ∧ c.owner = m :=
  ⟨z.setClaim 63 (some ⟨4, 0⟩), 4, 63, ⟨4, 0⟩, by decide +kernel⟩
theorem witness_ClaimsGrantAndPeek_2 : ∃ (s : State) (m : Nat) (k : Nat) (c : _),
    let x := s.occur uHIF 0x100 2 (some m) (4 * k) 1
    s.running = true ∧ s.reaches m = true ∧ ((m = 0 ∨ masters.contains m = true)) ∧ k < 64 ∧ x.claim k = some c ∧ c.owner ≠ m ∧ c.owner < 2 ^ 31 :=
  ⟨z.setClaim 63 (some ⟨3, 0⟩), 0, 63, ⟨3, 0⟩, by decide +kernel⟩
theorem witness_ClaimsGrantAndPeek_3 : ∃ (s : State) (m : Nat) (k : Nat),
    let y := s.occur uHIF 0x100 2 (some m) (0x100 + 4 * k) 1
    s.running = true ∧ s.reaches m = true ∧ ((m = 0 ∨ masters.contains m = true)) ∧ k < 64 ∧ y.claim k = none :=
  ⟨z, 4, 63, by decide +kernel⟩
theorem witness_ClaimsGrantAndPeek_4 : ∃ (s : State) (m : Nat) (k : Nat) (c : _),
    let y := s.occur uHIF 0x100 2 (some m) (0x100 + 4 * k) 1
    s.running = true ∧ s.reaches m = true ∧ ((m = 0 ∨ masters.contains m = true)) ∧ k < 64 ∧ y.claim k = some c ∧ c.owner < 2 ^ 31 :=
  ⟨z.setClaim 63 (some ⟨4, 0⟩), 4, 63, ⟨4, 0⟩, by decide +kernel⟩

/-! FunctionsResetAndLinksFollow -/
theorem witness_FunctionsResetAndLinksFollow_0 : ∃ (s : State) (m : Nat),
    s.running = true ∧ masters.contains m = true ∧ s.fnEnabled m = true ∧ s.getFS uHIF m F.HIF_FN_STATUS_FLR_ACTIVE ≠ 1 :=
  ⟨z, 1, by decide +kernel⟩
theorem witness_FunctionsResetAndLinksFollow_1 : ∃ (s : State) (m : Nat),
    s.running = true ∧ s.getFS uHIF m F.HIF_FN_STATUS_FLR_ACTIVE ≠ 0 :=
  ⟨z.setFS uHIF 1 F.HIF_FN_STATUS_FLR_ACTIVE 1, 1, by decide +kernel⟩
theorem witness_FunctionsResetAndLinksFollow_2 : ∃ (s : State) (m : Nat),
    s.running = true ∧ 1 ≤ m ∧ m ≤ 4 ∧ s.pwr.mode ≠ 1 ∧ s.pwr.mode ≠ 3 ∧ (vfsOf (m - 1)).any s.fnEnabled = false :=
  ⟨z, 4, by decide +kernel⟩
theorem witness_FunctionsResetAndLinksFollow_3 : ∃ (s : State) (m : Nat),
    s.running = true ∧ 1 ≤ m ∧ m ≤ 4 ∧ s.pwr.mode ≠ 1 ∧ s.pwr.mode ≠ 3 ∧ (vfsOf (m - 1)).any s.fnEnabled = true :=
  ⟨z.setFS uHIF 16 F.HIF_FN_STATUS_VF_EN 1, 1, by decide +kernel⟩
theorem witness_FunctionsResetAndLinksFollow_5 : ∃ (s : State) (m : Nat),
    let x := ((s.each [3, 4] fun s m => (s.clearTree m).stopRings m).setF uHIF F.HIF_LINK_WIDTH1 0).setF uHIF F.HIF_LINK_GEN1 0
    s.running = true ∧ s.bit uHIF F.HIF_LINK_SPLIT = true ∧ x.bit uHIF F.HIF_LINK_SPLIT = true :=
  ⟨z.setF uHIF F.HIF_LINK_SPLIT 1, 0, by decide +kernel⟩
theorem witness_FunctionsResetAndLinksFollow_6 : ∃ (s : State) (gen : _) (width : _),
    s.running = true ∧ 1 ≤ gen ∧ gen ≤ 5 ∧ [1, 2, 4, 8].contains width = true :=
  ⟨z, 5, 8, by decide +kernel⟩
theorem witness_FunctionsResetAndLinksFollow_7 : ∃ (s : State) (gen : _) (width : _),
    s.running = true ∧ 1 ≤ gen ∧ gen ≤ 5 ∧ [1, 2, 4, 8].contains width = true ∧ s.bit uHIF F.HIF_LINK_SPLIT = true :=
  ⟨z.setF uHIF F.HIF_LINK_SPLIT 1, 1, 1, by decide +kernel⟩

/-! RingsStartAndStop -/
theorem witness_RingsStartAndStop_0 : ∃ (s : State) (m : Nat) (r : Nat) (n : Nat),
    s.writeOk m uHIF 0x108 n ∧ (s.seen m (4096 * uHIF + 0x108)).selOf uHIF 0x108 = r ∧ n ≠ (s.seen m (4096 * uHIF + 0x108)).ringLog r ∧ n ≠ 0 :=
  ⟨(z.setFS uHIF 1 F.HIF_FN_RINGS_COUNT 1).setFS uHIF 0 F.RING_CFG_TYPE 8, 1, 0, 16, by unfold State.writeOk; decide +kernel⟩
theorem witness_RingsStartAndStop_1 : ∃ (s : State) (m : Nat) (r : Nat) (n : Nat),
    s.writeOk m uHIF 0x108 n ∧ (s.seen m (4096 * uHIF + 0x108)).selOf uHIF 0x108 = r ∧ n ≠ (s.seen m (4096 * uHIF + 0x108)).ringLog r ∧ n = 0 :=
  ⟨ring0 z 1 [], 1, 0, 0, by unfold State.writeOk; decide +kernel⟩
theorem witness_RingsStartAndStop_2 : ∃ (s : State) (r : Nat),
    s.running = true ∧ s.ringState r = 4 ∧ (s.ring r).descs = [] ∧ ((s.unread r = 0 ∨ s.reportUp r = false)) :=
  ⟨(ring0 z 1 []).setFS uHIF 0 F.RING_STATUS_STATE 4, 0, by decide +kernel⟩
theorem witness_RingsStartAndStop_3 : ∃ (s : State) (r : Nat) (t0 : _),
    let x := s.reach (t0 + 60000000)
    s.running = true ∧ (s.ring r).flushAt = some t0 ∧ s.ringState r = 4 ∧ (x.ring r).flr = false :=
  ⟨((ring0 z 1 []).setFS uHIF 0 F.RING_STATUS_STATE 4).setRing 0 { flushAt := some 0 }, 0, 0, by decide +kernel⟩
theorem witness_RingsStartAndStop_4 : ∃ (s : State) (r : Nat),
    s.running = true ∧ s.ringOn r = true ∧ s.fnLive ((s.ringOwner r).getD 0) = true :=
  ⟨ring0 z 1 [], 0, by decide +kernel⟩
theorem witness_RingsStartAndStop_5 : ∃ (s : State) (r : Nat) (t0 : _),
    s.running = true ∧ (s.ring r).fullAt = some t0 ∧ ((s.ringState r = 1 ∨ s.ringState r = 2)) :=
  ⟨(ring0 z 1 []).setRing 0 { fullAt := some 0 }, 0, 0, by decide +kernel⟩
theorem witness_RingsStartAndStop_6 : ∃ (s : State) (r : Nat),
    s.running = true ∧ s.ringOn r = true ∧ (s.ring r).armed = true ∧ (s.ring r).pend ≠ 0 :=
  ⟨((ring0 z 0x13 []).setFS uHIF 0 F.RING_INT_EN 1).setRing 0 { armed := true, pend := 1 }, 0, by decide +kernel⟩

/-! DoorbellsAndDescriptors -/
theorem witness_DoorbellsAndDescriptors_0 : ∃ (s : State) (m : Nat) (i : Nat) (v : Nat) (r : _),
    let x := s.occur uHIF 0x101 2 (some m) (0x10000 + 8 * i) 1
    let y := x.occur uHIF 0x102 0 (some m) (0x10000 + 8 * i) 1
    s.running = true ∧ masters.contains m = true ∧ s.reaches m = true ∧ i < doorbells m ∧ x.running = true ∧ x.fnLive m = true ∧ y.localRing m i = some r ∧ y.doorbellReason (some r) v = 0 ∧ ringClass (y.ringType r) = 1 :=
  ⟨ring0 z 1 [], 1, 0, 16, 0, by decide +kernel⟩
theorem witness_DoorbellsAndDescriptors_1 : ∃ (s : State) (m : Nat) (i : Nat) (v : Nat) (r : _),
    let x := s.occur uHIF 0x101 2 (some m) (0x10000 + 8 * i) 1
    let y := x.occur uHIF 0x102 0 (some m) (0x10000 + 8 * i) 1
    s.running = true ∧ masters.contains m = true ∧ s.reaches m = true ∧ i < doorbells m ∧ x.running = true ∧ x.fnLive m = true ∧ y.localRing m i = some r ∧ y.doorbellReason (some r) v = 0 ∧ ringClass (y.ringType r) ≠ 1 :=
  ⟨ring0 z 0x13 [], 1, 0, 0, 0, by decide +kernel⟩
theorem witness_DoorbellsAndDescriptors_2 : ∃ (s : State) (m : Nat) (i : Nat) (k : Nat),
    let x := s.occur uHIF 0x101 2 (some m) (0x10000 + 8 * i) 1
    let x := s.occur uHIF 0x101 2 (some m) (0x10000 + 8 * k) 1
    s.running = true ∧ masters.contains m = true ∧ s.reaches m = true ∧ i < doorbells m ∧ x.running = true ∧ x.fnLive m = true ∧ doorbells m ≤ k ∧ 0x10000 + 8 * k < bar2Size m ∧ x.running = true ∧ x.fnEnabled m = true ∧ x.fnLive m = true :=
  ⟨z, 1, 0, 32768, by decide +kernel⟩
theorem witness_DoorbellsAndDescriptors_3 : ∃ (s : State) (m : Nat) (i : Nat) (v : Nat),
    let x := s.occur uHIF 0x101 2 (some m) (0x10000 + 8 * i) 1
    let y := x.occur uHIF 0x102 0 (some m) (0x10000 + 8 * i) 1
    s.running = true ∧ masters.contains m = true ∧ s.reaches m = true ∧ i < doorbells m ∧ x.running = true ∧ x.fnLive m = true ∧ y.doorbellReason (y.localRing m i) v ≠ 0 :=
  ⟨ring0 z 1 [], 4, 32767, 0, by decide +kernel⟩
theorem witness_DoorbellsAndDescriptors_4 : ∃ (s : State) (r : Nat),
    let a := (s.modHif fun h => { h with reads := s.hif.reads + 1 }).setFS uHIF r F.RING_STATUS_DEV_INDEX
        ((s.ringIndex r + 1) % 2 ^ ((s.ring r).log + 1))
    s.running = true ∧ s.ringState r = 1 ∧ s.ringRead r = true ∧ s.unread r ≠ 0 ∧ (s.ring r).flr = false ∧ s.fnLive ((s.ringOwner r).getD 0) = true ∧ s.getFS uHIF r F.RING_CFG_MODE = 0 ∧ a.getFS uHIF r F.RING_CFG_MODE = 0 :=
  ⟨(ring0 z 1 []).setRing 0 { log := 4, host := 16 }, 0, by decide +kernel⟩
theorem witness_DoorbellsAndDescriptors_5 : ∃ (s : State) (r : Nat),
    let a := (s.modHif fun h => { h with reads := s.hif.reads + 1 }).setFS uHIF r F.RING_STATUS_DEV_INDEX
        ((s.ringIndex r + 1) % 2 ^ ((s.ring r).log + 1))
    s.running = true ∧ s.ringState r = 1 ∧ s.ringRead r = true ∧ s.unread r ≠ 0 ∧ (s.ring r).flr = false ∧ s.fnLive ((s.ringOwner r).getD 0) = true ∧ s.getFS uHIF r F.RING_CFG_MODE = 0 ∧ a.getFS uHIF r F.RING_CFG_MODE = 0 :=
  ⟨(ring0 z 1 []).setRing 0 { log := 4, host := 16 }, 0, by decide +kernel⟩
theorem witness_DoorbellsAndDescriptors_6 : ∃ (s : State) (r : Nat) (t0 : Nat) (link : Nat),
    s.running = true ∧ (s.ring r).reread = some t0 ∧ link % 2 = 0 :=
  ⟨(ring0 z 1 []).setRing 0 { reread := some 0 }, 0, 0, 2, by decide +kernel⟩
theorem witness_DoorbellsAndDescriptors_7 : ∃ (s : State) (r : Nat) (t0 : Nat) (link : Nat),
    s.running = true ∧ (s.ring r).reread = some t0 ∧ link % 2 = 1 :=
  ⟨(ring0 z 1 []).setRing 0 { reread := some 0 }, 0, 0, 1, by decide +kernel⟩

/-! RingCommandsRun -/
theorem witness_RingCommandsRun_0 : ∃ (s : State) (r : Nat) (d : Desc),
    s.running = true ∧ s.nextDesc r 0 = some d :=
  ⟨ring0 z 1 [desc 0 0 0], 0, desc 0 0 0, by decide +kernel⟩
theorem witness_RingCommandsRun_1 : ∃ (s : State) (r : Nat) (d : Desc),
    s.running = true ∧ s.nextDesc r 0xFE = some d ∧ (((s.ring r).descs.takeWhile (fun e => e.idx != d.idx)).length = 0) :=
  ⟨ring0 z 1 [desc 0xFE 8 0], 0, desc 0xFE 8 0, by decide +kernel⟩
theorem witness_RingCommandsRun_2 : ∃ (s : State) (r : Nat) (m : Nat) (e : _) (rest : _),
    s.running = true ∧ s.hif.held = .fence r m e :: rest :=
  ⟨z.modHif fun h => { h with held := [.fence 0 0 []] }, 0, 0, [], [], by decide +kernel⟩
theorem witness_RingCommandsRun_3 : ∃ (s : State) (r : Nat) (d : Desc),
    let n := bitsOf d.w2 0 3
    s.running = true ∧ s.nextDesc r 1 = some d ∧ s.fwdOn = true ∧ s.taking = true ∧ [uADM n, uSIV n, uLKP n, uRSV n, uEGR n].any s.closed = false :=
  ⟨ring0 (inState z 4 [uADM 7, uSIV 7, uLKP 7, uRSV 7, uEGR 7]) 1 [desc 1 64 7], 0, desc 1 64 7, by decide +kernel⟩
theorem witness_RingCommandsRun_4 : ∃ (s : State) (r : Nat) (d : Desc),
    let n := bitsOf d.w2 0 3
    s.running = true ∧ s.nextDesc r 1 = some d ∧ s.fwdOn = true ∧ s.taking = true ∧ [uADM n, uSIV n, uLKP n, uRSV n, uEGR n].any s.closed = false :=
  ⟨ring0 (inState z 4 [uADM 7, uSIV 7, uLKP 7, uRSV 7, uEGR 7]) 1 [desc 1 64 7], 0, desc 1 64 7, by decide +kernel⟩
theorem witness_RingCommandsRun_5 : ∃ (s : State) (r : Nat) (d : Desc),
    s.running = true ∧ s.nextDesc r 2 = some d ∧ s.fwdOn = true ∧ s.taking = true ∧ s.closed (uTMQ (bitsOf d.w2 0 18 / 65536)) = false :=
  ⟨ring0 (inState z 4 [uTMQ 3]) 1 [desc 2 64 262143], 0, desc 2 64 262143, by decide +kernel⟩
theorem witness_RingCommandsRun_6 : ∃ (s : State) (r : Nat) (d : Desc),
    s.running = true ∧ s.nextDesc r 2 = some d ∧ s.fwdOn = true ∧ s.taking = true ∧ s.closed (uTMQ (bitsOf d.w2 0 18 / 65536)) = false :=
  ⟨ring0 (inState z 4 [uTMQ 3]) 1 [desc 2 64 262143], 0, desc 2 64 262143, by decide +kernel⟩
theorem witness_RingCommandsRun_7 : ∃ (s : State) (r : Nat) (d : Desc),
    s.running = true ∧ s.nextDesc r 8 = some d :=
  ⟨ring0 z 2 [desc 8 64 0], 0, desc 8 64 0, by decide +kernel⟩
theorem witness_RingCommandsRun_8 : ∃ (s : State) (r : Nat) (d : Desc),
    s.running = true ∧ s.nextDesc r 0x30 = some d ∧ s.isFollower = false :=
  ⟨ring0 z 4 [desc 0x30 16 0], 0, desc 0x30 16 0, by decide +kernel⟩
theorem witness_RingCommandsRun_9 : ∃ (s : State) (r : Nat) (d : Desc),
    s.running = true ∧ s.nextDesc r 0x30 = some d ∧ s.isFollower = false :=
  ⟨ring0 z 4 [desc 0x30 16 0], 0, desc 0x30 16 0, by decide +kernel⟩

/-! ClaimsCrossingsAndTheWarden -/
theorem witness_ClaimsCrossingsAndTheWarden_0 : ∃ (s : State) (m : Nat) (k : Nat) (c : Claim),
    let x := s.occur uHIF 0x101 2 (some m) (4 * k) 1
    s.running = true ∧ k < 64 ∧ s.reaches m = true ∧ ((m = 0 ∨ masters.contains m = true ∧ x.fnLive m = true)) ∧ x.claim k = some c ∧ c.owner = m :=
  ⟨z.setClaim 63 (some ⟨0, 0⟩), 0, 63, ⟨0, 0⟩, by decide +kernel⟩
theorem witness_ClaimsCrossingsAndTheWarden_1 : ∃ (s : State) (m : Nat) (k : Nat) (c : Claim) (v : _),
    let x := s.occur uHIF 0x101 2 (some m) (4 * k) 1
    s.running = true ∧ k < 64 ∧ s.reaches m = true ∧ ((m = 0 ∨ masters.contains m = true ∧ x.fnLive m = true)) ∧ x.claim k = some c ∧ v ≠ 0 ∧ v < 2 ^ 32 ∧ c.owner = m :=
  ⟨z.setClaim 63 (some ⟨4, 0⟩), 4, 63, ⟨4, 0⟩, 1, by decide +kernel⟩
theorem witness_ClaimsCrossingsAndTheWarden_2 : ∃ (s : State) (m : Nat) (k : Nat) (c : Claim) (v : _),
    let x := s.occur uHIF 0x101 2 (some m) (4 * k) 1
    s.running = true ∧ k < 64 ∧ s.reaches m = true ∧ ((m = 0 ∨ masters.contains m = true ∧ x.fnLive m = true)) ∧ x.claim k = some c ∧ v < 2 ^ 32 ∧ c.owner ≠ m :=
  ⟨z.setClaim 63 (some ⟨3, 0⟩), 4, 63, ⟨3, 0⟩, 0, by decide +kernel⟩
theorem witness_ClaimsCrossingsAndTheWarden_3 : ∃ (s : State) (k : Nat) (c : Claim),
    s.running = true ∧ s.claim k = some c ∧ c.owner ≠ 0 ∧ k < 64 :=
  ⟨z.setClaim 63 (some ⟨4, 0⟩), 63, ⟨4, 0⟩, by decide +kernel⟩
theorem witness_ClaimsCrossingsAndTheWarden_4 : ∃ (s : State) (k : Nat) (c : Claim),
    s.running = true ∧ s.claim k = some c ∧ c.owner = 0 ∧ k < 64 :=
  ⟨z.setClaim 63 (some ⟨0, 0⟩), 63, ⟨0, 0⟩, by decide +kernel⟩
theorem witness_ClaimsCrossingsAndTheWarden_5 : ∃ (s : State) (u : Nat),
    s.running = true ∧ s.closed u = false :=
  ⟨port0, uMAC 0, by decide +kernel⟩
theorem witness_ClaimsCrossingsAndTheWarden_6 : ∃ (s : State) (u : Nat),
    s.running = true ∧ s.closed u = true :=
  ⟨z, uMAC 0, by decide +kernel⟩

/-! TableCommandsAnswer -/
theorem witness_TableCommandsAnswer_0 : ∃ (s : State) (src : Nat) (data : List Byte) (d : Desc),
    let c := tcmdOf d.w0 d.w1 d.w2 data
    let x := s.countTable src c
    s.running = true ∧ x.cmdCheck c = none ∧ x.changeDenied src c = false ∧ s.tblReady src opREAD d data :=
  ⟨tbl [desc 0x20 16 (0x18 * 2 ^ 56 + 1048575)], 0, [], desc 0x20 16 (0x18 * 2 ^ 56 + 1048575), by unfold State.tblReady; decide +kernel⟩
theorem witness_TableCommandsAnswer_1 : ∃ (s : State) (src : Nat) (data : List Byte) (d : Desc),
    let c := tcmdOf d.w0 d.w1 d.w2 data
    let x := s.countTable src c
    s.running = true ∧ x.cmdCheck c = none ∧ x.changeDenied src c = false ∧ s.tblReady src opWRITE d data :=
  ⟨tbl [desc 0x21 16 (0x18 * 2 ^ 56 + 1048575)], 0, List.replicate 16 0, desc 0x21 16 (0x18 * 2 ^ 56 + 1048575), by unfold State.tblReady; decide +kernel⟩
theorem witness_TableCommandsAnswer_2 : ∃ (s : State) (src : Nat) (data : List Byte) (d : Desc),
    let c := tcmdOf d.w0 d.w1 d.w2 data
    let x := s.countTable src c
    s.running = true ∧ x.cmdCheck c = none ∧ x.changeDenied src c = false ∧ s.tblReady src opINSERT d data :=
  ⟨tbl [desc 0x22 12 (0x12 * 2 ^ 56)], 0, List.replicate 12 0, desc 0x22 12 (0x12 * 2 ^ 56), by unfold State.tblReady; decide +kernel⟩
theorem witness_TableCommandsAnswer_3 : ∃ (s : State) (src : Nat) (data : List Byte) (d : Desc),
    let c := tcmdOf d.w0 d.w1 d.w2 data
    let x := s.countTable src c
    s.running = true ∧ x.cmdCheck c = none ∧ x.changeDenied src c = false ∧ s.tblReady src opDELETE d data :=
  ⟨tbl [desc 0x23 12 (0x12 * 2 ^ 56)], 0, List.replicate 12 0, desc 0x23 12 (0x12 * 2 ^ 56), by unfold State.tblReady; decide +kernel⟩
theorem witness_TableCommandsAnswer_4 : ∃ (s : State) (src : Nat) (data : List Byte) (d : Desc),
    let c := tcmdOf d.w0 d.w1 d.w2 data
    let x := s.countTable src c
    s.running = true ∧ x.cmdCheck c = none ∧ x.changeDenied src c = false ∧ s.tblReady src opAGE d data :=
  ⟨tbl [desc 0x24 12 (0x12 * 2 ^ 56)], 0, List.replicate 12 0, desc 0x24 12 (0x12 * 2 ^ 56), by unfold State.tblReady; decide +kernel⟩
theorem witness_TableCommandsAnswer_5 : ∃ (s : State) (src : Nat) (data : List Byte) (d : Desc),
    let c := tcmdOf d.w0 d.w1 d.w2 data
    let x := s.countTable src c
    s.running = true ∧ x.cmdCheck c = none ∧ x.changeDenied src c = false ∧ s.tblReady src opTAS d data :=
  ⟨tbl [desc 0x25 24 (0x18 * 2 ^ 56)], 0, List.replicate 24 0, desc 0x25 24 (0x18 * 2 ^ 56), by unfold State.tblReady; decide +kernel⟩
theorem witness_TableCommandsAnswer_6 : ∃ (s : State) (src : Nat) (data : List Byte) (d : Desc),
    let c := tcmdOf d.w0 d.w1 d.w2 data
    let x := s.countTable src c
    s.running = true ∧ x.cmdCheck c = none ∧ x.changeDenied src c = false ∧ s.tblReady src opSLOT d data :=
  ⟨tbl [desc 0x26 8 (0x12 * 2 ^ 56)], 0, [], desc 0x26 8 (0x12 * 2 ^ 56), by unfold State.tblReady; decide +kernel⟩
theorem witness_TableCommandsAnswer_7 : ∃ (s : State) (src : Nat) (data : List Byte) (d : Desc),
    let c := tcmdOf d.w0 d.w1 d.w2 data
    let x := s.countTable src c
    s.running = true ∧ x.cmdCheck c = none ∧ x.changeDenied src c = false ∧ s.tblReady src opSCAN d data :=
  ⟨tbl [desc 0x27 8 (0x12 * 2 ^ 56)], 0, [], desc 0x27 8 (0x12 * 2 ^ 56), by unfold State.tblReady; decide +kernel⟩
theorem witness_TableCommandsAnswer_8 : ∃ (s : State) (src : Nat) (data : List Byte) (d : Desc),
    let c := tcmdOf d.w0 d.w1 d.w2 data
    let x := s.countTable src c
    s.running = true ∧ x.cmdCheck c = none ∧ x.changeDenied src c = false ∧ s.tblReady src opINVAL d data :=
  ⟨tbl [desc 0x2D 8 (0x01 * 2 ^ 56 + 255)], 0, List.replicate 8 0, desc 0x2D 8 (0x01 * 2 ^ 56 + 255), by unfold State.tblReady; decide +kernel⟩

/-! TableWindowsAnswer -/
theorem witness_TableWindowsAnswer_0 : ∃ (s : State) (src : Nat) (p : Nat) (t0 : _),
    s.running = true ∧ p < 4 ∧ src = 65536 + p ∧ (s.tcwStart p).isSome = true ∧ s.tcwStart p = some t0 :=
  ⟨tcw 1 0x18, 65539, 3, 0, by decide +kernel⟩
theorem witness_TableWindowsAnswer_1 : ∃ (s : State) (src : Nat) (p : Nat),
    let c := s.winCmd p
    let x := s.countTable src c
    s.running = true ∧ p < 4 ∧ src = 65536 + p ∧ (s.tcwStart p).isSome = true ∧ s.blocked src (s.tcwWait p) c = false ∧ s.mustWait c = false ∧ x.winOk p = true ∧ x.cmdCheck c = none ∧ x.changeDenied src c = false ∧ c.op = opREAD :=
  ⟨tcw 1 0x18, 65539, 3, by decide +kernel⟩
theorem witness_TableWindowsAnswer_2 : ∃ (s : State) (src : Nat) (p : Nat),
    let c := s.winCmd p
    let x := s.countTable src c
    s.running = true ∧ p < 4 ∧ src = 65536 + p ∧ (s.tcwStart p).isSome = true ∧ s.blocked src (s.tcwWait p) c = false ∧ s.mustWait c = false ∧ x.winOk p = true ∧ x.cmdCheck c = none ∧ x.changeDenied src c = false ∧ c.op = opWRITE :=
  ⟨tcw 2 0x18, 65539, 3, by decide +kernel⟩
theorem witness_TableWindowsAnswer_3 : ∃ (s : State) (src : Nat) (p : Nat),
    let c := s.winCmd p
    let x := s.countTable src c
    s.running = true ∧ p < 4 ∧ src = 65536 + p ∧ (s.tcwStart p).isSome = true ∧ s.blocked src (s.tcwWait p) c = false ∧ s.mustWait c = false ∧ x.winOk p = true ∧ x.cmdCheck c = none ∧ x.changeDenied src c = false ∧ c.op = opINSERT :=
  ⟨tcw 3 0x12, 65539, 3, by decide +kernel⟩
theorem witness_TableWindowsAnswer_4 : ∃ (s : State) (src : Nat) (p : Nat),
    let c := s.winCmd p
    let x := s.countTable src c
    s.running = true ∧ p < 4 ∧ src = 65536 + p ∧ (s.tcwStart p).isSome = true ∧ s.blocked src (s.tcwWait p) c = false ∧ s.mustWait c = false ∧ x.winOk p = true ∧ x.cmdCheck c = none ∧ x.changeDenied src c = false ∧ c.op = opDELETE :=
  ⟨tcw 4 0x12, 65539, 3, by decide +kernel⟩
theorem witness_TableWindowsAnswer_5 : ∃ (s : State) (src : Nat) (p : Nat),
    let c := s.winCmd p
    let x := s.countTable src c
    s.running = true ∧ p < 4 ∧ src = 65536 + p ∧ (s.tcwStart p).isSome = true ∧ s.blocked src (s.tcwWait p) c = false ∧ s.mustWait c = false ∧ x.winOk p = true ∧ x.cmdCheck c = none ∧ x.changeDenied src c = false ∧ c.op = opAGE :=
  ⟨tcw 5 0x12, 65539, 3, by decide +kernel⟩
theorem witness_TableWindowsAnswer_6 : ∃ (s : State) (src : Nat) (p : Nat),
    let c := s.winCmd p
    let x := s.countTable src c
    s.running = true ∧ p < 4 ∧ src = 65536 + p ∧ (s.tcwStart p).isSome = true ∧ s.blocked src (s.tcwWait p) c = false ∧ s.mustWait c = false ∧ x.winOk p = true ∧ x.cmdCheck c = none ∧ x.changeDenied src c = false ∧ c.op = opTAS :=
  ⟨tcw 6 0x18, 65539, 3, by decide +kernel⟩

/-! GenerationCommandsRun -/
theorem witness_GenerationCommandsRun_0 : ∃ (s : State) (src : Nat) (operand : Nat) (d : Desc),
    s.running = true ∧ s.genReady src opCOMMIT operand d :=
  ⟨tbl [{ w0 := opCOMMIT * 2 ^ 56 + 8, w1 := 0, w2 := 0, w3 := 0, idx := 0 }], 0, 0, { w0 := opCOMMIT * 2 ^ 56 + 8, w1 := 0, w2 := 0, w3 := 0, idx := 0 }, by unfold State.genReady State.tblReady; decide +kernel⟩
theorem witness_GenerationCommandsRun_1 : ∃ (s : State) (src : Nat) (operand : Nat) (d : Desc),
    let c := tcmdOf d.w0 d.w1 d.w2 (leBytes operand 8)
    let t := (s.countTable src c).setDesc src d.idx fun d => { d with begun := true }
    s.running = true ∧ s.genReady src opABORT operand d ∧ s.gen.rehash = none ∧ ((t.ring src).descs.find? fun d => d.begun && d.comp.isNone && d.op == opABORT) = some { d with begun := true } :=
  ⟨tbl [{ w0 := opABORT * 2 ^ 56 + 8, w1 := 0, w2 := 0, w3 := 0, idx := 0 }], 0, 0, { w0 := opABORT * 2 ^ 56 + 8, w1 := 0, w2 := 0, w3 := 0, idx := 0 }, by unfold State.genReady State.tblReady; decide +kernel⟩
theorem witness_GenerationCommandsRun_2 : ∃ (s : State) (src : Nat),
    s.running = true ∧ s.gen.commitHead = some src ∧ s.gen.rehash = none :=
  ⟨z.modGen fun g => { g with commitHead := some 0 }, 0, by decide +kernel⟩
theorem witness_GenerationCommandsRun_3 : ∃ (s : State) (src : Nat) (acc : _),
    s.running = true ∧ s.gen.commit = some (src, acc) ∧ s.gen.twinOk = false :=
  ⟨z.modGen fun g => { g with commit := some (0, 5) }, 0, 5, by decide +kernel⟩
theorem witness_GenerationCommandsRun_4 : ∃ (s : State) (src : Nat) (d : Desc),
    s.running = true ∧ s.tblDesc src opGENWAIT = some d ∧ s.blocked src d.wait (tcmdOf d.w0 d.w1 d.w2 []) = false ∧ s.genTurn d = true ∧ d.len = 8 ∧ d.w2 % 2 ^ 64 = 0 ∧ s.fwdOn = true ∧ s.genState = 0 :=
  ⟨tbl [{ w0 := opGENWAIT * 2 ^ 56 + 8, w1 := 0, w2 := 0, w3 := 0, idx := 0 }], 0, { w0 := opGENWAIT * 2 ^ 56 + 8, w1 := 0, w2 := 0, w3 := 0, idx := 0 }, by decide +kernel⟩
theorem witness_GenerationCommandsRun_5 : ∃ (s : State) (src : Nat) (d : Desc),
    s.running = true ∧ src < 65536 ∧ src ≠ twinSrc ∧ ((s.ring src).descs.find? fun d => d.wait.isSome && !d.begun && d.comp.isNone && d.op != opGENWAIT && s.mustWait (tcmdOf d.w0 d.w1 d.w2 [])) = some d :=
  ⟨(tbl [{ w0 := opCOMMIT * 2 ^ 56 + 8, w1 := 0, w2 := 0, w3 := 0, idx := 0, wait := some 7 }]).setF uTG F.GEN_STATUS_STATE 1, 0, { w0 := opCOMMIT * 2 ^ 56 + 8, w1 := 0, w2 := 0, w3 := 0, idx := 0, wait := some 7 }, by decide +kernel⟩
theorem witness_GenerationCommandsRun_6 : ∃ (s : State),
    s.running = true ∧ s.genState = 2 :=
  ⟨z.setF uTG F.GEN_STATUS_STATE 2, by decide +kernel⟩
theorem witness_GenerationCommandsRun_7 : ∃ (s : State) (src : Nat) (seeds : Nat) (d : Desc),
    s.running = true ∧ s.tblReady src opREHASH d (leBytes seeds 8) ∧ (s.countTable src (tcmdOf d.w0 d.w1 d.w2 (leBytes seeds 8))).cmdCheck (tcmdOf d.w0 d.w1 d.w2 (leBytes seeds 8)) = none ∧ (s.countTable src (tcmdOf d.w0 d.w1 d.w2 (leBytes seeds 8))).changeDenied src (tcmdOf d.w0 d.w1 d.w2 (leBytes seeds 8)) = false ∧ (s.countTable src (tcmdOf d.w0 d.w1 d.w2 (leBytes seeds 8))).bit uTG F.EM_STATUS_REHASH_BUSY = false :=
  ⟨tbl [{ w0 := opREHASH * 2 ^ 56 + 8, w1 := 0, w2 := 0x10 * 2 ^ 56 + 7 * 2 ^ 51, w3 := 0, idx := 0 }], 0, 2 ^ 64 - 1, { w0 := opREHASH * 2 ^ 56 + 8, w1 := 0, w2 := 0x10 * 2 ^ 56 + 7 * 2 ^ 51, w3 := 0, idx := 0 }, by unfold State.tblReady; decide +kernel⟩
theorem witness_GenerationCommandsRun_8 : ∃ (s : State) (seeds : Nat) (d : Desc) (seg : _) (r : _),
    s.running = true ∧ s.gen.rehash = some (seg, seeds, true) ∧ s.hif.rings.findSome? (fun r => (r.2.descs.find? fun d => d.begun && d.comp.isNone && d.op == opREHASH).map fun d => (r.1, d)) = some (r, d) :=
  ⟨(tbl [{ w0 := opREHASH * 2 ^ 56 + 8, w1 := 0, w2 := 0, w3 := 0, idx := 0, begun := true }]).modGen fun g => { g with rehash := some (7, 5, true) }, 5, { w0 := opREHASH * 2 ^ 56 + 8, w1 := 0, w2 := 0, w3 := 0, idx := 0, begun := true }, 7, 0, by decide +kernel⟩
theorem witness_GenerationCommandsRun_9 : ∃ (s : State) (bad : List (Nat × Nat)),
    let all := bad ++ ((s.flt.badWords.map (·.2)).filter fun w => s.spoiled w.1 w.2 && !bad.contains w)
    let z := s.each all fun s b => s.badWord uTG 0 b.1 (b.2 % 2 ^ 24)
    let x := (z.sweepRehash all).sweep all
    s.running = true ∧ s.genState = 3 ∧ z.gen.abort = none ∧ x.gen.abort = none :=
  ⟨z.setF uTG F.GEN_STATUS_STATE 3, [(0x12, 5)], by decide +kernel⟩

/-! SweepMakesTheGenerationsEqual -/
theorem witness_SweepMakesTheGenerationsEqual_0 : ∃ (s : State) (bad : List (Nat × Nat)) (tid : _) (idx : _),
    s.tbl.wf (fun _ => 0) = true ∧ s.activeGen < 2 ∧ tblKeyed tid = true ∧ isLRN tid = false ∧ idx < 2 ^ 31 ∧ bad.contains (tid, idx) = true :=
  ⟨z.setEnt 0x12 0 0 (2 ^ 62), [(0x12, 2 ^ 31 - 1)], 0x12, 2 ^ 31 - 1, by decide +kernel⟩
theorem witness_SweepMakesTheGenerationsEqual_1 : ∃ (s : State) (bad : List (Nat × Nat)) (tid : _) (idx : _) (g : _),
    s.tbl.wf (fun _ => 0) = true ∧ s.activeGen < 2 ∧ [0x01, 0x02, 0x30, 0x40].contains tid = true ∧ idx < 2 ^ 31 ∧ g < 2 ∧ bad.contains (tid, idx) = true :=
  ⟨z.setEnt 0x40 0 0 (2 ^ 62), [(0x40, 2 ^ 31 - 1)], 0x40, 2 ^ 31 - 1, 1, by decide +kernel⟩
theorem witness_SweepMakesTheGenerationsEqual_2 : ∃ (s : State) (bad : List (Nat × Nat)) (tid : _) (idx : _),
    s.tbl.wf (fun _ => 0) = true ∧ s.activeGen < 2 ∧ tblKeyed tid = true ∧ isLRN tid = false ∧ idx < 2 ^ 31 ∧ bad.contains (tid, idx) = false :=
  ⟨z.setEnt 0x12 0 0 (2 ^ 62), [(0x12, 0)], 0x12, 2 ^ 31 - 1, by decide +kernel⟩
theorem witness_SweepMakesTheGenerationsEqual_3 : ∃ (s : State) (bad : List (Nat × Nat)) (tid : _) (idx : _),
    s.tbl.wf (fun _ => 0) = true ∧ s.activeGen < 2 ∧ tblKeyed tid = true ∧ isLRN tid = false ∧ idx < 2 ^ 31 ∧ bad.contains (tid, idx) = false :=
  ⟨z.setEnt 0x12 0 0 (2 ^ 62), [(0x12, 0)], 0x12, 2 ^ 31 - 1, by decide +kernel⟩
theorem witness_SweepMakesTheGenerationsEqual_4 : ∃ (s : State) (bad : List (Nat × Nat)) (tid : _) (idx : _),
    s.tbl.wf (fun _ => 0) = true ∧ s.activeGen < 2 ∧ tblKeyed tid = true ∧ isLRN tid = false ∧ idx < 2 ^ 31 ∧ bad.contains (tid, idx) = false :=
  ⟨z.setEnt 0x12 0 0 (2 ^ 62), [(0x12, 0)], 0x12, 2 ^ 31 - 1, by decide +kernel⟩
theorem witness_SweepMakesTheGenerationsEqual_5 : ∃ (s : State) (bad : List (Nat × Nat)) (tid : _) (idx : _),
    s.tbl.wf (fun _ => 0) = true ∧ s.activeGen < 2 ∧ [0x01, 0x02, 0x30, 0x40].contains tid = true ∧ idx < 2 ^ 31 ∧ bad.contains (tid, idx) = false :=
  ⟨z.setEnt 0x40 0 0 (2 ^ 62), [], 0x40, 2 ^ 31 - 1, by decide +kernel⟩
theorem witness_SweepMakesTheGenerationsEqual_6 : ∃ (s : State) (bad : List (Nat × Nat)) (tid : _) (idx : _),
    s.tbl.wf (fun _ => 0) = true ∧ s.activeGen < 2 ∧ [0x01, 0x02, 0x30, 0x40].contains tid = true ∧ idx < 2 ^ 31 ∧ bad.contains (tid, idx) = false :=
  ⟨z.setEnt 0x40 0 0 (2 ^ 62), [], 0x40, 2 ^ 31 - 1, by decide +kernel⟩
theorem witness_SweepMakesTheGenerationsEqual_7 : ∃ (s : State) (bad : List (Nat × Nat)) (tid : _) (idx : _),
    s.tbl.wf (fun _ => 0) = true ∧ s.activeGen < 2 ∧ [0x01, 0x02, 0x30, 0x40].contains tid = true ∧ idx < 2 ^ 31 ∧ bad.contains (tid, idx) = false :=
  ⟨z.setEnt 0x40 0 0 (2 ^ 62), [], 0x40, 2 ^ 31 - 1, by decide +kernel⟩

/-! FencesComparesAndScrubs -/
theorem witness_FencesComparesAndScrubs_0 : ∃ (s : State) (src : Nat) (d : Desc),
    let x := s.countTable src (tcmdOf d.w0 d.w1 d.w2 [])
    s.running = true ∧ s.tblDesc src opFENCE = some d ∧ d.len = 16 ∧ d.w2 % 2 ^ 64 = 0 ∧ (((s.ring src).descs.takeWhile (fun e => e.idx != d.idx)).length = 0) ∧ x.fwdOn = true ∧ x.gen.fences.length < 64 :=
  ⟨tbl [{ w0 := opFENCE * 2 ^ 56 + 16, w1 := 0, w2 := 0, w3 := 0, idx := 0 }], 0, { w0 := opFENCE * 2 ^ 56 + 16, w1 := 0, w2 := 0, w3 := 0, idx := 0 }, by decide +kernel⟩
theorem witness_FencesComparesAndScrubs_1 : ∃ (s : State) (src : Nat) (d : Desc),
    let x := s.countTable src (tcmdOf d.w0 d.w1 d.w2 [])
    s.running = true ∧ s.tblDesc src opFENCE = some d ∧ d.len = 16 ∧ d.w2 % 2 ^ 64 = 0 ∧ (((s.ring src).descs.takeWhile (fun e => e.idx != d.idx)).length = 0) ∧ x.fwdOn = true ∧ 64 ≤ x.gen.fences.length :=
  ⟨(tbl [{ w0 := opFENCE * 2 ^ 56 + 16, w1 := 0, w2 := 0, w3 := 0, idx := 0 }]).modGen fun g => { g with fences := List.replicate 64 ⟨0, 0, 0, 0⟩ }, 0, { w0 := opFENCE * 2 ^ 56 + 16, w1 := 0, w2 := 0, w3 := 0, idx := 0 }, by decide +kernel⟩
theorem witness_FencesComparesAndScrubs_2 : ∃ (s : State) (f : FenceSt) (rest : List FenceSt),
    s.running = true ∧ s.gen.fences = f :: rest ∧ s.fenceClear f = true :=
  ⟨z.modGen fun g => { g with fences := [⟨0, 0, 0, 0⟩] }, ⟨0, 0, 0, 0⟩, [], by decide +kernel⟩
theorem witness_FencesComparesAndScrubs_3 : ∃ (s : State) (f : FenceSt) (rest : List FenceSt),
    s.running = true ∧ s.gen.fences = f :: rest :=
  ⟨z.modGen fun g => { g with fences := [⟨0, 0, 0, 0⟩] }, ⟨0, 0, 0, 0⟩, [], by decide +kernel⟩
theorem witness_FencesComparesAndScrubs_4 : ∃ (s : State) (tid : Nat),
    s.running = true ∧ s.up (uCU (if tid = 0x30 then 57 else 56)) = false :=
  ⟨z, 0, by decide +kernel⟩
theorem witness_FencesComparesAndScrubs_5 : ∃ (s : State),
    s.running = true ∧ ((s.up (uCU 58) = false ∨ s.footing = true)) :=
  ⟨z, by decide +kernel⟩
theorem witness_FencesComparesAndScrubs_6 : ∃ (s : State) (tid : Nat),
    s.running = true ∧ (shadowUnits tid).1 ≠ 0 ∧ s.up (uCU (if tid = 0x30 then 57 else 56)) = true ∧ s.getFS uTG (cmpRegs tid).sel (cmpRegs tid).en ≠ 0 ∧ s.gen.cmpAt.get (fun _ => 0) tid ≠ s.clk.wpNum + 1 :=
  ⟨(inState z 4 [uCU 56]).setFS uTG (cmpRegs 0x1A).sel (cmpRegs 0x1A).en 1, 0x1A, by decide +kernel⟩
theorem witness_FencesComparesAndScrubs_7 : ∃ (s : State) (tid : Nat),
    s.running = true ∧ (shadowUnits tid).1 ≠ 0 ∧ s.up (uCU (if tid = 0x30 then 57 else 56)) = true ∧ s.getFS uTG (cmpRegs tid).sel (cmpRegs tid).en ≠ 0 ∧ s.gen.cmpAt.get (fun _ => 0) tid ≠ s.clk.wpNum + 1 :=
  ⟨(inState z 4 [uCU 56]).setFS uTG (cmpRegs 0x1A).sel (cmpRegs 0x1A).en 1, 0x1A, by decide +kernel⟩
theorem witness_FencesComparesAndScrubs_8 : ∃ (s : State),
    s.running = true ∧ s.up (uCU 58) = true ∧ s.footing = false ∧ s.getF uCAMG F.CAM_SCRUB_CFG_EN ≠ 0 ∧ s.gen.cmpAt.get (fun _ => 0) 0x38 ≠ s.clk.wpNum + 1 :=
  ⟨(inState z 4 [uCU 58]).setF uCAMG F.CAM_SCRUB_CFG_EN 1, by decide +kernel⟩
theorem witness_FencesComparesAndScrubs_9 : ∃ (s : State) (dram : Bool),
    let x := s.modGen fun g => { g with cmpAt := s.gen.cmpAt.put (fun _ => 0) 0x38 (s.clk.wpNum + 1) }
    let pos := x.getF uCAMG F.CAM_SCRUB_STATUS_POS
    let n := min (64 * 2 ^ x.getF uCAMG F.CAM_SCRUB_CFG_SLICE_LOG2) (4096 * camBanks.length - pos)
    s.running = true ∧ s.up (uCU 58) = true ∧ s.footing = false ∧ s.getF uCAMG F.CAM_SCRUB_CFG_EN ≠ 0 ∧ s.gen.cmpAt.get (fun _ => 0) 0x38 ≠ s.clk.wpNum + 1 ∧ (x.scrubCopy pos n (if dram then 2 else 0)).1 = none :=
  ⟨dram1 ((((inState z 4 [uCB 3 15, uCU 58]).setF (uCB 3 15) F.CAM_BANK_CFG_EN 1).setF uCAMG F.CAM_SCRUB_CFG_EN 1).setF uCAMG F.CAM_SCRUB_STATUS_POS (4096 * camBanks.length - 1)), true, by decide +kernel⟩
theorem witness_FencesComparesAndScrubs_10 : ∃ (s : State) (dram : Bool),
    let x := s.modGen fun g => { g with cmpAt := s.gen.cmpAt.put (fun _ => 0) 0x38 (s.clk.wpNum + 1) }
    let pos := x.getF uCAMG F.CAM_SCRUB_STATUS_POS
    let n := min (64 * 2 ^ x.getF uCAMG F.CAM_SCRUB_CFG_SLICE_LOG2) (4096 * camBanks.length - pos)
    s.running = true ∧ s.up (uCU 58) = true ∧ s.footing = false ∧ s.getF uCAMG F.CAM_SCRUB_CFG_EN ≠ 0 ∧ s.gen.cmpAt.get (fun _ => 0) 0x38 ≠ s.clk.wpNum + 1 ∧ (x.scrubCopy pos n (if dram then 2 else 0)).1.isSome = true :=
  ⟨dram1 ((((inState z 4 [uCB 3 15, uCU 58]).setF (uCB 3 15) F.CAM_BANK_CFG_EN 1).setF uCAMG F.CAM_SCRUB_CFG_EN 1).setF uCAMG F.CAM_SCRUB_STATUS_POS (4096 * camBanks.length - 1)), false, by decide +kernel⟩

/-! BoundariesAndRecords -/
theorem witness_BoundariesAndRecords_0 : ∃ (s : State),
    let a := (s.elapse (s.reachRaw s.clk.nextWp)).modClk fun c => { c with wpNum := s.clk.wpNum + 1 }
    let x := a.closePeriod.configApply
    let y := x.modClk fun c => { c with nextWp := s.clk.nextWp + x.periodLen }
    s.clk.running = true ∧ s.running = true ∧ a.running = true ∧ y.running = true :=
  ⟨z, by decide +kernel⟩
theorem witness_BoundariesAndRecords_1 : ∃ (s : State),
    let a := (s.elapse (s.reachRaw s.clk.nextWp)).modClk fun c => { c with wpNum := s.clk.wpNum + 1 }
    s.clk.running = true ∧ s.running = false ∧ a.running = false :=
  ⟨{ z with pwr := { z.pwr with mode := 3 } }, by decide +kernel⟩
theorem witness_BoundariesAndRecords_2 : ∃ (s : State) (i : _) (vs : _) (rest : _),
    s.running = true ∧ s.tal.runs = (i, vs) :: rest :=
  ⟨z.modTal fun t => { t with runs := [(0, [1])] }, 0, [1], [], by decide +kernel⟩
theorem witness_BoundariesAndRecords_3 : ∃ (s : State),
    s.running = true ∧ s.tal.runs = [] ∧ s.tal.endDue = true :=
  ⟨z.modTal fun t => { t with endDue := true }, by decide +kernel⟩
theorem witness_BoundariesAndRecords_4 : ∃ (s : State) (k : Nat) (d : _) (rest : _),
    s.running = true ∧ k < 4 ∧ s.tal.telem.get (fun _ => []) k = d :: rest :=
  ⟨z.modTal fun t => { t with telem := [(3, [[1]])] }, 3, [1], [], by decide +kernel⟩
theorem witness_BoundariesAndRecords_5 : ∃ (s : State) (d : _) (rest : _),
    s.running = true ∧ s.bas.captureOut = d :: rest :=
  ⟨z.modBas fun b => { b with captureOut := [[1]] }, [1], [], by decide +kernel⟩
theorem witness_BoundariesAndRecords_6 : ∃ (s : State) (cache : _) (ctr : _) (d : _),
    s.running = true ∧ (s.tal.flows.find? fun d => d.cache == cache && d.ctr == ctr) = some d :=
  ⟨z.modTal fun t => { t with flows := [⟨1, 2, 3, 4, 0⟩] }, 1, 2, ⟨1, 2, 3, 4, 0⟩, by decide +kernel⟩
theorem witness_BoundariesAndRecords_7 : ∃ (s : State) (n : Nat) (d : _),
    s.running = true ∧ s.tal.flowOut[n]? = some d ∧ ((s.tal.flowOut.take n).any fun e => e.cache == d.cache) = false :=
  ⟨z.modTal fun t => { t with flowOut := [⟨1, 2, 3, 4, 0⟩] }, 0, ⟨1, 2, 3, 4, 0⟩, by decide +kernel⟩
theorem witness_BoundariesAndRecords_8 : ∃ (s : State) (n : Nat) (d : _),
    s.running = true ∧ s.tal.flowOut[n]? = some d ∧ ((s.tal.flowOut.take n).any fun e => e.cache == d.cache) = true :=
  ⟨z.modTal fun t => { t with flowOut := [⟨1, 2, 3, 4, 0⟩, ⟨1, 2, 3, 4, 0⟩] }, 1, ⟨1, 2, 3, 4, 0⟩, by decide +kernel⟩
theorem witness_BoundariesAndRecords_9 : ∃ (s : State) (n : Nat) (d : _),
    s.running = true ∧ s.tal.flowOut[n]? = some d :=
  ⟨z.modTal fun t => { t with flowOut := [⟨1, 2, 3, 4, 0⟩] }, 0, ⟨1, 2, 3, 4, 0⟩, by decide +kernel⟩
theorem witness_BoundariesAndRecords_10 : ∃ (s : State) (d : FlowDelta),
    s.dramRead (6 * 4096 + d.cache) (s.flowAddr d.ctr) 16 0 |>.1.isSome = true :=
  ⟨dram1 z, ⟨1, 2, 3, 4, 0⟩, by decide +kernel⟩

/-! FabricCellsAndLanes -/
theorem witness_FabricCellsAndLanes_0 : ∃ (s : State),
    let x := s.fabDrain
    s.running = true ∧ x.fabOn = true :=
  ⟨card, by decide +kernel⟩
theorem witness_FabricCellsAndLanes_1 : ∃ (s : State) (cell : _),
    let x := s.fabDrain
    s.running = true ∧ x.fabOn = true ∧ readCell cell = none :=
  ⟨card, [], by decide +kernel⟩
theorem witness_FabricCellsAndLanes_2 : ∃ (s : State) (cell : _) (h : _),
    let x := s.fabDrain
    s.running = true ∧ x.fabOn = true ∧ readCell cell = some h ∧ h.type = 0 ∧ h.dst ≠ x.devId :=
  ⟨card.setF uFAB F.FAB_ID_DEV_ID 5, syncCell true 7, ⟨0, 0, 1, 255, 7, true, [1]⟩, by decide +kernel⟩
theorem witness_FabricCellsAndLanes_3 : ∃ (s : State) (cell : _) (h : _),
    let x := s.fabDrain
    s.running = true ∧ x.fabOn = true ∧ readCell cell = some h ∧ h.type = 0 ∧ h.dst = x.devId ∧ h.sync = false ∧ (x.flowIn h.src).synced = true ∧ (h.seq + 65536 - (x.flowIn h.src).exp) % 65536 < 4096 :=
  ⟨card.setFlowIn 1 { synced := true, exp := 65535 }, syncCell false 4094, ⟨0, 0, 1, 255, 4094, false, [1]⟩, by decide +kernel⟩
theorem witness_FabricCellsAndLanes_4 : ∃ (s : State) (cell : _) (h : _),
    let x := s.fabDrain
    s.running = true ∧ x.fabOn = true ∧ readCell cell = some h ∧ h.type = 0 ∧ h.dst = x.devId ∧ h.sync = true :=
  ⟨card, syncCell true 7, ⟨0, 0, 1, 255, 7, true, [1]⟩, by decide +kernel⟩
theorem witness_FabricCellsAndLanes_5 : ∃ (s : State) (d : _) (c : _) (r : _),
    let y := (s.reach (r.foldl (fun a y => min a y.at_) c.at_ + s.getF uFAB F.FAB_REORDER_WAIT_NS)).fabDrain
    s.running = true ∧ (s.flowIn d).held = c :: r ∧ ((s.flowIn d).held.any fun y => y.seq == (s.flowIn d).exp) = false :=
  ⟨card.setFlowIn 1 { synced := true, held := [⟨5, 255, [1], 0⟩] }, 1, ⟨5, 255, [1], 0⟩, [], by decide +kernel⟩
theorem witness_FabricCellsAndLanes_6 : ∃ (s : State) (n : Nat) (t : _),
    s.running = true ∧ s.fab.xoffTill.get (fun _ => 0) n = t ∧ t ≠ 0 :=
  ⟨card.modFab fun f => { f with xoffTill := [(127, 5)] }, 127, 5, by decide +kernel⟩
theorem witness_FabricCellsAndLanes_7 : ∃ (s : State) (d : _) (t : _),
    s.running = true ∧ (s.flowIn d).fcAt = some t :=
  ⟨card.setFlowIn 1 { fcAt := some 5 }, 1, 5, by decide +kernel⟩
theorem witness_FabricCellsAndLanes_8 : ∃ (s : State) (k : Nat),
    let x := s.fabDrain
    let y := x.setF uFAB (F.FAB_LANE_UP_MAP.i (k / 32)) (setBitsOf (x.getF uFAB (F.FAB_LANE_UP_MAP.i (k / 32))) (k % 32) 1 0)
    s.running = true ∧ x.fabLanes.contains k = true ∧ y.fabLane k = [] :=
  ⟨(card.setF uFAB (F.FAB_LANE_UP_MAP.i 3) (2 ^ 31)), 127, by decide +kernel⟩
theorem witness_FabricCellsAndLanes_9 : ∃ (s : State) (k : Nat) (h : _) (r : _),
    let x := s.fabDrain
    let y := x.setF uFAB (F.FAB_LANE_UP_MAP.i (k / 32)) (setBitsOf (x.getF uFAB (F.FAB_LANE_UP_MAP.i (k / 32))) (k % 32) 1 0)
    s.running = true ∧ x.fabLanes.contains k = true ∧ y.fabLane k = h :: r :=
  ⟨(card.setF uFAB (F.FAB_LANE_UP_MAP.i 3) (2 ^ 31)).setFabLane 127 [⟨[1], 5, [], false⟩], 127, ⟨[1], 5, [], false⟩, [], by decide +kernel⟩
theorem witness_FabricCellsAndLanes_10 : ∃ (s : State) (k : Nat),
    s.running = true ∧ k < 128 ∧ s.lineCard = true ∧ s.up (uLane (16 + k / 8) (k % 8)) = true :=
  ⟨card, 127, by decide +kernel⟩

/-! FcCellsPlaceXoff -/
theorem witness_FcCellsPlaceXoff_0 : ∃ (s : State) (cell : List Byte) (h : CellHdr),
    s.running = true ∧ s.fabDrain.fabOn = true ∧ readCell cell = some h ∧ h.type = 1 :=
  ⟨card, cellBytes 1 0 1 255 0 false (List.replicate 16 0), ⟨1, 0, 1, 255, 0, false, List.replicate 16 0⟩, by decide +kernel⟩
theorem witness_FcCellsPlaceXoff_1 : ∃ (s : State) (cell : List Byte) (h : CellHdr),
    s.running = true ∧ s.fabDrain.fabOn = true ∧ readCell cell = some h ∧ h.type = 1 :=
  ⟨card, cellBytes 1 0 1 255 0 false (List.replicate 16 0), ⟨1, 0, 1, 255, 0, false, List.replicate 16 0⟩, by decide +kernel⟩
theorem witness_FcCellsPlaceXoff_2 : ∃ (s : State) (cell : List Byte) (h : CellHdr) (n : Nat),
    s.running = true ∧ s.fabDrain.fabOn = true ∧ readCell cell = some h ∧ h.type = 1 ∧ n < 128 :=
  ⟨card, cellBytes 1 0 1 255 0 false (List.replicate 16 0), ⟨1, 0, 1, 255, 0, false, List.replicate 16 0⟩, 127, by decide +kernel⟩
theorem witness_FcCellsPlaceXoff_3 : ∃ (i : Nat) (j : Nat),
    i < 4 ∧ j < 32 :=
  ⟨3, 31, by decide +kernel⟩

/-! DramChannelsKeepTheirRanks -/
theorem witness_DramChannelsKeepTheirRanks_0 : ∃ (s : State) (ch : Nat) (rank : _),
    ch < 12 ∧ rank < 2 ∧ s.running = true :=
  ⟨z, 11, 1, by decide +kernel⟩
theorem witness_DramChannelsKeepTheirRanks_1 : ∃ (s : State) (ch : Nat) (rank : _),
    ch < 12 ∧ rank < 2 ∧ s.running = true ∧ s.getF (uDMC ch) F.DMC_PD_IDLE_NS ≠ 0 ∧ s.chanOn ch = true ∧ s.dram.down.contains (2 * ch + rank) = false :=
  ⟨(inState z 4 [uDMC 11]).setF (uDMC 11) F.DMC_PD_IDLE_NS 1, 11, 1, by decide +kernel⟩
theorem witness_DramChannelsKeepTheirRanks_2 : ∃ (s : State) (ch : Nat) (b : Nat),
    ch < 12 ∧ b < 64 ∧ s.running = true ∧ s.getF (uDMC ch) F.DMC_POLICY_MODE = 1 ∧ (s.bank (64 * ch + b)).row.isSome = true :=
  ⟨(z.setF (uDMC 11) F.DMC_POLICY_MODE 1).modDram fun d => { d with banks := [(64 * 11 + 63, { row := some 0 })] }, 11, 63, by decide +kernel⟩
theorem witness_DramChannelsKeepTheirRanks_3 : ∃ (s : State) (ch : Nat),
    ch < 12 ∧ s.running = true ∧ s.getF (uDMC ch) F.DMC_SCRUB_EN ≠ 0 ∧ s.chanOn ch = true ∧ s.dram.scrubAt.get (fun _ => 0) ch ≠ s.clk.wpNum + 1 :=
  ⟨(inState z 4 [uDMC 11]).setF (uDMC 11) F.DMC_SCRUB_EN 1, 11, by decide +kernel⟩
theorem witness_DramChannelsKeepTheirRanks_4 : ∃ (s : State) (ch : Nat),
    ch < 12 ∧ s.running = true ∧ s.getF (uDMC ch) F.DMC_SCRUB_EN ≠ 0 ∧ s.chanOn ch = true ∧ s.dram.scrubAt.get (fun _ => 0) ch ≠ s.clk.wpNum + 1 :=
  ⟨(inState z 4 [uDMC 11]).setF (uDMC 11) F.DMC_SCRUB_EN 1, 11, by decide +kernel⟩
theorem witness_DramChannelsKeepTheirRanks_5 : ∃ (ch : Nat),
    ch < 12 :=
  ⟨11, by decide +kernel⟩
theorem witness_DramChannelsKeepTheirRanks_6 : ∃ (s : State) (ch : Nat) (m : Nat) (v : _),
    ch < 12 ∧ s.writeOk m (uDMC ch) 0x200 (v % 2 ^ 31 + 2 ^ 31) :=
  ⟨inState z 3 [uDMC 11], 11, 1, 0, by unfold State.writeOk; decide +kernel⟩
theorem witness_DramChannelsKeepTheirRanks_7 : ∃ (s : State) (ch : Nat),
    ch < 12 ∧ s.running = true ∧ s.getF (uDMC ch) F.DMC_TRN_CTL_GO ≠ 0 :=
  ⟨z.setF (uDMC 11) F.DMC_TRN_CTL_GO 1, 11, by decide +kernel⟩
theorem witness_DramChannelsKeepTheirRanks_8 : ∃ (s : State) (ch : Nat),
    ch < 12 ∧ s.running = true ∧ s.getF (uDMC ch) F.DMC_TRN_CTL_GO ≠ 0 :=
  ⟨z.setF (uDMC 11) F.DMC_TRN_CTL_GO 1, 11, by decide +kernel⟩
theorem witness_DramChannelsKeepTheirRanks_9 : ∃ (s : State) (ch : Nat) (errs : List Nat) (k : Nat) (e : _),
    ch < 12 ∧ s.running = true ∧ s.getF (uDMC ch) F.DMC_TRN_CTL_GO ≠ 0 ∧ k < 80 ∧ errs[k]? = some e :=
  ⟨z.setF (uDMC 11) F.DMC_TRN_CTL_GO 1, 11, List.replicate 80 7, 79, 7, by decide +kernel⟩

/-! MoversMoveBytes -/
theorem witness_MoversMoveBytes_0 : ∃ (s : State) (m : Nat) (d : Desc) (data : List Byte),
    s.running = true ∧ m < 32 ∧ s.moverDesc m 0x50 = some d ∧ ((s.hostRead 1 d.w1 d.len).dramWrite (mvSrc m) d.w2 (sliceBytes data 0 d.len)).1 = (sliceBytes data 0 d.len).length :=
  ⟨movers [{ w0 := 80 * 2 ^ 56 + 8, w1 := 0, w2 := 0, w3 := 0, idx := 0 }], 31, { w0 := 80 * 2 ^ 56 + 8, w1 := 0, w2 := 0, w3 := 0, idx := 0 }, List.replicate 8 0, by decide +kernel⟩
theorem witness_MoversMoveBytes_1 : ∃ (s : State) (m : Nat) (d : Desc) (ecc : Nat),
    s.running = true ∧ m < 32 ∧ s.moverDesc m 0x51 = some d ∧ (s.dramRead (mvSrc m) d.w1 d.len ecc).1.isSome = true :=
  ⟨movers [{ w0 := 81 * 2 ^ 56 + 8, w1 := 0, w2 := 0, w3 := 0, idx := 0 }], 31, { w0 := 81 * 2 ^ 56 + 8, w1 := 0, w2 := 0, w3 := 0, idx := 0 }, 0, by decide +kernel⟩
theorem witness_MoversMoveBytes_2 : ∃ (s : State) (m : Nat) (d : Desc) (ecc : Nat) (n : Nat) (bs : List Byte) (x : State) (y : State),
    s.running = true ∧ m < 32 ∧ s.moverDesc m 0x52 = some d ∧ s.dramRead (mvSrc m) d.w1 d.len ecc = (some bs, x) ∧ x.dramWrite (mvSrc m) d.w2 bs = (n, y) ∧ n = bs.length :=
  ⟨movers [{ w0 := 82 * 2 ^ 56 + 0, w1 := 0, w2 := 0, w3 := 0, idx := 0 }], 31, { w0 := 82 * 2 ^ 56 + 0, w1 := 0, w2 := 0, w3 := 0, idx := 0 }, 0, 0, [], movers [{ w0 := 82 * 2 ^ 56 + 0, w1 := 0, w2 := 0, w3 := 0, idx := 0 }], movers [{ w0 := 82 * 2 ^ 56 + 0, w1 := 0, w2 := 0, w3 := 0, idx := 0 }], by decide +kernel⟩
theorem witness_MoversMoveBytes_3 : ∃ (s : State) (m : Nat) (d : Desc),
    s.running = true ∧ m < 32 ∧ s.moverDesc m 0x53 = some d ∧ (s.dramWrite (mvSrc m) d.w1 (List.replicate (d.len / 8) (leBytes d.w2 8)).flatten).1 = (List.replicate (d.len / 8) (leBytes d.w2 8)).flatten.length :=
  ⟨movers [{ w0 := 83 * 2 ^ 56 + 8, w1 := 0, w2 := 7, w3 := 0, idx := 0 }], 31, { w0 := 83 * 2 ^ 56 + 8, w1 := 0, w2 := 7, w3 := 0, idx := 0 }, by decide +kernel⟩
theorem witness_MoversMoveBytes_4 : ∃ (s : State) (m : Nat) (d : Desc),
    let x := s.setDesc (s.getF (uMV m) F.MV_CFG_RING) d.idx fun d => { d with begun := true }
    let y := (x.setMover m (some ⟨d.idx, 0x54, d.w1, 0, 8, [], 0, x.ns⟩)).setF (uMV m) F.MV_STATUS_GATED 1
    s.running = true ∧ m < 32 ∧ s.moverDesc m 0x54 = some d ∧ x.getF (uMV m) F.MV_TRIG_MODE ≠ 0 ∧ y.bit (uMV m) F.MV_STATUS_PENDING = false :=
  ⟨(movers [{ w0 := 84 * 2 ^ 56 + 8, w1 := 0, w2 := 0, w3 := 0, idx := 0 }]).setF (uMV 31) F.MV_TRIG_MODE 1, 31, { w0 := 84 * 2 ^ 56 + 8, w1 := 0, w2 := 0, w3 := 0, idx := 0 }, by decide +kernel⟩
theorem witness_MoversMoveBytes_5 : ∃ (s : State) (m : Nat) (d : Desc),
    let x := s.setDesc (s.getF (uMV m) F.MV_CFG_RING) d.idx fun d => { d with begun := true }
    let y := (x.setMover m (some ⟨d.idx, 0x54, d.w1, 0, 8, [], 0, x.ns⟩)).setF (uMV m) F.MV_STATUS_GATED 1
    s.running = true ∧ m < 32 ∧ s.moverDesc m 0x54 = some d ∧ x.getF (uMV m) F.MV_TRIG_MODE ≠ 0 ∧ y.bit (uMV m) F.MV_STATUS_PENDING = true :=
  ⟨((movers [{ w0 := 84 * 2 ^ 56 + 8, w1 := 0, w2 := 0, w3 := 0, idx := 0 }]).setF (uMV 31) F.MV_TRIG_MODE 1).setF (uMV 31) F.MV_STATUS_PENDING 1, 31, { w0 := 84 * 2 ^ 56 + 8, w1 := 0, w2 := 0, w3 := 0, idx := 0 }, by decide +kernel⟩
theorem witness_MoversMoveBytes_6 : ∃ (s : State) (m : Nat) (d : Desc),
    s.running = true ∧ m < 32 ∧ s.moverDesc m 0x55 = some d :=
  ⟨movers [{ w0 := 85 * 2 ^ 56 + 8, w1 := 0, w2 := 0, w3 := 0, idx := 0 }], 31, { w0 := 85 * 2 ^ 56 + 8, w1 := 0, w2 := 0, w3 := 0, idx := 0 }, by decide +kernel⟩
theorem witness_MoversMoveBytes_7 : ∃ (s : State) (m : Nat) (r : _),
    s.running = true ∧ m < 32 ∧ s.mover m = some r ∧ s.footing = false ∧ r.op = 0x51 :=
  ⟨moving ⟨0, 0x51, 0, 0, 8, [], 0, 0⟩, 31, ⟨0, 0x51, 0, 0, 8, [], 0, 0⟩, by decide +kernel⟩
theorem witness_MoversMoveBytes_8 : ∃ (s : State) (m : Nat) (r : _),
    s.running = true ∧ m < 32 ∧ s.mover m = some r ∧ s.footing = false ∧ r.op = 0x51 :=
  ⟨moving ⟨0, 0x51, 0, 0, 8, [], 0, 0⟩, 31, ⟨0, 0x51, 0, 0, 8, [], 0, 0⟩, by decide +kernel⟩
theorem witness_MoversMoveBytes_9 : ∃ (s : State) (m : Nat) (r : _) (ecc : Nat),
    s.running = true ∧ m < 32 ∧ s.mover m = some r ∧ s.footing = false ∧ r.op ≠ 0x51 ∧ r.op ≠ 0x54 ∧ (s.dramRead (mvSrc m) (r.dst + r.len - r.tail.length) r.tail.length ecc).1.isSome = true :=
  ⟨moving ⟨0, 0x50, 0, 0, 8, List.replicate 8 0, 0, 0⟩, 31, ⟨0, 0x50, 0, 0, 8, List.replicate 8 0, 0, 0⟩, 0, by decide +kernel⟩
theorem witness_MoversMoveBytes_10 : ∃ (s : State) (m : Nat) (r : _) (ecc : Nat),
    s.running = true ∧ m < 32 ∧ s.mover m = some r ∧ s.footing = false ∧ r.op ≠ 0x51 ∧ r.op ≠ 0x54 ∧ (s.dramRead (mvSrc m) (r.dst + r.len - r.tail.length) r.tail.length ecc).1 = none :=
  ⟨moving ⟨0, 0x50, 0, 0, 8, List.replicate 8 0, 0, 0⟩, 31, ⟨0, 0x50, 0, 0, 8, List.replicate 8 0, 0, 0⟩, 2, by decide +kernel⟩
theorem witness_MoversMoveBytes_11 : ∃ (s : State) (m : Nat) (r : _),
    let limit := r.since + s.getF (uMV m) F.MV_GATE_LIMIT_MS * 1000000
    let first := s.timerFires (s.clk.wpNum + 1) m = true ∧ s.clk.nextWp ≤ limit * 65536
    s.running = true ∧ m < 32 ∧ s.mover m = some r ∧ r.op = 0x54 ∧ s.footing = false ∧ ¬ first :=
  ⟨moving ⟨0, 0x54, 0, 0, 8, [], 0, 0⟩, 31, ⟨0, 0x54, 0, 0, 8, [], 0, 0⟩, by decide +kernel⟩
theorem witness_MoversMoveBytes_12 : ∃ (s : State) (m : Nat) (r : _),
    let limit := r.since + s.getF (uMV m) F.MV_GATE_LIMIT_MS * 1000000
    let first := s.timerFires (s.clk.wpNum + 1) m = true ∧ s.clk.nextWp ≤ limit * 65536
    s.running = true ∧ m < 32 ∧ s.mover m = some r ∧ r.op = 0x54 ∧ ((s.footing = true ∨ first)) :=
  ⟨(moving ⟨0, 0x54, 0, 0, 8, [], 0, 0⟩).setF uFLT F.FOOT_STATUS_ACTIVE 1, 31, ⟨0, 0x54, 0, 0, 8, [], 0, 0⟩, by decide +kernel⟩

/-! FaultsSparesAndFooting -/
theorem witness_FaultsSparesAndFooting_0 : ∃ (s : State) (u : _) (src : _),
    s.running = true ∧ src < 16 ∧ (kindOf u).any (fun k => (srcDefault k src).isSome) = true :=
  ⟨z, uMAC 0, 0, by decide +kernel⟩
theorem witness_FaultsSparesAndFooting_2 : ∃ (s : State) (u : _) (b : _) (sp : _) (bad : List Nat),
    let v := s.modFlt fun f => { f with subst := s.flt.subst.filter fun x => x.1 ≠ u }
    let all := bad.map (fun a => (a / 2 ^ 32, a % 2 ^ 32)) ++ (v.flt.badWords.filter fun w => w.1 == u).map (·.2)
    let w := v.each all fun s w => s.event 0x85 0x301 u u w.2
    let x := w.modFlt fun f => { f with
        badWords := w.flt.badWords.filter (fun w => w.1 ≠ u && w.1 ≠ sp) ++ all.map fun w => (sp, w.1, w.2) }
    s.running = true ∧ (s.flt.subst.find? fun x => x.1 == u) = some (b, sp) ∧ kindOf u = some .tableBank :=
  ⟨z.modFlt fun f => { f with subst := [(0xC21, 0xC31)] }, 0xC21, 0xC21, 0xC31, [], by decide +kernel⟩
theorem witness_FaultsSparesAndFooting_3 : ∃ (s : State) (m : Nat),
    s.writeOk m uFLT 0x108 (2 ^ 31) :=
  ⟨z.setF uFLT F.FLT_HIST_STATUS_FROZEN 1, 1, by unfold State.writeOk; decide +kernel⟩
theorem witness_FaultsSparesAndFooting_4 : ∃ (s : State) (m : Nat),
    s.writeOk m uFLT 0x140 1 :=
  ⟨z, 1, by unfold State.writeOk; decide +kernel⟩
theorem witness_FaultsSparesAndFooting_5 : ∃ (s : State) (m : Nat),
    s.writeOk m uFLT 0x140 2 :=
  ⟨z.setF uFLT F.FOOT_STATUS_ACTIVE 1, 1, by unfold State.writeOk; decide +kernel⟩
theorem witness_FaultsSparesAndFooting_6 : ∃ (s : State),
    s.running = true ∧ s.bit uFLT F.FOOT_STATUS_EXIT_PENDING = true ∧ s.flt.ready = false :=
  ⟨z.setF uFLT F.FOOT_STATUS_EXIT_PENDING 1, by decide +kernel⟩
theorem witness_FaultsSparesAndFooting_7 : ∃ (s : State) (n : Nat),
    n < 8 ∧ s.running = true :=
  ⟨z, 7, by decide +kernel⟩
theorem witness_FaultsSparesAndFooting_8 : ∃ (s : State) (n : Nat) (t : _),
    n < 8 ∧ s.running = true ∧ (s.course n).heldAt = some t :=
  ⟨z.setCourse 7 { heldAt := some 5 }, 7, 5, by decide +kernel⟩
theorem witness_FaultsSparesAndFooting_9 : ∃ (s : State) (u : _),
    u < 64 ∧ s.running = true ∧ s.cuRuns u 0 = true ∧ s.bit (uCU u) F.CU_STATUS_BUSY = true ∧ (s.cu u).slicedAt ≠ s.clk.wpNum + 1 :=
  ⟨((inState z 4 [uCU 63]).setF (uCU 63) F.CU_CFG_EN 1).setF (uCU 63) F.CU_STATUS_BUSY 1, 63, by decide +kernel⟩
theorem witness_FaultsSparesAndFooting_10 : ∃ (s : State) (u : _),
    let x := s.setCu u { s.cu u with slicedAt := s.clk.wpNum + 1 }
    u < 64 ∧ s.running = true ∧ s.cuRuns u 0 = true ∧ s.bit (uCU u) F.CU_STATUS_BUSY = true ∧ (s.cu u).slicedAt ≠ s.clk.wpNum + 1 ∧ x.bit (uCU u) F.CU_CFG_SPACE = true :=
  ⟨((inState z 4 [uCU 63]).setF (uCU 63) F.CU_CFG_EN 1).setF (uCU 63) F.CU_STATUS_BUSY 1 |>.setF (uCU 63) F.CU_CFG_SPACE 1, 63, by decide +kernel⟩
theorem witness_FaultsSparesAndFooting_11 : ∃ (s : State) (u : _),
    let x := s.setCu u { s.cu u with slicedAt := s.clk.wpNum + 1 }
    u < 64 ∧ s.running = true ∧ s.cuRuns u 0 = true ∧ s.bit (uCU u) F.CU_STATUS_BUSY = true ∧ (s.cu u).slicedAt ≠ s.clk.wpNum + 1 ∧ x.bit (uCU u) F.CU_CFG_SPACE = true :=
  ⟨((inState z 4 [uCU 63]).setF (uCU 63) F.CU_CFG_EN 1).setF (uCU 63) F.CU_STATUS_BUSY 1 |>.setF (uCU 63) F.CU_CFG_SPACE 1, 63, by decide +kernel⟩
theorem witness_FaultsSparesAndFooting_12 : ∃ (s : State) (u : _),
    let x := s.setCu u { s.cu u with slicedAt := s.clk.wpNum + 1 }
    let n := min (8192 * 2 ^ x.getF (uCU u) F.CU_CFG_SLICE_LOG2) (x.getF (uCU u) F.CU_LEN_WORDS - (s.cu u).pos)
    let a := x.getF (uCU u) F.CU_ADDR_LO_ADDR * 8 + x.getF (uCU u) F.CU_ADDR_HI_ADDR * 2 ^ 32 + 8 * (s.cu u).pos
    u < 64 ∧ s.running = true ∧ s.cuRuns u 0 = true ∧ s.bit (uCU u) F.CU_STATUS_BUSY = true ∧ (s.cu u).slicedAt ≠ s.clk.wpNum + 1 ∧ x.bit (uCU u) F.CU_CFG_SPACE = false ∧ (x.dramRead (9 * 4096 + u) a (8 * n) 0).1.isSome = true :=
  ⟨dram1 (((inState z 4 [uCU 63]).setF (uCU 63) F.CU_CFG_EN 1).setF (uCU 63) F.CU_STATUS_BUSY 1 |>.setF (uCU 63) F.CU_LEN_WORDS 1), 63, by decide +kernel⟩
theorem witness_FaultsSparesAndFooting_13 : ∃ (s : State) (u : _),
    let x := s.setCu u { s.cu u with slicedAt := s.clk.wpNum + 1 }
    let n := min (8192 * 2 ^ x.getF (uCU u) F.CU_CFG_SLICE_LOG2) (x.getF (uCU u) F.CU_LEN_WORDS - (s.cu u).pos)
    let a := x.getF (uCU u) F.CU_ADDR_LO_ADDR * 8 + x.getF (uCU u) F.CU_ADDR_HI_ADDR * 2 ^ 32 + 8 * (s.cu u).pos
    u < 64 ∧ s.running = true ∧ s.cuRuns u 0 = true ∧ s.bit (uCU u) F.CU_STATUS_BUSY = true ∧ (s.cu u).slicedAt ≠ s.clk.wpNum + 1 ∧ x.bit (uCU u) F.CU_CFG_SPACE = false ∧ (x.dramRead (9 * 4096 + u) a (8 * n) 2).1 = none :=
  ⟨dram1 (((inState z 4 [uCU 63]).setF (uCU 63) F.CU_CFG_EN 1).setF (uCU 63) F.CU_STATUS_BUSY 1 |>.setF (uCU 63) F.CU_LEN_WORDS 1), 63, by decide +kernel⟩
theorem witness_FaultsSparesAndFooting_14 : ∃ (s : State) (u : _),
    u < 64 ∧ s.running = true ∧ s.cuRuns u 1 = true :=
  ⟨((inState z 4 [uCU 63]).setF (uCU 63) F.CU_CFG_EN 1).setF (uCU 63) F.CU_CFG_MODE 1, 63, by decide +kernel⟩

/-! ResetsBeginAndEnd -/
theorem witness_ResetsBeginAndEnd_1 : ∃ (s : State),
    s.pwr.mode ≠ 3 :=
  ⟨z, by decide +kernel⟩
theorem witness_ResetsBeginAndEnd_2 : ∃ (s : State),
    s.pwr.mode ≠ 3 :=
  ⟨z, by decide +kernel⟩
theorem witness_ResetsBeginAndEnd_3 : ∃ (s : State),
    s.pwr.mode = 3 :=
  ⟨{ z with pwr := { z.pwr with mode := 3 } }, by decide +kernel⟩
theorem witness_ResetsBeginAndEnd_4 : ∃ (s : State),
    s.pwr.mode = 3 :=
  ⟨{ z with pwr := { z.pwr with mode := 3 } }, by decide +kernel⟩
theorem witness_ResetsBeginAndEnd_5 : ∃ (s : State),
    s.pwr.mode = 3 ∧ s.clk.running = true :=
  ⟨{ z with pwr := { z.pwr with mode := 3 } }, by decide +kernel⟩
theorem witness_ResetsBeginAndEnd_6 : ∃ (s : State),
    s.clk.running = true ∧ s.pwr.coreEn = true :=
  ⟨z, by decide +kernel⟩
theorem witness_ResetsBeginAndEnd_7 : ∃ (s : State),
    s.clk.running = true ∧ s.pwr.coreEn = true :=
  ⟨z, by decide +kernel⟩
theorem witness_ResetsBeginAndEnd_10 : ∃ (s : State),
    s.clk.running = true ∧ s.pwr.mode ≠ 3 :=
  ⟨z, by decide +kernel⟩
theorem witness_ResetsBeginAndEnd_11 : ∃ (s : State) (mv : _),
    s.clk.running = true ∧ s.pwr.mode ≠ 3 ∧ mv * 100 < s.getF uPLN F.PLN_SUPPLY_TARGET_MV * 91 :=
  ⟨z, 673, by decide +kernel⟩
theorem witness_ResetsBeginAndEnd_12 : ∃ (s : State) (m : Nat),
    s.writeOk m uDEV 0x108 (0xD5E7 * 65536) :=
  ⟨z, 1, by unfold State.writeOk; decide +kernel⟩
theorem witness_ResetsBeginAndEnd_13 : ∃ (s : State),
    s.pwr.mode = 2 :=
  ⟨{ z with pwr := { z.pwr with mode := 2 } }, by decide +kernel⟩
theorem witness_ResetsBeginAndEnd_14 : ∃ (s : State) (rails : _),
    let x := s.modPwr fun p => { p with lowRails := rails % 32, enAt := if rails % 32 = 0 then none else s.pwr.enAt }
    s.pwr.mode = 1 ∧ s.pwr.coreEn = true ∧ ((rails % 32 ≠ 0 ∨ x.resetHeld = true)) :=
  ⟨{ z with pwr := { z.pwr with mode := 1, resetBy := 1 } }, 1, by decide +kernel⟩
theorem witness_ResetsBeginAndEnd_15 : ∃ (s : State) (testMode : _) (rails : _),
    let x := s.modPwr fun p => { p with lowRails := rails % 32, enAt := if rails % 32 = 0 then none else s.pwr.enAt }
    s.pwr.mode = 1 ∧ s.pwr.coreEn = true ∧ rails % 32 = 0 ∧ x.resetHeld = false ∧ testMode % 2 = 1 :=
  ⟨{ z with pwr := { z.pwr with mode := 1, resetBy := 1 } }, 1, 0, by decide +kernel⟩
theorem witness_ResetsBeginAndEnd_16 : ∃ (s : State) (testMode : _) (rails : _),
    let x := s.modPwr fun p => { p with lowRails := rails % 32, enAt := if rails % 32 = 0 then none else s.pwr.enAt }
    s.pwr.mode = 1 ∧ s.pwr.coreEn = true ∧ rails % 32 = 0 ∧ x.resetHeld = false ∧ testMode % 2 = 0 :=
  ⟨{ z with pwr := { z.pwr with mode := 1, resetBy := 1 } }, 0, 0, by decide +kernel⟩
theorem witness_ResetsBeginAndEnd_17 : ∃ (s : State) (t : _),
    s.clk.running = true ∧ s.pwr.mode = 1 ∧ s.pwr.coreEn = true ∧ s.pwr.enAt = some t :=
  ⟨{ z with pwr := { z.pwr with mode := 1, enAt := some 0 } }, 0, by decide +kernel⟩
theorem witness_ResetsBeginAndEnd_18 : ∃ (s : State),
    s.clk.running = true ∧ s.pwr.mode = 1 ∧ s.pwr.coreEn = false :=
  ⟨{ z with pwr := { z.pwr with mode := 1, coreEn := false } }, by decide +kernel⟩

/-! ChipResetRevertsItsClasses -/
theorem witness_ChipResetRevertsItsClasses_0 : ∃ (s : State),
    s.regs.wf regDflt = true ∧ s.pwr.mode ≠ 3 :=
  ⟨z, by decide +kernel⟩
theorem witness_ChipResetRevertsItsClasses_1 : ∃ (s : State),
    s.regs.wf regDflt = true ∧ s.pwr.mode ≠ 3 :=
  ⟨z, by decide +kernel⟩
theorem witness_ChipResetRevertsItsClasses_2 : ∃ (s : State),
    s.regs.wf regDflt = true ∧ s.pwr.mode ≠ 3 :=
  ⟨z, by decide +kernel⟩
theorem witness_ChipResetRevertsItsClasses_3 : ∃ (s : State),
    s.regs.wf regDflt = true ∧ s.pwr.mode ≠ 3 :=
  ⟨z, by decide +kernel⟩
theorem witness_ChipResetRevertsItsClasses_4 : ∃ (s : State),
    s.regs.wf regDflt = true ∧ s.pwr.mode ≠ 3 :=
  ⟨z, by decide +kernel⟩
theorem witness_ChipResetRevertsItsClasses_5 : ∃ (s : State),
    s.regs.wf regDflt = true ∧ s.pwr.mode ≠ 3 :=
  ⟨z, by decide +kernel⟩
theorem witness_ChipResetRevertsItsClasses_6 : ∃ (s : State),
    s.regs.wf regDflt = true ∧ s.pwr.mode ≠ 3 :=
  ⟨z, by decide +kernel⟩
theorem witness_ChipResetRevertsItsClasses_7 : ∃ (s : State),
    s.regs.wf regDflt = true ∧ s.pwr.mode ≠ 3 :=
  ⟨z, by decide +kernel⟩
theorem witness_ChipResetRevertsItsClasses_8 : ∃ (s : State),
    s.regs.wf regDflt = true ∧ s.pwr.mode ≠ 3 :=
  ⟨z, by decide +kernel⟩
theorem witness_ChipResetRevertsItsClasses_9 : ∃ (s : State),
    s.regs.wf regDflt = true ∧ s.pwr.mode ≠ 3 :=
  ⟨z, by decide +kernel⟩
theorem witness_ChipResetRevertsItsClasses_10 : ∃ (s : State),
    s.regs.wf regDflt = true ∧ s.pwr.mode ≠ 3 :=
  ⟨z, by decide +kernel⟩
theorem witness_ChipResetRevertsItsClasses_11 : ∃ (s : State),
    s.regs.wf regDflt = true ∧ s.pwr.mode ≠ 3 :=
  ⟨z, by decide +kernel⟩
theorem witness_ChipResetRevertsItsClasses_12 : ∃ (s : State),
    s.regs.wf regDflt = true ∧ s.pwr.mode ≠ 3 :=
  ⟨z, by decide +kernel⟩
theorem witness_ChipResetRevertsItsClasses_13 : ∃ (s : State) (u : _) (sel : _) (off : _) (d : _) (f : _),
    s.regs.wf regDflt = true ∧ s.pwr.mode ≠ 3 ∧ u < 2 ^ 14 ∧ sel < 2 ^ 18 ∧ off < 4096 ∧ regDefAt u off = some d ∧ f ∈ d.fields ∧ f.cls / 2 % 2 = 1 ∧ u ≠ uHIF ∧ u ≠ uTWN ∧ u ≠ uPLN :=
  ⟨z, uDEV, 0, 0x114, ⟨0x114, 0, 1, 0, [⟨0, 14, .rwl, 100, 7, 10, 10000⟩]⟩, ⟨0, 14, .rwl, 100, 7, 10, 10000⟩, by decide +kernel⟩

/-! SuppliesTemperatureAndPower -/
theorem witness_SuppliesTemperatureAndPower_0 : ∃ (s : State) (mv : _),
    s.clk.running = true ∧ s.pwr.mode ≠ 3 ∧ s.pwr.supplyWarn = false ∧ mv * 100 < s.getF uPLN F.PLN_SUPPLY_TARGET_MV * 95 :=
  ⟨z, 702, by decide +kernel⟩
theorem witness_SuppliesTemperatureAndPower_1 : ∃ (s : State) (mv : _),
    s.clk.running = true ∧ s.getF uPLN F.PLN_SUPPLY_TARGET_MV * 95 ≤ mv * 100 :=
  ⟨z, 703, by decide +kernel⟩
theorem witness_SuppliesTemperatureAndPower_2 : ∃ (s : State) (tj : Int) (sensor : Nat),
    let x := s.reach (s.pwr.thermAt + 10000)
    let y := (x.setF uPLN F.PLN_THERM_TJ (tj % 65536).toNat).setF uPLN F.PLN_THERM_SENSOR (sensor % 32)
    let z := y.modPwr fun p => { p with
        thermAt := y.ns, hot120 := if 1920 ≤ tj then y.pwr.hot120 + 1 else 0, hot125 := if 2000 ≤ tj then y.pwr.hot125 + 1 else 0 }
    s.clk.running = true ∧ tj < 1840 ∧ z.pwr.mode = 0 :=
  ⟨z, 1839, 0, by decide +kernel⟩
theorem witness_SuppliesTemperatureAndPower_3 : ∃ (s : State) (tj : Int) (sensor : Nat),
    let x := s.reach (s.pwr.thermAt + 10000)
    let y := (x.setF uPLN F.PLN_THERM_TJ (tj % 65536).toNat).setF uPLN F.PLN_THERM_SENSOR (sensor % 32)
    let z := y.modPwr fun p => { p with
        thermAt := y.ns, hot120 := if 1920 ≤ tj then y.pwr.hot120 + 1 else 0, hot125 := if 2000 ≤ tj then y.pwr.hot125 + 1 else 0 }
    let w := ((z.report uPLN 2 (tj % 65536).toNat).react).addF uPLN F.PLN_WEAR_TRIPS 1
    s.clk.running = true ∧ z.pwr.hot125 = 2 ∧ z.pwr.mode ≠ 1 ∧ w.pwr.mode ≠ 3 :=
  ⟨z.modPwr fun p => { p with hot125 := 1 }, 2000, 0, by decide +kernel⟩
theorem witness_SuppliesTemperatureAndPower_4 : ∃ (s : State) (tj : Int) (sensor : Nat),
    let x := s.reach (s.pwr.thermAt + 10000)
    let y := (x.setF uPLN F.PLN_THERM_TJ (tj % 65536).toNat).setF uPLN F.PLN_THERM_SENSOR (sensor % 32)
    let z := y.modPwr fun p => { p with
        thermAt := y.ns, hot120 := if 1920 ≤ tj then y.pwr.hot120 + 1 else 0, hot125 := if 2000 ≤ tj then y.pwr.hot125 + 1 else 0 }
    let w := ((z.report uPLN 2 (tj % 65536).toNat).react).addF uPLN F.PLN_WEAR_TRIPS 1
    s.clk.running = true ∧ z.pwr.hot125 = 2 ∧ z.pwr.mode ≠ 1 ∧ w.pwr.mode = 3 :=
  ⟨z.modPwr fun p => { p with hot125 := 1, mode := 3 }, 2000, 0, by decide +kernel⟩
theorem witness_SuppliesTemperatureAndPower_5 : ∃ (s : State) (mw : _),
    let x := s.reach (s.pwr.govAt + 10000)
    s.clk.running = true ∧ s.pwr.mode = 0 ∧ x.govNew mw = x.getF uPLN F.PLN_TRIM_GOV_LEVEL :=
  ⟨z, 0, by decide +kernel⟩
theorem witness_SuppliesTemperatureAndPower_6 : ∃ (s : State) (mw : _),
    let x := s.reach (s.pwr.govAt + 10000)
    s.clk.running = true ∧ s.pwr.mode = 0 ∧ x.govNew mw ≠ x.getF uPLN F.PLN_TRIM_GOV_LEVEL :=
  ⟨atNs 100000, 10000000, by decide +kernel⟩
theorem witness_SuppliesTemperatureAndPower_11 : ∃ (s : State),
    let x := s.reachCore ((s.clk.core / 65536000000000 + 1) * 65536000000000)
    s.clk.running = true ∧ s.pwr.mode ≠ 3 ∧ x.pwr.mode ≠ 3 ∧ x.pwr.fwdOff = false ∧ signedOf (x.getF uPLN F.PLN_THERM_TJ) 16 < 1600 :=
  ⟨z, by decide +kernel⟩
theorem witness_SuppliesTemperatureAndPower_12 : ∃ (s : State) (m : Nat),
    s.writeOk m uDEV 0x10C 2 :=
  ⟨z, 1, by unfold State.writeOk; decide +kernel⟩
theorem witness_SuppliesTemperatureAndPower_13 : ∃ (s : State) (m : Nat),
    s.writeOk m uDEV 0x10C 1 :=
  ⟨z.setF uDEV F.DEV_POWER_STATUS_STATE 2, 1, by unfold State.writeOk; decide +kernel⟩
theorem witness_SuppliesTemperatureAndPower_14 : ∃ (s : State) (m : Nat),
    s.writeOk m uDEV 0x10C 3 :=
  ⟨z, 1, by unfold State.writeOk; decide +kernel⟩
theorem witness_SuppliesTemperatureAndPower_15 : ∃ (s : State) (t : _),
    s.running = true ∧ s.pwr.drainAt = some t ∧ s.heldCount = 0 :=
  ⟨z.modPwr fun p => { p with drainAt := some 5 }, 5, by decide +kernel⟩
theorem witness_SuppliesTemperatureAndPower_16 : ∃ (s : State) (t : _),
    s.running = true ∧ s.pwr.drainAt = some t ∧ s.heldCount ≠ 0 :=
  ⟨((ring0 z 1 [desc 0 0 0]).setF uDEV F.DEV_POWER_STATUS_STATE 5).modPwr fun p => { p with drainAt := some 5 }, 5, by decide +kernel⟩
theorem witness_SuppliesTemperatureAndPower_17 : ∃ (s : State) (t : _),
    s.running = true ∧ s.pwr.drainAt = some t :=
  ⟨z.modPwr fun p => { p with drainAt := some 5 }, 5, by decide +kernel⟩
theorem witness_SuppliesTemperatureAndPower_18 : ∃ (s : State) (t : _),
    s.running = true ∧ s.pwr.drainAt = none ∧ s.pwr.dmcDrainAt = some t ∧ s.heldReads = [] :=
  ⟨z.modPwr fun p => { p with dmcDrainAt := some 5 }, 5, by decide +kernel⟩
theorem witness_SuppliesTemperatureAndPower_19 : ∃ (s : State) (t : _),
    s.running = true ∧ s.pwr.drainAt = none ∧ s.pwr.dmcDrainAt = some t :=
  ⟨z.modPwr fun p => { p with dmcDrainAt := some 5 }, 5, by decide +kernel⟩
theorem witness_SuppliesTemperatureAndPower_20 : ∃ (s : State),
    s.running = true ∧ s.getF uDEV F.DEV_POWER_STATUS_STATE = 4 ∧ s.pwr.wasRet = [] :=
  ⟨z.setF uDEV F.DEV_POWER_STATUS_STATE 4, by decide +kernel⟩

/-! PlinthTimeIsKept -/
theorem witness_PlinthTimeIsKept_0 : ∃ (s : State) (m : Nat),
    s.writeOk m uPLN 0x114 (2 ^ 31) :=
  ⟨z, 1, by unfold State.writeOk; decide +kernel⟩
theorem witness_PlinthTimeIsKept_1 : ∃ (s : State) (m : Nat) (v : _),
    s.writeOk m uPLN 0x11C v :=
  ⟨z, 1, 5, by unfold State.writeOk; decide +kernel⟩
theorem witness_PlinthTimeIsKept_2 : ∃ (s : State),
    s.clk.running = true ∧ s.clk.slew ≠ 0 :=
  ⟨z.modClk fun c => { c with slew := 1 }, by decide +kernel⟩
theorem witness_PlinthTimeIsKept_3 : ∃ (s : State) (k : Nat),
    s.clk.running = true ∧ k < 8 ∧ s.getF uPLN (F.PLN_CMP_CTL_EN.i k) ≠ 0 :=
  ⟨z.setF uPLN (F.PLN_CMP_CTL_EN.i 7) 1, 7, by decide +kernel⟩
theorem witness_PlinthTimeIsKept_4 : ∃ (s : State) (i : _) (falling : _),
    let x := (s.setF uPLN (F.PLN_CAP_LO_NS.i i) ((s.ns - 20) % 2 ^ 32)).setF uPLN (F.PLN_CAP_HI_NS.i i) ((s.ns - 20) / 2 ^ 32)
    let y := (x.setF uPLN (F.PLN_CAP_CTL_FRAC.i i) x.frac).addF uPLN (F.PLN_CAP_COUNT_COUNT.i i) 1
    s.clk.running = true ∧ i < 2 ∧ s.getF uPLN (F.PLN_CAP_CTL_EN.i i) ≠ 0 ∧ (s.getF uPLN (F.PLN_CAP_CTL_EDGE.i i) = 1 ↔ falling = true) ∧ y.getF uPLN (F.PLN_CAP_CTL_EVT.i i) = 1 :=
  ⟨(z.setF uPLN (F.PLN_CAP_CTL_EN.i 1) 1).setF uPLN (F.PLN_CAP_CTL_EVT.i 1) 1, 1, false, by decide +kernel⟩
theorem witness_PlinthTimeIsKept_5 : ∃ (s : State) (i : _) (falling : _),
    let x := (s.setF uPLN (F.PLN_CAP_LO_NS.i i) ((s.ns - 20) % 2 ^ 32)).setF uPLN (F.PLN_CAP_HI_NS.i i) ((s.ns - 20) / 2 ^ 32)
    let y := (x.setF uPLN (F.PLN_CAP_CTL_FRAC.i i) x.frac).addF uPLN (F.PLN_CAP_COUNT_COUNT.i i) 1
    s.clk.running = true ∧ i < 2 ∧ s.getF uPLN (F.PLN_CAP_CTL_EN.i i) ≠ 0 ∧ (s.getF uPLN (F.PLN_CAP_CTL_EDGE.i i) = 1 ↔ falling = true) ∧ y.getF uPLN (F.PLN_CAP_CTL_EVT.i i) ≠ 1 :=
  ⟨(z.setF uPLN (F.PLN_CAP_CTL_EN.i 1) 1).setF uPLN (F.PLN_CAP_CTL_EDGE.i 1) 1, 1, true, by decide +kernel⟩
theorem witness_PlinthTimeIsKept_6 : ∃ (s : State) (i : _) (falling : _),
    s.clk.running = true ∧ i < 2 ∧ s.getF uPLN (F.PLN_CAP_CTL_EN.i i) ≠ 0 ∧ ¬ (s.getF uPLN (F.PLN_CAP_CTL_EDGE.i i) = 1 ↔ falling = true) :=
  ⟨z.setF uPLN (F.PLN_CAP_CTL_EN.i 1) 1, 1, true, by decide +kernel⟩
theorem witness_PlinthTimeIsKept_7 : ∃ (s : State) (i : _),
    s.clk.running = true ∧ ((2 ≤ i ∨ s.getF uPLN (F.PLN_CAP_CTL_EN.i i) = 0)) :=
  ⟨z, 2, by decide +kernel⟩

/-! ImageDescriptorsEnd -/
theorem witness_ImageDescriptorsEnd_0 : ∃ (s : State) (r : Nat) (d : _),
    s.running = true ∧ s.imgDesc r 0x32 = some (d, true) ∧ s.bit uWDN F.WDN_FW_STATUS_RECOVERY = false ∧ d.w2 % 2 = s.getF uWDN F.WDN_FW_STATUS_SLOT :=
  ⟨imgRing 0x32 0 true, 0, desc 0x32 8 0, by decide +kernel⟩
theorem witness_ImageDescriptorsEnd_1 : ∃ (s : State) (r : Nat) (d : _),
    s.running = true ∧ s.imgDesc r 0x32 = some (d, true) ∧ s.bit uWDN F.WDN_FW_STATUS_RECOVERY = false ∧ d.w2 % 2 ≠ s.getF uWDN F.WDN_FW_STATUS_SLOT :=
  ⟨imgRing 0x32 1 true, 0, desc 0x32 8 1, by decide +kernel⟩
theorem witness_ImageDescriptorsEnd_2 : ∃ (s : State) (r : Nat) (data : List Byte) (d : _),
    let img := sliceBytes data 0 d.len
    s.running = true ∧ s.imgDesc r 0x32 = some (d, true) ∧ s.bit uWDN F.WDN_FW_STATUS_RECOVERY = false ∧ d.w2 % 2 ≠ s.getF uWDN F.WDN_FW_STATUS_SLOT ∧ s.imgReason img 1 ≠ 0 :=
  ⟨imgRing 0x32 1 true, 0, [], desc 0x32 8 1, by decide +kernel⟩
theorem witness_ImageDescriptorsEnd_4 : ∃ (s : State) (r : Nat) (d : _),
    let why := s.imgReason (s.slotImage (1 - s.getF uWDN F.WDN_FW_STATUS_SLOT)) 1
    s.running = true ∧ s.imgDesc r 0x33 = some (d, true) ∧ why ≠ 0 :=
  ⟨imgRing 0x33 0 true, 0, desc 0x33 8 0, by decide +kernel⟩
theorem witness_ImageDescriptorsEnd_6 : ∃ (s : State) (w : _),
    s.running = true ∧ s.sec.switching = some w :=
  ⟨z.modSec fun c => { c with switching := some ⟨0, 0, 0⟩ }, ⟨0, 0, 0⟩, by decide +kernel⟩
theorem witness_ImageDescriptorsEnd_7 : ∃ (s : State) (w : _),
    s.running = true ∧ s.sec.switching = some w :=
  ⟨z.modSec fun c => { c with switching := some ⟨0, 0, 0⟩ }, ⟨0, 0, 0⟩, by decide +kernel⟩
theorem witness_ImageDescriptorsEnd_8 : ∃ (s : State) (r : Nat) (d : _),
    s.running = true ∧ s.imgDesc r 0x34 = some (d, true) :=
  ⟨imgRing 0x34 0 true, 0, desc 0x34 8 0, by decide +kernel⟩
theorem witness_ImageDescriptorsEnd_9 : ∃ (s : State) (r : Nat) (data : List Byte) (d : _),
    let img := sliceBytes data 0 d.len
    s.running = true ∧ s.imgDesc r 0x34 = some (d, true) ∧ s.imgReason img 3 ≠ 0 :=
  ⟨imgRing 0x34 0 true, 0, [], desc 0x34 8 0, by decide +kernel⟩
theorem witness_ImageDescriptorsEnd_11 : ∃ (s : State) (r : Nat) (d : _),
    s.running = true ∧ s.imgDesc r 0x35 = some (d, true) :=
  ⟨imgRing 0x35 0 true, 0, desc 0x35 8 0, by decide +kernel⟩
theorem witness_ImageDescriptorsEnd_12 : ∃ (s : State) (r : Nat) (data : List Byte) (d : _),
    let img := sliceBytes data 0 d.len
    s.running = true ∧ s.imgDesc r 0x35 = some (d, true) ∧ s.imgReason img 4 ≠ 0 :=
  ⟨imgRing 0x35 0 true, 0, [], desc 0x35 8 0, by decide +kernel⟩
theorem witness_ImageDescriptorsEnd_16 : ∃ (s : State) (r : Nat) (d : _),
    s.running = true ∧ s.imgDesc r 0x32 = some (d, false) :=
  ⟨imgRing 0x32 0 false, 0, desc 0x32 8 0, by decide +kernel⟩
theorem witness_ImageDescriptorsEnd_17 : ∃ (s : State) (r : Nat) (d : _),
    s.running = true ∧ s.imgDesc r 0x33 = some (d, false) :=
  ⟨imgRing 0x33 0 false, 0, desc 0x33 8 0, by decide +kernel⟩
theorem witness_ImageDescriptorsEnd_18 : ∃ (s : State) (r : Nat) (d : _),
    s.running = true ∧ s.imgDesc r 0x34 = some (d, false) :=
  ⟨imgRing 0x34 0 false, 0, desc 0x34 8 0, by decide +kernel⟩
theorem witness_ImageDescriptorsEnd_19 : ∃ (s : State) (r : Nat) (d : _),
    s.running = true ∧ s.imgDesc r 0x35 = some (d, false) :=
  ⟨imgRing 0x35 0 false, 0, desc 0x35 8 0, by decide +kernel⟩

/-! MailboxesServicesAndTheSession -/
theorem witness_MailboxesServicesAndTheSession_0 : ∃ (s : State) (k : Nat) (m : Nat) (v : Nat),
    let x := s.occur uHIF 0x101 4 (some m) (16 * k) 1
    s.running = true ∧ k < 32 ∧ v < 2 ^ 32 ∧ m = 1 ∧ s.reaches m = true ∧ x.bar4Reason (16 * k) v = 0 ∧ x.mbFlag k F.MB_STATUS_OUT_FULL = false :=
  ⟨z, 31, 1, 2 ^ 32 - 1, by decide +kernel⟩
theorem witness_MailboxesServicesAndTheSession_1 : ∃ (s : State) (k : Nat) (m : Nat) (v : Nat),
    let x := s.occur uHIF 0x101 4 (some m) (16 * k) 1
    s.running = true ∧ k < 32 ∧ v < 2 ^ 32 ∧ m = 1 ∧ s.reaches m = true ∧ x.bar4Reason (16 * k) v = 0 ∧ x.mbFlag k F.MB_STATUS_OUT_FULL = true :=
  ⟨z.setF uBAR4 (F.MB_STATUS_OUT_FULL.i 31) 1, 31, 1, 2 ^ 32 - 1, by decide +kernel⟩
theorem witness_MailboxesServicesAndTheSession_2 : ∃ (s : State) (k : Nat) (m : Nat),
    let x := s.occur uHIF 0x101 4 (some m) (16 * k + 8) 1
    s.running = true ∧ k < 32 ∧ m = 1 ∧ s.reaches m = true ∧ x.bar4Reason (16 * k + 8) (2 ^ 30) = 0 :=
  ⟨z, 31, 1, by decide +kernel⟩
theorem witness_MailboxesServicesAndTheSession_3 : ∃ (s : State) (k : Nat) (w : _) (rest : _),
    s.running = true ∧ k < 32 ∧ s.wardenUp = true ∧ s.mbFlag k F.MB_STATUS_IN_FULL = false ∧ s.replies k = w :: rest :=
  ⟨z.setReplies 31 [5], 31, 5, [], by decide +kernel⟩
theorem witness_MailboxesServicesAndTheSession_4 : ∃ (s : State) (k : Nat),
    s.running = true ∧ k < 32 ∧ s.wardenUp = true ∧ s.mbFlag k F.MB_STATUS_IN_FULL = true :=
  ⟨z.setF uBAR4 (F.MB_STATUS_IN_FULL.i 31) 1, 31, by decide +kernel⟩
theorem witness_MailboxesServicesAndTheSession_5 : ∃ (s : State) (k : Nat),
    s.running = true ∧ k < 32 ∧ s.wardenUp = true ∧ s.mbFlag k F.MB_STATUS_OUT_FULL = true ∧ s.mbReq k = none ∧ s.replies k = [] :=
  ⟨z.setF uBAR4 (F.MB_STATUS_OUT_FULL.i 31) 1, 31, by decide +kernel⟩
theorem witness_MailboxesServicesAndTheSession_6 : ∃ (s : State) (k : Nat),
    s.running = true ∧ k < 32 ∧ s.sec.bothAt.get (fun _ => 0) k ≠ 0 ∧ s.sec.switching = none ∧ s.mbFlag k F.MB_STATUS_CROSSED = false :=
  ⟨z.modSec fun c => { c with bothAt := [(31, 5)] }, 31, by decide +kernel⟩
theorem witness_MailboxesServicesAndTheSession_8 : ∃ (s : State) (k : Nat) (x : MbReq),
    s.running = true ∧ s.wardenUp = true ∧ s.mbReq k = some x ∧ x.len ≤ x.words.length ∧ x.op = 1 :=
  ⟨z.setReq 31 (some ⟨1, 0, []⟩), 31, ⟨1, 0, []⟩, by decide +kernel⟩
theorem witness_MailboxesServicesAndTheSession_9 : ∃ (s : State) (k : Nat) (x : MbReq),
    s.running = true ∧ s.wardenUp = true ∧ s.mbReq k = some x ∧ x.len ≤ x.words.length ∧ x.op = 2 :=
  ⟨z.setReq 31 (some ⟨2, 0, []⟩), 31, ⟨2, 0, []⟩, by decide +kernel⟩
theorem witness_MailboxesServicesAndTheSession_10 : ∃ (s : State) (k : Nat) (x : MbReq),
    s.running = true ∧ s.wardenUp = true ∧ s.mbReq k = some x ∧ x.len ≤ x.words.length ∧ x.op = 16 ∧ k < 16 :=
  ⟨z.setReq 15 (some ⟨16, 0, []⟩), 15, ⟨16, 0, []⟩, by decide +kernel⟩
theorem witness_MailboxesServicesAndTheSession_11 : ∃ (s : State) (k : Nat) (x : MbReq),
    s.running = true ∧ s.wardenUp = true ∧ s.mbReq k = some x ∧ x.len ≤ x.words.length ∧ x.op = 16 ∧ 16 ≤ k :=
  ⟨z.setReq 16 (some ⟨16, 0, []⟩), 16, ⟨16, 0, []⟩, by decide +kernel⟩
theorem witness_MailboxesServicesAndTheSession_12 : ∃ (s : State) (m : Nat) (slot : _),
    let x := s.occur uHIF 0x101 4 (some m) 0x4C0 1
    s.running = true ∧ m = 1 ∧ s.reaches m = true ∧ x.bar4Reason 0x4C0 (2 ^ 31 + slot % 2) = 0 :=
  ⟨z, 1, 1, by decide +kernel⟩
theorem witness_MailboxesServicesAndTheSession_13 : ∃ (s : State) (m : Nat),
    let x := s.occur uHIF 0x101 4 (some m) 0x4C0 1
    s.running = true ∧ m = 1 ∧ s.reaches m = true ∧ x.bar4Reason 0x4C0 (2 ^ 30) = 0 :=
  ⟨z.setF uBAR4 F.MB_AUTH_STATUS_OPEN 1, 1, by decide +kernel⟩
theorem witness_MailboxesServicesAndTheSession_15 : ∃ (s : State),
    let slot := s.getF uBAR4 F.MB_AUTH_CTL_OP_SLOT
    let sig := (List.range 24).flatMap fun i => leBytes (s.getF uBAR4 (F.MB_AUTH_SIG_DATA.i i)) 4
    let good := bitsOf (s.getF uWDN F.SEC_KEYS_OP_PRESENT) slot 1 == 1 && bitsOf (s.getF uWDN F.SEC_KEYS_OP_REVOKED) slot 1 == 0 &&
        ecdsaVerify (s.sec.opPub.get (fun _ => []) slot)
          (sha384 (s.challengeBytes ++ leBytes s.deviceId 8 ++ leBytes slot 1)) sig
    let x := (s.setF uBAR4 F.MB_AUTH_STATUS_BUSY 0).newChallenge
    let run := x.sec.failRun + 1
    s.running = true ∧ s.bit uBAR4 F.MB_AUTH_STATUS_BUSY = true ∧ s.sec.switching = none ∧ good = false ∧ run % 3 ≠ 0 :=
  ⟨z.setF uBAR4 F.MB_AUTH_STATUS_BUSY 1, by decide +kernel⟩
theorem witness_MailboxesServicesAndTheSession_16 : ∃ (s : State),
    let slot := s.getF uBAR4 F.MB_AUTH_CTL_OP_SLOT
    let sig := (List.range 24).flatMap fun i => leBytes (s.getF uBAR4 (F.MB_AUTH_SIG_DATA.i i)) 4
    let good := bitsOf (s.getF uWDN F.SEC_KEYS_OP_PRESENT) slot 1 == 1 && bitsOf (s.getF uWDN F.SEC_KEYS_OP_REVOKED) slot 1 == 0 &&
        ecdsaVerify (s.sec.opPub.get (fun _ => []) slot)
          (sha384 (s.challengeBytes ++ leBytes s.deviceId 8 ++ leBytes slot 1)) sig
    let x := (s.setF uBAR4 F.MB_AUTH_STATUS_BUSY 0).newChallenge
    let run := x.sec.failRun + 1
    s.running = true ∧ s.bit uBAR4 F.MB_AUTH_STATUS_BUSY = true ∧ s.sec.switching = none ∧ good = false ∧ run % 3 = 0 :=
  ⟨(z.setF uBAR4 F.MB_AUTH_STATUS_BUSY 1).modSec fun c => { c with failRun := 2 }, by decide +kernel⟩
theorem witness_MailboxesServicesAndTheSession_17 : ∃ (s : State),
    s.running = true ∧ s.bit uBAR4 F.MB_AUTH_STATUS_LOCKOUT = true :=
  ⟨z.setF uBAR4 F.MB_AUTH_STATUS_LOCKOUT 1, by decide +kernel⟩

/-! SpdmRequestsAreAnswered -/
theorem witness_SpdmRequestsAreAnswered_0 : ∃ (s : State) (pf : Nat),
    s.running = true ∧ ((pf = 0 ∨ pf = 2)) ∧ s.wardenUp = false :=
  ⟨z.setF uWDN F.WDN_FW_STATUS_RECOVERY 1, 2, by decide +kernel⟩
theorem witness_SpdmRequestsAreAnswered_1 : ∃ (s : State) (pf : Nat) (m : List Byte),
    s.running = true ∧ ((pf = 0 ∨ pf = 2)) ∧ s.wardenUp = true ∧ ((reqByte m 1 ≠ 0xE1 ∨ reqByte m 0 ≠ 0x12)) :=
  ⟨z, 0, [0x12, 0x05, 0, 0], by decide +kernel⟩
theorem witness_SpdmRequestsAreAnswered_2 : ∃ (s : State) (pf : Nat),
    s.running = true ∧ ((pf = 0 ∨ pf = 2)) ∧ s.wardenUp = false :=
  ⟨z.setF uWDN F.WDN_FW_STATUS_RECOVERY 1, 2, by decide +kernel⟩
theorem witness_SpdmRequestsAreAnswered_3 : ∃ (s : State) (pf : Nat) (m : List Byte),
    s.running = true ∧ ((pf = 0 ∨ pf = 2)) ∧ s.wardenUp = true ∧ ((reqByte m 1 ≠ 0x81 ∨ reqByte m 0 ≠ 0x12)) :=
  ⟨z, 0, [0x12, 0x05, 0, 0], by decide +kernel⟩
theorem witness_SpdmRequestsAreAnswered_4 : ∃ (s : State) (pf : Nat),
    s.running = true ∧ ((pf = 0 ∨ pf = 2)) ∧ s.wardenUp = false :=
  ⟨z.setF uWDN F.WDN_FW_STATUS_RECOVERY 1, 2, by decide +kernel⟩
theorem witness_SpdmRequestsAreAnswered_5 : ∃ (s : State) (pf : Nat) (m : List Byte),
    s.running = true ∧ ((pf = 0 ∨ pf = 2)) ∧ s.wardenUp = true ∧ ((reqByte m 1 ≠ 0x83 ∨ reqByte m 0 ≠ 0x12)) :=
  ⟨z, 0, [0x12, 0x05, 0, 0], by decide +kernel⟩
theorem witness_SpdmRequestsAreAnswered_6 : ∃ (s : State) (pf : Nat),
    s.running = true ∧ ((pf = 0 ∨ pf = 2)) ∧ s.wardenUp = false :=
  ⟨z.setF uWDN F.WDN_FW_STATUS_RECOVERY 1, 2, by decide +kernel⟩
theorem witness_SpdmRequestsAreAnswered_7 : ∃ (s : State) (pf : Nat) (m : List Byte),
    s.running = true ∧ ((pf = 0 ∨ pf = 2)) ∧ s.wardenUp = true ∧ reqByte m 1 = 0xE1 ∧ reqByte m 0 = 0x12 ∧ ¬ (if 1 < 3 then (s.spdmConn pf).step ≠ 1 else (s.spdmConn pf).step < 3) :=
  ⟨z.setSpdm 2 { step := 1 }, 2, [0x12, 0xE1, 0, 0], by decide +kernel⟩
theorem witness_SpdmRequestsAreAnswered_8 : ∃ (s : State) (pf : Nat) (m : List Byte),
    s.running = true ∧ ((pf = 0 ∨ pf = 2)) ∧ s.wardenUp = true ∧ reqByte m 1 = 0xE3 ∧ reqByte m 0 = 0x12 ∧ (if 2 < 3 then (s.spdmConn pf).step ≠ 2 else (s.spdmConn pf).step < 3) :=
  ⟨z.setSpdm 2 { step := 0 }, 2, [0x12, 0xE3, 0, 0], by decide +kernel⟩
theorem witness_SpdmRequestsAreAnswered_9 : ∃ (s : State) (pf : Nat) (m : List Byte),
    s.running = true ∧ ((pf = 0 ∨ pf = 2)) ∧ s.wardenUp = true ∧ reqByte m 1 = 0x81 ∧ reqByte m 0 = 0x12 ∧ ¬ (if 3 < 3 then (s.spdmConn pf).step ≠ 3 else (s.spdmConn pf).step < 3) :=
  ⟨z.setSpdm 2 { step := 3 }, 2, [0x12, 0x81, 0, 0], by decide +kernel⟩
theorem witness_SpdmRequestsAreAnswered_10 : ∃ (s : State) (pf : Nat) (m : List Byte),
    s.running = true ∧ ((pf = 0 ∨ pf = 2)) ∧ s.wardenUp = true ∧ reqByte m 1 = 0x82 ∧ reqByte m 0 = 0x12 ∧ (if 3 < 3 then (s.spdmConn pf).step ≠ 3 else (s.spdmConn pf).step < 3) :=
  ⟨z.setSpdm 2 { step := 0 }, 2, [0x12, 0x82, 0, 0], by decide +kernel⟩
theorem witness_SpdmRequestsAreAnswered_11 : ∃ (s : State) (pf : Nat) (m : List Byte),
    s.running = true ∧ ((pf = 0 ∨ pf = 2)) ∧ s.wardenUp = true ∧ reqByte m 1 = 0x83 ∧ reqByte m 0 = 0x12 ∧ ¬ (if 3 < 3 then (s.spdmConn pf).step ≠ 3 else (s.spdmConn pf).step < 3) :=
  ⟨z.setSpdm 2 { step := 3 }, 2, [0x12, 0x83, 0, 0], by decide +kernel⟩
theorem witness_SpdmRequestsAreAnswered_12 : ∃ (s : State) (pf : Nat) (m : List Byte),
    s.running = true ∧ ((pf = 0 ∨ pf = 2)) ∧ s.wardenUp = true ∧ reqByte m 1 = 0xE0 ∧ reqByte m 0 = 0x12 ∧ (if 3 < 3 then (s.spdmConn pf).step ≠ 3 else (s.spdmConn pf).step < 3) :=
  ⟨z.setSpdm 2 { step := 0 }, 2, [0x12, 0xE0, 0, 0], by decide +kernel⟩
theorem witness_SpdmRequestsAreAnswered_13 : ∃ (s : State) (pf : Nat) (m : List Byte),
    s.running = true ∧ ((pf = 0 ∨ pf = 2)) ∧ s.wardenUp = true ∧ reqByte m 1 = 0x84 ∧ reqByte m 0 = 0x10 :=
  ⟨z, 2, [0x10, 0x84, 0, 0], by decide +kernel⟩
theorem witness_SpdmRequestsAreAnswered_14 : ∃ (s : State) (pf : Nat) (m : List Byte),
    s.running = true ∧ ((pf = 0 ∨ pf = 2)) ∧ s.wardenUp = true ∧ reqByte m 1 = 0xE3 ∧ reqByte m 0 = 0x12 ∧ (s.spdmConn pf).step = 2 :=
  ⟨z.setSpdm 2 { step := 2 }, 2, [0x12, 0xE3, 0, 0], by decide +kernel⟩
theorem witness_SpdmRequestsAreAnswered_15 : ∃ (s : State) (pf : Nat) (m : List Byte),
    s.running = true ∧ ((pf = 0 ∨ pf = 2)) ∧ s.wardenUp = true ∧ reqByte m 1 = 0xE3 ∧ reqByte m 0 = 0x12 ∧ (s.spdmConn pf).step = 2 :=
  ⟨z.setSpdm 2 { step := 2 }, 2, [0x12, 0xE3, 0, 0], by decide +kernel⟩
theorem witness_SpdmRequestsAreAnswered_16 : ∃ (s : State) (pf : Nat) (m : List Byte),
    s.running = true ∧ ((pf = 0 ∨ pf = 2)) ∧ s.wardenUp = true ∧ reqByte m 1 = 0xE3 ∧ reqByte m 0 = 0x12 ∧ (s.spdmConn pf).step = 2 :=
  ⟨z.setSpdm 2 { step := 2 }, 2, [0x12, 0xE3, 0, 0], by decide +kernel⟩
theorem witness_SpdmRequestsAreAnswered_17 : ∃ (s : State) (pf : Nat) (m : List Byte),
    s.running = true ∧ ((pf = 0 ∨ pf = 2)) ∧ s.wardenUp = true ∧ reqByte m 1 = 0xE3 ∧ reqByte m 0 = 0x12 ∧ (s.spdmConn pf).step = 2 :=
  ⟨z.setSpdm 2 { step := 2 }, 2, [0x12, 0xE3, 0, 0], by decide +kernel⟩

/-! TwinMessagesTakeEffect -/
theorem witness_TwinMessagesTakeEffect_0 : ∃ (s : State) (m : List Byte) (h : TwinHdr),
    let n := beNat h.body
    s.twinReads 0 m h ∧ (s.heard h).twinPaired = true ∧ ((bitsOf n 121 3 = 2 ∨ bitsOf n 121 3 = 3 ∨ bitsOf n 121 3 = 5)) :=
  ⟨twin 3 2, msg 0 (beBytes (2 * 2 ^ 121) 16), hdr 0 (beBytes (2 * 2 ^ 121) 16), by unfold State.twinReads; decide +kernel⟩
theorem witness_TwinMessagesTakeEffect_1 : ∃ (s : State) (m : List Byte) (h : TwinHdr),
    let n := beNat h.body
    s.twinReads 0 m h ∧ (s.heard h).twinPaired = true ∧ (¬ (bitsOf n 121 3 = 2 ∨ bitsOf n 121 3 = 3 ∨ bitsOf n 121 3 = 5)) :=
  ⟨twin 3 2, msg 0 (beBytes 0 16), hdr 0 (beBytes 0 16), by unfold State.twinReads; decide +kernel⟩
theorem witness_TwinMessagesTakeEffect_2 : ∃ (s : State) (m : List Byte) (h : TwinHdr),
    s.twinReads 11 m h ∧ (s.heard h).twinPaired = true :=
  ⟨twin 3 2, msg 11 ([]), hdr 11 ([]), by unfold State.twinReads; decide +kernel⟩
theorem witness_TwinMessagesTakeEffect_3 : ∃ (s : State) (m : List Byte) (h : TwinHdr),
    let x := s.heard h
    let b := beNat h.body
    let mode := x.getF uTWN F.TWN_CFG_MODE
    let apart := mode = 0 ∨ bitsOf b 6 2 ≠ mode
    s.twinReads 9 m h ∧ (s.heard h).twnState = 1 ∧ apart :=
  ⟨twin 1 0, msg 9 (beBytes 0 8), hdr 9 (beBytes 0 8), by unfold State.twinReads; decide +kernel⟩
theorem witness_TwinMessagesTakeEffect_4 : ∃ (s : State) (m : List Byte) (h : TwinHdr),
    let x := s.heard h
    let b := beNat h.body
    let mode := x.getF uTWN F.TWN_CFG_MODE
    let apart := mode = 0 ∨ bitsOf b 6 2 ≠ mode
    let same := bitsOf b 4 1 = x.twinId
    s.twinReads 9 m h ∧ (s.heard h).twnState = 1 ∧ ¬ apart ∧ same :=
  ⟨((twin 1 0).setF uTWN F.TWN_CFG_MODE 1).setF uTWN F.TWN_CFG_LEAD_PREF 1, msg 9 (beBytes (2 ^ 6) 8), hdr 9 (beBytes (2 ^ 6) 8), by unfold State.twinReads; decide +kernel⟩
theorem witness_TwinMessagesTakeEffect_5 : ∃ (s : State) (m : List Byte) (h : TwinHdr),
    let x := s.heard h
    let b := beNat h.body
    let mode := x.getF uTWN F.TWN_CFG_MODE
    let apart := mode = 0 ∨ bitsOf b 6 2 ≠ mode
    let same := bitsOf b 4 1 = x.twinId
    let late := bitsOf b 8 16 ≠ x.getF uPLN F.PLN_WP_CFG_PERIOD_US
    s.twinReads 9 m h ∧ (s.heard h).twnState = 1 ∧ ¬ apart ∧ ¬ same ∧ late :=
  ⟨((twin 1 0).setF uTWN F.TWN_CFG_MODE 1).setF uTWN F.TWN_CFG_LEAD_PREF 1, msg 9 (beBytes (2 ^ 6 + 2 ^ 4) 8), hdr 9 (beBytes (2 ^ 6 + 2 ^ 4) 8), by unfold State.twinReads; decide +kernel⟩
theorem witness_TwinMessagesTakeEffect_6 : ∃ (s : State) (m : List Byte) (h : TwinHdr),
    let x := s.heard h
    let b := beNat h.body
    let mode := x.getF uTWN F.TWN_CFG_MODE
    let apart := mode = 0 ∨ bitsOf b 6 2 ≠ mode
    let same := bitsOf b 4 1 = x.twinId
    let late := bitsOf b 8 16 ≠ x.getF uPLN F.PLN_WP_CFG_PERIOD_US
    let busy := x.leads b = false ∧ (List.range 8).any x.courseUp = true
    s.twinReads 9 m h ∧ (s.heard h).twnState = 1 ∧ ¬ apart ∧ ¬ same ∧ ¬ late ∧ busy :=
  ⟨(inState (((twin 1 0).setF uTWN F.TWN_CFG_MODE 1)) 4 [uADM 0, uSIV 0, uLKP 0, uRSV 0, uEGR 0]), msg 9 (beBytes (2 ^ 6 + 2 ^ 5 + 2 ^ 4 + 100 * 2 ^ 8) 8), hdr 9 (beBytes (2 ^ 6 + 2 ^ 5 + 2 ^ 4 + 100 * 2 ^ 8) 8), by unfold State.twinReads; decide +kernel⟩
theorem witness_TwinMessagesTakeEffect_7 : ∃ (s : State) (m : List Byte) (h : TwinHdr),
    let x := s.heard h
    let b := beNat h.body
    let mode := x.getF uTWN F.TWN_CFG_MODE
    let apart := mode = 0 ∨ bitsOf b 6 2 ≠ mode
    let same := bitsOf b 4 1 = x.twinId
    let late := bitsOf b 8 16 ≠ x.getF uPLN F.PLN_WP_CFG_PERIOD_US
    let busy := x.leads b = false ∧ (List.range 8).any x.courseUp = true
    s.twinReads 9 m h ∧ (s.heard h).twnState = 1 ∧ ¬ apart ∧ ¬ same ∧ ¬ late ∧ ¬ busy :=
  ⟨((twin 1 0).setF uTWN F.TWN_CFG_MODE 1), msg 9 (beBytes (2 ^ 6 + 2 ^ 4 + 100 * 2 ^ 8) 8), hdr 9 (beBytes (2 ^ 6 + 2 ^ 4 + 100 * 2 ^ 8) 8), by unfold State.twinReads; decide +kernel⟩
theorem witness_TwinMessagesTakeEffect_8 : ∃ (s : State) (m : List Byte) (h : TwinHdr),
    s.twinReads 9 m h ∧ (s.heard h).twnState ≠ 1 :=
  ⟨twin 3 2, msg 9 (beBytes 0 8), hdr 9 (beBytes 0 8), by unfold State.twinReads; decide +kernel⟩
theorem witness_TwinMessagesTakeEffect_9 : ∃ (s : State) (m : List Byte) (h : TwinHdr) (lead : _),
    let w (i : Nat) := beNat (sliceBytes h.body (8 * i) 8)
    let c := tcmdOf (w 0) (w 1) (w 2) (linkOperand (bitsOf (w 0) 56 8) (bitsOf (w 2) 56 8) (h.body.drop 32))
    let x := s.msgIn h lead
    let r := (x.modTwin fun w => { w with waitAt := none }).mirrorRun c
    s.twinReads 1 m h ∧ s.nextMsg h ∧ x.mirrorWaits c = false ∧ r.1 = lead :=
  ⟨twin 3 2, msg 1 (List.replicate 32 0), hdr 1 (List.replicate 32 0), 1, by unfold State.twinReads State.nextMsg; decide +kernel⟩
theorem witness_TwinMessagesTakeEffect_10 : ∃ (s : State) (m : List Byte) (h : TwinHdr) (lead : _),
    let w (i : Nat) := beNat (sliceBytes h.body (8 * i) 8)
    let c := tcmdOf (w 0) (w 1) (w 2) (linkOperand (bitsOf (w 0) 56 8) (bitsOf (w 2) 56 8) (h.body.drop 32))
    let x := s.msgIn h lead
    let r := (x.modTwin fun w => { w with waitAt := none }).mirrorRun c
    s.twinReads 1 m h ∧ s.nextMsg h ∧ x.mirrorWaits c = false ∧ r.1 ≠ lead :=
  ⟨twin 3 2, msg 1 (List.replicate 32 0), hdr 1 (List.replicate 32 0), 99, by unfold State.twinReads State.nextMsg; decide +kernel⟩
theorem witness_TwinMessagesTakeEffect_11 : ∃ (s : State) (m : List Byte) (h : TwinHdr),
    s.twinReads 2 m h ∧ s.nextMsg h :=
  ⟨twin 3 2, msg 2 ([]), hdr 2 ([]), by unfold State.twinReads State.nextMsg; decide +kernel⟩
theorem witness_TwinMessagesTakeEffect_12 : ∃ (s : State) (m : List Byte) (h : TwinHdr),
    let x := s.msgIn h 0
    let q := beNat h.body % 65536
    s.twinReads 3 m h ∧ s.nextMsg h ∧ x.genState = 0 ∧ x.twin.diverged = false ∧ x.footing = false ∧ q = x.getF uTG F.GEN_STATUS_COMMIT_SEQ :=
  ⟨twin 3 2, msg 3 (beBytes 0 8), hdr 3 (beBytes 0 8), by unfold State.twinReads State.nextMsg; decide +kernel⟩
theorem witness_TwinMessagesTakeEffect_13 : ∃ (s : State) (m : List Byte) (h : TwinHdr),
    let x := s.msgIn h 0
    let q := beNat h.body % 65536
    s.twinReads 3 m h ∧ s.nextMsg h ∧ x.genState = 0 ∧ ((x.twin.diverged = true ∨ x.footing = true ∨ q ≠ x.getF uTG F.GEN_STATUS_COMMIT_SEQ)) :=
  ⟨twin 3 2, msg 3 (beBytes 1 8), hdr 3 (beBytes 1 8), by unfold State.twinReads State.nextMsg; decide +kernel⟩
theorem witness_TwinMessagesTakeEffect_14 : ∃ (s : State) (m : List Byte) (h : TwinHdr),
    let x := s.msgIn h 0
    let q := beNat h.body % 65536
    s.twinReads 4 m h ∧ s.nextMsg h ∧ x.gen.commit.isSome = true ∧ x.gen.twinOk = false ∧ q = x.getF uTG F.GEN_STATUS_COMMIT_SEQ :=
  ⟨(twin 3 1).modGen fun g => { g with commit := some (0, 0) }, msg 4 (beBytes 0 8), hdr 4 (beBytes 0 8), by unfold State.twinReads State.nextMsg; decide +kernel⟩
theorem witness_TwinMessagesTakeEffect_15 : ∃ (s : State) (m : List Byte) (h : TwinHdr),
    let x := s.msgIn h 0
    s.twinReads 5 m h ∧ s.nextMsg h ∧ x.twin.okSent = some (beNat h.body % 65536) :=
  ⟨(twin 3 2).modTwin fun w => { w with okSent := some 65535 }, msg 5 (beBytes 65535 8), hdr 5 (beBytes 65535 8), by unfold State.twinReads State.nextMsg; decide +kernel⟩
theorem witness_TwinMessagesTakeEffect_16 : ∃ (s : State) (m : List Byte) (h : TwinHdr),
    let x := s.msgIn h 0
    s.twinReads 5 m h ∧ s.nextMsg h ∧ x.twin.okSent ≠ some (beNat h.body % 65536) :=
  ⟨twin 3 2, msg 5 (beBytes 0 8), hdr 5 (beBytes 0 8), by unfold State.twinReads State.nextMsg; decide +kernel⟩
theorem witness_TwinMessagesTakeEffect_17 : ∃ (s : State) (m : List Byte) (h : TwinHdr),
    let n := beNat (h.body.take 8)
    let i := bitsOf n 0 19
    let k := min ((h.body.drop 8).length / 8) (0x42C00 - i)
    s.twinReads 6 m h ∧ s.nextMsg h ∧ k ≠ 0 ∧ bitsOf n 31 1 = 0 :=
  ⟨twin 3 2, msg 6 (beBytes 0 8 ++ beBytes 0 8), hdr 6 (beBytes 0 8 ++ beBytes 0 8), by unfold State.twinReads State.nextMsg; decide +kernel⟩
theorem witness_TwinMessagesTakeEffect_18 : ∃ (s : State) (m : List Byte) (h : TwinHdr),
    let n := beNat (h.body.take 8)
    let i := bitsOf n 0 19
    let k := min ((h.body.drop 8).length / 8) (0x42C00 - i)
    s.twinReads 6 m h ∧ s.nextMsg h ∧ k ≠ 0 ∧ bitsOf n 31 1 = 1 :=
  ⟨twin 3 2, msg 6 (beBytes (2 ^ 31) 8 ++ beBytes 0 8), hdr 6 (beBytes (2 ^ 31) 8 ++ beBytes 0 8), by unfold State.twinReads State.nextMsg; decide +kernel⟩
theorem witness_TwinMessagesTakeEffect_19 : ∃ (s : State) (m : List Byte) (h : TwinHdr),
    let n := beNat (h.body.take 8)
    let t := bitsOf n 56 8
    s.twinReads 7 m h ∧ s.nextMsg h ∧ t ≠ 0 ∧ mirroredTable t = true ∧ tblKeyed t = true :=
  ⟨twin 3 2, msg 7 (beBytes (0x12 * 2 ^ 56) 8 ++ List.replicate 16 0), hdr 7 (beBytes (0x12 * 2 ^ 56) 8 ++ List.replicate 16 0), by unfold State.twinReads State.nextMsg; decide +kernel⟩
theorem witness_TwinMessagesTakeEffect_20 : ∃ (s : State) (m : List Byte) (h : TwinHdr),
    let n := beNat (h.body.take 8)
    let t := bitsOf n 56 8
    s.twinReads 7 m h ∧ s.nextMsg h ∧ t ≠ 0 ∧ mirroredTable t = true ∧ tblKeyed t = false ∧ tblGen t = true :=
  ⟨twin 3 2, msg 7 (beBytes (0x01 * 2 ^ 56) 8 ++ List.replicate 16 0), hdr 7 (beBytes (0x01 * 2 ^ 56) 8 ++ List.replicate 16 0), by unfold State.twinReads State.nextMsg; decide +kernel⟩
theorem witness_TwinMessagesTakeEffect_21 : ∃ (s : State) (m : List Byte) (h : TwinHdr),
    let n := beNat (h.body.take 8)
    let t := bitsOf n 56 8
    s.twinReads 7 m h ∧ s.nextMsg h ∧ t ≠ 0 ∧ mirroredTable t = true ∧ tblKeyed t = false ∧ tblGen t = false :=
  ⟨twin 3 2, msg 7 (beBytes (0x44 * 2 ^ 56) 8 ++ List.replicate 16 0), hdr 7 (beBytes (0x44 * 2 ^ 56) 8 ++ List.replicate 16 0), by unfold State.twinReads State.nextMsg; decide +kernel⟩
theorem witness_TwinMessagesTakeEffect_22 : ∃ (s : State) (m : List Byte) (h : TwinHdr),
    let n := beNat (h.body.take 8)
    let t := bitsOf n 56 8
    let i := bitsOf n 0 32
    s.twinReads 7 m h ∧ s.nextMsg h ∧ t = 0 ∧ i < 8 :=
  ⟨twin 3 2, msg 7 (beBytes 7 8 ++ List.replicate 16 0), hdr 7 (beBytes 7 8 ++ List.replicate 16 0), by unfold State.twinReads State.nextMsg; decide +kernel⟩
theorem witness_TwinMessagesTakeEffect_23 : ∃ (s : State) (m : List Byte) (h : TwinHdr),
    let n := beNat (h.body.take 8)
    let t := bitsOf n 56 8
    let i := bitsOf n 0 32
    s.twinReads 7 m h ∧ s.nextMsg h ∧ t = 0 ∧ 8 ≤ i :=
  ⟨twin 3 2, msg 7 (beBytes 8 8 ++ List.replicate 16 0), hdr 7 (beBytes 8 8 ++ List.replicate 16 0), by unfold State.twinReads State.nextMsg; decide +kernel⟩
theorem witness_TwinMessagesTakeEffect_24 : ∃ (s : State) (m : List Byte) (h : TwinHdr),
    s.twinReads 8 m h ∧ s.nextMsg h :=
  ⟨twin 3 2, msg 8 ([]), hdr 8 ([]), by unfold State.twinReads State.nextMsg; decide +kernel⟩
theorem witness_TwinMessagesTakeEffect_25 : ∃ (s : State) (m : List Byte) (h : TwinHdr),
    let x := s.msgIn h 0
    s.twinReads 10 m h ∧ s.nextMsg h ∧ x.twnRole = 2 :=
  ⟨twin 3 2, msg 10 ([]), hdr 10 ([]), by unfold State.twinReads State.nextMsg; decide +kernel⟩
theorem witness_TwinMessagesTakeEffect_26 : ∃ (s : State) (m : List Byte) (h : TwinHdr),
    let x := s.msgIn h 0
    s.twinReads 10 m h ∧ s.nextMsg h ∧ x.twnRole ≠ 2 :=
  ⟨twin 3 1, msg 10 ([]), hdr 10 ([]), by unfold State.twinReads State.nextMsg; decide +kernel⟩
theorem witness_TwinMessagesTakeEffect_27 : ∃ (s : State) (m : List Byte) (h : TwinHdr),
    s.twinReads 3 m h ∧ h.seq ≤ (s.heard h).twin.got :=
  ⟨(twin 3 2).modTwin fun w => { w with got := 1 }, msg 3 (beBytes 0 8), hdr 3 (beBytes 0 8), by unfold State.twinReads; decide +kernel⟩
theorem witness_TwinMessagesTakeEffect_28 : ∃ (s : State) (m : List Byte),
    s.running = true ∧ s.fwdOn = true ∧ readTwin m = none :=
  ⟨twin 3 2, [], by decide +kernel⟩

/-! TwinLinkKeepsTimeAndHandsOver -/
theorem witness_TwinLinkKeepsTimeAndHandsOver_0 : ∃ (s : State),
    s.running = true ∧ s.twinPaired = true :=
  ⟨twin 3 1, by decide +kernel⟩
theorem witness_TwinLinkKeepsTimeAndHandsOver_1 : ∃ (s : State),
    s.running = true ∧ s.twinPaired = true ∧ s.twin.store ≠ [] :=
  ⟨(twin 3 1).modTwin fun w => { w with store := [⟨1, 8, [], 0⟩] }, by decide +kernel⟩
theorem witness_TwinLinkKeepsTimeAndHandsOver_2 : ∃ (s : State),
    s.running = true ∧ s.twinPaired = true :=
  ⟨twin 2 2, by decide +kernel⟩
theorem witness_TwinLinkKeepsTimeAndHandsOver_3 : ∃ (s : State),
    s.running = true ∧ s.twnState = 1 :=
  ⟨twin 1 0, by decide +kernel⟩
theorem witness_TwinLinkKeepsTimeAndHandsOver_4 : ∃ (s : State) (t : _),
    let x := s.reach (t + 2000 + 4000 * s.twinId)
    s.running = true ∧ s.twin.window = some t ∧ s.twnRole = 2 ∧ x.twin.low = false ∧ x.getF uTWN F.TWN_STATUS_HOLD_IN ≠ 0 :=
  ⟨((twin 4 2).setF uTWN F.TWN_STATUS_HOLD_IN 1).modTwin fun w => { w with window := some 5 }, 5, by decide +kernel⟩
theorem witness_TwinLinkKeepsTimeAndHandsOver_5 : ∃ (s : State) (t : _),
    let x := s.reach (t + 2000 + 4000 * s.twinId)
    s.running = true ∧ s.twin.window = some t ∧ s.twnRole = 2 ∧ ((x.twin.low = true ∨ x.getF uTWN F.TWN_STATUS_HOLD_IN = 0)) :=
  ⟨(twin 4 2).modTwin fun w => { w with window := some 5 }, 5, by decide +kernel⟩
theorem witness_TwinLinkKeepsTimeAndHandsOver_6 : ∃ (s : State) (high : Bool) (t : _),
    let x := s.setF uTWN F.TWN_STATUS_HOLD_IN (if high then 1 else 0)
    s.running = true ∧ x.twin.window = some t ∧ t ≤ x.ns :=
  ⟨(twin 4 2).modTwin fun w => { w with window := some 0 }, true, 0, by decide +kernel⟩
theorem witness_TwinLinkKeepsTimeAndHandsOver_7 : ∃ (s : State) (high : Bool),
    let x := s.setF uTWN F.TWN_STATUS_HOLD_IN (if high then 1 else 0)
    s.running = true ∧ x.twin.window = none :=
  ⟨twin 4 2, false, by decide +kernel⟩
theorem witness_TwinLinkKeepsTimeAndHandsOver_8 : ∃ (s : State) (l : _),
    s.running = true ∧ l < 8 :=
  ⟨twin 3 2, 7, by decide +kernel⟩
theorem witness_TwinLinkKeepsTimeAndHandsOver_9 : ∃ (s : State) (l : _),
    s.running = true ∧ l < 8 ∧ s.laneOk (0x10 + l) = true :=
  ⟨inState (twin 3 2) 4 [0x17], 7, by decide +kernel⟩
theorem witness_TwinLinkKeepsTimeAndHandsOver_10 : ∃ (s : State) (m : Nat),
    s.writeOk m uTWN 0x114 1 :=
  ⟨((twin 0 0).setF uTWN F.TWN_CFG_MODE 1), 1, by unfold State.writeOk; decide +kernel⟩
theorem witness_TwinLinkKeepsTimeAndHandsOver_11 : ∃ (s : State) (m : Nat),
    s.writeOk m uTWN 0x114 2 :=
  ⟨twin 3 2, 1, by unfold State.writeOk; decide +kernel⟩
theorem witness_TwinLinkKeepsTimeAndHandsOver_12 : ∃ (s : State) (m : Nat),
    s.writeOk m uTWN 0x114 3 :=
  ⟨twin 4 2, 1, by unfold State.writeOk; decide +kernel⟩
theorem witness_TwinLinkKeepsTimeAndHandsOver_13 : ∃ (s : State) (m : Nat),
    let x := s.stored m uTWN 0x114 4
    s.writeOk m uTWN 0x114 4 ∧ x.twnRole = 1 ∧ x.twnState = 3 :=
  ⟨twin 3 1, 1, by unfold State.writeOk; decide +kernel⟩

/-! SmbusReadsAndTestAccess -/
theorem witness_SmbusReadsAndTestAccess_11 : ∃ (s : State) (addr : Nat),
    s.clk.running = true ∧ addr ≠ 0x58 + s.pwr.smbAddr :=
  ⟨z, 0x57, by decide +kernel⟩
theorem witness_SmbusReadsAndTestAccess_12 : ∃ (s : State) (addr : Nat) (v : Nat) (c : Option Nat),
    s.clk.running = true ∧ addr = 0x58 + s.pwr.smbAddr ∧ v < 32 ∧ (c = none ∨ c = some (pec [BitVec.ofNat 8 (2 * addr), 0x0B, BitVec.ofNat 8 v])) :=
  ⟨z, 0x58, 31, some (pec [BitVec.ofNat 8 (2 * 0x58), 0x0B, BitVec.ofNat 8 31]), by decide +kernel⟩
theorem witness_SmbusReadsAndTestAccess_13 : ∃ (s : State) (addr : Nat) (v : Nat),
    s.clk.running = true ∧ addr = 0x58 + s.pwr.smbAddr ∧ 32 ≤ v :=
  ⟨z, 0x58, 32, by decide +kernel⟩
theorem witness_SmbusReadsAndTestAccess_14 : ∃ (s : State) (addr : Nat) (v : Nat) (c : Option Nat) (b : _),
    s.clk.running = true ∧ addr = 0x58 + s.pwr.smbAddr ∧ c = some b ∧ b ≠ pec [BitVec.ofNat 8 (2 * addr), 0x0B, BitVec.ofNat 8 v] :=
  ⟨z, 0x58, 31, some (pec [BitVec.ofNat 8 (2 * 0x58), 0x0B, BitVec.ofNat 8 31] + 1), pec [BitVec.ofNat 8 (2 * 0x58), 0x0B, BitVec.ofNat 8 31] + 1, by decide +kernel⟩
theorem witness_SmbusReadsAndTestAccess_16 : ∃ (s : State),
    s.clk.running = true ∧ s.pwr.alertOn = false :=
  ⟨z, by decide +kernel⟩
theorem witness_SmbusReadsAndTestAccess_17 : ∃ (s : State),
    s.clk.running = true ∧ s.pwr.alertOn = true :=
  ⟨z.modPwr fun p => { p with alertOn := true }, by decide +kernel⟩
theorem witness_SmbusReadsAndTestAccess_18 : ∃ (s : State),
    s.ioOn = true :=
  ⟨z, by decide +kernel⟩
theorem witness_SmbusReadsAndTestAccess_19 : ∃ (s : State),
    s.ioOn = true :=
  ⟨z, by decide +kernel⟩
theorem witness_SmbusReadsAndTestAccess_20 : ∃ (s : State),
    s.ioOn = true :=
  ⟨z, by decide +kernel⟩
theorem witness_SmbusReadsAndTestAccess_21 : ∃ (s : State),
    s.ioOn = true :=
  ⟨z, by decide +kernel⟩
theorem witness_SmbusReadsAndTestAccess_22 : ∃ (s : State),
    s.ioOn = true ∧ s.pwr.mode = 1 :=
  ⟨{ z with pwr := { z.pwr with mode := 1 } }, by decide +kernel⟩
theorem witness_SmbusReadsAndTestAccess_23 : ∃ (s : State),
    s.ioOn = true ∧ s.pwr.mode = 1 :=
  ⟨{ z with pwr := { z.pwr with mode := 1 } }, by decide +kernel⟩
theorem witness_SmbusReadsAndTestAccess_24 : ∃ (s : State),
    s.ioOn = true ∧ s.pwr.mode = 1 :=
  ⟨{ z with pwr := { z.pwr with mode := 1 } }, by decide +kernel⟩
theorem witness_SmbusReadsAndTestAccess_25 : ∃ (s : State) (i : _),
    s.ioOn = true ∧ s.pwr.mode ≠ 1 ∧ ((i = Instr.extest 0 0 ∨ i = Instr.extestPulse 0 0 ∨ i = Instr.extestTrain 0 0 ∨ i = Instr.clamp ∨ i = Instr.highz)) :=
  ⟨z, Instr.highz, by decide +kernel⟩
theorem witness_SmbusReadsAndTestAccess_26 : ∃ (s : State),
    s.ioOn = true ∧ s.pwr.mode = 1 :=
  ⟨{ z with pwr := { z.pwr with mode := 1 } }, by decide +kernel⟩
theorem witness_SmbusReadsAndTestAccess_27 : ∃ (s : State),
    s.ioOn = true ∧ s.pwr.mode = 1 :=
  ⟨{ z with pwr := { z.pwr with mode := 1 } }, by decide +kernel⟩
theorem witness_SmbusReadsAndTestAccess_28 : ∃ (s : State) (i : _),
    s.ioOn = false ∧ ((i = Instr.bypass ∨ i = Instr.extest 0 0 ∨ i = Instr.highz)) :=
  ⟨z.modPwr fun p => { p with coreEn := false }, Instr.highz, by decide +kernel⟩

/-- The key pair the test images are signed with: private 0x1234567890abcdef. -/
def keyX : Nat := 0xfbf96095915eb587390f850ec95b35f618ae121c72a70808ad8f9f4c261b602b63541743e395f7c778e52bb28c18dc83
def keyY : Nat := 0x16a6ff3f72c9368326ad50a3bd148a53cd2213bb480e4730ad019db87ae100995ec65df011e19811a15dc9ddfc9ab3c
def testKey : List Byte := beBytes keyX 48 ++ beBytes keyY 48

/-- An image of a type with a payload, key slot 0, version 0, its digest and its signature r, s. -/
def image (type : Nat) (p : List Byte) (dig r s : Nat) : List Byte :=
  leBytes (0x58425658 * 2 ^ 32 + 2 ^ 16 + type * 2 ^ 8) 8 ++ leBytes p.length 8 ++ List.replicate 16 0 ++ beBytes dig 48 ++
    List.replicate 48 0 ++ beBytes r 48 ++ beBytes s 48 ++ List.replicate 32 0 ++ p

/-- A microcode payload of one segment of one word 0 at address 0 (an empty store has CRC 0). -/
def payload0 : List Byte := leBytes (2 ^ 48 + 2 ^ 16) 8 ++ leBytes 7 8 ++ leBytes 0 16 ++ leBytes 1 8 ++ leBytes 0 16

/-! Signed images of each use. -/
def firmware : List Byte := image 1 [1] 0x8d2ce87d86f55fcfab770a047b090da23270fa206832dfea7e0c946fff451f819add242374be551b0d6318ed6c7d41d8
  0x17869f578dc8ce62d136340ef3f9abec2f0c9c3430ad85f21b2cae4c70ce95f65a6acbb24421c713237a2aa74c1210f3
  0xb2327c0dcd540fcc14b38e38f233d6b5b4519640aedcc619b305f537b5b2c284dd1d5d0893d225bb89682aefee1990a2
def config : List Byte := image 3 [1] 0x8d2ce87d86f55fcfab770a047b090da23270fa206832dfea7e0c946fff451f819add242374be551b0d6318ed6c7d41d8
  0xbab234ecaef5ca39168e038fcd7459f4363c92221436b3ee3a6d17c2c0cac88965a728bdb5872619fd539ede09e7af55
  0x141b786db1eebfbfe91782a1908921e7c9f6d5e5ecc8fec25b5f5e2ab827e3f704c1a6f557ab2584e1ab6267d0b6ba04
def fuses : List Byte := image 4 (List.replicate 16 0) 0xae40659da1193cdec8df474b5e36416a82473b83d32dbbe1dd6df8ec9499d24902ca08c334876bc8e69e818beecc046a
  0x44eac5989713bb110b4b6433d7a6ddd42c6bd94a95909271baee08bc17ffe93373a7d6d0aeda171084b353fa026b78ca
  0x87bec757e036fd99123c8ba19f3fbe4966532b24c2cbbd4dc510c386ce7aa323362f9a528e93929899b8beb408b60ef7
def badFuses : List Byte := image 4 [1] 0x8d2ce87d86f55fcfab770a047b090da23270fa206832dfea7e0c946fff451f819add242374be551b0d6318ed6c7d41d8
  0x36a48cc14212c241027bb49da8d951299e376347f7e2ceb61d8aa1ee6ff8a3c357f5eb6636f0c334d6a5334546fc8bc5
  0x7c6a08b5540f20bfb395a6baa917f838154470314f94d28cac3b4cc3a5cb2fed7f5888976b96ea14a3c072c774cdd494
def microcode : List Byte := image 2 payload0 0x9f451527000030c453230c3b09551605cc5f980370d79131495b08b970cac794babcbfd180b272bda1eca100f99e115d
  0xa86c58ef8591a41f21c8c3824fd09cb9cd0a1fa375aaeac06c9302934d33e8ced9f1e5fad8687b3b2e94474b6a13ad46
  0xfa543618689c0b7336c9c5b08a852f5b4615796a7551672f02c6ad93bdf4cf802992289bc808b76943fcb9668dfd9680

/-- Ring 0 as `imgRing` with vendor key 0 the test key, LEN as given. -/
def imgReady (op len w2 : Nat) : State :=
  (((ring0 z 4 [desc op len w2]).setF uBAR4 F.MB_AUTH_STATUS_OPEN 1).setF uWDN F.SEC_KEYS_PRESENT 1).modSec fun c => { c with vendorPub := [(0, testKey)] }

/-- Every signed image verifies, whatever its LEN in the descriptor. -/
theorem images_authentic : ((imgReady 0x32 257 1).imgReason firmware 1 = 0 ∧ (imgReady 0x34 257 0).imgReason config 3 = 0) ∧
    (imgReady 0x35 272 0).imgReason fuses 4 = 0 ∧ (imgReady 0x35 257 0).imgReason badFuses 4 = 0 ∧
    (imgReady 0x31 312 (2 ^ 16 + 1)).imgReason microcode 2 = 0 := by decide +kernel

theorem witness_ImageDescriptorsEnd_3 : ∃ (s : State) (d : Desc) (data : List Byte),
    s.running = true ∧ s.imgDesc 0 0x32 = some (d, true) ∧ s.bit uWDN F.WDN_FW_STATUS_RECOVERY = false ∧
      d.w2 % 2 ≠ s.getF uWDN F.WDN_FW_STATUS_SLOT ∧ s.imgReason (sliceBytes data 0 d.len) 1 = 0 :=
  ⟨imgReady 0x32 257 1, desc 0x32 257 1, firmware, by decide +kernel⟩

theorem witness_ImageDescriptorsEnd_5 : ∃ (s : State) (d : Desc),
    s.running = true ∧ s.imgDesc 0 0x33 = some (d, true) ∧
      s.imgReason (s.slotImage (1 - s.getF uWDN F.WDN_FW_STATUS_SLOT)) 1 = 0 :=
  ⟨(imgReady 0x33 8 0).modSec fun c => { c with slotImg := [(1, firmware)] }, desc 0x33 8 0, by decide +kernel⟩

theorem witness_ImageDescriptorsEnd_10 : ∃ (s : State) (d : Desc) (data : List Byte),
    s.running = true ∧ s.imgDesc 0 0x34 = some (d, true) ∧ s.imgReason (sliceBytes data 0 d.len) 3 = 0 :=
  ⟨imgReady 0x34 257 0, desc 0x34 257 0, config, by decide +kernel⟩

theorem witness_ImageDescriptorsEnd_13 : ∃ (s : State) (d : Desc) (data : List Byte),
    let img := sliceBytes data 0 d.len
    s.running = true ∧ s.imgDesc 0 0x35 = some (d, true) ∧ s.imgReason img 4 = 0 ∧
      s.fuseOk (imgPayload img) (imgSlot img) (imgSvn img) = true :=
  ⟨imgReady 0x35 272 0, desc 0x35 272 0, fuses, by decide +kernel⟩

theorem witness_ImageDescriptorsEnd_14 : ∃ (s : State) (d : Desc) (data : List Byte),
    let img := sliceBytes data 0 d.len
    s.running = true ∧ s.imgDesc 0 0x35 = some (d, true) ∧ s.imgReason img 4 = 0 ∧
      s.fuseOk (imgPayload img) (imgSlot img) (imgSvn img) = false :=
  ⟨imgReady 0x35 257 0, desc 0x35 257 0, badFuses, by decide +kernel⟩

/-- A fuse update of the all-zero payload under way, and the state it ends in. -/
theorem witness_ImageDescriptorsEnd_15 : ∃ (s : State) (f : FuseRun), s.running = true ∧ s.sec.fusing = some f :=
  ⟨z.modSec fun c => { c with fusing := some (fuseRun 0 (desc 0x35 272 0) []) }, fuseRun 0 (desc 0x35 272 0) [], by decide +kernel⟩

/-- 4,096 words of 0 leave the CRC register 0. -/
theorem empty_store_crc : storeCrc [] = 0 := by
  have h : ∀ l : List Nat, l.foldl (fun c a => crc64 c (uBytes (KMap.get (fun _ => 0) [] a))) 0#64 = 0#64 := by
    intro l
    induction l with
    | nil => rfl
    | cons a r ih =>
      rw [List.foldl_cons, show crc64 0#64 (uBytes (KMap.get (fun _ => 0) [] a)) = 0#64 from (by decide +kernel : crc64 0#64 (uBytes 0) = 0#64)]
      exact ih
  unfold storeCrc; rw [h]; rfl

theorem payload0_loads : loadCheck payload0 = none := by
  obtain ⟨p, hp, hs⟩ : ∃ p, readPayload payload0 = some p ∧ payloadStore p = [] ∧ p.crc = 0 := by
    have hi : (readPayload payload0).isSome = true ∧ ((readPayload payload0).all fun p => payloadStore p == [] && p.crc == 0) = true := by
      decide +kernel
    obtain ⟨p, hp⟩ := Option.isSome_iff_exists.1 hi.1
    have h2 := hi.2
    rw [hp, Option.all_some, Bool.and_eq_true, beq_iff_eq, beq_iff_eq] at h2
    exact ⟨p, hp, h2⟩
  unfold loadCheck; rw [hp]; dsimp only
  rw [hs.1, hs.2, empty_store_crc]; rfl

theorem witness_MicrocodeImagesLoad_0 :
    ∃ (s : State) (d : Desc) (data : List Byte), s.running = true ∧ s.nextDesc 0 0x31 = some d ∧ s.wardenFree = true ∧
      s.bit uWDN F.WDN_FW_STATUS_RECOVERY = false ∧ s.firstRead s.imgOps d = true ∧ s.fwdOn = true ∧
      ∃ t, s.loadStart (sliceBytes data 0 d.len) (namedEngines d.w2) 0 d.idx = .ok t := by
  refine ⟨imgReady 0x31 312 (2 ^ 16 + 1), desc 0x31 312 (2 ^ 16 + 1), microcode, by decide +kernel, by decide +kernel, by decide +kernel,
    by decide +kernel, by decide +kernel, by decide +kernel, ?_⟩
  rw [show sliceBytes microcode 0 (desc 0x31 312 (2 ^ 16 + 1)).len = microcode from by decide +kernel]
  have q : imgPayload microcode = payload0 := by decide +kernel
  have p : (readPayload payload0).isSome = true := by decide +kernel
  have f : (namedEngines (desc 0x31 312 (2 ^ 16 + 1)).w2).find? (fun u => !((imgReady 0x31 312 (2 ^ 16 + 1)).takesStore u)) = none := by
    decide +kernel
  obtain ⟨g, hg⟩ := Option.isSome_iff_exists.1 p
  unfold State.loadStart; rw [images_authentic.2.2.2, q, payload0_loads, hg]; dsimp only; rw [f]
  exact ⟨_, if_neg (by decide)⟩

/-- The signature of a zero challenge, device 0, slot 0. -/
def challengeSig : List Byte := beBytes 0x30836e216e9b41e8ddf4c2f4b5a9511bc7a569f89938447d267c1ac15c5ea93853427accd0a194173c63f284d47e063f 48 ++
  beBytes 0x900ada91050d6409d087636161513b2a8d0df9287f2b17bfb2f2765a7131f00d54820c23fd9d9968e568ac5ef7935782 48

theorem witness_MailboxesServicesAndTheSession_14 : ∃ s : State,
    let slot := s.getF uBAR4 F.MB_AUTH_CTL_OP_SLOT
    let sig := (List.range 24).flatMap fun i => leBytes (s.getF uBAR4 (F.MB_AUTH_SIG_DATA.i i)) 4
    let good := bitsOf (s.getF uWDN F.SEC_KEYS_OP_PRESENT) slot 1 == 1 && bitsOf (s.getF uWDN F.SEC_KEYS_OP_REVOKED) slot 1 == 0 &&
      ecdsaVerify (s.sec.opPub.get (fun _ => []) slot) (sha384 (s.challengeBytes ++ leBytes s.deviceId 8 ++ leBytes slot 1)) sig
    s.running = true ∧ s.bit uBAR4 F.MB_AUTH_STATUS_BUSY = true ∧ s.sec.switching = none ∧ good = true :=
  ⟨((((z.setF uBAR4 F.MB_AUTH_STATUS_BUSY 1).setF uWDN F.SEC_KEYS_OP_PRESENT 1).modSec fun c => { c with opPub := [(0, testKey)] }).each
    (List.range 24) fun s i => s.setF uBAR4 (F.MB_AUTH_SIG_DATA.i i) (leNat (sliceBytes challengeSig (4 * i) 4))), by decide +kernel⟩

theorem witness_EqualContentsAreEqualData : KMap.wf (fun _ => 0) ([(1, 5)] : KMap Nat) = true := by decide

theorem witness_AlertPinFollowsItsCauses : ∃ s t : State, s.alertInv ∧ step s = .next t :=
  ⟨{ z with pending := [.camSearchSkip 0] }, _, by unfold State.alertInv; decide +kernel, rfl⟩

/-- The rank that line 0 lies on is the configuration's, so either rank is tried. -/
theorem witness_DramChannelsKeepTheirRanks_10 : ∃ (s : State) (errs : List Nat) (l : Nat),
    let x := s.each (errs.take 80).zipIdx fun s e => s.setF (uDMC 11) (F.DMC_TRN_ERR_COUNT.i e.2) (min 65535 e.1)
    let b := 64 * 11 + 32 * x.getF (uDMC 11) F.DMC_TRN_CTL_RANK + x.getF (uDMC 11) F.DMC_TRN_CTL_BANK
    let r := x.getF (uDMC 11) F.DMC_TRN_CTL_ROW
    let y := (x.trainBursts 11 b r).draw.2
    s.running = true ∧ s.getF (uDMC 11) F.DMC_TRN_CTL_GO ≠ 0 ∧ l < 2 ^ 36 ∧ y.bankOf 11 l = b ∧ rowOf 11 l = r := by
  have low : ∀ y : State, y.bankOf 11 0 = 704 + 32 * (Config.dramRank 11 0 % 2) := by
    intro y; unfold State.bankOf rowOf; simp [Nat.zero_div]
  have row : rowOf 11 0 = 0 := by unfold rowOf; simp [Nat.zero_div]
  obtain h | h := Nat.mod_two_eq_zero_or_one (Config.dramRank 11 0)
  · refine ⟨z.setF (uDMC 11) F.DMC_TRN_CTL_GO 1, [], 0, by decide +kernel, by decide +kernel, by decide, ?_, ?_⟩
    · rw [low, h]; decide +kernel
    · rw [row]; decide +kernel
  · refine ⟨(z.setF (uDMC 11) F.DMC_TRN_CTL_GO 1).setF (uDMC 11) F.DMC_TRN_CTL_RANK 1, [], 0, by decide +kernel, by decide +kernel,
      by decide, ?_, ?_⟩
    · rw [low, h]; decide +kernel
    · rw [row]; decide +kernel

/-! Taking link 0 of a split down resets the first function, whose new challenge is of free values: that HIF_LINK.SPLIT outlasts it
is shown by `held4`, which every further part of the reset keeps. -/
def key4 : Nat := regKey uHIF 0 F.HIF_LINK_SPLIT.off
def word4 : Word := (z.setF uHIF F.HIF_LINK_SPLIT 1).rd key4
def held4 (s : State) : Prop := s.regs.find key4 = some word4 ∧ s.hif.rings = [] ∧ s.hif.tcwAt = []

theorem held4_wr {s : State} (k : Nat) (v : Word) (h : held4 s) (hk : key4 ≠ k) : held4 (s.wr k v) := by
  refine ⟨?_, h.2⟩
  rw [← h.1]; show KMap.find (KMap.put regDflt s.regs k v) key4 = _
  unfold KMap.put; dsimp only; split
  · exact KMap.find_filter_ne _ _ _ hk
  · rw [KMap.find_insertAt_ne _ _ _ _ hk, KMap.find_filter_ne _ _ _ hk]

theorem held4_each {α : Type} (l : List α) (f : State → α → State) (hf : ∀ s, ∀ x ∈ l, held4 s → held4 (f s x)) :
    ∀ s : State, held4 s → held4 (s.each l f) := by
  unfold State.each
  induction l with
  | nil => exact fun s h => h
  | cons a r ih => exact fun s h => ih (fun s x m => hf s x (.tail _ m)) _ (hf s a (.head _) h)

theorem held4_challenge {s : State} (h : held4 s) : held4 s.newChallenge := by
  refine held4_each _ _ (fun s i m h => ?_) s h
  dsimp only [State.draw]
  refine held4_wr _ _ ⟨h.1, h.2⟩ ?_
  revert i; decide +kernel

theorem find4_remap (f : Nat → Word → Word) (hf : ∀ w, f key4 w = w) (w : Word) (hw : w ≠ regDflt key4) :
    ∀ m : KMap Word, m.find key4 = some w → (m.remap regDflt f).find key4 = some w
  | [], h => by simp [KMap.find] at h
  | (k, v) :: r, h => by
    by_cases e : k = key4
    · subst e
      have hv : v = w := by simpa [KMap.find] using h
      subst hv
      rw [KMap.remap, if_neg (by rw [hf]; exact hw), hf]; simp [KMap.find]
    · have h' : KMap.find r key4 = some w := by rwa [KMap.find, if_neg (fun h => e h.symm)] at h
      have ih := find4_remap f hf w hw r h'
      rw [KMap.remap]; split
      · exact ih
      · rwa [KMap.find, if_neg (fun h => e h.symm)]

theorem held4_clear {s : State} (m : Nat) (hm : m ≠ 1) (h : held4 s) : held4 (s.clearFn m) := by
  have hr : ∀ t : State, t.hif.rings = [] → ∀ p, (t.hif.rings.map (·.1)).filter p = [] := by
    intro t ht p; rw [ht]; rfl
  have hw : ∀ (t : State) p, t.hif.tcwAt = [] → t.windowEnds p = t := by
    intro t p ht; unfold State.windowEnds State.tcwStart; rw [ht]; rfl
  have h1 : (m == 1) = false := by simpa using hm
  unfold State.clearFn
  simp only [hr s h.2.1, h1]
  unfold State.when State.each
  simp only [List.map_nil, List.foldl_nil, Bool.false_eq_true, if_false]
  have hp : held4 (s.setPci m {}) := ⟨h.1, h.2.1, h.2.2⟩
  generalize s.setPci m {} = t at hp ⊢
  have ht : (if isPF m = true then t.windowEnds (m - 1) else t) = t := by split <;> simp [hw t _ hp.2.2]
  simp only [ht]
  refine ⟨find4_remap _ (fun w => if_neg ?_) word4 (by decide +kernel) _ hp.1, hp.2⟩
  have ho : ¬ (0x104 ≤ keyOff key4 ∧ keyOff key4 ≤ 0x12C) := by decide +kernel
  have hu : keyUid key4 = uHIF := by decide +kernel
  have ht : (uHIF == uTCW (m - 1)) = false := by unfold uHIF uTCW; simp; omega
  have hx : (uHIF == uMSIX m) = false := by unfold uHIF uMSIX; simp; omega
  simp [hu, ht, hx]; omega

theorem key4_vf (v : Nat) : key4 ≠ regKey uHIF v F.HIF_FN_STATUS_VF_EN.off := by
  have hf : F.HIF_LINK_SPLIT.off < 4096 ∧ F.HIF_FN_STATUS_VF_EN.off < 4096 ∧ F.HIF_LINK_SPLIT.off ≠ F.HIF_FN_STATUS_VF_EN.off := by decide
  unfold key4 regKey; omega

theorem held4_tree {s : State} (m : Nat) (hm : 1 < m) (hp : isPF m = true → 1 < m ∧ ∀ v ∈ vfsOf (m - 1), v ≠ 1) (h : held4 s) :
    held4 (s.clearTree m) := by
  unfold State.clearTree; dsimp only; split
  · rename_i hm'
    refine held4_each _ _ (fun s v hv h => ?_) _ (held4_clear m (by omega) h)
    exact held4_wr _ _ (held4_clear v ((hp hm').2 v hv) h) (key4_vf v)
  · exact held4_clear m (by omega) h

theorem held4_stop {s : State} (m : Nat) (h : held4 s) : held4 (s.stopRings m) := by
  unfold State.stopRings State.each; rw [h.2.1]; exact h

/-- The first function's own reset, up to its challenge, is of known values. -/
theorem held4_first : held4 ((z.setF uHIF F.HIF_LINK_SPLIT 1).clearFn 1) := by
  unfold State.clearFn State.when
  simp only [beq_self_eq_true, if_true]
  generalize hs : z.setF uHIF F.HIF_LINK_SPLIT 1 = s
  have h : ∀ (t : State) (q : Nat × Option Claim → Bool), held4 t → held4 { t with claims := t.claims.filter q } := fun t q h => ⟨h.1, h.2.1, h.2.2⟩
  refine h _ _ (held4_challenge ?_)
  subst hs; unfold held4; decide +kernel

theorem held4_both : held4 ((z.setF uHIF F.HIF_LINK_SPLIT 1).each [1, 2] fun s m => (s.clearTree m).stopRings m) := by
  have v : ∀ p, 1 ≤ p → ∀ v ∈ vfsOf (p - 1), v ≠ 1 := by
    intro p _ v hv; unfold vfsOf at hv; simp only [List.mem_map] at hv; omega
  unfold State.each
  simp only [List.foldl_cons, List.foldl_nil]
  refine held4_stop _ (held4_tree 2 (by decide) (fun _ => ⟨by decide, v 2 (by decide)⟩) (held4_stop _ ?_))
  unfold State.clearTree; dsimp only
  rw [if_pos (show isPF 1 = true from by decide)]
  refine held4_each _ _ (fun s w hw h => ?_) _ held4_first
  exact held4_wr _ _ (held4_clear w (v 1 (by decide) w hw) h) (key4_vf w)

theorem witness_FunctionsResetAndLinksFollow_4 : ∃ s : State,
    let x := ((s.each [1, 2] fun s m => (s.clearTree m).stopRings m).setF uHIF F.HIF_LINK_WIDTH0 0).setF uHIF F.HIF_LINK_GEN0 0
    s.running = true ∧ s.bit uHIF F.HIF_LINK_SPLIT = true ∧ x.bit uHIF F.HIF_LINK_SPLIT = true := by
  refine ⟨z.setF uHIF F.HIF_LINK_SPLIT 1, by decide +kernel, by decide +kernel, ?_⟩
  unfold State.bit
  rw [State.getF_setF_field _ _ _ _ _ (by decide) (by decide) (by decide), State.getF_setF_field _ _ _ _ _ (by decide) (by decide) (by decide)]
  unfold State.getF State.getFS State.rd KMap.get
  rw [show regKey uHIF 0 F.HIF_LINK_SPLIT.off = key4 from rfl, held4_both.1]; decide +kernel

end
end Sys2Proof.Tests
end

section
/-! ## The deadline and age checks at their boundary (R23) -/

open Sys2Proof Sys2Proof.Machine
namespace Sys2Proof.Machine

/-- The deadline check reads "later than": equality does not fail it. -/
@[simp] theorem State.pastDeadline_iff (s : State) (p : Pkt) :
    s.pastDeadline p = true ↔ p.adm.admitAt + p.adm.deadline < s.ns := by
  unfold State.pastDeadline
  exact decide_eq_true_iff

/-- The age check reads "exceeds": equality does not fail it. -/
@[simp] theorem State.aged_iff (s : State) (q : Nat) (e : QEnt) :
    s.aged q e = true ↔ s.ageNs q < s.ns - e.admitAt := by
  unfold State.aged
  exact decide_eq_true_iff

theorem State.pastDeadline_eq_false_iff (s : State) (p : Pkt) :
    s.pastDeadline p = false ↔ s.ns ≤ p.adm.admitAt + p.adm.deadline := by
  rw [← Bool.not_eq_true, State.pastDeadline_iff, Nat.not_lt]

/-- The age is compared without the difference, so a copy stamped after the present passes. -/
theorem State.aged_eq_false_iff (s : State) (q : Nat) (e : QEnt) :
    s.aged q e = false ↔ s.ns ≤ e.admitAt + s.ageNs q := by
  rw [← Bool.not_eq_true, State.aged_iff, Nat.not_lt, Nat.sub_le_iff_le_add']

/-- Settles O10: a check fails on strictly later (R23), so the boundary itself passes. -/
theorem deadlineAndAgeChecks : Obligations.DeadlineAndAgeChecks := by
  unfold Obligations.DeadlineAndAgeChecks
  refine ⟨State.pastDeadline_iff, State.aged_iff, fun s p atDeadline => ?_, fun s q e atLimit => ?_⟩
  · exact (s.pastDeadline_eq_false_iff p).mpr atDeadline.le
  · exact (s.aged_eq_false_iff q e).mpr atLimit.le

end Sys2Proof.Machine
end

section
/-! ## The claim page: reads that grant, and peeks (R56) -/

open Sys2Proof Sys2Proof.Machine
namespace Sys2Proof.Machine

/-- The claim page lies whole within what every master decodes (R39, R41). -/
theorem claimPage_le_barSize {m : Nat} (isMaster : m = 0 ∨ masters.contains m = true) : 0x1000 ≤ barSize m 2 := by
  rcases isMaster with rfl | isFunction
  · decide
  · have windowSize : 0x1000 ≤ bar2Size m := by unfold bar2Size; split <;> decide
    unfold barSize
    rw [if_neg (by decide), if_pos rfl, if_pos isFunction]
    split
    · exact le_rfl
    · exact windowSize

/-- An aligned 4-byte access covers its own register alone (R40). -/
theorem coveredRegs_word {a : Nat} (aligned : a % 4 = 0) : coveredRegs a 4 = [a] := by
  have oneWord : (a + 4 + 3) / 4 - a / 4 = 1 := by omega
  have wordStart : a / 4 * 4 = a := by omega
  simp [coveredRegs, oneWord, wordStart]

/-- A 4-byte read of the claim page is counted first, then answers its register and makes that register's read effect. -/
theorem State.busRead_claimPage {s : State} {m a : Nat} (runs : s.running = true) (reaches : s.reaches m = true)
    (isMaster : m = 0 ∨ masters.contains m = true) (inPage : a < 0x1000) (aligned : a % 4 = 0) :
    s.busRead m 2 a 4 = ((s.occur uHIF 0x100 2 (some m) a 1).readReg m 2 a).2.send
      (.data (((s.occur uHIF 0x100 2 (some m) a 1).readReg m 2 a).1 % 2 ^ 32)) := by
  have decoded : ¬ barSize m 2 ≤ a := by have := claimPage_le_barSize isMaster; omega
  unfold State.busRead
  rw [if_neg (by decide), if_neg (by simp [decoded, reaches]), if_neg (by simp [runs]), coveredRegs_word aligned]
  simp only [State.readRegs, aligned, Nat.zero_mul, Nat.add_zero, Nat.mul_zero, OfNat.ofNat_ne_zero, if_false]
  rw [bitsOf_word]

theorem State.readReg_claim (s : State) (m : Nat) {k : Nat} (isClaim : k < 64) : s.readReg m 2 (4 * k) = s.claimTake m k := by
  unfold State.readReg
  rw [if_neg (by decide), if_pos rfl, if_pos (by omega), Nat.mul_div_cancel_left k (by decide)]

theorem State.readReg_claimPeek (s : State) (m : Nat) {k : Nat} (isClaim : k < 64) :
    s.readReg m 2 (0x100 + 4 * k) = (s.claimPeek k, s) := by
  unfold State.readReg
  rw [if_neg (by decide), if_pos rfl, if_neg (by omega), if_pos (by omega), Nat.add_sub_cancel_left,
    Nat.mul_div_cancel_left k (by decide)]

theorem State.claimTake_of_free {s : State} (m : Nat) {k : Nat} (free : s.claim k = none) :
    s.claimTake m k = (0, s.setClaim k (some ⟨m, s.ns⟩)) := by
  simp only [State.claimTake, free]

theorem State.claimTake_of_own {s : State} {m k : Nat} {c : Claim} (held : s.claim k = some c) (own : c.owner = m) :
    s.claimTake m k = (0, s) := by
  simp only [State.claimTake, held, own, if_true]

theorem State.claimTake_of_other {s : State} {m k : Nat} {c : Claim} (held : s.claim k = some c) (other : c.owner ≠ m) :
    s.claimTake m k = (0x8000 ||| c.owner, s) := by
  simp only [State.claimTake, held, other, if_false]

theorem State.claimPeek_of_free {s : State} {k : Nat} (free : s.claim k = none) : s.claimPeek k = 0 := by
  simp only [State.claimPeek, free]

theorem State.claimPeek_of_held {s : State} {k : Nat} {c : Claim} (held : s.claim k = some c) :
    s.claimPeek k = 0x8000 ||| c.owner := by
  simp only [State.claimPeek, held]

/-- The mark and the owner's number of a held claim fit the register's word. -/
theorem heldWord_mod {owner : Nat} (fits : owner < 2 ^ 31) : (0x8000 ||| owner) % 2 ^ 32 = 0x8000 ||| owner :=
  Nat.mod_eq_of_lt (Nat.or_lt_two_pow (by decide) (fits.trans (by decide)))

/-- CLAIM_READ of an existing claim is the counted access with what taking the claim answers. -/
theorem exec_claimRead {s : State} {m k : Nat} (runs : s.running = true) (reaches : s.reaches m = true)
    (isMaster : m = 0 ∨ masters.contains m = true) (isClaim : k < 64) :
    exec (.claimRead m k) s = .next (((s.occur uHIF 0x100 2 (some m) (4 * k) 1).claimTake m k).2.send
      (.data (((s.occur uHIF 0x100 2 (some m) (4 * k) 1).claimTake m k).1 % 2 ^ 32))).ended := by
  show State.actAny (s.busRead m 2 (4 * (k % 64)) 4) = _
  rw [Nat.mod_eq_of_lt isClaim, State.busRead_claimPage runs reaches isMaster (by omega) (by omega),
    State.readReg_claim _ _ isClaim]
  rfl

/-- A read of CLAIM_PEEK is the counted access and sends what the claim shows. -/
theorem exec_claimPeekRead {s : State} {m k : Nat} (runs : s.running = true) (reaches : s.reaches m = true)
    (isMaster : m = 0 ∨ masters.contains m = true) (isClaim : k < 64) :
    exec (.latchingRead m 2 (0x100 + 4 * k) 4) s = .next ((s.occur uHIF 0x100 2 (some m) (0x100 + 4 * k) 1).send
      (.data ((s.occur uHIF 0x100 2 (some m) (0x100 + 4 * k) 1).claimPeek k % 2 ^ 32))).ended := by
  show State.actAny (s.busRead m 2 (0x100 + 4 * k) 4) = _
  rw [State.busRead_claimPage runs reaches isMaster (by omega) (by omega), State.readReg_claimPeek _ _ isClaim]
  rfl

/-- Settles O34: the read is counted first (R359), then takes the claim or peeks at it, by who holds it (R56). The warden's
access is counted like any other (log entry 96). -/
theorem claimsGrantAndPeek : Obligations.ClaimsGrantAndPeek := by
  unfold Obligations.ClaimsGrantAndPeek
  intro s m k runs reaches isMaster isClaim
  have take := exec_claimRead runs reaches isMaster isClaim
  have peek := exec_claimPeekRead runs reaches isMaster isClaim
  refine ⟨fun free => ?granted, fun c held own => ?own, fun c held other fits => ?other, fun free => ?peekFree,
    fun c held fits => ?peekHeld⟩
  case granted => rw [take, State.claimTake_of_free m free]; rfl
  case own => rw [take, State.claimTake_of_own held own]; rfl
  case other => rw [take, State.claimTake_of_other held other, heldWord_mod fits]
  case peekFree => rw [peek, State.claimPeek_of_free free]; rfl
  case peekHeld => rw [peek, State.claimPeek_of_held held, heldWord_mod fits]

end Sys2Proof.Machine
end

section
/-! ## Units that refuse every command (R47) -/

open Sys2Proof Sys2Proof.Machine
namespace Sys2Proof.Machine

/-- The kinds that R47 names are those the model takes for the core. -/
theorem coreKinds_contains (k : Kind) : ([Kind.pln, .wdn, .hif, .flt, .tal].map some).contains (some k) = isCoreKind k := by
  cases k <;> rfl

/-- R47 at an existing unit: its kind refuses first, then the device mode. -/
theorem State.refusal_eq (s : State) {u : Nat} (isUnit : (kindOf u).isSome = true) :
    s.refusal u = if ([Kind.pln, .wdn, .hif, .flt, .tal].map some).contains (kindOf u) then 4 else if s.modeOff u then 3 else 0 := by
  obtain ⟨k, hk⟩ := Option.isSome_iff_exists.1 isUnit
  rw [hk, coreKinds_contains]
  simp only [State.refusal, hk]

/-- R47 comes before every other check of Table 7. -/
theorem State.cmdResult_of_refusal {s : State} {u : Nat} (cmd : Nat) (refuses : s.refusal u ≠ 0) :
    s.cmdResult u cmd = s.refusal u :=
  if_pos refuses

/-- A command that its unit does not accept ends at once with the check's result. -/
theorem State.unitCmd_of_result {s : State} {u cmd : Nat} (tag : Nat) (rejected : s.cmdResult u cmd ≠ 0) :
    s.unitCmd u cmd tag = s.finish ⟨u, cmd, tag, [], none, s.ns, none⟩ u (s.cmdResult u cmd) 0 :=
  if_pos rejected

/-- Settles O32: both refusals of R47 are nonzero, so the command ends with whichever applies (CP2 and CP3 are Off with their
courses by log entry 62). -/
theorem unitsThatRefuseEveryCommand : Obligations.UnitsThatRefuseEveryCommand := by
  unfold Obligations.UnitsThatRefuseEveryCommand
  intro s u cmd tag _ _ isUnit refused
  have code : s.refusal u = if ([Kind.pln, .wdn, .hif, .flt, .tal].map some).contains (kindOf u) then 4 else 3 := by
    rw [s.refusal_eq isUnit]
    split
    · rfl
    · next notCore => rw [if_pos (refused.resolve_left notCore)]
  have refuses : s.refusal u ≠ 0 := by rw [code]; split <;> decide
  have result : s.cmdResult u cmd = s.refusal u := State.cmdResult_of_refusal cmd refuses
  rw [State.unitCmd_of_result tag (by rwa [result]), result, code]

end Sys2Proof.Machine
end

section
/-! ## FC cells and the XOFF they place (R323) -/

open Sys2Proof Sys2Proof.Machine
namespace Sys2Proof.Machine

/-- XOFF toward device `n` is in force until `till` (R323). -/
def State.placeXoff (till : Nat) (s : State) (n : Nat) : State :=
  s.modFab fun f => { f with xoffTill := s.fab.xoffTill.put (fun _ => 0) n till }

/-- Placing XOFF toward the devices of a list sets their time and leaves every other device's as it was. -/
theorem State.xoffTill_each_placeXoff (till : Nat) (l : List Nat) (s : State) (n : Nat) :
    (s.each l (State.placeXoff till)).fab.xoffTill.get (fun _ => 0) n =
      if n ∈ l then till else s.fab.xoffTill.get (fun _ => 0) n := by
  induction l generalizing s with
  | nil => rfl
  | cons d l ih =>
    have placed : (s.placeXoff till d).fab.xoffTill.get (fun _ => 0) n =
        if n = d then till else s.fab.xoffTill.get (fun _ => 0) n := KMap.get_put _ _ _ _ _
    have tail := ih (s.placeXoff till d)
    rw [placed] at tail
    refine tail.trans ?_
    by_cases later : n ∈ l
    · rw [if_pos later, if_pos (List.mem_cons_of_mem d later)]
    · simp only [later, List.mem_cons, or_false, if_false]

/-- The devices whose bit of an FC cell's map is 1. -/
def xoffDevices (map : Nat) : List Nat := (List.range 128).filter fun n => bitsOf map (127 - n) 1 == 1

@[simp] theorem mem_xoffDevices {map n : Nat} : n ∈ xoffDevices map ↔ n < 128 ∧ bitsOf map (127 - n) 1 = 1 := by
  simp [xoffDevices]

/-- A good FC cell places XOFF toward the devices of its map, for HOLD_NS from now. -/
theorem State.fcReceive_of_fc {s : State} {cell : List Byte} {h : CellHdr} (on : s.fabDrain.fabOn = true)
    (good : readCell cell = some h) (isFc : h.type = 1) :
    s.fcReceive cell = s.fabDrain.each (xoffDevices (beNat h.data))
      (State.placeXoff (s.fabDrain.ns + s.fabDrain.getF uFAB F.FAB_FC_HOLD_NS)) := by
  simp only [State.fcReceive, on, good, isFc]
  rfl

/-- While the device runs, FC_CELL_RECEIVE is the cell's receipt with what follows every command. -/
theorem exec_fcCellReceive {s : State} (runs : s.running = true) (cell : List Byte) :
    exec (.fcCellReceive cell) s = .next (s.after (s.fcReceive cell)) :=
  if_pos runs

/-- The payload of a good FC cell is 16 bytes (R316, R323). -/
theorem readCell_fc_length {cell : List Byte} {h : CellHdr} (good : readCell cell = some h) (isFc : h.type = 1) :
    h.data.length = 16 := by
  simp only [readCell, Option.ite_none_left_eq_some, Option.some.injEq, not_or] at good
  obtain ⟨⟨_, _, _, sized, _, _, fcLen, _⟩, rfl⟩ := good
  rw [not_and, not_not] at fcLen
  rw [List.length_drop, not_not.mp sized, fcLen isFc]

/-! ### A word of one bit for each index -/

/-- The bit of a sum of distinct powers of two is 1 exactly at the indices that put theirs in. -/
theorem testBit_sum_bits (p : Nat → Prop) [DecidablePred p] (n j : Nat) :
    ((List.range n).map fun i => if p i then 2 ^ i else 0).sum.testBit j = true ↔ j < n ∧ p j := by
  have asFinset : ((List.range n).map fun i => if p i then 2 ^ i else 0).sum = ∑ i ∈ (Finset.range n).filter p, 2 ^ i := by
    rw [Finset.sum_filter]; rfl
  rw [asFinset, ← Nat.mem_bitIndices, ← List.mem_toFinset, Finset.toFinset_bitIndices_sum_two_pow, Finset.mem_filter,
    Finset.mem_range]

theorem bitsOf_one_iff_testBit (x j : Nat) : bitsOf x j 1 = 1 ↔ x.testBit j = true := by
  rw [Nat.testBit_eq_decide_div_mod_eq, decide_eq_true_iff]; rfl

/-! ### FAB_XOFF -/

/-- Word `i` of FAB_XOFF: bit `j` is 1 while XOFF toward device `32 * i + j` is in force. -/
def State.xoffWord (s : State) (i : Nat) : Nat :=
  ((List.range 32).map fun j => if s.ns < s.fab.xoffTill.get (fun _ => 0) (32 * i + j) then 2 ^ j else 0).sum

theorem State.testBit_xoffWord (s : State) (i j : Nat) :
    (s.xoffWord i).testBit j = true ↔ j < 32 ∧ s.ns < s.fab.xoffTill.get (fun _ => 0) (32 * i + j) :=
  testBit_sum_bits (fun j => s.ns < s.fab.xoffTill.get (fun _ => 0) (32 * i + j)) 32 j

theorem State.kindView_fabXoff (s : State) {i : Nat} (word : i < 4) :
    s.kindView uFAB (0x150 + 4 * i) = some (s.xoffWord i) := by
  have inRange : 0x150 ≤ 0x150 + 4 * i ∧ 0x150 + 4 * i < 0x160 := by omega
  have index : (0x150 + 4 * i - 0x150) / 4 = i := by omega
  have view : s.kindView uFAB (0x150 + 4 * i) = if 0x150 ≤ 0x150 + 4 * i ∧ 0x150 + 4 * i < 0x160 then
      some (s.xoffWord ((0x150 + 4 * i - 0x150) / 4)) else none := rfl
  rw [view, if_pos inRange, index]

/-- FAB has no counter of 64 bits outside the performance counters. -/
theorem State.ctrAt_fab (s : State) {off : Nat} (low : off < 0xE80) : s.ctrAt uFAB off = none := by
  unfold State.ctrAt
  rw [if_neg (by omega)]
  rfl

theorem State.regView_fabXoff (s : State) {i : Nat} (word : i < 4) :
    s.regView uFAB (0x150 + 4 * i) = s.xoffWord i % 2 ^ 32 := by
  have unlatched : s.isLatched uFAB (0x150 + 4 * i) = false := by
    have noLow : s.ctrAt uFAB (0x150 + 4 * i - 4) = none := s.ctrAt_fab (by omega)
    have notPln : (uFAB == uPLN) = false := rfl
    simp [State.isLatched, notPln, noLow]
  unfold State.regView
  rw [if_neg (by decide), if_neg (by omega), if_neg (by omega), unlatched, if_neg (by decide),
    s.ctrAt_fab (by omega), s.kindView_fabXoff word]

/-- Settles O47: receiving an FC cell rewrites the XOFF times of the map's devices alone, and FAB_XOFF compares those times
with the present (R323). -/
theorem fcCellsPlaceXoff : Obligations.FcCellsPlaceXoff := by
  unfold Obligations.FcCellsPlaceXoff
  refine ⟨fun s cell h runs on good isFc => ?received, fun s i j word bit => ?shown⟩
  case received =>
    refine ⟨s.fcReceive cell, exec_fcCellReceive runs cell, readCell_fc_length good isFc, fun n device => ?_⟩
    rw [State.fcReceive_of_fc on good isFc, State.xoffTill_each_placeXoff]
    simp only [mem_xoffDevices, device, true_and]
  case shown =>
    rw [s.regView_fabXoff word, bitsOf_one_iff_testBit, Nat.testBit_mod_two_pow, Bool.and_eq_true, decide_eq_true_iff,
      State.testBit_xoffWord]
    simp only [bit, true_and]

end Sys2Proof.Machine
end

section
/-! ## Fault sources: the first occurrence reports, the latched ones only count (R368, R370) -/

open Sys2Proof Sys2Proof.Machine
namespace Sys2Proof.Machine

/-- The state after an occurrence of a fault source has been counted: in FLT_SRC_COUNT (R370) and in the performance counters
that count fault occurrences (R359). -/
def State.countFault (s : State) (u src : Nat) : State :=
  (s.addF u (F.FLT_SRC_COUNT_COUNT.i src) 1).occur u 0x005 (s.sevOf u src) none 0 1

/-- The state after a source's SRC bit has been set. -/
def State.markSource (s : State) (u src : Nat) : State :=
  s.setF u F.UCB_FAULT_SUM_SRC (setBitsOf (s.getF u F.UCB_FAULT_SUM_SRC) src 1 1)

/-- In a unit with fault sources every occurrence is counted before its SRC bit is looked at. -/
theorem State.report_eq_reportMark (s : State) {u : Nat} (src detail : Nat) (hasSources : nsrc u ≠ 0) :
    s.report u src detail = (s.countFault u src).reportMark u src detail :=
  if_neg hasSources

/-- A source whose SRC bit is 1 is not marked again, whether masked or not. -/
theorem State.reportMark_of_latched {s : State} {u src : Nat} (detail : Nat)
    (latched : bitsOf (s.getF u F.UCB_FAULT_SUM_SRC) src 1 = 1) : s.reportMark u src detail = s :=
  if_pos latched

/-- A source whose SRC bit is 0 is marked; the report goes to FLT unless the source is masked (R368). -/
theorem State.reportMark_of_clear {s : State} {u src : Nat} (detail : Nat)
    (clear : bitsOf (s.getF u F.UCB_FAULT_SUM_SRC) src 1 = 0) :
    s.reportMark u src detail =
      if bitsOf ((s.markSource u src).getF u F.UCB_FAULT_MASK_MASK) src 1 = 1 then s.markSource u src
      else { s.markSource u src with reports := (s.markSource u src).reports ++ [⟨u, src, detail⟩] } :=
  if_neg (by rw [clear]; decide)

theorem State.reportMark_of_clear_unmasked {s : State} {u src : Nat} (detail : Nat)
    (clear : bitsOf (s.getF u F.UCB_FAULT_SUM_SRC) src 1 = 0)
    (unmasked : bitsOf ((s.markSource u src).getF u F.UCB_FAULT_MASK_MASK) src 1 = 0) :
    s.reportMark u src detail =
      { s.markSource u src with reports := (s.markSource u src).reports ++ [⟨u, src, detail⟩] } := by
  rw [State.reportMark_of_clear detail clear, if_neg (by rw [unmasked]; decide)]

/-- One bit of a number, as the number it adds. -/
theorem and_two_pow_eq_bitsOf (n i : Nat) : n &&& 2 ^ i = bitsOf n i 1 * 2 ^ i := by
  rw [Nat.and_two_pow, Nat.toNat_testBit]; rfl

/-- A W1C write of one bit takes away that bit of the field and nothing else. -/
theorem mergeField_w1c_bit (old i : Nat) :
    mergeField .w1c old (2 ^ i) (2 ^ i) = old - bitsOf old i 1 * 2 ^ i := by
  show old - (old &&& (2 ^ i &&& 2 ^ i)) = _
  rw [Nat.and_self, and_two_pow_eq_bitsOf]

/-- Settles O11: the occurrence is counted first (R359 for the performance counters), and the SRC bit then decides whether it
is only counted (R370) or marks the source and reaches FLT (R368). -/
theorem latchedFaultSourceOnlyCounts : Obligations.LatchedFaultSourceOnlyCounts := by
  unfold Obligations.LatchedFaultSourceOnlyCounts
  refine ⟨fun s u src detail hasSources => ?further, fun old src _ => mergeField_w1c_bit old src,
    fun s u src detail hasSources => ?first⟩
  case further =>
    intro t latched
    exact (s.report_eq_reportMark src detail hasSources).trans (State.reportMark_of_latched detail latched)
  case first =>
    intro t x clear unmasked
    exact (s.report_eq_reportMark src detail hasSources).trans (State.reportMark_of_clear_unmasked detail clear unmasked)

end Sys2Proof.Machine
end

section
/-! ## Words, bytes and stores -/

open Sys2Proof Sys2Proof.Machine
namespace Sys2Proof.Machine

/-- A write of a register changes the register file alone. -/
theorem State.wr_eq (s : State) (k : Nat) (w : Word) : s.wr k w = { s with regs := s.regs.put regDflt k w } := rfl

/-- Settles O6: the law of a read after a write of a sparse map, and the register file as one such map. -/
theorem storesReadBackWhatIsWritten : Obligations.StoresReadBackWhatIsWritten := by
  unfold Obligations.StoresReadBackWhatIsWritten
  exact ⟨fun _ _ d m k j v => KMap.get_put d m k j v, State.rd_wr, fun s k w => ⟨_, s.wr_eq k w⟩⟩

namespace KMap
variable {α : Type} [DecidableEq α]

/-- No key at or below a bound is listed above it. -/
theorem find_none_of_wfFrom (d : Nat → α) {k a : Nat} (notAbove : k ≤ a) :
    ∀ {m : KMap α}, wfFrom d (some a) m = true → find m k = none
  | [], _ => rfl
  | (b, v) :: r, h => by
    obtain ⟨isAbove, -, rest⟩ := (wfFrom_cons d (some a) b v r).1 h
    have below : a < b := by simpa [above] using isAbove
    rw [find, if_neg (by omega)]
    exact find_none_of_wfFrom d (notAbove.trans below.le) rest

omit [DecidableEq α] in
/-- The front entry is what its key reads as. -/
theorem get_front (d : Nat → α) (k : Nat) (v : α) (r : KMap α) : get d ((k, v) :: r) k = v := by
  simp [get, find]

/-- Below its least key a canonical map reads as the default. -/
theorem get_of_wfFrom (d : Nat → α) {k a : Nat} (notAbove : k ≤ a) {m : KMap α} (h : wfFrom d (some a) m = true) :
    get d m k = d k := by
  rw [get, find_none_of_wfFrom d notAbove h]; rfl

omit [DecidableEq α] in
/-- Other keys read as they do without the front entry. -/
theorem get_behind (d : Nat → α) {k j : Nat} (v : α) (r : KMap α) (other : j ≠ k) : get d ((k, v) :: r) j = get d r j := by
  simp [get, find, other]

/-- The least key of a canonical map is at most that of another which reads the same. -/
theorem front_le (d : Nat → α) {lo lo' : Option Nat} {k l : Nat} {v w : α} {r t : KMap α}
    (hm : wfFrom d lo ((k, v) :: r) = true) (hn : wfFrom d lo' ((l, w) :: t) = true)
    (same : ∀ j, get d ((k, v) :: r) j = get d ((l, w) :: t) j) : l ≤ k := by
  obtain ⟨-, listed, -⟩ := (wfFrom_cons d lo k v r).1 hm
  obtain ⟨-, -, restAbove⟩ := (wfFrom_cons d lo' l w t).1 hn
  by_contra below
  have reads : v = d k := by
    rw [← get_front d k v r, same k, get_behind d w t (by omega), get_of_wfFrom d (by omega) restAbove]
  exact listed reads

/-- Two canonical maps that read the same at every key are the same list. -/
theorem eq_of_get_eq (d : Nat → α) : ∀ {m n : KMap α} {lo lo' : Option Nat}, wfFrom d lo m = true → wfFrom d lo' n = true →
    (∀ j, get d m j = get d n j) → m = n
  | [], [], _, _, _, _, _ => rfl
  | [], (l, w) :: t, _, lo', _, hn, same => by
    obtain ⟨-, listed, -⟩ := (wfFrom_cons d lo' l w t).1 hn
    exact absurd ((get_front d l w t).symm.trans (same l).symm) listed
  | (k, v) :: r, [], lo, _, hm, _, same => by
    obtain ⟨-, listed, -⟩ := (wfFrom_cons d lo k v r).1 hm
    exact absurd ((get_front d k v r).symm.trans (same k)) listed
  | (k, v) :: r, (l, w) :: t, lo, lo', hm, hn, same => by
    obtain rfl : k = l := le_antisymm (front_le d hn hm fun j => (same j).symm) (front_le d hm hn same)
    obtain rfl : v = w := by rw [← get_front d k v r, same k, get_front]
    obtain ⟨-, -, hr⟩ := (wfFrom_cons d lo k v r).1 hm
    obtain ⟨-, -, ht⟩ := (wfFrom_cons d lo' k v t).1 hn
    have rest : r = t := eq_of_get_eq d hr ht fun j => by
      by_cases hj : j = k
      · rw [get_of_wfFrom d hj.le hr, get_of_wfFrom d hj.le ht]
      · rw [← get_behind d v r hj, same j, get_behind d v t hj]
    rw [rest]

end KMap

/-- Settles O7: a canonical map is determined by what it reads, its least listed key first. -/
theorem equalContentsAreEqualData : Obligations.EqualContentsAreEqualData := by
  unfold Obligations.EqualContentsAreEqualData
  intro α _ d m hm
  exact ⟨fun k v => KMap.wf_put d m k v hm, fun p => KMap.wf_keep d m p hm, fun n hn same => KMap.eq_of_get_eq d hm hn same⟩

/-- Different offsets of one window have different keys. -/
theorem regKey_ne_of_off_ne {u sel off off' : Nat} (h : off' ≠ off) : regKey u sel off' ≠ regKey u sel off := by
  unfold regKey; omega

/-- Settles O8: fields of one word by the laws of bit fields, fields of two registers by their keys. -/
theorem fieldsOfOneWordAreApart : Obligations.FieldsOfOneWordAreApart := by
  unfold Obligations.FieldsOfOneWordAreApart
  refine ⟨fun n lo w v lo' w' => ⟨bitsOf_setBitsOf_self n lo w v, fun apart => ?word⟩,
    fun s u v f g fits => ⟨s.getF_setF_self u f v fits, fun _ apart => ?register⟩⟩
  case word =>
    rcases apart with below | above
    · exact bitsOf_setBitsOf_below n lo w v lo' w' below
    · exact bitsOf_setBitsOf_above n lo w v lo' w' above
  case register =>
    by_cases sameReg : g.off = f.off
    · exact s.getF_setF_field u f g v fits (apart sameReg) sameReg
    · exact s.getF_setF_reg u u f g v (regKey_ne_of_off_ne sameReg)

/-- A byte list is the little-endian layout of the number it spells. -/
theorem leBytes_leNat : ∀ bs : List Byte, leBytes (leNat bs) bs.length = bs
  | [] => rfl
  | b :: r => by
    have low : BitVec.ofNat 8 (b.toNat + 256 * leNat r) = b := by
      apply BitVec.eq_of_toNat_eq
      rw [BitVec.toNat_ofNat, show 2 ^ 8 = 256 from rfl, Nat.add_mul_mod_self_left, Nat.mod_eq_of_lt b.isLt]
    have high : (b.toNat + 256 * leNat r) / 256 = leNat r := by
      have := b.isLt; omega
    rw [leNat, List.length_cons, leBytes, low, high, leBytes_leNat r]

/-- A byte list is the layout in wire order of the number it spells. -/
theorem beBytes_beNat (bs : List Byte) : beBytes (beNat bs) bs.length = bs := by
  have h := leBytes_leNat bs.reverse
  rw [List.length_reverse] at h
  rw [beBytes, beNat, h, List.reverse_reverse]

/-- Settles O9: both byte orders are the same layout, read from either end. -/
theorem byteOrders : Obligations.ByteOrders := by
  unfold Obligations.ByteOrders
  exact ⟨fun n len => ⟨leNat_leBytes n len, beNat_beBytes n len, leBytes_length n len, rfl⟩,
    fun bs => ⟨leBytes_leNat bs, beBytes_beNat bs⟩⟩

end Sys2Proof.Machine
end

section
/-! ## Flags of the ALU (R255) -/

open Sys2Proof Sys2Proof.Machine
namespace Sys2Proof.Machine

/-- The number whose bits, from bit `i` up, are those of a list. -/
def bitsNat : List Bool → Nat
  | [] => 0
  | b :: r => b.toNat + 2 * bitsNat r

/-- A bit of the number that a list spells. -/
theorem bitsOf_bitsNat (l : List Bool) (i : Nat) : bitsOf (bitsNat l) i 1 = (l.getD i false).toNat := by
  induction l generalizing i with
  | nil => simp [bitsNat, bitsOf]
  | cons b r ih =>
    cases i with
    | zero => cases b <;> simp [bitsNat, bitsOf]
    | succ i =>
      have half : (b.toNat + 2 * bitsNat r) / 2 = bitsNat r := by
        have bit := b.toNat_le
        omega
      rw [List.getD_cons_succ, ← ih i, bitsNat, bitsOf, bitsOf, Nat.pow_succ', ← Nat.div_div_eq_div_mul, half]

theorem bitsOf_bitsNat_eq_one (l : List Bool) (i : Nat) : bitsOf (bitsNat l) i 1 = 1 ↔ l.getD i false = true := by
  rw [bitsOf_bitsNat]; exact Bool.toNat_eq_one

theorem bitAt_eq (b : Bool) (i : Nat) : bitAt b i = b.toNat * 2 ^ i := by
  cases b <;> simp [bitAt]

/-- The flags of SUB and CMP, bit by bit. -/
theorem flagsSub_eq (a b : DWord) : flagsSub a b = bitsNat [a - b == 0, (a - b).msb, decide (a.toNat < b.toNat),
    a.msb != b.msb && (a - b).msb != a.msb, decide (a.toInt < b.toInt), decide (a.toInt ≤ b.toInt), decide (a.toNat ≤ b.toNat)] := by
  simp only [flagsSub, flagsZN, bitAt_eq, bitsNat]
  ring

/-- The flags of ADD, bit by bit. -/
theorem flagsAdd_eq (a b : DWord) : flagsAdd a b = bitsNat [a + b == 0, (a + b).msb, decide (2 ^ 64 ≤ a.toNat + b.toNat),
    a.msb == b.msb && (a + b).msb != a.msb] := by
  simp only [flagsAdd, flagsZN, bitAt_eq, bitsNat]
  ring

/-- The signed reading of a 64-bit word. -/
theorem toInt_range (a : DWord) : -2 ^ 63 ≤ a.toInt ∧ a.toInt < 2 ^ 63 :=
  ⟨by simpa using a.le_toInt, by simpa using BitVec.toInt_lt (x := a)⟩

/-- A signed value between two words' range and twice it wraps by 2^64 or not at all. -/
theorem bmod_word {x : Int} (low : -2 ^ 64 ≤ x) (high : x < 2 ^ 64) :
    x.bmod (2 ^ 64) = if x < -2 ^ 63 then x + 2 ^ 64 else if x < 2 ^ 63 then x else x - 2 ^ 64 := by
  rw [Int.bmod_def]
  split_ifs <;> omega

/-- R255: a difference overflows where the operands' signs differ and the result's is not the first one's. -/
theorem sub_overflow_iff (a b : DWord) :
    (a.msb != b.msb && (a - b).msb != a.msb) = true ↔ (a - b).toInt ≠ a.toInt - b.toInt := by
  obtain ⟨la, ha⟩ := toInt_range a
  obtain ⟨lb, hb⟩ := toInt_range b
  have wraps := BitVec.toInt_sub (x := a) (y := b)
  rw [bmod_word (by omega) (by omega)] at wraps
  simp only [BitVec.msb_eq_toInt, Bool.and_eq_true, bne_iff_ne, ne_eq, decide_eq_decide, wraps]
  split_ifs <;> omega

/-- R255: a sum overflows where the operands' signs agree and the result's is another. -/
theorem add_overflow_iff (a b : DWord) :
    (a.msb == b.msb && (a + b).msb != a.msb) = true ↔ (a + b).toInt ≠ a.toInt + b.toInt := by
  obtain ⟨la, ha⟩ := toInt_range a
  obtain ⟨lb, hb⟩ := toInt_range b
  have wraps := BitVec.toInt_add a b
  rw [bmod_word (by omega) (by omega)] at wraps
  simp only [BitVec.msb_eq_toInt, Bool.and_eq_true, beq_iff_eq, bne_iff_ne, ne_eq, decide_eq_decide, wraps]
  split_ifs <;> omega

theorem sub_eq_zero_word (a b : DWord) : (a - b == 0) = true ↔ a = b := by
  rw [beq_iff_eq]; exact sub_eq_zero

theorem add_eq_zero_word (a b : DWord) : (a + b == 0) = true ↔ (a.toNat + b.toNat) % 2 ^ 64 = 0 := by
  rw [beq_iff_eq, ← BitVec.toNat_inj, BitVec.toNat_add]; rfl

/-- Settles O23: each flag is one bit of the row's list, and says of the operands what the list's entry says. -/
theorem compareFlagsOrderTheOperands : Obligations.CompareFlagsOrderTheOperands := by
  unfold Obligations.CompareFlagsOrderTheOperands
  intro a b
  simp only [flagsSub_eq, flagsAdd_eq, bitsOf_bitsNat_eq_one]
  exact ⟨sub_eq_zero_word a b, Iff.rfl, decide_eq_true_iff, sub_overflow_iff a b, decide_eq_true_iff, decide_eq_true_iff,
    decide_eq_true_iff, add_eq_zero_word a b, Iff.rfl, decide_eq_true_iff, add_overflow_iff a b⟩

/-! ### The ALU slot (R255, R257) -/

@[simp] theorem State.thread_setThread_self (s : State) (k : Nat) (x : Thread) : (s.setThread k x).thread k = x :=
  KMap.get_put_self _ s.eng.threads k x

theorem State.thread_setThread_ne (s : State) {j k : Nat} (x : Thread) (other : j ≠ k) : (s.setThread k x).thread j = s.thread j :=
  KMap.get_put_ne _ s.eng.threads k j x other

/-- The condition bits after an ALU slot. -/
def aluCond (w cond fl : Nat) (r : DWord) : Nat := if uSetc w then withFlags cond fl r else cond

/-- The ALU slot writes its thread: the mark, the result and the condition bits. -/
theorem State.gives_thread_self (s : State) (k w fl : Nat) (r : DWord) :
    (s.gives k w r fl).thread k = { s.thread k with aluDone := true, aluRes := r, cond := aluCond w (s.thread k).cond fl r } := by
  cases setc : uSetc w <;> simp [State.gives, aluCond, setc]

theorem State.gives_thread_ne (s : State) {j k : Nat} (w fl : Nat) (r : DWord) (other : j ≠ k) :
    (s.gives k w r fl).thread j = s.thread j := by
  cases setc : uSetc w <;> simp [State.gives, setc, State.thread_setThread_ne _ _ other]

/-- The ALU slot writes threads only. -/
theorem State.gives_threads (s : State) (k w fl : Nat) (r : DWord) :
    ∃ e : KMap Thread, s.gives k w r fl = s.modEng fun x => { x with threads := e } := by
  unfold State.gives
  split
  · exact ⟨_, rfl⟩
  · exact ⟨_, rfl⟩

/-- SETC = 1: bits 7:0 and 47:32 are the flags and the result's low half-word, the others stay. -/
theorem withFlags_bits (cond fl : Nat) (r : DWord) :
    bitsOf (withFlags cond fl r) 0 8 = fl % 256 ∧ bitsOf (withFlags cond fl r) 32 16 = r.toNat % 65536 ∧
      bitsOf (withFlags cond fl r) 8 24 = bitsOf cond 8 24 ∧ withFlags cond fl r / 2 ^ 48 = cond / 2 ^ 48 := by
  unfold withFlags
  refine ⟨?_, ?_, ?_, ?_⟩
  · rw [bitsOf_setBitsOf_below _ _ _ _ _ _ (by decide), bitsOf_setBitsOf_self]; rfl
  · rw [bitsOf_setBitsOf_self]; exact Nat.mod_mod _ _
  · rw [bitsOf_setBitsOf_below _ _ _ _ _ _ (by decide), bitsOf_setBitsOf_above _ _ _ _ _ _ (by decide)]
  · unfold setBitsOf; omega

/-- Settles O22: both writes of the slot are of the thread itself, and SETC decides what its condition bits become. -/
theorem aluSlotChangesOneThread : Obligations.AluSlotChangesOneThread := by
  unfold Obligations.AluSlotChangesOneThread
  intro s k w fl r t
  have own := s.gives_thread_self k w fl r
  refine ⟨s.gives_threads k w fl r, fun j other => s.gives_thread_ne w fl r other, by rw [own], by rw [own],
    aluCond w (s.thread k).cond fl r, own, fun clear => ?kept, fun setc => ?set⟩
  case kept => simp [aluCond, clear]
  case set => simpa [aluCond, setc] using withFlags_bits (s.thread k).cond fl r

end Sys2Proof.Machine
end

section
/-! ## Steps, their ends, and SMB_ALERT_N (R454) -/

open Sys2Proof Sys2Proof.Machine
namespace Sys2Proof.Machine

/-- Settles O1: the queue is taken from its front. -/
theorem stepRunsFrontCommand : Obligations.StepRunsFrontCommand := by
  unfold Obligations.StepRunsFrontCommand
  refine ⟨fun s c rest queued => ?_, fun s c => rfl⟩
  unfold step
  rw [queued]

/-- A step on an empty queue ends what the plinth tick does. -/
theorem step_of_empty {s : State} (empty : s.pending = []) : step s = .next s.tick.ended := by
  unfold step
  rw [empty]
  rfl

/-- Settles O2: the tick is that of the running plinth clock, or nothing. -/
theorem emptyQueueTicks : Obligations.EmptyQueueTicks := by
  unfold Obligations.EmptyQueueTicks
  refine ⟨fun s empty runs => ?_, fun s empty stopped => ?_⟩
  · rw [step_of_empty empty, State.tick, if_neg (by simp [runs])]
  · rw [step_of_empty empty, State.tick, if_pos (by simp [stopped])]

/-- Settles O3: at reset Tj reads 0, no supply warning stands and FATAL_SEEN reads 0. -/
theorem resetDrivesNoAlert : Obligations.ResetDrivesNoAlert := by
  unfold Obligations.ResetDrivesNoAlert
  have noCause : State.reset.alertCause = false := by decide +kernel
  exact ⟨fun cause => absurd cause (by simp [noCause]), noCause, rfl⟩

/-! ### The end of a command -/

/-- What the invariant of SMB_ALERT_N reads. -/
theorem State.alertInv_congr {s t : State} (regs : t.regs = s.regs) (warn : t.pwr.supplyWarn = s.pwr.supplyWarn)
    (on : t.pwr.alertOn = s.pwr.alertOn) : t.alertInv ↔ s.alertInv := by
  unfold State.alertInv
  rw [State.alertCause_congr regs warn, on]

/-- A pin changes nothing but what has been sent. -/
theorem State.drivePin_eq (s : State) (pin : Nat) (level : Bool) : ∃ o, s.drivePin pin level = { s with out := o } := by
  unfold State.drivePin
  split
  · exact ⟨_, rfl⟩
  · exact ⟨_, rfl⟩

/-- One PPS_OUT pulse that is over goes low. -/
def State.ppsLow (s : State) (o : Nat) : State :=
  if s.pwr.outUntil.get (fun _ => 0) o = 0 ∨ s.ns < s.pwr.outUntil.get (fun _ => 0) o then s
  else (s.modPwr fun p => { p with outUntil := s.pwr.outUntil.put (fun _ => 0) o 0 }).drivePin (o + 1) false

theorem State.ppsDrain_eq (s : State) : s.ppsDrain = (s.ppsLow 1).ppsLow 2 := rfl

theorem State.ppsLow_of_notDue {s : State} {o : Nat}
    (notDue : s.pwr.outUntil.get (fun _ => 0) o = 0 ∨ s.ns < s.pwr.outUntil.get (fun _ => 0) o) : s.ppsLow o = s :=
  if_pos notDue

/-- The end of a pulse changes nothing that SMB_ALERT_N depends on. -/
theorem State.ppsLow_alertInv (s : State) (o : Nat) : (s.ppsLow o).alertInv ↔ s.alertInv := by
  unfold State.ppsLow
  split
  · exact Iff.rfl
  · obtain ⟨out, sent⟩ := State.drivePin_eq (s.modPwr fun p => { p with outUntil := s.pwr.outUntil.put (fun _ => 0) o 0 }) (o + 1) false
    rw [sent]
    exact State.alertInv_congr rfl rfl rfl

/-- Every command ends with SMB_ALERT_N following its causes. -/
theorem State.ended_alertInv (t : State) : t.ended.alertInv := by
  rw [State.ended, State.ppsDrain_eq, State.ppsLow_alertInv, State.ppsLow_alertInv]
  exact t.react.alertSync_inv

/-! ### How every command answers -/

/-- An outcome that, if it is a next state, is `s` itself or the end of an effect. -/
def EndsOrKeeps (s : State) (r : Result) : Prop := ∀ t, r = .next t → t = s ∨ ∃ u : State, t = u.ended

theorem State.act_endsOrKeeps (s u : State) : EndsOrKeeps s (s.act u) := by
  intro t answer
  rcases State.act_next answer with ⟨-, rfl⟩ | ⟨-, rfl⟩
  · exact .inr ⟨_, rfl⟩
  · exact .inl rfl

theorem State.actPln_endsOrKeeps (s u : State) : EndsOrKeeps s (s.actPln u) := by
  intro t answer
  rcases State.actPln_next answer with ⟨-, rfl⟩ | ⟨-, rfl⟩
  · exact .inr ⟨_, rfl⟩
  · exact .inl rfl

theorem State.actAny_endsOrKeeps (s u : State) : EndsOrKeeps s u.actAny :=
  fun _ answer => .inr ⟨u, (Host.Outcome.next.inj answer).symm⟩

/-- CLOCK_LOSS is of the plinth, but that of a clock that returns needs no clock. -/
theorem execClockLoss_endsOrKeeps (s : State) (clock : Nat) : EndsOrKeeps s (exec (.clockLoss clock) s) := by
  show EndsOrKeeps s (if clock < 16 then s.actPln (s.clockLoss clock) else (s.clockBack clock).actAny)
  split
  · exact s.actPln_endsOrKeeps _
  · exact s.actAny_endsOrKeeps _

/-- Each of the 306 commands acts in one of the three ways: while the device runs, while the plinth's clock does, or always. -/
theorem exec_endsOrKeeps (c : Instr) (s : State) : EndsOrKeeps s (exec c s) := by
  cases c
  case clockLoss clock => exact execClockLoss_endsOrKeeps s clock
  all_goals first
    | exact s.act_endsOrKeeps _
    | exact s.actPln_endsOrKeeps _
    | exact s.actAny_endsOrKeeps _

/-- A command keeps SMB_ALERT_N following its causes. -/
theorem exec_alertInv {c : Instr} {s t : State} (inv : s.alertInv) (answer : exec c s = .next t) : t.alertInv := by
  rcases exec_endsOrKeeps c s t answer with rfl | ⟨u, rfl⟩
  · exact inv
  · exact u.ended_alertInv

/-- Settles O4: a tick and every command end with SMB_ALERT_N following its causes, or change nothing. -/
theorem alertPinFollowsItsCauses : Obligations.AlertPinFollowsItsCauses := by
  unfold Obligations.AlertPinFollowsItsCauses
  intro s t inv answer
  cases queue : s.pending with
  | nil =>
    rw [step_of_empty queue] at answer
    obtain rfl := Host.Outcome.next.inj answer
    exact s.tick.ended_alertInv
  | cons c rest =>
    rw [stepRunsFrontCommand.1 s c rest queue] at answer
    exact exec_alertInv ((State.alertInv_congr (s := s) (t := { s with pending := rest }) rfl rfl rfl).2 inv) answer

/-! ### The end of a quiet command -/

/-- Writing both bits of SMB_ALERT_N as they are changes nothing. -/
theorem State.alert_eta {t : State} {on ans : Bool} (same : t.pwr.alertOn = on) (same' : t.pwr.alertAns = ans) :
    t = { t with pwr := { t.pwr with alertOn := on, alertAns := ans } } := by
  subst same same'; rfl

/-- SMB_ALERT_N after a command: low exactly if a cause holds or it was low and has not been answered. -/
theorem State.alertSync_eq (t : State) : ∃ ans : Bool, t.alertSync =
    { t with pwr := { t.pwr with alertOn := t.alertCause || (t.pwr.alertOn && !t.pwr.alertAns), alertAns := ans } } := by
  unfold State.alertSync
  cases cause : t.alertCause <;> cases on : t.pwr.alertOn
  case true.true => exact ⟨_, State.alert_eta on rfl⟩
  case true.false => exact ⟨false, rfl⟩
  case false.false => exact ⟨_, State.alert_eta on rfl⟩
  case false.true =>
    cases answered : t.pwr.alertAns
    · exact ⟨false, State.alert_eta on answered⟩
    · exact ⟨false, rfl⟩

/-- With no pulse due, none ends. -/
theorem State.ppsDrain_of_notDue {t : State}
    (notDue : ∀ o ∈ [1, 2], t.pwr.outUntil.get (fun _ => 0) o = 0 ∨ t.ns < t.pwr.outUntil.get (fun _ => 0) o) : t.ppsDrain = t := by
  rw [State.ppsDrain_eq, State.ppsLow_of_notDue (notDue 1 (by decide)), State.ppsLow_of_notDue (notDue 2 (by decide))]

/-- Settles O5: with no fault to react to, the end is SMB_ALERT_N's and the pulses'. -/
theorem quietCommandEndsInItsEffect : Obligations.QuietCommandEndsInItsEffect := by
  unfold Obligations.QuietCommandEndsInItsEffect
  intro s t still quiet
  obtain ⟨ans, pins⟩ := t.alertSync_eq
  have ends := (State.after_still still).trans (State.ended_quiet quiet)
  rw [pins] at ends
  refine ⟨ans, ends, fun notDue => ends.trans (State.ppsDrain_of_notDue notDue)⟩

end Sys2Proof.Machine
end

section
/-! ## Frames, headers and hand-off (R111, R113, R217, R270) -/

open Sys2Proof Sys2Proof.Machine
namespace Sys2Proof.Machine

/-- A command of the running device ends what its effect comes to. -/
theorem State.act_eq {s t u : State} (runs : s.running = true) (effect : t = u) : s.act t = .next (s.after u) := by
  rw [State.act_run t runs, effect]

/-- A command of the plinth ends what its effect comes to. -/
theorem State.actPln_eq {s t u : State} (runs : s.clk.running = true) (effect : t = u) : s.actPln t = .next (s.after u) := by
  rw [State.actPln_run t runs, effect]

/-- A command that acts in every state of power ends what its effect comes to. -/
theorem State.actAny_eq {t u : State} (effect : t = u) : t.actAny = .next u.ended := by
  rw [effect]; rfl

/-- A good frame that no course refuses joins its port block's receive buffer (R111). -/
theorem State.frameIn_good {s t : State} {p n : Nat} {f : List Byte} (isPort : s.portExists p = true)
    (live : s.portLive p = true) (noDrain : s.pwr.drainAt = none) (passes : s.rxCheck p (f.length + 4) true false false = none)
    (noControl : fb2 f 12 ≠ 0x8808) (counted : t = (s.portCtr p 0 1).portCtr p 1 (f.length + 4))
    (serves : t.serving (p / 32) = some n) (noStandby : t.twin.squelched = false)
    (room : ((t.rxBlock (p / 8)).map (·.frame.length)).sum + f.length ≤ 131072) :
    s.frameIn p f true false 0 = t.setRx (p / 8) (t.rxBlock (p / 8) ++ [⟨p, f, t.rxStamp p (f.length + 4), t.clk.now⟩]) := by
  subst counted
  simp [State.frameIn, isPort, live, noDrain, passes, noControl, serves, noStandby, room]

/-- A frame that fails a MAC check is counted and dropped under the check's code (R111). -/
theorem State.frameIn_bad {s : State} {p code k : Nat} {f : List Byte} {fcsOk pcsBad : Bool} (isPort : s.portExists p = true)
    (live : s.portLive p = true) (noDrain : s.pwr.drainAt = none)
    (fails : s.rxCheck p (f.length + 4) fcsOk pcsBad false = some (code, k)) :
    s.frameIn p f fcsOk pcsBad 0 =
      (s.portCtr p k 1).drop code p { uid := uMAC (p / 8), inPort := some p, len := f.length } := by
  simp [State.frameIn, isPort, live, noDrain, fails]

/-- Settles O12: what the MAC makes of the frame, with the FEC counts added. -/
theorem frameReceiveQueuesGoodFrames : Obligations.FrameReceiveQueuesGoodFrames := by
  unfold Obligations.FrameReceiveQueuesGoodFrames
  refine ⟨fun s p f corr unc sym n runs isPort live noDrain passes noControl serves noStandby room => ?good,
    fun s p f fcsOk pcsBad corr unc sym code k runs isPort live noDrain fails => ?bad⟩
  case good =>
    exact State.act_eq runs (congrArg (State.fecCount · p corr unc sym)
      (State.frameIn_good isPort live noDrain passes noControl rfl serves noStandby room))
  case bad =>
    exact State.act_eq runs (congrArg (State.fecCount · p corr unc sym) (State.frameIn_bad isPort live noDrain fails))

/-! ### Admission -/

/-- A course in service admits the frame that waits longest in the buffers it serves. -/
theorem State.admitHeader_frame {s : State} {n : Nat} {x : RxFrame} (r : Reads) (takes : s.taking = true)
    (up : s.courseUp n = true) (waits : s.nextFrame n = some x) :
    s.admitHeader n false r =
      let t := s.setRx (x.port / 8) (s.rxBlock (x.port / 8)).tail
      let p := t.stamp n x.port (t.getF (uADM (x.port / 32)) (F.ADM_PORT_CFG_CLASS.i (x.port % 32))) false (some x.stamp) x.frame
      p.2.firstPass n p.1 r := by
  simp [State.admitHeader, takes, up, waits]

/-- The admission stage of a course takes headers of its own. -/
def State.admits (s : State) (n : Nat) : Prop :=
  (s.ust (uADM n) = 4 ∨ s.ust (uADM n) = 5) ∧ s.getF (uADM n) F.UCB_STATE_ISOLATED = 0

/-- An admission stage that takes headers admits the oldest frame the host injected and completes its descriptor. -/
theorem State.admitHeader_inject {s : State} {n : Nat} {f : Inject} {rest : List Inject} (r : Reads) (takes : s.taking = true)
    (admits : s.admits n) (waits : (s.course n).inject = f :: rest) :
    s.admitHeader n true r =
      let t := (s.setCourse n { s.course n with inject := rest }).complete f.ring f.idx (comp 0 f.len 0)
      let p := t.stamp n (256 + n) (t.getF (uADM n) (F.ADM_PORT_CFG_CLASS.i 32)) true none f.frame
      p.2.firstPass n p.1 r := by
  obtain ⟨st, whole⟩ := admits
  have inService : (s.ust (uADM n) == 4 || s.ust (uADM n) == 5) = true := by simpa using st
  simp [State.admitHeader, takes, inService, whole, waits]

/-- A recirculated packet that passes the three checks enters its second pass. -/
theorem State.admitRecirc_second {s t : State} {n : Nat} {x : Recirc} {rest : List Recirc} {q : Pkt} {u : State} (r : Reads)
    (takes : s.taking = true) (admits : s.admits n) (waits : (s.course n).recirc = x :: rest)
    (taken : t = s.setCourse n { s.course n with recirc := rest }) (noFooting : t.footing = false)
    (inTime : t.pastDeadline x.pkt = false) (first : x.pkt.adm.pass = 1)
    (parsed : (t.takeSkip n).2.parse n x.profile { x.pkt with slots := [], adm := { x.pkt.adm with
      pass := 2, slow := false, mal := false, malReason := 0, bos := 0 } } = (some q, u)) :
    s.admitRecirc n r = u.stages n q r (t.takeSkip n).1 := by
  obtain ⟨st, whole⟩ := admits
  subst taken
  unfold State.admitRecirc
  rw [if_neg (by simp [takes, st, whole]), waits]
  simp only [noFooting, inTime, first, parsed, ne_eq, not_true_eq_false, Bool.false_eq_true, if_false]

/-- Settles O13: each admission takes its header from the course's queue of it. -/
theorem headersEnterTheirCourse : Obligations.HeadersEnterTheirCourse := by
  unfold Obligations.HeadersEnterTheirCourse
  refine ⟨fun s c ecc tid slot cam x runs takes up waits => ?frame, fun s c ecc tid slot cam f rest runs takes st whole waits => ?inject,
    fun s c runs => ?skip, fun s c ecc tid slot cam x rest q u runs takes st whole waits noFooting inTime first parsed => ?recirc⟩
  case frame => exact State.act_eq runs (State.admitHeader_frame _ takes up waits)
  case inject => exact State.act_eq runs (State.admitHeader_inject _ takes ⟨st, whole⟩ waits)
  case skip => exact (State.act_run _ runs).trans (congrArg _ (State.after_still le_rfl))
  case recirc => exact State.act_eq runs (State.admitRecirc_second _ takes ⟨st, whole⟩ waits rfl noFooting inTime first parsed)

/-! ### Hand-off -/

/-- The state in which a header that is in time goes to its fate: its learn, if it has one, has been made. -/
def State.handLearned (s : State) (n : Nat) (h : Hand) : State :=
  match h.learn with
  | some key => s.learn n h.pkt.adm.port key
  | none => s

/-- The oldest header has left its course's queue. -/
def State.handTaken (s : State) (n : Nat) (rest : List Hand) : State := s.setCourse n { s.course n with hand := rest }

/-- A detour goes to the queue of its cluster, or is dropped. -/
def State.handDetour (s : State) (n : Nat) (h : Hand) (prio : Nat) : State :=
  match s.pickCluster n h.pkt prio with
  | none => (s.addF (uRSV n) F.RSV_NO_ENGINE_COUNT 1).dropIngress 0x38 (uRSV n) h.pkt
  | some c => s.writeBasin n h h.pkt [{ queue := internalQueue c prio }] false

/-- A punt goes to the punt queue of its cluster, or is dropped. -/
def State.handPunt (s : State) (n : Nat) (h : Hand) (ring reason : Nat) : State :=
  match s.pickCluster n h.pkt 0 with
  | none => (s.addF (uRSV n) F.RSV_NO_ENGINE_COUNT 1).dropIngress 0x38 (uRSV n) h.pkt
  | some c => s.writeBasin n h h.pkt [h.meterCopy { queue := internalQueue c 0, punt := some ring, reason := reason }] false

/-- Where a header goes by its fate (R270). -/
def State.handFate (s : State) (n : Nat) (h : Hand) : State :=
  match h.fate with
  | .queue c => s.writeBasin n h h.pkt [h.meterCopy c] false
  | .list l foot => s.replicate n h l foot
  | .detour => s.handDetour n h (s.getF (uRSV n) (F.RSV_ENG_CLASS_PRIO.i h.pkt.adm.slowClass))
  | .punt ring reason => s.handPunt n h ring reason

section
variable {s : State} {n : Nat} {h : Hand} {rest : List Hand} (waits : (s.course n).hand = h :: rest)
include waits

/-- A header past its deadline is dropped. -/
theorem State.handOff_late (late : (s.handTaken n rest).pastDeadline h.pkt = true) :
    s.handOff n = (s.handTaken n rest).dropIngress 0x10 (uRSV n) h.pkt := by
  unfold State.handOff
  rw [waits]
  exact if_pos late

/-- A header in time learns and goes where its fate says. -/
theorem State.handOff_inTime (inTime : (s.handTaken n rest).pastDeadline h.pkt = false) :
    s.handOff n = ((s.handTaken n rest).handLearned n h).handFate n h := by
  unfold State.handOff
  rw [waits]
  exact if_neg (Bool.eq_false_iff.1 inTime)

end

section
variable {s : State} {n : Nat} {h : Hand}

theorem State.handFate_queue {y : Copy} (fate : h.fate = .queue y) :
    s.handFate n h = s.writeBasin n h h.pkt [h.meterCopy y] false := by
  simp only [State.handFate, fate]

theorem State.handFate_list {l : Nat} {foot : Bool} (fate : h.fate = .list l foot) : s.handFate n h = s.replicate n h l foot := by
  simp only [State.handFate, fate]

theorem State.handFate_detour (fate : h.fate = .detour) :
    s.handFate n h = s.handDetour n h (s.getF (uRSV n) (F.RSV_ENG_CLASS_PRIO.i h.pkt.adm.slowClass)) := by
  simp only [State.handFate, fate]

theorem State.handFate_punt {ring reason : Nat} (fate : h.fate = .punt ring reason) :
    s.handFate n h = s.handPunt n h ring reason := by
  simp only [State.handFate, fate]

theorem State.handDetour_some {prio k : Nat} (picked : s.pickCluster n h.pkt prio = some k) :
    s.handDetour n h prio = s.writeBasin n h h.pkt [{ queue := internalQueue k prio }] false := by
  simp only [State.handDetour, picked]

theorem State.handDetour_none {prio : Nat} (unpicked : s.pickCluster n h.pkt prio = none) :
    s.handDetour n h prio = (s.addF (uRSV n) F.RSV_NO_ENGINE_COUNT 1).dropIngress 0x38 (uRSV n) h.pkt := by
  simp only [State.handDetour, unpicked]

theorem State.handPunt_some {ring reason k : Nat} (picked : s.pickCluster n h.pkt 0 = some k) :
    s.handPunt n h ring reason =
      s.writeBasin n h h.pkt [h.meterCopy { queue := internalQueue k 0, punt := some ring, reason := reason }] false := by
  simp only [State.handPunt, picked]

theorem State.handPunt_none {ring reason : Nat} (unpicked : s.pickCluster n h.pkt 0 = none) :
    s.handPunt n h ring reason = (s.addF (uRSV n) F.RSV_NO_ENGINE_COUNT 1).dropIngress 0x38 (uRSV n) h.pkt := by
  simp only [State.handPunt, unpicked]

end

/-- Settles O14: the deadline decides first, then the fate, then the cluster that routing picks. -/
theorem handOffPlacesItsOldestHeader : Obligations.HandOffPlacesItsOldestHeader := by
  unfold Obligations.HandOffPlacesItsOldestHeader
  refine fun s c h rest runs waits => ⟨fun late => State.act_eq runs (State.handOff_late waits late), fun inTime => ?_⟩
  have effect := State.handOff_inTime waits inTime
  refine ⟨fun y fate => ?queue, fun l foot fate => ?list, fun fate => ⟨fun k picked => ?detour, fun unpicked => ?noDetour⟩,
    fun ring reason k fate picked => ?punt, fun ring reason fate unpicked => ?noPunt⟩
  case queue => exact State.act_eq runs (effect.trans (State.handFate_queue fate))
  case list => exact State.act_eq runs (effect.trans (State.handFate_list fate))
  case detour => exact State.act_eq runs (effect.trans ((State.handFate_detour fate).trans (State.handDetour_some picked)))
  case noDetour => exact State.act_eq runs (effect.trans ((State.handFate_detour fate).trans (State.handDetour_none unpicked)))
  case punt => exact State.act_eq runs (effect.trans ((State.handFate_punt fate).trans (State.handPunt_some picked)))
  case noPunt => exact State.act_eq runs (effect.trans ((State.handFate_punt fate).trans (State.handPunt_none unpicked)))

end Sys2Proof.Machine
end

section
/-! ## The deep buffer (R272–R280) -/

open Sys2Proof Sys2Proof.Machine
namespace Sys2Proof.Machine

/-- The vent takes a cell of the stored frame whose turn it is, at the governor's rate. -/
theorem State.ventCell_turn {s : State} {i : Nat} {x : Inst} {l : List Inst} (err : Nat) (noFooting : s.footing = false)
    (govOpen : s.getF uBSN F.BSN_VENT_GOV_PCT ≠ 0) (bpm : s.up uBPM = true ∨ s.ust uBPM = 5) (turn : s.ventTurn = some i)
    (waits : s.ventQueue i = x :: l) :
    s.ventCell err =
      let r := s.reachRaw s.bas.ventAt
      let t := r.modBas fun b => { b with ventAt := r.clk.now + ceilDiv 4096000 (s.getF uBSN F.BSN_VENT_GOV_PCT) }
      if err = 2 ∨ err = 3 then t.ventLost i (err - 1) x
      else (if err = 1 then t.report (uXP i 33) 0 0 else t).ventTake i x := by
  have inService : ¬ ((!s.up uBPM) = true ∧ s.ust uBPM ≠ 5) := by
    rintro ⟨down, idle⟩
    rcases bpm with up | draining
    · simp [up] at down
    · exact idle draining
  unfold State.ventCell
  simp only [govOpen, noFooting, inService, turn, waits, Bool.false_eq_true, or_self, if_false]

theorem State.ventDone_issued {s : State} {id : Nat} {x : Inst} (stored : s.inst id = some x) (issued : x.place = 2) :
    s.ventDone id = s.setInst id (some { x with place := 3 }) := by
  simp only [State.ventDone, stored, issued, if_true]

/-- A pair with nothing of its queue left in the deep buffer returns to DIRECT. -/
theorem State.ventReturn_direct {s : State} {i q : Nat} (vent : s.inVent i q = true)
    (shallow : ∀ e ∈ s.queue q, e.row = i → e.back = false →
      ∀ x, s.inst e.inst = some x → x.place = 0 ∨ x.place = 4 ∨ x.lost = true)
    (low : s.directCells i q ≤ s.vc q F.BSN_VC_CFG_LOW_CELLS) : s.ventReturn i q = s.setVent i q false := by
  unfold State.ventReturn
  refine if_pos ⟨vent, ?_, low⟩
  rw [Bool.not_eq_true', List.any_eq_false]
  intro e held deep
  simp only [Bool.and_eq_true, beq_iff_eq, Bool.not_eq_true'] at deep
  obtain ⟨⟨row, away⟩, stored⟩ := deep
  cases inst : s.inst e.inst with
  | none => simp [inst] at stored
  | some x =>
    simp only [inst, Bool.and_eq_true, bne_iff_ne, ne_eq, Bool.not_eq_true'] at stored
    obtain ⟨⟨vented, unfreed⟩, whole⟩ := stored
    rcases shallow e held row away x inst with h | h | h
    · exact vented h
    · exact unfreed h
    · exact Bool.false_ne_true (whole.symm.trans h)

theorem State.fetchNext_turn {s : State} {j q : Nat} (turn : (s.colUp j).fetchTurn j = some q) :
    s.fetchNext j = (s.colUp j).startFetch j q := by
  simp only [State.fetchNext, turn]

/-! ### Fetched blocks -/

/-- A block that passes its checks is written to its crosspoint and given up; an uncorrectable error drops the copy. -/
theorem State.blockArrive_checked {s t : State} {q j ecc : Nat} {e : QEnt} {x : Inst} (noFooting : s.footing = false)
    (whole : x.lost = false) (chan : s.ust (uDMC x.ch) = 4 ∨ s.ust (uDMC x.ch) = 5)
    (checked : t = s.dramEcc x.ch (s.blockAddr x.blk + 64 * (ecc / 8)) (ecc % 8)) (col : j = portCol (s.queuePort q))
    (up : t.up (uXP 33 j) = true) (young : t.aged q e = false) :
    s.blockArrive q ecc e x = if ecc % 8 = 2 ∨ ecc % 8 = 4 then t.basinDrop 0x46 q e
      else ((t.setQueue q (modifyFirst (fun y => decide (y = e)) (fun y => { y with back := true }) (t.queue q))).xpPut
        33 j e.cells 1).blockDone e.inst := by
  subst checked col
  unfold State.blockArrive
  simp only [noFooting, whole, chan, up, young, not_true_eq_false, Bool.not_true, Bool.false_eq_true, or_self, if_false]

/-- The block of a queue's fetch arrives. -/
theorem State.blockCheck_fetched {s : State} {q : Nat} {e : QEnt} {x : Inst} (ecc : Nat)
    (noLimbo : (s.bas.limbo.find? fun l => l.1 == q) = none)
    (fetched : ((s.queue q).find? fun e => e.fetch.isSome && !e.back) = some e) (stored : s.inst e.inst = some x) :
    s.blockCheck q ecc = s.blockArrive q ecc e x := by
  simp only [State.blockCheck, noLimbo, fetched, stored]

/-- The end of a read that had timed out gives up what it held. -/
theorem State.blockCheck_limbo {s : State} {q : Nat} {l : Nat × Blk} (ecc : Nat)
    (held : (s.bas.limbo.find? fun l => l.1 == q) = some l) : s.blockCheck q ecc = s.limboEnd l := by
  simp only [State.blockCheck, held]

/-! ### Transfers past tDTO, and the relocation of a block -/

/-- A vent write past tDTO drops every copy of what it wrote. -/
theorem State.deepTimeout_write {s : State} {n : Nat} {x : Inst} (stored : s.inst n = some x) (issued : x.place = 2) :
    s.deepTimeout false n = (s.reach (x.at_ + 100000)).each
      ((s.reach (x.at_ + 100000)).bas.queues.flatMap fun e => (e.2.filter fun y => y.inst == n).map fun y => (e.1, y))
      fun s h => s.basinDrop 0x47 h.1 h.2 := by
  unfold State.deepTimeout
  rw [if_neg Bool.false_ne_true, stored]
  exact if_neg (not_not.2 issued)

/-- A fetch past tDTO drops its copy; its block stays held until the read ends. -/
theorem State.deepTimeout_fetch {s t : State} {q : Nat} {e : QEnt} {x : Inst}
    (fetched : ((s.queue q).find? fun e => e.fetch.isSome && !e.back) = some e) (late : t = s.reach (e.fetch.getD 0 + 100000))
    (stored : t.inst e.inst = some x) (inBlock : x.place = 3) :
    s.deepTimeout true q = (t.modBas fun b => { b with limbo := t.bas.limbo ++ [(q, x.blk)] }).basinDrop 0x47 q e := by
  subst late
  unfold State.deepTimeout
  obtain ⟨R, reached⟩ : ∃ R, @State.reach = R := ⟨_, rfl⟩
  rw [reached] at stored ⊢
  simp only [fetched, stored, inBlock, if_true]

/-- The first live block of a draining channel moves to another channel. -/
theorem State.relocate_moves {s t : State} {ch to_ : Nat} {l : List Nat} {x : Inst} {b : Blk} (live : s.firstBlock ch = some x)
    (draining : s.ust (uDMC ch) = 5) (up : s.up (uXP 33 33) = true) (chans : s.freeChans x.pool = to_ :: l)
    (taken : s.takeBlock x.pool to_ x.req = some (b, t)) :
    s.relocate ch = (((t.blockMove x b).freeBlock { x with refCtr := false }).setInst x.id
      (some { x with ch := b.ch, block := b.num })).addF uBPM F.BPM_RELOCATED_COUNT 1 := by
  unfold State.relocate
  simp only [live, draining, up, chans, taken, List.head?_cons, ne_eq, not_true_eq_false, Bool.not_true, Bool.false_eq_true,
    or_self, if_false]

/-- Settles O15: each piece of work of the vent, the returns and the block pool by its own lemma. That an uncorrectable error of
the vent's read drops the copies it stood for is log entry 84. -/
theorem deepBufferCommandsComplete : Obligations.DeepBufferCommandsComplete := by
  unfold Obligations.DeepBufferCommandsComplete
  refine ⟨fun s i err x l runs noFooting govOpen bpm turn waits => ?vent, fun s id x runs stored issued => ?written,
    fun s i q runs vent shallow low => ?direct, fun s j q runs turn => ?fetch,
    fun s q ecc e x runs noLimbo fetched stored noFooting whole chan up young => ?block, fun s q ecc l runs held => ?limbo,
    fun s n x runs stored issued => ?lateWrite, fun s q e x runs fetched stored inBlock => ?lateFetch,
    fun s ch to_ l x b t runs live draining up chans taken => ?move⟩
  case vent => exact State.act_eq runs (State.ventCell_turn err noFooting govOpen bpm turn waits)
  case written => exact State.act_eq runs (State.ventDone_issued stored issued)
  case direct => exact State.act_eq runs (State.ventReturn_direct vent shallow low)
  case fetch => exact State.act_eq runs (State.fetchNext_turn turn)
  case block =>
    exact State.act_eq runs ((State.blockCheck_fetched ecc noLimbo fetched stored).trans
      (State.blockArrive_checked noFooting whole chan rfl rfl up young))
  case limbo => exact State.act_eq runs (State.blockCheck_limbo ecc held)
  case lateWrite => exact State.act_eq runs (State.deepTimeout_write stored issued)
  case lateFetch => exact State.act_eq runs (State.deepTimeout_fetch fetched rfl stored inBlock)
  case move => exact State.act_eq runs (State.relocate_moves live draining up chans taken)

end Sys2Proof.Machine
end

section
/-! ## The traffic manager (R286–R300) -/

open Sys2Proof Sys2Proof.Machine
namespace Sys2Proof.Machine

/-- The copy at the head of the queue a scheduler descends to is sent, or dropped past its age limit. -/
theorem State.tmDecide_head {s a b t : State} {k sc p q : Nat} {e : QEnt} {l : List QEnt}
    (inService : s.ust (uTMQ k) = 4 ∨ s.ust (uTMQ k) = 5) (notIsolated : s.getF (uTMQ k) F.UCB_STATE_ISOLATED ≠ 1)
    (on : s.fwdOn = true)
    (woken : a = s.each ((s.busyQueues k).filter fun q => (schedPorts k sc).contains (s.queuePort q)) fun s q =>
      s.comeUp (s.queue q).length q)
    (noted : b = if a.footing then a else a.noteAll k sc) (picked : b.pickPort k sc = some p)
    (found : (b.modBas fun x => { x with lastPort := b.bas.lastPort.put (fun _ => 2 ^ 16) (k * 16 + sc) p }).descend k p
      = some (q, t))
    (head : t.queue q = e :: l) :
    s.tmDecide k sc =
      let d := t.ns - e.enq
      if t.aged q e then ((t.popQueue q).telUp q fun t => { t with
        lmin := some (min d (t.lmin.getD d)), lmax := max t.lmax d }).tmDrop 0x49 q e 0
      else
        let c := t.chargePath q (match t.inst e.inst with | some x => x.pkt.frame.length | none => 0)
        let y := (c.popQueue q).telUp q fun t => { t with
          sent := t.sent + 1, lmin := some (min d (t.lmin.getD d)), lmax := max t.lmax d }
        (y.occur (uTMQ k) 0x100 (tmBand (y.tmEnt 0x50 q)) none 0 1).passOn q e := by
  subst woken noted
  unfold State.tmDecide
  simp only [inService, notIsolated, on, picked, found, head, not_true_eq_false, Bool.not_true, Bool.false_eq_true, or_self,
    if_false] <;> rfl

/-- Only the page asked for first is read. -/
theorem State.pageRead_early {s : State} {q pg at_ : Nat} (ecc : Nat) (page : s.headPage q = some pg)
    (asked : s.pageAsked q = some at_) (early : s.pageBefore q at_ = true) : s.pageRead q ecc = s := by
  unfold State.pageRead
  obtain ⟨D, read⟩ : ∃ D, @State.dramRead = D := ⟨_, rfl⟩
  rw [read]
  simp only [page, asked, early, if_true]

/-- A page read on chip loses the entries whose write was discarded; one that cannot be read is lost. -/
theorem State.pageRead_turn {s : State} {q pg at_ : Nat} (ecc : Nat) (page : s.headPage q = some pg)
    (asked : s.pageAsked q = some at_) (turn : s.pageBefore q at_ = false) :
    s.pageRead q ecc =
      let r := s.dramRead (3 * 4096 + q / 65536) (s.pageAddr (q / 65536) pg) 256 ecc
      let t := r.2.entriesLost q ((r.2.queue q).filter fun e => e.page == some pg && e.unwritten)
      if r.1.isSome then (if t.bas.pages.contains (q / 65536, pg) then t.pageIn q pg else t) else r.2.pageLose q pg := by
  unfold State.pageRead
  obtain ⟨D, read⟩ : ∃ D, @State.dramRead = D := ⟨_, rfl⟩
  rw [read]
  simp only [page, asked, turn, Bool.false_eq_true, if_false]
  cases D s (3 * 4096 + q / 65536) (s.pageAddr (q / 65536) pg) 256 ecc with
  | mk data t => cases data <;> rfl

theorem State.pageTimeout_asked {s : State} {q pg at_ : Nat} (page : s.headPage q = some pg)
    (asked : s.pageAsked q = some at_) : s.pageTimeout q = (s.reach (at_ + 100000)).pageLose q pg := by
  unfold State.pageTimeout
  obtain ⟨R, reached⟩ : ∃ R, @State.reach = R := ⟨_, rfl⟩
  rw [reached]
  simp only [page, asked]

/-- A flush step drops the next copy of the port. -/
theorem State.flushStep_copy {s : State} {p n q : Nat} {e : QEnt} {l : List QEnt} {qs : List Nat}
    (flushing : (s.port p).flush = some n) (queues : s.portQueues p = q :: qs) (head : s.queue q = e :: l) :
    s.flushStep p = let t := (s.popQueue q).tmDrop 0x07 q e 0
      t.setPort p { t.port p with flush := some (n + 1) } := by
  simp only [State.flushStep, flushing, queues, head]

/-- The last flush step clears FLUSHING and raises EVT_PORT_FLUSHED. -/
theorem State.flushStep_last {s : State} {p n : Nat} (flushing : (s.port p).flush = some n)
    (queues : s.portQueues p = []) :
    s.flushStep p = ((s.setPort p { s.port p with flush := none }).setF (uTMQ (p / 64))
      (F.TMQ_PORT_STATUS_FLUSHING.i (p % 64)) 0).event 0x13 p (uMAC (p / 8)) p n := by
  simp only [State.flushStep, flushing, queues]

/-- A read copy is given to the course that serves its port, unless a table word of its pass is uncorrectable. -/
theorem State.egressRead_course {s : State} {port n col : Nat} {e : QEnt} {k : Pkt} (r : Reads)
    (serves : (s.sampleHeader col k).serving (port / 32) = some n) :
    s.egressRead port e col k r =
      let w := (s.sampleHeader col k).meets ((s.sampleHeader col k).egressWords port k e.copy) r
      let c := (s.sampleHeader col k).readEcc n [0x18, 0x31, 0x41, 0x42] w
      if c.1 then c.2.egEcc n k w.tid else c.2.egressCourse n port k e.copy := by
  simp only [State.egressRead, serves]
  cases (s.sampleHeader col k).readEcc n [0x18, 0x31, 0x41, 0x42]
    ((s.sampleHeader col k).meets ((s.sampleHeader col k).egressWords port k e.copy) r) with
  | mk bad t => cases bad <;> rfl

/-- A read copy whose port no course serves is dropped. -/
theorem State.egressRead_retired {s : State} {port col : Nat} {e : QEnt} {k : Pkt} (r : Reads)
    (serves : (s.sampleHeader col k).serving (port / 32) = none) :
    s.egressRead port e col k r = (s.sampleHeader col k).egDrop 0x60 port (uCRS (port / 32)) k e.copy k.frame := by
  simp only [State.egressRead, serves]

/-- An egress pass is what reading the copy out allows. -/
theorem State.egressPass_item {s : State} {p : Nat} {x : EgItem} {i : Inst} (err : Nat) (r : Reads)
    (item : (s.bas.egress.find? fun y => y.port == p) = some x) (stored : s.inst x.ent.inst = some i) :
    s.egressPass p err r =
      let o := (s.modBas fun b => { b with egress := s.bas.egress.erase x }).readOut x.col err x.ent i
      if o.1 then o.2.egressRead p x.ent x.col
        { i.pkt with color := x.ent.color, adm := { i.pkt.adm with pass := i.pkt.adm.pass + 1 } } r else o.2 := by
  have here : (s.modBas fun b => { b with egress := s.bas.egress.erase x }).inst x.ent.inst = some i := stored
  simp only [State.egressPass, item, here]
  cases (s.modBas fun b => { b with egress := s.bas.egress.erase x }).readOut x.col err x.ent i with
  | mk ok t => cases ok <;> rfl

/-- The frame a port sends leaves it, counted with its length. -/
theorem State.txEnd_head {s u : State} {p : Nat} {x : TxItem} (begun : u = s.txBegin p) (head : u.txHead p = some x) :
    s.txEnd p =
      let t := u.setSending (dropTx (fun x => x.port == p && x.started) u.bas.sending)
      ((((if t.twin.squelched then t else t.send (.frame p x.data false)).portCtr p 17 1).portCtr p 18 x.data.length).mcDone
        x.pkt true).pauseFlush p |>.txBegin p := by
  subst begun
  simp only [State.txEnd, head]

/-- Settles O16: the decision, the page, the flush, the egress pass and the end of a transmission, each by its own lemma. The
entries whose write was discarded are lost one by one by log entry 85. -/
theorem queuesSendTheirCopies : Obligations.QueuesSendTheirCopies := by
  unfold Obligations.QueuesSendTheirCopies
  refine ⟨fun s qd sc p q e l t runs inService notIsolated on picked found head => ⟨fun old => ?aged, fun young => ?sent⟩,
    fun s q ecc pg at_ runs page asked early => ?early, fun s q ecc pg at_ runs page asked turn => ?turn,
    fun s q pg at_ runs page asked => ?lost, fun s p n q e l qs runs flushing queues head => ?copy,
    fun s p n runs flushing queues => ?last, fun s p n err ecc tid slot x i u runs item stored read serves => ?course,
    fun s p err ecc tid slot x i u runs item stored read serves => ?retired,
    fun s p err ecc tid slot x i u runs item stored read => ?unread, fun s p x runs head => ?transmitted⟩
  case aged =>
    exact State.act_eq runs ((State.tmDecide_head inService notIsolated on rfl rfl picked found head).trans (if_pos old))
  case sent =>
    exact State.act_eq runs ((State.tmDecide_head inService notIsolated on rfl rfl picked found head).trans
      (if_neg (Bool.eq_false_iff.1 young)))
  case early => exact State.act_eq runs (State.pageRead_early ecc page asked early)
  case turn => exact State.act_eq runs (State.pageRead_turn ecc page asked turn)
  case lost => exact State.act_eq runs (State.pageTimeout_asked page asked)
  case copy => exact State.act_eq runs (State.flushStep_copy flushing queues head)
  case last => exact State.act_eq runs (State.flushStep_last flushing queues)
  case course =>
    refine State.act_eq runs ((State.egressPass_item err _ item stored).trans ?_)
    rw [read]
    exact State.egressRead_course _ serves
  case retired =>
    refine State.act_eq runs ((State.egressPass_item err _ item stored).trans ?_)
    rw [read]
    exact State.egressRead_retired _ serves
  case unread =>
    refine State.act_eq runs ((State.egressPass_item err _ item stored).trans ?_)
    rw [read]
    rfl
  case transmitted => exact State.act_eq runs (State.txEnd_head rfl head)

end Sys2Proof.Machine
end

section
/-! ## Jobs and threads (R176–R190) -/

open Sys2Proof Sys2Proof.Machine
namespace Sys2Proof.Machine

/-- A router with room reads its oldest copy out; one that is read becomes a job or a punt. -/
theorem State.jobAccept_head {s t : State} {c err : Nat} {e : QEnt} {rest : List QEnt} {i : Inst} {ok : Bool}
    (head : s.bas.router.get (fun _ => []) c = e :: rest) (ready : s.routerReady c = true) (on : s.fwdOn = true)
    (noFooting : s.footing = false) (stored : s.inst e.inst = some i)
    (read : (s.modBas fun b => { b with router := s.bas.router.put (fun _ => []) c rest }).readOut 32 err e i = (ok, t)) :
    s.jobAccept c err = if ok then t.jobEnter c e i.pkt else t := by
  simp only [State.jobAccept, head, ready, on, noFooting, stored, read, Bool.not_true, Bool.false_eq_true, or_self, if_false]
  cases ok <;> rfl

theorem State.jobEnter_punt {s : State} {c r : Nat} {e : QEnt} {p : Pkt} (punt : e.copy.punt = some r) :
    s.jobEnter c e p = s.setPunts (s.punts ++ [⟨r, e.copy.reason, 0, p, some c, jobCells p.frame.length, false⟩]) := by
  simp only [State.jobEnter, punt]

theorem State.jobEnter_job {s : State} {c : Nat} {e : QEnt} {p : Pkt} (job : e.copy.punt = none) :
    s.jobEnter c e p =
      s.draw.2.setCluster c { s.draw.2.cluster c with queued := (s.draw.2.cluster c).queued ++ [newJob e p s.draw.1] } := by
  simp only [State.jobEnter, job]

/-- The oldest job goes to the thread that has waited longest, unless its deadline has passed. -/
theorem State.jobDispatch_head {s : State} {c t : Nat} {j : Job} {rest : List Job} (head : (s.cluster c).queued = j :: rest)
    (waiter : s.longestWaiter c = some t) (room : (s.cluster c).outst.length < 256) :
    s.jobDispatch c = if s.pastDeadline j.pkt then
      ((s.setCluster c { s.cluster c with queued := rest }).addF (uEC c) F.EC_CTR_DEADLINE 1).dropCluster 0x10 c 0 j.pkt
      else s.giveJob c t j rest := by
  simp only [State.jobDispatch, head, waiter, if_neg (Nat.not_le.2 room)]

/-- What the ending of a job does with its packet. -/
def State.endingFate (s : State) (c : Nat) (j : OutJob) (e : List Nat) : State :=
  match endKind e with
  | 1 => s.recirculate c (endCourse e) (endProfile e) (endedPkt j e)
  | 2 => s.queueEnding (endedPkt j e) e
  | _ => s.setPunts (s.punts ++ [⟨endRing e, endCode e, endUser e, endedPkt j e, some c, j.job.cells, false⟩])

/-- The next ending in release order leaves. -/
theorem State.jobRelease_next {s : State} {c : Nat} {j : OutJob} (next : firstRelease [] (s.cluster c).outst = some j) :
    s.jobRelease c = (s.endJob c j).endingFate c j (j.ending.getD []) := by
  simp only [State.jobRelease, next]
  rfl

/-- A punt is written into the buffers posted to its ring. -/
theorem State.puntWrite_posted {s t : State} {r : Nat} {x : PuntPkt} (waits : (s.punts.find? fun x => x.ring == r) = some x)
    (taken : t = s.setPunts (s.punts.erase x)) (size : t.ringLog r ≠ 0) (type : t.ringType r = 2)
    (enabled : t.ringState r ≠ 0) (notHalted : t.ringState r ≠ 4) (up : t.ringUp r 2 = true)
    (room : (puntHeader x ++ x.pkt.frame).length ≤ ((t.posted r).map (·.len)).sum) (noSample : x.sample = false) :
    s.puntWrite r =
      ((t.fillBufs r (t.posted r) (puntHeader x ++ x.pkt.frame) true).leaveFlight x.pkt).mcDone x.pkt true := by
  subst taken
  simp only [State.puntWrite, waits, size, type, enabled, notHalted, up, noSample, ne_eq,
    not_true_eq_false, Bool.not_true, Bool.false_eq_true, or_self, if_false, Nat.not_lt.2 room]

/-- Settles O17: the router, the dispatch, the release and the punt, each by its own lemma. -/
theorem jobsReachThreadsAndLeave : Obligations.JobsReachThreadsAndLeave := by
  unfold Obligations.JobsReachThreadsAndLeave
  refine ⟨fun s t n err e rest i ok runs head ready on noFooting stored read =>
      ⟨fun r good punt => ?punt, fun good job => ?job, fun bad => ?unread⟩,
    fun s n t j rest runs head waiter room => ⟨fun young => ?given, fun old => ?late⟩,
    fun s n j runs next => ⟨fun kind => ?recirculates, fun kind => ?queued, fun kind => ?punted⟩,
    fun s r x runs waits size type enabled notHalted up room noSample => ?written⟩
  case punt =>
    exact State.act_eq runs ((State.jobAccept_head head ready on noFooting stored read).trans
      ((if_pos good).trans (State.jobEnter_punt punt)))
  case job =>
    exact State.act_eq runs ((State.jobAccept_head head ready on noFooting stored read).trans
      ((if_pos good).trans (State.jobEnter_job job)))
  case unread =>
    exact State.act_eq runs ((State.jobAccept_head head ready on noFooting stored read).trans (if_neg (Bool.eq_false_iff.1 bad)))
  case given => exact State.act_eq runs ((State.jobDispatch_head head waiter room).trans (if_neg (Bool.eq_false_iff.1 young)))
  case late => exact State.act_eq runs ((State.jobDispatch_head head waiter room).trans (if_pos old))
  case recirculates => exact State.act_eq runs ((State.jobRelease_next next).trans (by simp only [State.endingFate, kind]))
  case queued => exact State.act_eq runs ((State.jobRelease_next next).trans (by simp only [State.endingFate, kind]))
  case punted => exact State.act_eq runs ((State.jobRelease_next next).trans (by simp only [State.endingFate, kind]))
  case written => exact State.act_eq runs (State.puntWrite_posted waits rfl size type enabled notHalted up room noSample)

/-! ### Threads -/

/-- A job whose budget runs out is aborted at that time. -/
theorem State.budgetExpire_job {s : State} {k : Nat} {j : OutJob} (job : s.jobOf k = some j) (runs : (s.thread k).st ≠ 6) :
    s.budgetExpire k =
      ((s.reachCore ((s.thread k).budgetAt + cycTime (s.thread k).budget)).abortJob k 0x39).restart k := by
  unfold State.budgetExpire
  exact if_neg (by simp [job, runs])

/-- The oldest result of a space returns to its register, or faults its thread. -/
theorem State.memReturn_oldest {s : State} {k sp : Nat} {m : MemOp}
    (oldest : ((s.thread k).mem.find? fun m => m.space == sp && m.space != 5) = some m) :
    s.memReturn k sp =
      let r := s.setThread k { s.thread k with mem := (s.thread k).mem.erase m }
      let u := (r.setOpReg k m.reg m.value).settleUnlocks k
      if m.bad then r.threadFault k else if (s.thread k).st = 5 then u.wake k else u := by
  simp only [State.memReturn, oldest]

/-- What a wait of a kind gives up when it ends with its failure condition. -/
def State.waitFails (s : State) (k : Nat) (x : Thread) : State :=
  let u := s.setCluster (ecOf k) { s.cluster (ecOf k) with waiting := (s.cluster (ecOf k)).waiting.erase (tidOf k) }
  let v := if x.waitSt = 3 then u.setChan (ecOf k) x.waitObj
    { u.chan (ecOf k) x.waitObj with waiting := (u.chan (ecOf k) x.waitObj).waiting.erase (tidOf k) } else u
  let w := if x.waitSt = 4 then v.setLock (ecOf k) x.waitObj
    { v.lockSt (ecOf k) x.waitObj with waiting := (v.lockSt (ecOf k) x.waitObj).waiting.erase (tidOf k) } else v
  ((if x.waitSt = 4 then w else w.setOpReg k x.waitReg 0).setCond k
    (if x.waitSt = 2 then 19 else if x.waitSt = 3 then 17 else 18) 1).wake k

/-- A wait that began before every memory operation still out is the one that reaches tCHW. -/
theorem State.waitTimeout_wait {s : State} {k : Nat} (waits : (s.thread k).waitSt ≠ 0)
    (first : ((s.thread k).mem.all fun m => decide ((s.thread k).waitAt ≤ m.since)) = true) :
    s.waitTimeout k = (s.reachCore ((s.thread k).waitAt + cycTime chwCycles)).waitFails k (s.thread k) := by
  unfold State.waitTimeout
  exact if_pos ⟨waits, first⟩

/-- Otherwise it is the oldest memory operation. -/
theorem State.waitTimeout_mem {s : State} {k : Nat} {m : MemOp} {l : List MemOp}
    (later : (s.thread k).waitSt = 0 ∨ ((s.thread k).mem.all fun m => decide ((s.thread k).waitAt ≤ m.since)) = false)
    (oldest : (s.thread k).mem = m :: l) :
    s.waitTimeout k =
      ((s.reachCore (m.since + cycTime chwCycles)).setThread k { s.thread k with mem := l }).threadFault k := by
  have notWait : ¬ ((s.thread k).waitSt ≠ 0 ∧
      ((s.thread k).mem.all fun m => decide ((s.thread k).waitAt ≤ m.since)) = true) := by
    rintro ⟨waits, first⟩
    rcases later with none | some
    · exact waits none
    · exact Bool.false_ne_true (some.symm.trans first)
  unfold State.waitTimeout
  obtain ⟨R, reached⟩ : ∃ R, @State.reachCore = R := ⟨_, rfl⟩
  rw [reached]
  refine (if_neg notWait).trans ?_
  simp only [oldest]

theorem State.waitFails_job {s : State} {k : Nat} {x : Thread} (kind : x.waitSt = 2) :
    s.waitFails k x =
      let u := s.setCluster (ecOf k) { s.cluster (ecOf k) with waiting := (s.cluster (ecOf k)).waiting.erase (tidOf k) }
      ((u.setOpReg k x.waitReg 0).setCond k 19 1).wake k := by
  simp [State.waitFails, kind]

theorem State.waitFails_chan {s : State} {k : Nat} {x : Thread} (kind : x.waitSt = 3) :
    s.waitFails k x =
      let u := s.setCluster (ecOf k) { s.cluster (ecOf k) with waiting := (s.cluster (ecOf k)).waiting.erase (tidOf k) }
      (((u.setChan (ecOf k) x.waitObj { u.chan (ecOf k) x.waitObj with
        waiting := (u.chan (ecOf k) x.waitObj).waiting.erase (tidOf k) }).setOpReg k x.waitReg 0).setCond k 17 1).wake k := by
  simp [State.waitFails, kind]

theorem State.waitFails_lock {s : State} {k : Nat} {x : Thread} (kind : x.waitSt = 4) :
    s.waitFails k x =
      let u := s.setCluster (ecOf k) { s.cluster (ecOf k) with waiting := (s.cluster (ecOf k)).waiting.erase (tidOf k) }
      ((u.setLock (ecOf k) x.waitObj { u.lockSt (ecOf k) x.waitObj with
        waiting := (u.lockSt (ecOf k) x.waitObj).waiting.erase (tidOf k) }).setCond k 18 1).wake k := by
  simp [State.waitFails, kind]

/-- A stalled engine that restarts loses its threads' jobs. -/
theorem State.engineStall_restarts {s t : State} {c e : Nat} (stalled : s.stalled (32 * c + e) = true)
    (up : s.engineRuns (uENG c e) = true) (told : t = s.stallTold c e)
    (restarts : t.getF (uENG c e) F.ENG_CFG_STALL_HALT = 0) :
    s.engineStall c e =
      (t.each (List.range 8) fun s i => (s.abortJob (8 * (32 * c + e) + i) 0x3C).freeHolds (8 * (32 * c + e) + i)).stallRestart
        (32 * c + e) := by
  subst told
  simp only [State.engineStall, stalled, up, restarts, Bool.not_true, Bool.false_eq_true, or_self, if_false, if_true]

/-- With STALL_HALT its threads halt, and each that was not stopped is recorded. -/
theorem State.engineStall_halts {s t : State} {c e : Nat} (stalled : s.stalled (32 * c + e) = true)
    (up : s.engineRuns (uENG c e) = true) (told : t = s.stallTold c e)
    (halts : t.getF (uENG c e) F.ENG_CFG_STALL_HALT = 1) :
    s.engineStall c e =
      (t.each (List.range 8) fun s i => (s.setThread (8 * (32 * c + e) + i) { s.thread (8 * (32 * c + e) + i) with
        st := 6, budget := s.budgetLeft (8 * (32 * c + e) + i) }).closeSample (8 * (32 * c + e) + i)).each
      ((List.range 8).filter fun i => (t.thread (8 * (32 * c + e) + i)).st != 0)
        fun s i => s.debugRecord (8 * (32 * c + e) + i) 4 0 0 := by
  subst told
  simp only [State.engineStall, stalled, up, halts, Bool.not_true, Bool.false_eq_true, or_self, if_false, one_ne_zero]

theorem State.sampleTimeout_open {s : State} {k : Nat} {p : Sample} (sample : (s.thread k).sample = some p) :
    s.sampleTimeout k = (s.reachCore (cycTime (p.cyc + 65535))).closeSample k := by
  unfold State.sampleTimeout
  obtain ⟨R, reached⟩ : ∃ R, @State.reachCore = R := ⟨_, rfl⟩
  rw [reached]
  simp only [sample]

theorem State.stepEnd_done {s : State} {k : Nat} (runs : (s.thread k).st = 1) (done : (s.thread k).stepLeft = some 0) :
    s.stepEnd k = ((s.setThread k { s.thread k with
      st := 6, stepLeft := none, budget := s.budgetLeft k }).closeSample k).debugRecord k 3 0 0 := by
  unfold State.stepEnd
  exact if_pos ⟨runs, done⟩

/-- Settles O18: each timer, return and step of a thread by its own lemma. -/
theorem threadTimersAndReturns : Obligations.ThreadTimersAndReturns := by
  unfold Obligations.ThreadTimersAndReturns
  refine ⟨fun s c e t j runs job live => ?budget, fun s c e t sp m runs oldest => ?returned,
    fun s c e t runs => ⟨fun kind first => ?job, fun kind first => ?chan, fun kind first => ?lock, fun m l later oldest => ?mem⟩,
    fun s c e runs stalled up => ⟨fun restarts => ?restart, fun halts => ?halt⟩,
    fun s c e t p runs sample => ?sample, fun s c e t runs live done => ?step⟩
  case budget => exact State.act_eq runs (State.budgetExpire_job job live)
  case returned => exact State.act_eq runs (State.memReturn_oldest oldest)
  case job =>
    exact State.act_eq runs ((State.waitTimeout_wait (ne_of_eq_of_ne kind (by decide)) first).trans (State.waitFails_job kind))
  case chan =>
    exact State.act_eq runs ((State.waitTimeout_wait (ne_of_eq_of_ne kind (by decide)) first).trans (State.waitFails_chan kind))
  case lock =>
    exact State.act_eq runs ((State.waitTimeout_wait (ne_of_eq_of_ne kind (by decide)) first).trans (State.waitFails_lock kind))
  case mem => exact State.act_eq runs (State.waitTimeout_mem later oldest)
  case restart => exact State.act_eq runs (State.engineStall_restarts stalled up rfl restarts)
  case halt => exact State.act_eq runs (State.engineStall_halts stalled up rfl halts)
  case sample => exact State.act_eq runs (State.sampleTimeout_open sample)
  case step => exact State.act_eq runs (State.stepEnd_done live done)

end Sys2Proof.Machine
end

section
/-! ## Debug, microcode images, ALU and sequencer rows (R191–R205) -/

open Sys2Proof Sys2Proof.Machine
namespace Sys2Proof.Machine

/-- A debug descriptor that passes every check does what its operation says on the engine it names. -/
theorem State.debugCmd_ready {s : State} {r op : Nat} {d : Desc} {form : Desc → Bool} {masks : Nat → Bool} {halted : Bool}
    {go : Desc → Nat → State → State} (ready : s.dbgReady r op d form masks halted) :
    s.debugCmd r op form masks halted go = go d (dbgBase d) s := by
  obtain ⟨next, type, owner, engine, resv, resv', mask, formed, on, up, notIsolated, halts⟩ := ready
  have allHalted : ¬ (halted = true ∧ (!(maskThreads (dbgMask d)).all fun t =>
      (s.thread (256 * ((dbgUid d - 0x400) / 64) + 8 * (dbgUid d % 64 - 16) + t)).st == 6) = true) := by
    rintro ⟨need, live⟩
    refine Bool.false_ne_true (((Bool.not_eq_true' _).mp live).symm.trans (List.all_eq_true.2 fun t named => ?_))
    exact beq_iff_eq.2 (halts need t named)
  unfold State.debugCmd
  simp only [next, type, owner, engine, resv, resv', mask, formed, on, up, notIsolated, allHalted, ne_eq, not_true_eq_false,
    Bool.not_true, Bool.false_eq_true, or_self, if_false]
  rfl

/-- Settles O19: each operation is what its descriptor does once it passes the checks. -/
theorem debugCommandsReachTheEngine : Obligations.DebugCommandsReachTheEngine := by
  unfold Obligations.DebugCommandsReachTheEngine
  refine ⟨fun s r d runs ready => ?halt, fun s r d runs ready => ?resume, fun s r d runs ready => ?step,
    fun s r d runs ready => ?readGregs, fun s r d data runs ready => ⟨?writeGreg, ?writeGregFails⟩,
    fun s r d runs ready => ?readLmem, fun s r d data runs ready => ⟨?writeLmem, ?writeLmemFails⟩,
    fun s r d runs ready => ?readCstore⟩
  all_goals exact State.act_eq runs (State.debugCmd_ready ready)

/-! ### Images -/

/-- A UCODE_LOAD whose turn it is goes by FWD, the read of its image and what the load checks answer. -/
theorem State.ucodeLoad_turn {s : State} {r : Nat} {data : List Byte} {ok : Bool} {d : Desc} (next : s.nextDesc r 0x31 = some d)
    (free : s.wardenFree = true) (noRecovery : s.bit uWDN F.WDN_FW_STATUS_RECOVERY = false)
    (first : s.firstRead s.imgOps d = true) :
    s.ucodeLoad r data ok =
      if s.fwdOn then
        if ok then match s.loadStart (sliceBytes data 0 d.len) (namedEngines d.w2) r d.idx with
          | .error (st, info) => s.complete r d.idx (comp st 0 info)
          | .ok t => t.setDesc r d.idx fun d => { d with begun := true }
        else s.complete r d.idx (comp 3 0 0)
      else s.complete r d.idx (comp 7 0 0) := by
  have takes : s.imgOps.contains 0x31 = true := by simp [State.imgOps, noRecovery]
  simp only [State.ucodeLoad, next, free, takes, first, Bool.not_true, Bool.false_eq_true, or_self, if_false]
  cases s.fwdOn <;> cases ok <;> rfl

/-- A load that is done leaves the image in the control store of each engine it names. -/
theorem State.ucodeDone_loaded {s : State} {l : ULoad} (runs : s.running = true) (load : s.eng.load = some l) :
    s.ucodeDone = ((s.each l.engines fun s u => s.loadEngine l u).modEng fun e =>
      { e with load := none }).complete l.ring l.idx (comp 0 0 l.engines.length) := by
  simp only [State.ucodeDone, load, runs, Bool.not_true, Bool.false_eq_true, if_false]

/-- Settles O20: the descriptor whose turn it is, and the end of a load. -/
theorem microcodeImagesLoad : Obligations.MicrocodeImagesLoad := by
  unfold Obligations.MicrocodeImagesLoad
  refine ⟨fun s r data d runs next free noRecovery first =>
      ⟨fun on => ⟨fun t begins => ?begins, fun st info fails => ?fails, ?unread⟩, fun off ok => ?off⟩,
    fun s l runs load => ?done⟩
  case begins =>
    exact State.act_eq runs ((State.ucodeLoad_turn next free noRecovery first).trans (by simp only [on, begins, if_true]))
  case fails =>
    exact State.act_eq runs ((State.ucodeLoad_turn next free noRecovery first).trans (by simp only [on, fails, if_true]))
  case unread =>
    exact State.act_eq runs ((State.ucodeLoad_turn next free noRecovery first).trans ((if_pos on).trans (if_neg Bool.false_ne_true)))
  case off =>
    exact State.act_eq runs ((State.ucodeLoad_turn next free noRecovery first).trans (if_neg (Bool.eq_false_iff.1 off)))
  case done => exact State.act_eq runs (State.ucodeDone_loaded runs load)

/-! ### ALU rows -/

/-- SETF is a MOV without flags that then sets its mask's F0 to F7. -/
theorem State.aluSetf_ready {s : State} {k : Nat} (ready : s.aluReady k 0x13) :
    s.aluSetf k =
      let u := (s.iss k).gives k (s.word k) ((s.iss k).opB k (s.word k)) 0
      u.setThread k { u.thread k with cond := withSetf (u.thread k).cond (u.thread k).aluRes } := by
  have undone : ((s.beginIssue k).state.thread k).aluDone = false := ready.2.2.2
  have done : (((s.iss k).gives k (s.word k) ((s.iss k).opB k (s.word k)) 0).thread k).aluDone = true := by
    rw [State.gives_thread_self]
  simp only [State.aluSetf, State.aluSlot_ready ready, undone, done, Bool.not_false, Bool.and_self, if_true]

/-- Settles O21: every row is the ALU slot with its own result and flags. -/
theorem aluRowsGiveTheirResults : Obligations.AluRowsGiveTheirResults := by
  unfold Obligations.AluRowsGiveTheirResults
  intro s c e t runs k w a b
  have row {op f fl} (ready : s.aluReady k op) :
      s.act (s.aluSlot k op f fl) = .next (s.after ((s.iss k).gives k w (f a b (uSh w)) (fl a b (f a b (uSh w))))) :=
    State.act_eq runs (State.aluSlot_ready ready)
  exact ⟨row, row, row, row, row, row, row, row, row, row, row, row, row, row, row, row, row, row, row, row,
    fun ready => State.act_eq runs (State.aluSetf_ready ready)⟩

/-! ### Sequencer rows -/

/-- FAULT, and a word that cannot be corrected, fault the thread. -/
theorem State.illegalIssue_faults {s : State} {k ecc : Nat} (go : (s.beginIssue k).go = true)
    (illegal : uSeq (s.word k) = 0 ∨ ecc = 2) :
    s.illegalIssue k ecc = (((s.iss k).when (ecc == 1) fun s => s.csCorrected k).when (ecc == 2) fun s =>
      s.csUncorrectable k).threadFault k := by
  have faults : ¬ ((!(s.beginIssue k).go) = true ∨ uSeq (s.beginIssue k).word ≠ 0 ∧ ecc ≠ 2) := by
    rintro (stays | ⟨row, good⟩)
    · simp [go] at stays
    · exact illegal.elim row good
  unfold State.illegalIssue
  exact if_neg faults

/-- Settles O24: every row is the sequencer slot with its own next address and stack. -/
theorem sequencerRowsEndTheMicroword : Obligations.SequencerRowsEndTheMicroword := by
  unfold Obligations.SequencerRowsEndTheMicroword
  intro s c e t corr runs k w x u
  have row {op nx} (ready : s.seqReady k op) : s.act (s.seqSlot k op corr nx) = .next (s.after
      (match nx x w with | some (pc, st) => u.endIssue k w pc st | none => u.threadFault k)) :=
    State.act_eq runs (State.seqSlot_ready ready)
  refine ⟨row, fun ready room => (row ready).trans ?call, fun ready full => (row ready).trans ?callFull,
    fun a l ready stack => (row ready).trans ?ret, fun ready empty => (row ready).trans ?retEmpty, row,
    fun ecc go illegal => State.act_eq runs (State.illegalIssue_faults go illegal)⟩
  case call => simp only [seqCall, if_neg (Nat.not_le.2 room)]
  case callFull => simp only [seqCall, if_pos full]
  case ret => simp only [seqRet, stack]
  case retEmpty => simp only [seqRet, empty]

end Sys2Proof.Machine
end

section
/-! ## Loads, stores, lookups, channels and locks (R206–R234) -/

open Sys2Proof Sys2Proof.Machine
namespace Sys2Proof.Machine

/-- A memory row of a thread whose memory slot is to be done ends what the row does. -/
theorem State.memRow {s v : State} {k op : Nat} {corr : Bool} {f : State → Nat → State} (runs : s.running = true)
    (ready : s.memReady k op) (does : f (s.memIss k corr) (s.word k) = v) : s.act (s.memSlot k op corr f) = .next (s.after v) :=
  State.act_eq runs ((State.memSlot_ready ready).trans does)

/-- The slot waits for a thread that has yet to act on the same object in an earlier issue (log entry 98). -/
theorem State.memSlot_waits {s : State} {k op : Nat} {corr : Bool} {f : State → Nat → State}
    (waits : (s.iss k).sharedWait k (s.word k) = true) : s.memSlot k op corr f = s.iss k := by
  unfold State.memSlot
  exact if_pos (.inr (.inr (.inr (.inr (.inr waits)))))

theorem State.localRead_phys {s : State} {k a n o : Nat} (ecc : Nat) (place : localAt (thrOf k) a n = .phys o) :
    s.localRead k a n ecc = if ecc = 2 then (none, s)
      else (some (s.lmemBytes (k / 8) o n), s.when (ecc == 1) fun s => s.report (engUid k) 0 o) := by
  simp only [State.localRead, place]

/-- The master reads the g registers of its threads, and nothing changes. -/
theorem State.localRead_greg {s : State} {k a n i r b : Nat} (ecc : Nat) (place : localAt (thrOf k) a n = .greg i r b) :
    (s.localRead k a n ecc).2 = s ∧ ∃ l, (s.localRead k a n ecc).1 = some l ∧ l.length = n := by
  simp only [State.localRead, place]
  exact ⟨trivial, _, rfl, by simp⟩

theorem State.localRead_bad {s : State} {k a n : Nat} (ecc : Nat) (place : localAt (thrOf k) a n = .bad) :
    s.localRead k a n ecc = (none, s) := by
  simp only [State.localRead, place]

/-- Settles O25: each row is the memory slot with its own access, and a local read goes by the place of its address. -/
theorem loadsAndStoresOfThreads : Obligations.LoadsAndStoresOfThreads := by
  unfold Obligations.LoadsAndStoresOfThreads
  refine ⟨fun s c e t corr runs => ⟨fun ecc b y ready al read => ?ldl, fun ecc y ready al read => ?ldlBad,
      fun ecc ready mis => ?ldlMis, fun o ready al place => ?stl,
      fun i r b ready al place => ⟨fun stopped => ?stlGreg, fun live => ?stlGregLive⟩,
      fun i ready al place => ⟨fun stopped => ?stlStart, fun live => ?stlStartLive⟩, fun ready bad => ?stlBad,
      fun ready win => ?ldp, fun ready win => ?stp, fun ready win => ?ldpOut, fun ready win => ?stpOut,
      fun d b y ecc ready al win read => ?ldd, fun d y ecc ready al win read => ?lddBad, fun d ready al win => ?std,
      fun ecc ready bad => ?lddOut, fun ready bad => ?stdOut, fun ready win => ?ext, fun ready win => ?ins,
      fun ready win => ?extOut, fun ready win => ?insOut⟩,
    fun s k a n ecc o place => State.localRead_phys ecc place, fun s k a n ecc i r b place => State.localRead_greg ecc place,
    fun s k a n ecc place => State.localRead_bad ecc place⟩
  case ldl => exact State.memRow runs ready (by simp only [al, read, ne_eq, not_true_eq_false, if_false])
  case ldlBad => exact State.memRow runs ready (by simp only [al, read, ne_eq, not_true_eq_false, if_false])
  case ldlMis => exact State.memRow runs ready (if_pos mis)
  case stl => exact State.memRow runs ready (by simp only [al, place, ne_eq, not_true_eq_false, if_false])
  case stlGreg =>
    exact State.memRow runs ready (by
      simp only [al, place, stopped, ne_eq, not_true_eq_false, beq_self_eq_true, Bool.not_true, Bool.false_eq_true, if_false])
  case stlGregLive =>
    exact State.memRow runs ready (by
      simp only [al, place, beq_eq_false_iff_ne.2 live, ne_eq, not_true_eq_false, Bool.not_false, if_true, if_false])
  case stlStart =>
    exact State.memRow runs ready (by
      simp only [al, place, stopped, ne_eq, not_true_eq_false, beq_self_eq_true, Bool.not_true, Bool.false_eq_true, if_false])
  case stlStartLive =>
    exact State.memRow runs ready (by
      simp only [al, place, beq_eq_false_iff_ne.2 live, ne_eq, not_true_eq_false, Bool.not_false, if_true, if_false])
  case stlBad =>
    refine State.memRow runs ready (bad.elim (fun mis => if_pos mis) fun place => ?_)
    simp only [place, ite_self]
  case ldp => exact State.memRow runs ready (by simp only [win, Bool.not_true, Bool.false_eq_true, if_false])
  case stp => exact State.memRow runs ready (by simp only [win, Bool.not_true, Bool.false_eq_true, if_false])
  case ldpOut => exact State.memRow runs ready (by simp only [win, Bool.not_false, if_true])
  case stpOut => exact State.memRow runs ready (by simp only [win, Bool.not_false, if_true])
  case ldd => exact State.memRow runs ready (by simp only [al, win, read, ne_eq, not_true_eq_false, if_false])
  case lddBad => exact State.memRow runs ready (by simp only [al, win, read, ne_eq, not_true_eq_false, if_false])
  case std => exact State.memRow runs ready (by simp only [al, win, ne_eq, not_true_eq_false, if_false])
  case lddOut =>
    refine State.memRow runs ready (bad.elim (fun mis => if_pos mis) fun win => ?_)
    simp only [win, ite_self]
  case stdOut =>
    refine State.memRow runs ready (bad.elim (fun mis => if_pos mis) fun win => ?_)
    simp only [win, ite_self]
  case ext => exact State.memRow runs ready (by simp only [win, Bool.not_true, Bool.false_eq_true, if_false])
  case ins => exact State.memRow runs ready (by simp only [win, Bool.not_true, Bool.false_eq_true, if_false])
  case extOut => exact State.memRow runs ready (by simp only [win, Bool.not_false, if_true])
  case insOut => exact State.memRow runs ready (by simp only [win, Bool.not_false, if_true])

/-! ### Lookups, channels, locks and the job port -/

/-- A job admitted before its generation was retired finds an orphan (bit 62); one admitted later looks its key up. -/
theorem State.lookupKey_job {s : State} {k : Nat} {j : OutJob} (t kt : Nat) (key : List Byte) (ecc slot cam : Nat)
    (job : s.jobOf k = some j) :
    s.lookupKey k t kt key ecc slot cam =
      if j.job.pkt.adm.admitAt < s.gen.retired.get (fun _ => 0) j.job.pkt.adm.gen then (2 ^ 62, s)
      else s.lookupWord j.job.pkt.adm.gen t kt key ecc slot cam := by
  simp only [State.lookupKey, job]

/-- Settles O26: each row is the memory slot with its own effect, or the wait of log entry 98. -/
theorem lookupsChannelsLocksAndJobPort : Obligations.LookupsChannelsLocksAndJobPort := by
  unfold Obligations.LookupsChannelsLocksAndJobPort
  refine fun s c e t corr runs => ⟨fun ecc slot cam lecc key y ready read =>
      ⟨?lookup, fun j job => ⟨fun orphan => ?orphan, fun served => ?word⟩⟩,
    fun ready shut => ?chresShut, fun ready bad => ?chcmtBad,
    fun waits => have wait {op f} : s.act (s.memSlot (thrKey c e t) op corr f) = .next (s.after (s.iss (thrKey c e t))) :=
        State.act_eq runs (State.memSlot_waits waits)
      ⟨wait, wait, wait, wait, wait, wait⟩,
    fun ready may => ⟨fun room two => ?chres, fun full => ?chresFull⟩, fun ready may reserved => ?chcmt,
    fun x xs ready msgs => ?chrd, fun ready empty => ?chrdEmpty, fun ready free => ?lock, fun o ready held => ?lockHeld,
    fun ready own idle => ?unlock, fun ready other => ?unlockOther, fun ready stays => ?jobrd, fun ready drains none => ?jobrdStops,
    fun lecc b y j ready read job ok => ⟨fun drop => ?jobDrop, fun sent => ?jobSent⟩,
    fun lecc b y j ready read job bad => ?jobBad, fun lecc y ready read => ?jobUnread, fun ready => State.memRow runs ready rfl⟩
  case lookup => exact State.memRow runs ready (by simp only [read])
  case orphan => exact (State.lookupKey_job _ _ _ _ _ _ job).trans (if_pos orphan)
  case word => exact (State.lookupKey_job _ _ _ _ _ _ job).trans (if_neg (Nat.not_lt.2 served))
  case chresShut => exact State.memRow runs ready (by simp only [shut, Bool.not_false, if_true])
  case chcmtBad =>
    refine State.memRow runs ready (if_pos ?_)
    rcases bad with shut | unreserved
    · exact .inl (by simp only [shut, Bool.not_false])
    · exact .inr (by simp only [unreserved, Bool.not_false])
  case chres =>
    exact State.memRow runs ready (by
      simp only [may, Nat.not_le.2 room, Nat.not_le.2 two, Bool.not_true, Bool.false_eq_true, or_self, if_false])
  case chresFull => exact State.memRow runs ready (by simp only [may, full, Bool.not_true, Bool.false_eq_true, if_false, if_true])
  case chcmt => exact State.memRow runs ready (by simp only [may, reserved, Bool.not_true, Bool.false_eq_true, or_self, if_false])
  case chrd => exact State.memRow runs ready (by simp only [msgs])
  case chrdEmpty => exact State.memRow runs ready (by simp only [empty])
  case lock => exact State.memRow runs ready (by simp only [free])
  case lockHeld => exact State.memRow runs ready (by simp only [held])
  case unlock => exact State.memRow runs ready (if_pos ⟨own, by simp only [idle, Bool.not_false]⟩)
  case unlockOther => exact State.memRow runs ready (if_neg fun own => other own.1)
  case jobrd =>
    refine State.memRow runs ready (if_neg ?_)
    rintro ⟨drains, none⟩
    exact stays.elim (fun up => up drains) fun some => by simp [Option.isNone_iff_eq_none.1 none] at some
  case jobrdStops => exact State.memRow runs ready (if_pos ⟨drains, by rw [none]; rfl⟩)
  case jobDrop =>
    exact State.memRow runs ready (by
      simp only [read, job, State.endWith, ok, drop, Bool.not_true, Bool.false_eq_true, if_false, if_true])
  case jobSent =>
    exact State.memRow runs ready (by simp only [read, job, State.endWith, ok, sent, Bool.not_true, Bool.false_eq_true, if_false])
  case jobBad => exact State.memRow runs ready (by simp only [read, job, State.endWith, bad, Bool.not_false, if_true])
  case jobUnread => exact State.memRow runs ready (by simp only [read])

end Sys2Proof.Machine
end

section
/-! ## Links, lanes and flow control (R92–R110) -/

open Sys2Proof Sys2Proof.Machine
namespace Sys2Proof.Machine

/-! ### Faults of a link -/

/-- A remote fault says nothing to a standby, which comes up from reception alone. -/
theorem State.linkFault_standby {s : State} {p : Nat} (standby : s.twin.squelched = true) : s.linkFault p 6 = s := by
  unfold State.linkFault
  exact if_pos (.inr ⟨standby, rfl⟩)

/-- What a fault of a port does by its link state. -/
def State.faultMoves (s : State) (p reason st : Nat) : State :=
  if st = 3 then
    let u := ((s.setLink p 4 reason).setPort p { s.port p with faultReason := reason, since := s.ns }).txCut p
    if u.mac p F.PORT_DEBOUNCE_DOWN_US = 0 then u.linkDown p reason else u
  else if st = 4 ∧ reason = 8 then (s.setMac p F.PORT_STATUS_DOWN_REASON 8).setPort p { s.port p with faultReason := 8 }
  else if st = 5 ∧ reason = 8 then s.setMac p F.PORT_STATUS_DOWN_REASON 8
  else if st = 2 ∧ reason ≠ 8 then (s.quietDown p reason).portCtr p 34 1
  else if (st = 1 ∨ st = 2) ∧ reason = 8 then s.quietDown p 8
  else if st = 1 ∧ reason = 7 then s.setPort p { s.port p with faultReason := 7 }
  else s

theorem State.linkFault_port {s : State} {p reason st : Nat} (isPort : s.portExists p = true)
    (heard : s.twin.squelched = false ∨ reason ≠ 6) (state : s.linkState p = st) :
    s.linkFault p reason = ((if st = 3 then s.txBegin p else s).faultSeen p reason).faultMoves p reason st := by
  have acts : ¬ ((!s.portExists p) = true ∨ s.twin.squelched = true ∧ reason = 6) := by
    rintro (none | ⟨standby, remote⟩)
    · simp [isPort] at none
    · exact heard.elim (fun active => by simp [active] at standby) fun other => other remote
  subst state
  unfold State.linkFault
  exact if_neg acts

theorem State.downDebounce_suspect {s : State} {p : Nat} (suspect : s.linkState p = 4) :
    s.downDebounce p =
      let u := s.reach ((s.port p).since + s.mac p F.PORT_DEBOUNCE_DOWN_US * 1000)
      u.linkDown p (u.port p).faultReason := by
  unfold State.downDebounce
  exact if_pos suspect

/-! ### Training -/

/-- Signal on a DOWN port whose lanes are in order starts training. -/
theorem State.signalDetect_down {s u : State} {p : Nat} (isPort : s.portExists p = true) (down : s.linkState p = 5)
    (signal : u = s.each (s.portLanes p) fun s u => s.setF u F.LANE_STATUS_SIGNAL 1) (still : u.linkState p = 5)
    (inOrder : (u.portLanes p).all (fun l => u.laneOk l && u.getF l F.LANE_STATUS_SIGNAL == 1) = true) :
    s.signalDetect p = u.training p := by
  subst signal
  have notTraining : ¬ (s.linkState p = 1 ∧ (!s.allSignal p) = true) := fun training => by simp [down] at training
  simp only [State.signalDetect, isPort, Bool.not_true, Bool.false_eq_true, if_false, if_neg notTraining]
  exact if_pos ⟨still, inOrder⟩

/-- Signal on the last lane of a port in training starts its limit anew. -/
theorem State.signalDetect_training {s x : State} {p : Nat} (isPort : s.portExists p = true) (training : s.linkState p = 1)
    (missing : s.allSignal p = false) (anew : x = s.setPort p { s.port p with since := s.ns }) :
    s.signalDetect p = (x.each (x.portLanes p) fun s u => s.setF u F.LANE_STATUS_SIGNAL 1).retrain p := by
  subst anew
  simp only [State.signalDetect, isPort, training, missing, Bool.not_true, Bool.not_false, Bool.false_eq_true, if_false,
    and_self, if_true]

/-- A finished training makes the port TRAINED, unless autonegotiation finds that the modes do not match. -/
theorem State.trainingDone_matches {s u x : State} {p : Nat} {same : Bool} (training : s.linkState p = 1)
    (heard : same = true ∨ s.twin.squelched = true)
    (inOrder : u = s.each (s.portLanes p) fun s u =>
      ((s.setF u F.LANE_STATUS_SIGNAL 1).setF u F.LANE_STATUS_CDR_LOCK 1).setF u F.LANE_STATUS_ADAPTED 1)
    (trained : x = (u.setLink p 2 (u.mac p F.PORT_STATUS_DOWN_REASON)).faultOver p) :
    s.trainingDone p same = if x.mac p F.PORT_DEBOUNCE_UP_MS = 0 then x.declareUp p else x := by
  subst inOrder trained
  have noMismatch : ¬ (s.mac p F.PORT_CTL_AN_EN = 1 ∧ (!same) = true ∧ (!s.twin.squelched) = true) := by
    rintro ⟨-, other, active⟩
    exact heard.elim (fun h => by simp [h] at other) fun h => by simp [h] at active
  unfold State.trainingDone
  exact (if_neg (not_not.2 training)).trans (if_neg noMismatch)

theorem State.trainingDone_mismatch {s : State} {p : Nat} (training : s.linkState p = 1) (an : s.mac p F.PORT_CTL_AN_EN = 1)
    (active : s.twin.squelched = false) :
    s.trainingDone p false = (s.setMac p F.PORT_STATUS_DOWN_REASON 7).setPort p { s.port p with faultReason := 7 } := by
  unfold State.trainingDone
  refine (if_neg (not_not.2 training)).trans (if_pos ⟨an, rfl, ?_⟩)
  rw [active]; rfl

theorem State.trainingTimeout_late {s : State} {p : Nat} (training : s.linkState p = 1) (signal : s.allSignal p = true) :
    s.trainingTimeout p =
      let u := s.reach ((s.port p).since + trainMax (s.macMode (p / 8)))
      let r := if (u.port p).faultReason = 7 then 7 else 4
      ((u.faultSeen p r).quietDown p r).portCtr p 34 1 := by
  have limited : ¬ (s.linkState p ≠ 1 ∨ (!s.allSignal p) = true) := by simp [training, signal]
  unfold State.trainingTimeout
  exact if_neg limited

theorem State.trainingTimeout_noSignal {s : State} {p : Nat} (noSignal : s.allSignal p = false) : s.trainingTimeout p = s := by
  unfold State.trainingTimeout
  exact if_pos (.inr (by rw [noSignal]; rfl))

/-- Settles O27: each fault by the state the port is in (`faultMoves`), each timer and each training by its own lemma. The reason
LANE is log entry 22, the mismatch log entry 23 and the sending of remote fault log entry 74. -/
theorem linksFollowTheirStates : Obligations.LinksFollowTheirStates := by
  unfold Obligations.LinksFollowTheirStates
  refine ⟨fun s p reason runs isPort => ⟨fun standby remote => ?standby, fun heard =>
      ⟨fun up => ?up, fun trained noLane => ?trained, fun suspect lane => ?suspect, fun down lane => ?down,
        fun training lane => ?training⟩⟩,
    fun s p runs suspect inOrder => ?clears, fun s p runs suspect => ?declared,
    fun s p runs isPort down still inOrder => ?signal, fun s p runs isPort training noSignal => ?lastSignal,
    fun s p runs training => ⟨?done, fun standby => ?doneStandby, fun an active => ?mismatch⟩,
    fun s p runs training => ⟨fun signal => ?late, fun noSignal => ?notYet⟩, fun s p runs trained => ?declaredUp,
    fun s p runs held notUp => ?held⟩
  case standby => subst remote; exact State.act_eq runs (State.linkFault_standby standby)
  case up => exact State.act_eq runs (State.linkFault_port isPort heard up)
  case trained =>
    exact State.act_eq runs ((State.linkFault_port isPort heard trained).trans (by simp [State.faultMoves, noLane]))
  case suspect =>
    subst lane; exact State.act_eq runs ((State.linkFault_port isPort heard suspect).trans (by simp [State.faultMoves]))
  case down =>
    subst lane; exact State.act_eq runs ((State.linkFault_port isPort heard down).trans (by simp [State.faultMoves]))
  case training =>
    subst lane
    rcases training with training | trained
    · exact State.act_eq runs ((State.linkFault_port isPort heard training).trans (by simp [State.faultMoves]))
    · exact State.act_eq runs ((State.linkFault_port isPort heard trained).trans (by simp [State.faultMoves]))
  case clears => exact State.act_eq runs (if_pos ⟨suspect, inOrder⟩)
  case declared => exact State.act_eq runs (State.downDebounce_suspect suspect)
  case signal => exact State.act_eq runs (State.signalDetect_down isPort down rfl still inOrder)
  case lastSignal => exact State.act_eq runs (State.signalDetect_training isPort training noSignal rfl)
  case done => exact State.act_eq runs (State.trainingDone_matches training (.inl rfl) rfl rfl)
  case doneStandby => exact State.act_eq runs (State.trainingDone_matches training (.inr standby) rfl rfl)
  case mismatch => exact State.act_eq runs (State.trainingDone_mismatch training an active)
  case late => exact State.act_eq runs (State.trainingTimeout_late training signal)
  case notYet => exact State.act_eq runs (State.trainingTimeout_noSignal noSignal)
  case declaredUp => exact State.act_eq runs (if_pos trained)
  case held => exact State.act_eq runs (if_pos ⟨held, notUp⟩)

/-! ### Accepted writes of the MACs and the lanes -/

theorem kindOf_mac {p : Nat} (isPort : p < 256) : kindOf (uMAC (p / 8)) = some .mac := by
  have all : ∀ b < 32, kindOf (uMAC b) = some .mac := by decide
  exact all _ (by omega)

/-- An accepted write of a MAC's register outside its counters makes the MAC's effect. -/
theorem State.busWrite_mac {s : State} {m p off v : Nat} (isPort : p < 256) (ok : s.writeOk m (uMAC (p / 8)) off v)
    (low : 0x100 ≤ off) (high : off < 0xE80) :
    s.busWrite m 0 (4096 * uMAC (p / 8) + off) 4 v =
      (s.seen m (4096 * uMAC (p / 8) + off)).macEffect (uMAC (p / 8)) off (s.stored m (uMAC (p / 8)) off v) := by
  rw [State.busWrite_ok ok]
  unfold State.wrote State.regEffect
  rw [if_neg (by omega), if_neg (by omega), if_neg (by omega), kindOf_mac isPort]

/-- What the effect of a PORT_CTL does by its ADMIN_UP before and after. -/
theorem State.macEffect_ctl (s t : State) {p : Nat} :
    s.macEffect (uMAC (p / 8)) (F.PORT_CTL_ADMIN_UP.i (p % 8)).off t =
      if t.mac p F.PORT_CTL_ADMIN_UP = 1 then t.adminUp p
      else if s.mac p F.PORT_CTL_ADMIN_UP = 1 ∧ t.mac p F.PORT_CTL_ADMIN_UP = 0 then t.adminDown p else t := by
  have off : (F.PORT_CTL_ADMIN_UP.i (p % 8)).off = 0x200 + 0x40 * (p % 8) := rfl
  have port : 8 * ((uMAC (p / 8) - 0x200) / 16) + (0x200 + 0x40 * (p % 8) - 0x200) / 0x40 = p := by
    simp only [uMAC, uPB]; omega
  rw [off]
  unfold State.macEffect
  rw [if_pos ⟨by omega, by omega, by omega⟩, port]

/-- An accepted write of a lane's LANE_ADAPT with READAPT starts a re-adaptation. -/
theorem State.busWrite_readapt {s : State} {m u v : Nat} (lane : kindOf u = some .lane ∨ kindOf u = some .twinLane)
    (ok : s.writeOk m u 0x104 v) (starts : v % 2 = 1) :
    s.busWrite m 0 (4096 * u + 0x104) 4 v = (s.stored m u 0x104 v).readapt u := by
  rw [State.busWrite_ok ok]
  unfold State.wrote State.regEffect
  rw [if_neg (by decide), if_neg (by omega), if_neg (by decide)]
  rcases lane with lane | lane
  · rw [lane]; exact if_pos ⟨rfl, starts⟩
  · rw [lane]; exact if_pos ⟨rfl, starts⟩

/-- A word whose bit 0 is set to 1 is odd. -/
theorem setBitsOf_bit0_odd (v : Nat) : setBitsOf v 0 1 1 % 2 = 1 := by
  have bit := bitsOf_setBitsOf_self v 0 1 1
  simpa [bitsOf] using bit

/-- Settles O28: an accepted write of PORT_CTL or LANE_ADAPT makes the effect of its register, and a re-adaptation ends. -/
theorem adminAndAdaptationCommands : Obligations.AdminAndAdaptationCommands := by
  unfold Obligations.AdminAndAdaptationCommands
  refine ⟨fun s m p isPort ok up => ?up, fun s m p isPort ok was down => ?down, fun s m u lane ok => ?readapt,
    fun s u runs adapts => ⟨?done, ?late⟩⟩
  case up =>
    exact State.actAny_eq ((State.busWrite_mac isPort ok (by simp [Fld.i, F.PORT_CTL_ADMIN_UP]; omega)
      (by simp [Fld.i, F.PORT_CTL_ADMIN_UP]; omega)).trans ((State.macEffect_ctl _ _).trans (if_pos up)))
  case down =>
    refine State.actAny_eq ((State.busWrite_mac isPort ok (by simp [Fld.i, F.PORT_CTL_ADMIN_UP]; omega)
      (by simp [Fld.i, F.PORT_CTL_ADMIN_UP]; omega)).trans ((State.macEffect_ctl _ _).trans ((if_neg ?_).trans (if_pos ⟨was, down⟩))))
    rw [down]; decide
  case readapt => exact State.actAny_eq (State.busWrite_readapt lane ok (setBitsOf_bit0_odd _))
  case done => exact State.act_eq runs (if_pos adapts)
  case late => exact State.act_eq runs (if_pos adapts)

/-! ### Pause and PFC -/

theorem State.pauseExpire_due {s : State} {p r : Nat} (paused : (s.port p).pauseTill.get (fun _ => 0) r ≠ 0) :
    s.pauseExpire p r =
      let u := s.reach ((s.port p).pauseTill.get (fun _ => 0) r)
      (u.setPort p { u.port p with
        pauseTill := (u.port p).pauseTill.put (fun _ => 0) r 0, pauseAt := (u.port p).pauseAt.put (fun _ => 0) r 0 }).txBegin p := by
  unfold State.pauseExpire
  exact if_neg paused

/-- The watchdog lets a priority go that was paused WD_MS long, and ignores its pauses as long. -/
theorem State.pfcWatchdog_due {s : State} {p r wd due : Nat} (limit : wd = s.mac p F.PORT_PFC_WD_WD_MS * 1000000)
    (at_ : due = (s.port p).pauseAt.get (fun _ => 0) r + wd) (on : wd ≠ 0)
    (longer : due < (s.port p).pauseTill.get (fun _ => 0) r) :
    s.pfcWatchdog p r =
      let u := (s.reach due).setPort p { s.port p with
        pauseTill := (s.port p).pauseTill.put (fun _ => 0) r 0, pauseAt := (s.port p).pauseAt.put (fun _ => 0) r 0
        ignoreTill := (s.port p).ignoreTill.put (fun _ => 0) r ((s.reach due).ns + wd) }
      ((u.portCtr p 33 1).event 0x14 p (uMAC (p / 8)) ((if r = 8 then 0 else r) * 256 + p) 0).txBegin p := by
  subst at_ limit
  unfold State.pfcWatchdog
  exact if_neg (not_or.2 ⟨on, Nat.not_le.2 longer⟩)

theorem State.pfcIgnoreEnd_due {s : State} {p r : Nat} (ignores : (s.port p).ignoreTill.get (fun _ => 0) r ≠ 0) :
    s.pfcIgnoreEnd p r =
      let u := s.reach ((s.port p).ignoreTill.get (fun _ => 0) r)
      u.setPort p { u.port p with ignoreTill := (u.port p).ignoreTill.put (fun _ => 0) r 0 } := by
  unfold State.pfcIgnoreEnd
  exact if_neg ignores

/-- Settles O29: each timer when it is due. TX_XOFF reading 0xFF in PAUSE mode is log entry 20. -/
theorem flowControlTimers : Obligations.FlowControlTimers := by
  unfold Obligations.FlowControlTimers
  refine ⟨fun s p r runs paused => State.act_eq runs (State.pauseExpire_due paused),
    fun s p r runs sends => State.act_eq runs (if_pos sends),
    fun s p r runs on longer => State.act_eq runs (State.pfcWatchdog_due rfl rfl on longer),
    fun s p r runs ignores => State.act_eq runs (State.pfcIgnoreEnd_due ignores)⟩

end Sys2Proof.Machine
end

section
/-! ## Unit commands (R45–R51) -/

open Sys2Proof Sys2Proof.Machine
namespace Sys2Proof.Machine

/-! ### How a command begins -/

/-- An accepted write of UCB_CMD is the command of the unit. -/
theorem State.unitCommand {s t : State} {m u tag cmd : Nat} (isCmd : cmd < 8)
    (ok : s.writeOk m u 0x10 (tag % 256 * 256 + cmd))
    (does : (s.stored m u 0x10 (tag % 256 * 256 + cmd)).unitCmd u cmd (tag % 256) = t) :
    (s.writeReg m u F.UCB_CMD_CMD.off (tag % 256 * 256 + cmd)).actAny = .next t.ended :=
  State.actAny_eq ((State.busWrite_ucb isCmd ok).trans does)

/-- A command that Table 7 refuses only reports its result. -/
theorem State.unitCmd_refused {s : State} {u cmd tag : Nat} (refused : s.cmdResult u cmd ≠ 0) :
    s.unitCmd u cmd tag = s.finish ⟨u, cmd, tag, [], none, s.ns, none⟩ u (s.cmdResult u cmd) 0 := by
  unfold State.unitCmd State.applyCmd
  exact if_pos refused

/-- A command on a group begins with the group's own part and runs over its children. -/
theorem State.unitCmd_group {s : State} {u cmd tag : Nat} (group : isGroup u = true) (takes : s.cmdResult u cmd = 0) :
    s.unitCmd u cmd tag = (s.groupBegin ⟨u, cmd, tag, [], none, s.ns, none⟩ u).setRun
      ⟨u, cmd, tag, [⟨u, if cmd = 4 then drainOrder u else children u, none, s.ns, false⟩], none, s.ns, none⟩ := by
  unfold State.unitCmd State.applyCmd
  exact (if_neg (not_not.2 takes)).trans (if_pos group)

/-- A command that runs on a leaf waits for its end. -/
theorem State.unitCmd_runs {s t : State} {u cmd tag : Nat} (leaf : isGroup u = false) (takes : s.cmdResult u cmd = 0)
    (runs : s.leafBegin u cmd = (none, t)) : s.unitCmd u cmd tag = t.setRun ⟨u, cmd, tag, [], some u, t.ns, none⟩ := by
  simp only [State.unitCmd, State.applyCmd, takes, leaf, runs, ne_eq, not_true_eq_false, Bool.false_eq_true, if_false]

/-- A command that ends at once on a leaf reports its result. -/
theorem State.unitCmd_ends {s t : State} {u cmd tag r : Nat} (leaf : isGroup u = false) (takes : s.cmdResult u cmd = 0)
    (ends : s.leafBegin u cmd = (some r, t)) : s.unitCmd u cmd tag = t.finish ⟨u, cmd, tag, [], none, s.ns, none⟩ u r 0 := by
  simp only [State.unitCmd, State.applyCmd, takes, leaf, ends, ne_eq, not_true_eq_false, Bool.false_eq_true, if_false]

/-- Settles O30: refused, on a group, running on a leaf or ending at once. -/
theorem unitCommandsBeginOnLeaves : Obligations.UnitCommandsBeginOnLeaves := by
  unfold Obligations.UnitCommandsBeginOnLeaves
  refine fun s m u tag cmd ok => ⟨fun leaf => ⟨fun is takes => ?reset, fun is takes => ?test, fun is takes => ?admitted,
    fun is takes stays => ?drain, fun is takes atOnce => ?drained, fun is takes => ?retire, fun is takes => ?isolate⟩,
    fun group takes => ?group, fun refused => ?refused⟩
  case reset => subst is; exact State.unitCommand (by decide) ok (State.unitCmd_runs leaf takes rfl)
  case test => subst is; exact State.unitCommand (by decide) ok (State.unitCmd_runs leaf takes rfl)
  case admitted => subst is; exact State.unitCommand (by decide) ok (State.unitCmd_ends leaf takes rfl)
  case drain =>
    subst is
    exact State.unitCommand (by decide) ok (State.unitCmd_runs leaf takes (if_neg (Bool.eq_false_iff.1 stays)))
  case drained =>
    subst is
    exact State.unitCommand (by decide) ok (State.unitCmd_ends leaf takes (if_pos atOnce))
  case retire => subst is; exact State.unitCommand (by decide) ok (State.unitCmd_ends leaf takes rfl)
  case isolate => subst is; exact State.unitCommand (by decide) ok (State.unitCmd_ends leaf takes rfl)
  case group =>
    have row (isCmd : cmd < 8) := State.unitCommand isCmd ok (State.unitCmd_group (tag := tag % 256) group takes)
    refine ⟨?_, ?_, ?_, ?_, ?_, ?_⟩ <;> (rintro rfl; exact row (by decide))
  case refused =>
    have row (isCmd : cmd < 8) := State.unitCommand isCmd ok (State.unitCmd_refused (tag := tag % 256) refused)
    refine ⟨?_, ?_, ?_, ?_, ?_, ?_⟩ <;> (rintro rfl; exact row (by decide))

/-! ### How a command ends -/

/-- The RESET of a unit that is no lane and no DMC ends Ready, or Retired when it is late. -/
theorem State.resetDone_plain {s : State} {u : Nat} {run : URun} (late : Bool) (cfg train : Nat) (runs : s.leafRun u 1 = some run)
    (plain : ([Kind.lane, .twinLane, .dmc].map some).contains (kindOf u) = false) :
    s.resetDone u late cfg train =
      if late then ((s.reach (run.since + tReset u)).setUst u 6).finish run u 5 0 else (s.setUst u 3).finish run u 0 0 := by
  simp only [List.map_cons, List.map_nil, List.contains_cons, List.contains_nil, Bool.or_false, Bool.or_eq_false_iff,
    beq_eq_false_iff_ne, ne_eq] at plain
  obtain ⟨noLane, noTwin, noDmc⟩ := plain
  have noDmc' : (kindOf u == some Kind.dmc) = false := beq_eq_false_iff_ne.2 noDmc
  unfold State.resetDone
  obtain ⟨R, reached⟩ : ∃ R, @State.reach = R := ⟨_, rfl⟩
  rw [reached]
  cases late <;>
    simp only [runs, noLane, noTwin, noDmc', Bool.false_and, Bool.or_false, Bool.false_eq_true, false_and, or_self, if_false,
      if_true]

/-- The TEST of a unit that is no engine and finds no failing check ends Ready with PASS, or Retired when it is late. -/
theorem State.testDone_passes {s : State} {u : Nat} {run : URun} (late : Bool) (runs : s.leafRun u 2 = some run)
    (noEngine : kindOf u ≠ some .engine) :
    s.testDone u 0 [] late =
      if late then ((((s.reach (run.since + tTest u)).setF u F.UCB_TEST_RESULT_DONE 1).setF u F.UCB_TEST_RESULT_PASS 0).setUst
        u 6).finish run u 5 0
      else (((((s.setF u F.UCB_TEST_RESULT_DONE 1).setF u F.UCB_TEST_RESULT_PASS 0).setF u F.UCB_TEST_RESULT_PASS 1).setF
        u F.UCB_TEST_RESULT_CODE 0).setUst u 3).finish run u 0 0 := by
  have noEngine' : (kindOf u == some Kind.engine) = false := beq_eq_false_iff_ne.2 noEngine
  have noRows : s.mapRows u [] = (true, s) := rfl
  unfold State.testDone
  obtain ⟨R, reached⟩ : ∃ R, @State.reach = R := ⟨_, rfl⟩
  rw [reached]
  cases late <;>
    simp only [runs, noEngine', noRows, ne_eq, not_true_eq_false, Bool.false_eq_true, if_false, if_true]

/-- A Draining unit that holds nothing becomes Ready. -/
theorem State.drainDone_empty {s : State} {u : Nat} {run : URun} (leaf : isGroup u = false) (draining : s.ust u = 5)
    (empty : s.holds u = false) (runs : (s.drained u).leafRun u 4 = some run) :
    s.drainDone u = (s.drained u).finish run u 0 0 := by
  simp only [State.drainDone, leaf, draining, empty, runs, ne_eq, not_true_eq_false, Bool.false_eq_true, or_self, if_false]

theorem State.drainLimit_runs {s : State} {u : Nat} {run : URun} (runs : s.leafRun u 4 = some run) :
    s.drainLimit u = (s.reach (run.since + s.getF u F.UCB_DRAIN_LIMIT_LIMIT_US * 1000)).finish run u 7 0 := by
  unfold State.drainLimit
  obtain ⟨R, reached⟩ : ∃ R, @State.reach = R := ⟨_, rfl⟩
  rw [reached]
  simp only [runs]

/-- A group whose current child has ended well goes on with its next child, or ends DONE. -/
theorem State.groupAdvance_next {s : State} {u : Nat} {run : URun} {f : UFrame} {up : List UFrame} (runs : s.runOf u = some run)
    (stack : run.stack = f :: up) (well : f.failed = none) (noLeaf : run.leaf = none) (fresh : run.ended = none)
    (emptied : run.cmd = 4 → kindOf f.uid = some .cluster → f.passed = false → s.routerBusy f.uid = false) :
    s.groupAdvance u = match f.todo.dropWhile (s.skips run.cmd) with
      | c :: rest => s.applyCmd { run with stack := { f with todo := rest, passed := true } :: up, ended := none } c
      | [] => (if kindOf f.uid = some .cluster ∧ 5 ≤ run.cmd then s.discardRouter ((f.uid - 0x400) / 64) else s).finish
          { run with stack := up, ended := none } f.uid 0 0 := by
  have goes : ¬ (run.leaf.isSome = true ∨ run.cmd = 4 ∧ kindOf f.uid = some .cluster ∧ (!f.passed) = true ∧
      s.routerBusy f.uid = true ∧ (f.failed.or none).isNone = true) := by
    rintro (busy | ⟨drain, cluster, first, router, -⟩)
    · simp [noLeaf] at busy
    · simp [emptied drain cluster (by simpa using first)] at router
  have noFail : f.failed.or none = none := by rw [well]; rfl
  simp only [noFail] at goes
  simp only [State.groupAdvance, runs, stack, fresh, noFail, Option.isSome_none, Bool.false_eq_true, false_and, if_false,
    if_neg goes]
  cases f.todo.dropWhile (s.skips run.cmd) with
  | nil => rfl
  | cons c rest => rw [well]

/-- Settles O31: the end of a leaf's RESET, TEST and DRAIN, and the next child of a group. -/
theorem unitCommandsEnd : Obligations.UnitCommandsEnd := by
  unfold Obligations.UnitCommandsEnd
  refine fun s u runs => ⟨fun run cfg train leaf plain => ⟨?reset, ?resetLate⟩, fun run leaf noEngine => ⟨?test, ?testLate⟩,
    fun run leaf draining empty left => ?drained, fun run leaf => ?limit,
    fun run f rest up c top stack well noLeaf fresh emptied next => ?child,
    fun run f up top stack well noLeaf fresh emptied last => ?done⟩
  case reset => exact State.act_eq runs ((State.resetDone_plain false cfg train leaf plain).trans (if_neg Bool.false_ne_true))
  case resetLate => exact State.act_eq runs ((State.resetDone_plain true cfg train leaf plain).trans (if_pos rfl))
  case test => exact State.act_eq runs ((State.testDone_passes false leaf noEngine).trans (if_neg Bool.false_ne_true))
  case testLate => exact State.act_eq runs ((State.testDone_passes true leaf noEngine).trans (if_pos rfl))
  case drained => exact State.act_eq runs (State.drainDone_empty leaf draining empty left)
  case limit => exact State.act_eq runs (State.drainLimit_runs leaf)
  case child =>
    refine State.act_eq runs ((State.groupAdvance_next top stack well noLeaf fresh emptied).trans ?_)
    rw [next]
  case done =>
    refine State.act_eq runs ((State.groupAdvance_next top stack well noLeaf fresh emptied).trans ?_)
    rw [last]

end Sys2Proof.Machine
end

section
/-! ## Register accesses, function resets and host links (R9–R13, R70, R422) -/

open Sys2Proof Sys2Proof.Machine
namespace Sys2Proof.Machine

/-! ### Register accesses -/

/-- A write that a check rejects changes no register and raises EVT_RANGE. -/
theorem State.busWrite_rejected {s x : State} {m u off v : Nat} (runs : s.running = true) (reaches : s.reaches m = true)
    (master : m ≤ 4) (unit : u < 2 ^ 14) (window : off < 4096) (aligned : off % 4 = 0) (word : v < 2 ^ 32)
    (counted : x = s.seen m (4096 * u + off)) (on : x.domainOff u off = false) (rejected : x.bar0Reason m u off v ≠ 0) :
    s.busWrite m 0 (4096 * u + off) 4 v = x.evtRange 0 (4096 * u + off) m (x.bar0Reason m u off v) v := by
  have uid : (4096 * u + off) / 4096 = u := by omega
  have offset : (4096 * u + off) % 4096 = off := by omega
  have low : v % 2 ^ 32 = v := Nat.mod_eq_of_lt word
  have bar : barSize m 0 = 2 ^ 26 := by simp [barSize, master]
  subst counted
  unfold State.busWrite
  rw [if_neg (by decide), if_neg (by rw [bar, reaches]; simp; omega), if_neg (by simp [runs])]
  show State.bar0Write (s.seen m (4096 * u + off)) m (4096 * u + off) 4 v = _
  unfold State.bar0Write
  simp -zeta only [uid, offset, low]
  rw [if_neg (by omega), if_neg (by rw [on]; decide)]
  exact (if_pos trivial).trans (if_pos rejected)

theorem kindOf_engine {c e : Nat} (cluster : c < 16) (engine : e < 17) : kindOf (uENG c e) = some .engine := by
  have all : ∀ c < 16, ∀ e < 17, kindOf (uENG c e) = some .engine := by decide
  exact all c cluster e engine

/-- ENG_SAMP_DATA_HI of an engine has no field that a read clears. -/
theorem regDefAt_sampData {u : Nat} (window : u < 2 ^ 14) (engine : kindOf u = some .engine) :
    ∃ d, regDefAt u 0x310 = some d ∧ (d.fields.any fun f => f.acc == .rc) = false := by
  have noBar4 : u ≠ uBAR4 := by have : 2 ^ 14 ≤ uBAR4 := by decide
                                omega
  refine ⟨⟨0x310, 0, 1, 0, [⟨0, 32, .ro, 0, 23, 0, 0xFFFFFFFF⟩]⟩, ?_, by decide⟩
  unfold regDefAt windowRegs
  rw [if_neg noBar4, if_neg (by omega), engine]
  simp only [List.append_assoc, List.find?_append]
  rw [show (regs_ucb.find? fun d => if d.stride = 0 then d.off == 0x310
      else decide (d.off ≤ 0x310) && decide ((0x310 - d.off) % d.stride = 0) && decide ((0x310 - d.off) / d.stride < d.count)) = none
    by decide]
  rw [show ((kindRegs .engine).find? fun d => if d.stride = 0 then d.off == 0x310
      else decide (d.off ≤ 0x310) && decide ((0x310 - d.off) % d.stride = 0) && decide ((0x310 - d.off) / d.stride < d.count)) =
      some ⟨0x310, 0, 1, 0, [⟨0, 32, .ro, 0, 23, 0, 0xFFFFFFFF⟩]⟩ by decide]
  rfl

/-- A read of ENG_SAMP_DATA_HI steps the sampler's index. -/
theorem State.readEffect_sampData (s : State) {u : Nat} (window : u < 2 ^ 14) (engine : kindOf u = some .engine) :
    s.readEffect u 0x310 = s.addF u F.ENG_SAMP_IDX_INDEX 1 := by
  obtain ⟨d, reg, noClear⟩ := regDefAt_sampData window engine
  have noLatch : s.latches u 0x310 = [] := by
    have noCtr : s.ctrAt u 0x310 = none := by
      unfold State.ctrAt
      rw [if_neg (by omega), engine]
    unfold State.latches
    rw [if_neg (by omega), noCtr]
  simp only [State.readEffect, noLatch, State.each, List.foldl_nil, reg, noClear, engine, Bool.false_eq_true, if_false, and_self,
    if_true]

/-- Settles O33: accepted, locking and rejected writes, reads, and the sampler's read. Every access is counted before it acts
(R359 with Table 10 of chapter 16). -/
theorem registerAccesses : Obligations.RegisterAccesses := by
  unfold Obligations.RegisterAccesses
  refine fun s m u off v => ⟨fun ok => State.actAny_eq (State.busWrite_ok ok), fun ok locked => ?locked, fun ok unlocked => ?locks,
    fun runs reaches master unit window aligned word on rejected =>
      State.actAny_eq (State.busWrite_rejected runs reaches master unit window aligned word rfl on rejected),
    fun runs reaches master unit window aligned kind on =>
      have read := State.actAny_eq (State.busRead_reg runs reaches master unit window aligned kind on)
      ⟨read, read⟩,
    fun c e runs reaches master cluster engine on => ?sampler⟩
  case locked =>
    refine State.actAny_eq ((State.busWrite_dev ok (by decide) (by decide)).trans (if_neg ?_))
    rintro ⟨-, unlocked⟩
    exact Bool.false_ne_true (unlocked.symm.trans locked)
  case locks => exact State.actAny_eq ((State.busWrite_dev ok (by decide) (by decide)).trans (if_pos ⟨rfl, unlocked⟩))
  case sampler =>
    have kind := kindOf_engine cluster engine
    have unit : uENG c e < 2 ^ 14 := by simp only [uENG, uEC]; omega
    have read := State.busRead_reg runs reaches master unit (by decide) (by decide) (by rw [kind]; rfl) on
    rw [State.readEffect_sampData _ unit kind] at read
    have row := State.actAny_eq read
    have cEq : c % 16 = c := Nat.mod_eq_of_lt cluster
    have eEq : e % 32 = e := Nat.mod_eq_of_lt (by omega)
    show State.actAny (s.busRead m 0 (4096 * uENG (c % 16) (e % 32) + 0x310) 4) = _
    rw [cEq, eEq]
    exact row

/-! ### Functions and host links -/

/-- FLR clears an enabled function with none in progress, and those it covers. -/
theorem State.flr_enabled {s x : State} {m : Nat} (master : masters.contains m = true) (enabled : s.fnEnabled m = true)
    (idle : s.getFS uHIF m F.HIF_FN_STATUS_FLR_ACTIVE ≠ 1)
    (cleared : x = (s.clearTree m).setFS uHIF m F.HIF_FN_STATUS_FLR_ACTIVE 1) :
    s.flr m = x.modHif fun h => { h with flr := x.hif.flr ++ [(m, x.ns)] } := by
  subst cleared
  simp only [State.flr, master, enabled, idle, Bool.not_true, Bool.false_eq_true, or_self, if_false]

theorem State.flrEnd_active {s x y : State} {m : Nat} (active : s.getFS uHIF m F.HIF_FN_STATUS_FLR_ACTIVE ≠ 0)
    (stopped : x = (s.stopRings m).setFS uHIF m F.HIF_FN_STATUS_FLR_ACTIVE 0)
    (ended : y = x.modHif fun h => { h with flr := x.hif.flr.filter fun y => y.1 != m }) :
    s.flrEnd m = (if m = 1 then y.send (.warden (y.eventRec 0x07 0xFFF uHIF m 0)) else y).eventFn 1 0x07 uHIF m 0 := by
  subst stopped ended
  unfold State.flrEnd
  exact if_neg active

/-- Clearing VF Enable of a PF with no VF enabled does nothing; else it clears and disables each. -/
theorem State.busWrite_vfClear {s : State} {m : Nat} (low : 1 ≤ m) (high : m ≤ 4) (core : s.pwr.mode ≠ 1) (core' : s.pwr.mode ≠ 3) :
    s.busWrite m 7 0 4 0 = if (vfsOf (m - 1)).any s.fnEnabled then
      s.each (vfsOf (m - 1)) fun s v => ((s.clearFn v).stopRings v).setFS uHIF v F.HIF_FN_STATUS_VF_EN 0 else s := by
  have master : masters.contains m = true := by simp [masters]; omega
  have pf : isPF m = true := by simp [isPF, low, high]
  have inRange : ¬ 4 ≤ m - 1 := by omega
  unfold State.busWrite
  simp only [core, core', master, pf, State.vfClear, inRange, Bool.not_true, Bool.false_eq_true, or_self, false_or, if_false, if_true,
    ne_eq, not_true_eq_false, Nat.zero_mod, zero_ne_one]
  cases (vfsOf (m - 1)).any s.fnEnabled <;> rfl

/-- A host link that goes down clears every PF on it. -/
theorem State.hostLinkDown_split {s x : State} {l : Nat} (runs : s.running = true) (link : l < 2)
    (split : s.bit uHIF F.HIF_LINK_SPLIT = true)
    (cleared : x = if l = 0 then ((s.each [1, 2] fun s m => (s.clearTree m).stopRings m).setF uHIF F.HIF_LINK_WIDTH0 0).setF
        uHIF F.HIF_LINK_GEN0 0
      else ((s.each [3, 4] fun s m => (s.clearTree m).stopRings m).setF uHIF F.HIF_LINK_WIDTH1 0).setF uHIF F.HIF_LINK_GEN1 0)
    (still : x.bit uHIF F.HIF_LINK_SPLIT = true) :
    s.hostLinkDown l = (x.send (.warden (x.eventRec 0x04 0xFFF uHIF l 0))).eventFn (if l = 0 then 3 else 1) 0x04 uHIF l 0 := by
  have pfs : s.linkPfs l = if l = 0 then [1, 2] else [3, 4] := if_pos split
  have some : s.linkPfs l ≠ [] := by rw [pfs]; split_ifs <;> simp
  have acts : ¬ ((!s.running) = true ∨ 2 ≤ l ∨ s.linkPfs l = []) := by simp [runs, some, link]
  have sent : ∀ e, (x.send e).bit uHIF F.HIF_LINK_SPLIT = true := fun _ => still
  subst cleared
  unfold State.hostLinkDown
  rw [if_neg acts, pfs]
  split_ifs at sent ⊢ <;> exact if_pos (sent _)

/-- A host link that comes up reads its width and rate. -/
theorem State.hostLinkUp_trained {s : State} {l gen width : Nat} (runs : s.running = true) (link : s.linkPfs l ≠ [])
    (isLink : l < 2) (low : 1 ≤ gen) (high : gen ≤ 5) (lanes : [1, 2, 4, 8].contains width = true) :
    s.hostLinkUp l gen width =
      if l = 0 then (s.setF uHIF F.HIF_LINK_WIDTH0 width).setF uHIF F.HIF_LINK_GEN0 gen
      else (s.setF uHIF F.HIF_LINK_WIDTH1 width).setF uHIF F.HIF_LINK_GEN1 gen := by
  have widths : width = 1 ∨ width = 2 ∨ width = 4 ∨ width = 8 := by simpa using lanes
  have known : [1, 2, 4, 8, 16].contains width = true := by simp; omega
  have fits : ¬ (if s.bit uHIF F.HIF_LINK_SPLIT then 8 else 16) < width := by split_ifs <;> omega
  have acts : ¬ ((!s.running) = true ∨ 2 ≤ l ∨ s.linkPfs l = [] ∨ ¬ (1 ≤ gen ∧ gen ≤ 5) ∨
      (!([1, 2, 4, 8, 16].contains width)) = true ∨ (if s.bit uHIF F.HIF_LINK_SPLIT then 8 else 16) < width) := by
    rintro (stopped | bad | none | rate | unknown | wide)
    · simp [runs] at stopped
    · omega
    · exact link none
    · exact rate ⟨low, high⟩
    · simp only [known, Bool.not_true, Bool.false_eq_true] at unknown
    · exact fits wide
  unfold State.hostLinkUp
  exact if_neg acts

theorem State.linkPfs_zero (s : State) : s.linkPfs 0 ≠ [] := by
  unfold State.linkPfs
  cases s.bit uHIF F.HIF_LINK_SPLIT <;> simp

/-- Settles O35: FLR and its end, VF Enable, and both host links. That the warden is told of PF0's FLR is R425. -/
theorem functionsResetAndLinksFollow : Obligations.FunctionsResetAndLinksFollow := by
  unfold Obligations.FunctionsResetAndLinksFollow
  refine fun s m runs => ⟨fun master enabled idle => ?flr, fun active => ?flrEnd, fun low high core core' none => ?noVfs,
    fun low high core core' some => ?vfs, fun split still => ?down0, fun split still => ?down1,
    fun gen width low high lanes => ⟨?up0, fun split => ?up1⟩⟩
  case flr => exact State.act_eq runs (State.flr_enabled master enabled idle rfl)
  case flrEnd => exact State.act_eq runs (State.flrEnd_active active rfl rfl)
  case noVfs => exact State.actAny_eq ((State.busWrite_vfClear low high core core').trans (if_neg (Bool.eq_false_iff.1 none)))
  case vfs => exact State.actAny_eq ((State.busWrite_vfClear low high core core').trans (if_pos some))
  case down0 => exact State.act_eq runs (State.hostLinkDown_split (l := 0) runs (by decide) split rfl still)
  case down1 => exact State.act_eq runs (State.hostLinkDown_split (l := 1) runs (by decide) split rfl still)
  case up0 => exact State.act_eq runs (State.hostLinkUp_trained runs s.linkPfs_zero (by decide) low high lanes)
  case up1 =>
    have pfs : s.linkPfs 1 = [3, 4] := if_pos split
    exact State.act_eq runs (State.hostLinkUp_trained runs (by rw [pfs]; simp) (by decide) low high lanes)

end Sys2Proof.Machine
end

section
/-! ## Rings, doorbells and descriptors (R60–R80) -/

open Sys2Proof Sys2Proof.Machine
namespace Sys2Proof.Machine

/-! ### Rings -/

/-- An accepted write of another value to RING_SIZE enables or disables the selected ring. -/
theorem State.busWrite_ringSize {s t : State} {m r n : Nat} (ok : s.writeOk m uHIF 0x108 n)
    (sel : (s.seen m (4096 * uHIF + 0x108)).selOf uHIF 0x108 = r) (other : n ≠ (s.seen m (4096 * uHIF + 0x108)).ringLog r)
    (kept : t = (s.stored m uHIF 0x108 n).setFS uHIF r F.RING_SIZE_RING_LOG2 ((s.seen m (4096 * uHIF + 0x108)).ringLog r)) :
    s.busWrite m 0 (4096 * uHIF + 0x108) 4 n = if n = 0 then t.disableRing r else t.enableRing r n := by
  subst sel kept
  have hif : kindOf uHIF = some .hif := rfl
  rw [State.busWrite_ok ok]
  unfold State.wrote State.regEffect
  rw [if_neg (by decide), if_neg (by omega), if_neg (by decide), hif]
  exact if_pos ⟨rfl, other⟩

/-- A Flushing ring with nothing left becomes Disabled. -/
theorem State.flushEnd_empty {s : State} {r : Nat} (flushing : s.ringState r = 4) (empty : (s.ring r).descs = [])
    (out : s.unread r = 0 ∨ s.reportUp r = false) : s.flushEnd r = s.ringDisabled r := by
  unfold State.flushEnd
  exact if_pos ⟨flushing, empty, out.imp_right fun down => by rw [down]; rfl⟩

/-- At tFLUSH what is not written is counted in the ring that was to report it. -/
theorem State.flushTimeout_late {s x : State} {r t0 : Nat} (began : (s.ring r).flushAt = some t0) (flushing : s.ringState r = 4)
    (late : x = s.reach (t0 + 60000000)) (noFlr : (x.ring r).flr = false) :
    s.flushTimeout r = (x.addFS uHIF (x.getFS uHIF r F.RING_CQ_CQ) F.RING_LOST_COUNT
      ((x.ring r).descs.length + if x.reportUp r then x.unread r else 0)).ringDisabled r := by
  subst late
  unfold State.flushTimeout
  obtain ⟨R, reached⟩ : ∃ R, @State.reach = R := ⟨_, rfl⟩
  rw [reached] at noFlr ⊢
  simp only [began, flushing, noFlr, ne_eq, not_true_eq_false, Bool.false_eq_true, if_false]

theorem State.cqWait_late {s : State} {r t0 : Nat} (full : (s.ring r).fullAt = some t0)
    (runs : s.ringState r = 1 ∨ s.ringState r = 2) : s.cqWait r = (s.reach (t0 + 1000000)).haltRing r 2 := by
  unfold State.cqWait
  obtain ⟨R, reached⟩ : ∃ R, @State.reach = R := ⟨_, rfl⟩
  rw [reached]
  simp only [full, runs, if_true]

/-- Settles O36: RING_SIZE, the ends of a flush, the write-back and the timers. The interrupt with the vector and at the time held
when the latest entry became pending is log entry 104. -/
theorem ringsStartAndStop : Obligations.RingsStartAndStop := by
  unfold Obligations.RingsStartAndStop
  refine fun s m r n => ⟨fun ok sel other => ⟨fun on => ?enable, fun off => ?disable⟩,
    fun runs => ⟨fun flushing empty out => ?flushed, fun t0 began flushing noFlr => ?late, fun on live => ?written,
      fun t0 full up => ?full, fun on armed pend => ?timer⟩⟩
  case enable => exact State.actAny_eq ((State.busWrite_ringSize ok sel other rfl).trans (if_neg on))
  case disable =>
    subst off
    exact State.actAny_eq ((State.busWrite_ringSize ok sel other rfl).trans (if_pos rfl))
  case flushed => exact State.act_eq runs (State.flushEnd_empty flushing empty out)
  case late => exact State.act_eq runs (State.flushTimeout_late began flushing rfl noFlr)
  case written => exact State.act_eq runs (if_pos ⟨on, runs, live⟩)
  case full => exact State.act_eq runs (State.cqWait_late full up)
  case timer => exact State.act_eq runs (if_pos ⟨on, armed, pend⟩)

/-! ### Doorbells -/

/-- A write of a doorbell in BAR 2 is counted, then rung. -/
theorem State.bell_counted {s : State} {m i v link : Nat} {ok : Bool} (runs : s.running = true)
    (master : masters.contains m = true) (reaches : s.reaches m = true) (inBar : 0x10000 + 8 * i < bar2Size m) :
    s.bell m i v link ok = (s.occur uHIF 0x101 2 (some m) (0x10000 + 8 * i) 1).doorbell m i v link ok := by
  have notWarden : m ≠ 0 := by rintro rfl; exact absurd master (by decide)
  have bar : barSize m 2 = bar2Size m := by
    unfold barSize
    rw [if_neg (by decide), if_pos rfl, if_neg notWarden, if_pos master]
  unfold State.bell
  simp only [notWarden, bar, Nat.not_le.2 inBar, reaches, runs, Bool.not_true, Bool.false_eq_true, or_self, if_false]

theorem State.fnEnabled_of_fnLive {s : State} {m : Nat} (live : s.fnLive m = true) : s.fnEnabled m = true :=
  (Bool.and_eq_true_iff.1 live).1

/-- A doorbell of R74 that a check rejects raises EVT_RANGE with its reason. -/
theorem State.doorbell_rejected {s y : State} {m i v link why : Nat} {ok : Bool} (runs : s.running = true)
    (master : masters.contains m = true) (live : s.fnLive m = true) (inBar : 0x10000 + 8 * i < bar2Size m)
    (counted : y = s.occur uHIF 0x102 0 (some m) (0x10000 + 8 * i) 1)
    (reason : (if doorbells m ≤ i then 2 else y.doorbellReason (y.localRing m i) v) = why) (rejected : why ≠ 0) :
    s.doorbell m i v link ok = y.evtRange 2 (0x10000 + 8 * i) m why v := by
  subst counted reason
  simp only [State.doorbell, Nat.not_le.2 inBar, master, State.fnEnabled_of_fnLive live, runs, live, Bool.not_true,
    Bool.false_eq_true, or_self, if_false]
  exact if_pos rejected

/-- A doorbell that no check rejects moves the host index of its ring. -/
theorem State.doorbell_taken {s y : State} {m i v link r : Nat} {ok : Bool} (runs : s.running = true)
    (master : masters.contains m = true) (live : s.fnLive m = true) (inBar : 0x10000 + 8 * i < bar2Size m)
    (own : i < doorbells m) (counted : y = s.occur uHIF 0x102 0 (some m) (0x10000 + 8 * i) 1)
    (ring : y.localRing m i = some r) (passes : y.doorbellReason (some r) v = 0) :
    s.doorbell m i v link ok = if ringClass (y.ringType r) = 1 then y.bellSq r (v % 2 ^ 17) link ok
      else y.bellCq r (v % 2 ^ 17) (bitsOf v 31 1 == 1) := by
  subst counted
  simp only [State.doorbell, Nat.not_le.2 inBar, Nat.not_le.2 own, master, State.fnEnabled_of_fnLive live, runs, live, ring,
    passes, ne_eq, not_true_eq_false, Bool.not_true, Bool.false_eq_true, or_self, if_false]

/-- The doorbells of a function lie in its BAR 2. -/
theorem doorbell_lt_bar2Size {m i : Nat} (own : i < doorbells m) : 0x10000 + 8 * i < bar2Size m := by
  unfold doorbells at own
  unfold bar2Size
  split_ifs at own ⊢ <;> omega

/-! ### Descriptors -/

/-- A descriptor of an array-mode ring is taken, checked and, where a check decides, completed in ring order. -/
theorem State.descRead_array {s a b c : State} {r w0 w1 w2 w3 : Nat} {d : Desc} (runs : s.running = true)
    (up : s.ringState r = 1) (reads : s.ringRead r = true) (left : s.unread r ≠ 0) (noFlr : (s.ring r).flr = false)
    (live : s.fnLive ((s.ringOwner r).getD 0) = true)
    (taken : d = { w0 := w0 % 2 ^ 64, w1 := w1 % 2 ^ 64, w2 := w2 % 2 ^ 64, w3 := w3 % 2 ^ 64, idx := s.ringIndex r,
                   seq := s.hif.reads, comp := (s.descCheck r w0 w1 w2 w3).map (comp · 0 0) })
    (moved : a = (s.modHif fun h => { h with reads := s.hif.reads + 1 }).setFS uHIF r F.RING_STATUS_DEV_INDEX
      ((s.ringIndex r + 1) % 2 ^ ((s.ring r).log + 1)))
    (array : a.getFS uHIF r F.RING_CFG_MODE = 0)
    (queued : b = a.setRing r { s.ring r with descs := (s.ring r).descs ++ [d], sinceWb := (s.ring r).sinceWb + 1
                                              tail := (s.ring r).next, endSeen := false })
    (wrote : c = if 16 ≤ (s.ring r).sinceWb + 1 ∨ b.unread r = 0 then b.writeBack r else b) :
    s.descRead r w0 w1 w2 w3 true = c.flushComps ((c.ring r).descs.length + 1) r := by
  subst moved taken queued wrote
  simp only [State.descRead, up, reads, left, noFlr, runs, live, array, Bool.not_true, Bool.false_eq_true, not_true_eq_false,
    and_false, or_false, or_self, if_false, false_and, Nat.reduceEqDiff, show ((0 : Nat) == 1) = false from rfl, Bool.false_and]

/-- A descriptor that cannot be read halts its ring. -/
theorem State.descRead_fails {s : State} {r w0 w1 w2 w3 : Nat} (runs : s.running = true) (up : s.ringState r = 1)
    (reads : s.ringRead r = true) (left : s.unread r ≠ 0) (noFlr : (s.ring r).flr = false)
    (live : s.fnLive ((s.ringOwner r).getD 0) = true) : s.descRead r w0 w1 w2 w3 false = s.haltRing r 1 := by
  simp only [State.descRead, up, reads, left, noFlr, runs, live, Bool.not_true, Bool.not_false, Bool.false_eq_true,
    not_true_eq_false, and_false, true_or, or_self, if_false, if_true]

/-- A chain goes on where the END it waited for is clear. -/
theorem State.chainReread_clear {s : State} {r t0 link : Nat} (ok : Bool) (waits : (s.ring r).reread = some t0)
    (clear : link % 2 = 0) :
    s.chainReread r link ok = ((s.reach (t0 + 1000)).modRing r fun x => { x with reread := none }).unpark r link ok := by
  unfold State.chainReread
  obtain ⟨R, reached⟩ : ∃ R, @State.reach = R := ⟨_, rfl⟩
  rw [reached]
  simp only [waits, clear, or_true, if_true]

/-- Where it is still set the ring halts, with a completion of status LINK (whose TAG is 0 by log entry 72). -/
theorem State.chainReread_set {s x y : State} {r t0 link : Nat} (waits : (s.ring r).reread = some t0) (set : link % 2 = 1)
    (late : x = s.reach (t0 + 1000))
    (queued : y = ((x.setRing r { x.ring r with descs := (x.ring r).descs ++
        [{ w0 := 0, w1 := 0, w2 := 0, w3 := 0, idx := x.ringIndex r, comp := some (comp 9 0 0) }] }).setFS uHIF r
      F.RING_STATUS_DEV_INDEX ((x.ringIndex r + 1) % 2 ^ ((x.ring r).log + 1)))) :
    s.chainReread r link true = (y.haltRing r 3).flushComps ((y.ring r).descs.length + 1) r := by
  subst late queued
  unfold State.chainReread
  obtain ⟨R, reached⟩ : ∃ R, @State.reach = R := ⟨_, rfl⟩
  rw [reached]
  simp only [waits, set, Bool.not_true, Bool.false_eq_true, one_ne_zero, or_self, if_false]

/-- Settles O37: doorbells taken and rejected, descriptors read, and the end of a chain. -/
theorem doorbellsAndDescriptors : Obligations.DoorbellsAndDescriptors := by
  unfold Obligations.DoorbellsAndDescriptors
  refine fun s runs => ⟨fun m i v link ok master reaches own up live => ⟨fun r ring passes sq => ?sq, fun r ring passes cq => ?cq,
      fun k past inBar up' enabled' live' => ?past, fun rejected => ?rejected⟩,
    fun r w0 w1 w2 w3 on reads left noFlr live array array' => ⟨?read, ?unread⟩,
    fun r t0 link waits clear ok => ?clear, fun r t0 link waits set => ?set⟩
  case sq =>
    exact State.actAny_eq ((State.bell_counted runs master reaches (doorbell_lt_bar2Size own)).trans
      ((State.doorbell_taken up master live (doorbell_lt_bar2Size own) own rfl ring passes).trans (if_pos sq)))
  case cq =>
    exact State.actAny_eq ((State.bell_counted runs master reaches (doorbell_lt_bar2Size own)).trans
      ((State.doorbell_taken up master live (doorbell_lt_bar2Size own) own rfl ring passes).trans (if_neg cq)))
  case past =>
    exact State.actAny_eq ((State.bell_counted runs master reaches inBar).trans
      (State.doorbell_rejected up' master live' inBar rfl (if_pos past) (by decide)))
  case rejected =>
    exact State.actAny_eq ((State.bell_counted runs master reaches (doorbell_lt_bar2Size own)).trans
      (State.doorbell_rejected up master live (doorbell_lt_bar2Size own) rfl (if_neg (Nat.not_le.2 own)) rejected))
  case read => exact State.act_eq runs (State.descRead_array runs on reads left noFlr live rfl rfl array' rfl rfl)
  case unread => exact State.act_eq runs (State.descRead_fails runs on reads left noFlr live)
  case clear => exact State.act_eq runs (State.chainReread_clear ok waits clear)
  case set => exact State.act_eq runs (State.chainReread_set waits set rfl rfl)

end Sys2Proof.Machine
end

section
/-! ## Ring commands, claims and crossings (R56, R77–R82, R34) -/

open Sys2Proof Sys2Proof.Machine
namespace Sys2Proof.Machine

/-! ### Ring commands -/

theorem State.nopDesc_next {s : State} {r : Nat} {d : Desc} (next : s.nextDesc r 0 = some d) :
    s.nopDesc r = s.complete r d.idx (comp 0 0 0) := by
  simp only [State.nopDesc, next]

/-- FENCE behind descriptors that have all taken effect writes the time and holds its record behind those made so far. -/
theorem State.fence_next {s x : State} {r m : Nat} {d : Desc} (next : s.nextDesc r 0xFE = some d)
    (effected : ∀ e ∈ (s.ring r).descs.takeWhile (fun e => e.idx != d.idx), e.effected = true)
    (owner : m = (s.ringOwner r).getD 0)
    (wrote : x = (s.send (.hostWrite m d.w1 (leBytes s.ns 8))).setDesc r d.idx fun d => { d with begun := true }) :
    s.fence r = x.modHif fun h => { h with
      held := x.hif.held ++ [.fence r m (x.eventRec 0x08 0xFFF uHIF (bitsOf d.w0 40 16) x.ns)] } := by
  have all : (((s.ring r).descs.takeWhile fun e => e.idx != d.idx).any fun e => !e.effected) = false := by
    rw [List.any_eq_false]
    intro e ahead
    simp [effected e ahead]
  subst owner wrote
  simp only [State.fence, next, all, Bool.false_eq_true, if_false, State.hold]

/-- When its record's turn comes it is written, FENCE completes, and what it held back goes on. -/
theorem State.fenceDone_held {s : State} {r m : Nat} {e : List Byte} {rest : List Held}
    (held : s.hif.held = .fence r m e :: rest) :
    s.fenceDone =
      let x := ((s.modHif fun h => { h with held := rest }).defaultTo m e).endBegun r 0xFE (comp 0 8 0)
      x.letGo (2 * x.hif.held.length) := by
  simp only [State.fenceDone, held]

/-- INJECT_COURSE of a running, open course queues the padded frame for it. -/
theorem State.injectCourse_next {s : State} {r n : Nat} {data : List Byte} {d : Desc} (ok : Bool) (next : s.nextDesc r 1 = some d)
    (on : s.fwdOn = true) (takes : s.taking = true) (course : n = bitsOf d.w2 0 3)
    (serves : [uADM n, uSIV n, uLKP n, uRSV n, uEGR n].any s.closed = false) :
    s.injectCourse r data ok = if ok then (s.setCourse n { s.course n with
        inject := (s.course n).inject ++ [(⟨r, d.idx, d.len, padFrame (sliceBytes data 0 d.len)⟩ : Inject)] }).setDesc r d.idx
          fun d => { d with begun := true }
      else s.complete r d.idx (comp 3 0 0) := by
  subst course
  simp only [State.injectCourse, next, on, takes, serves, Bool.not_true, Bool.false_eq_true, if_false]
  cases ok <;> rfl

/-- The frame that INJECT_QUEUE lets in. -/
def State.injected (s : State) (d : Desc) (data : List Byte) : Pkt :=
  { frame := padFrame (sliceBytes data 0 d.len), tc := bitsOf d.w2 18 3, ptp := bitsOf d.w2 22 1 * 2 ^ 36, counted := false
    adm := { admitAt := s.ns, deadline := 500000, gen := s.getF (uADM 0) F.ADM_GEN_STATUS_GEN, pass := 1, host := true
             port := s.injectPort (bitsOf d.w2 0 18), course := s.portCourse (s.injectPort (bitsOf d.w2 0 18)) } }

/-- INJECT_QUEUE into an open quadrant lets the padded frame enter row 32 toward its queue. -/
theorem State.injectQueue_next {s : State} {r : Nat} {data : List Byte} {d : Desc} (ok : Bool) (next : s.nextDesc r 2 = some d)
    (on : s.fwdOn = true) (takes : s.taking = true) (serves : s.closed (uTMQ (bitsOf d.w2 0 18 / 65536)) = false) :
    s.injectQueue r data ok = if ok then (s.enterRow32 (s.injected d data)
        { queue := bitsOf d.w2 0 18, src := 2, nhEn := bitsOf d.w2 21 1 == 1, nh := bitsOf d.w2 23 20 }).complete
          r d.idx (comp 0 d.len 0)
      else s.complete r d.idx (comp 3 0 0) := by
  simp only [State.injectQueue, next, on, takes, serves, Bool.not_true, Bool.false_eq_true, if_false]
  cases ok <;> rfl

theorem State.postBuffer_next {s : State} {r : Nat} {d : Desc} (next : s.nextDesc r 8 = some d) :
    s.postBuffer r = s.setDesc r d.idx fun d => { d with wait := some s.ns } := by
  simp only [State.postBuffer, next]

/-- CFG_WRITE of a device that follows no peer keeps its entries for the next boundary. -/
theorem State.cfgWrite_next {s x : State} {r : Nat} {data : List Byte} {d : Desc} (ok : Bool) (next : s.nextDesc r 0x30 = some d)
    (leads : s.isFollower = false) (begun : x = s.setDesc r d.idx fun d => { d with begun := true }) :
    s.cfgWrite r data ok = if ok then x.modHif fun h => { h with
        cfg := x.hif.cfg ++ [(⟨r, d.idx, true, sliceBytes data 0 d.len⟩ : CfgSet)] }
      else s.complete r d.idx (comp 3 0 0) := by
  subst begun
  simp only [State.cfgWrite, next, leads, Bool.false_eq_true, false_and, if_false]
  cases ok <;> rfl

/-- Settles O38: each command of the descriptor whose turn it is; a failed host read completes with status 3. The course an INJECT
names by its field is log entry 81. -/
theorem ringCommandsRun : Obligations.RingCommandsRun := by
  unfold Obligations.RingCommandsRun
  refine fun s r d data runs => ⟨fun next => ?nop, fun next effected => ?fence, fun m e rest held => ?fenceDone,
    fun next on takes serves => ⟨?course, ?courseUnread⟩, fun next on takes serves => ⟨?queue, ?queueUnread⟩,
    fun next => ?buffer, fun next leads => ⟨?cfg, ?cfgUnread⟩⟩
  case nop => exact State.act_eq runs (State.nopDesc_next next)
  case fence => exact State.act_eq runs (State.fence_next next effected rfl rfl)
  case fenceDone => exact State.act_eq runs (State.fenceDone_held held)
  case course => exact State.act_eq runs ((State.injectCourse_next true next on takes rfl serves).trans (if_pos rfl))
  case courseUnread =>
    exact State.act_eq runs ((State.injectCourse_next false next on takes rfl serves).trans (if_neg Bool.false_ne_true))
  case queue => exact State.act_eq runs ((State.injectQueue_next true next on takes serves).trans (if_pos rfl))
  case queueUnread =>
    exact State.act_eq runs ((State.injectQueue_next false next on takes serves).trans (if_neg Bool.false_ne_true))
  case buffer => exact State.act_eq runs (State.postBuffer_next next)
  case cfg => exact State.act_eq runs ((State.cfgWrite_next true next leads rfl).trans (if_pos rfl))
  case cfgUnread => exact State.act_eq runs ((State.cfgWrite_next false next leads rfl).trans (if_neg Bool.false_ne_true))

/-! ### Claims, crossings and the warden -/

/-- A 4-byte write of a claim is counted; one that no check rejects releases it. -/
theorem State.busWrite_claim {s x : State} {m k v : Nat} (runs : s.running = true) (reaches : s.reaches m = true)
    (isClaim : k < 64) (word : v < 2 ^ 32) (counted : x = s.occur uHIF 0x101 2 (some m) (4 * k) 1)
    (master : m = 0 ∨ masters.contains m = true ∧ x.fnLive m = true) :
    s.busWrite m 2 (4 * k) 4 v =
      if x.claimReason m k v = 0 then x.setClaim k none else x.evtRange 2 (4 * k) m (x.claimReason m k v) v := by
  have isMaster : m = 0 ∨ masters.contains m = true := master.imp_right And.left
  have inPage : ¬ barSize m 2 ≤ 4 * k := by have := claimPage_le_barSize isMaster; omega
  have key : 4 * k / 4 = k := Nat.mul_div_cancel_left k (by decide)
  have claims : 4 * k < 0x100 := by omega
  unfold State.busWrite
  rw [if_neg (by decide), if_neg (by simp [inPage, reaches]), if_neg (by simp [runs]), ← counted]
  rcases master with warden | ⟨function, live⟩
  · subst warden
    simp only [claims, key, true_and, if_true, ne_eq, not_true_eq_false, if_false]
  · have notWarden : m ≠ 0 := by rintro rfl; exact absurd function (by decide)
    have window : ¬ bar2Size m ≤ 4 * k := by
      have bar : barSize m 2 = bar2Size m := by
        unfold barSize
        rw [if_neg (by decide), if_pos rfl, if_neg notWarden, if_pos function]
      rwa [bar] at inPage
    have low : v % 2 ^ 32 = v := Nat.mod_eq_of_lt word
    have aligned : 4 * k % 4 = 0 := Nat.mul_mod_right 4 k
    have below : ¬ 0x10000 ≤ 4 * k := by omega
    simp only [notWarden, State.bar2Write, window, live, aligned, below, low, State.bar2Reason, State.bar2Do, claims, key,
      Bool.not_true, Bool.false_eq_true, ne_eq, not_true_eq_false, false_and, and_false, or_self, if_false, if_true, ite_not]

theorem State.claimReason_owned {s : State} {m k v : Nat} {c : Claim} (claimed : s.claim k = some c) :
    s.claimReason m k v = if c.owner ≠ m then 9 else if v ≠ 0 then 1 else 0 := by
  simp only [State.claimReason, claimed]

/-- A claim held past its limit is freed, and its former owner told unless it is the warden (log entry 67). -/
theorem State.claimExpire_held {s x : State} {k : Nat} {c : Claim} (claimed : s.claim k = some c)
    (freed : x = (s.reach (c.since + s.getF uDEV F.DEV_CLAIM_HOLD_LIMIT_MS * 1000000)).setClaim k none) :
    s.claimExpire k = if c.owner = 0 then x else x.eventFn c.owner 0x03 uHIF (c.owner * 256 + k) 0 := by
  subst freed
  unfold State.claimExpire
  obtain ⟨R, reached⟩ : ∃ R, @State.reach = R := ⟨_, rfl⟩
  rw [reached]
  simp only [claimed]

/-- A crossing full for tXING into an open unit takes the named entries out of the sender (log entry 103). -/
theorem State.crossingTimeout_open {s t : State} {p : List DropInfo × State} {u from_ x n : Nat} (serves : s.closed u = false)
    (taken : p = s.crossingPkts from_ u n) (dropped : t = p.2.each p.1 fun s i => s.drop 0x61 747 { i with detail := x % 65536 }) :
    s.crossingTimeout u from_ x n = (t.modFlt fun f => { f with
      crossed := t.flt.crossed.put (fun _ => 0) from_ (t.flt.crossed.get (fun _ => 0) from_ + (n - p.1.length)) }).report u 14 x := by
  subst dropped
  unfold State.crossingTimeout
  rw [if_neg (Bool.eq_false_iff.1 serves), ← taken]

/-- Settles O39: writes of a claim by their reason, the claim's limit, crossings, and the loss of the warden. -/
theorem claimsCrossingsAndTheWarden : Obligations.ClaimsCrossingsAndTheWarden := by
  unfold Obligations.ClaimsCrossingsAndTheWarden
  refine fun s runs => ⟨fun m k c isClaim reaches master claimed => ⟨fun own => ?released, fun v set word own => ?set,
      fun v word other => ?other⟩,
    fun k c claimed => ⟨fun function isClaim => ?expired, fun warden isClaim => ?expiredWarden⟩,
    fun u from_ x n serves => State.act_eq runs (State.crossingTimeout_open serves rfl rfl),
    fun u from_ x n shut => State.act_eq runs (if_pos shut), State.act_eq runs (if_neg (by simp [runs]))⟩
  case released =>
    have reason := (State.claimReason_owned (m := m) (v := 0) claimed).trans ((if_neg (not_not.2 own)).trans (if_neg (not_not.2 rfl)))
    have row := State.actAny_eq ((State.busWrite_claim runs reaches isClaim (by decide) rfl master).trans (if_pos reason))
    show State.actAny (s.busWrite m 2 (4 * (k % 64)) 4 0) = _
    rwa [Nat.mod_eq_of_lt isClaim]
  case set =>
    have reason := (State.claimReason_owned (m := m) (v := v) claimed).trans ((if_neg (not_not.2 own)).trans (if_pos set))
    have write := (State.busWrite_claim runs reaches isClaim word rfl master).trans (if_neg (by rw [reason]; decide))
    rw [reason] at write
    exact State.actAny_eq write
  case other =>
    have reason := (State.claimReason_owned (m := m) (v := v) claimed).trans (if_pos other)
    have write := (State.busWrite_claim runs reaches isClaim word rfl master).trans (if_neg (by rw [reason]; decide))
    rw [reason] at write
    exact State.actAny_eq write
  case expired => exact State.act_eq runs ((State.claimExpire_held claimed rfl).trans (if_neg function))
  case expiredWarden => exact State.act_eq runs ((State.claimExpire_held claimed rfl).trans (if_pos warden))

end Sys2Proof.Machine
end

section
/-! ## Table commands (R140–R160) -/

open Sys2Proof Sys2Proof.Machine
namespace Sys2Proof.Machine

/-- What a table command that passes the checks comes to, and the state it leaves, by the words it meets. -/
def State.tableRuns (x : State) (c : TCmd) (slot : Nat) (full : Bool) : TReply × State :=
  let bad := x.cmdSpoiled c (x.cmdImage c)
  if bad.isSome then ({ status := 0x46 }, x.wordEcc c.tid 2 (bad.getD slot)) else x.tableRun c full

/-- The state with the command sent to a paired peer where its table is mirrored. -/
def State.tableTold (x : State) (c : TCmd) : State := if c.mirrored then x.mirror c.w0 c.w1 c.w2 (c.data.take c.len) else x

theorem State.wordEcc_none (s : State) (tid slot : Nat) : s.wordEcc tid 0 slot = s := by
  unfold State.wordEcc
  exact (if_neg (by decide)).trans (if_neg (by decide))

/-- A table command with its operand read and no check against it runs. -/
theorem State.tableDo_runs {s x : State} {src slot : Nat} {c : TCmd} {full : Bool} (ok : Bool) (read : ok = true)
    (counted : x = s.countTable src c) (source : src < 65536 ∨ x.winOk (src - 65536) = true) (passes : x.cmdCheck c = none)
    (allowed : x.changeDenied src c = false) :
    s.tableDo src c ok 0 slot full = ((x.tableRuns c slot full).1, (x.tableRuns c slot full).2.tableTold c) := by
  subst counted read
  simp only [State.tableDo, source, passes, allowed, if_true, Bool.not_true, Bool.false_eq_true, if_false]
  cases bad : (s.countTable src c).cmdSpoiled c ((s.countTable src c).cmdImage c) with
  | none => simp [State.tableRuns, State.tableTold, bad, State.wordEcc_none]
  | some i => simp [State.tableRuns, State.tableTold, bad]

/-- The descriptor of a TABLE ring whose turn it is runs its command and is answered. -/
theorem State.tableCmd_ring {s x : State} {op src slot : Nat} {data : List Byte} {d : Desc} {c : TCmd} {full : Bool}
    (ready : s.tblReady src op d data) (cmd : c = tcmdOf d.w0 d.w1 d.w2 data) (counted : x = s.countTable src c)
    (passes : x.cmdCheck c = none) (allowed : x.changeDenied src c = false) :
    s.tableCmd op src data true 0 slot full =
      ((x.tableRuns c slot full).2.tableTold c).tableReply src d (x.tableRuns c slot full).1 := by
  obtain ⟨ring, desc, free, now⟩ := ready
  subst cmd
  have runs := State.tableDo_runs (slot := slot) (full := full) true rfl counted (.inl ring) passes allowed
  simp only [State.tableCmd, ring, desc, free, now, runs, if_true, Bool.false_eq_true, if_false]

/-- The command of a PF's window that nothing holds back runs and is answered in the window. -/
theorem State.tableCmd_window {s x : State} {op src p slot : Nat} {data : List Byte} {c : TCmd} {full : Bool} (pf : p < 4)
    (window : src = 65536 + p) (begun : (s.tcwStart p).isSome = true) (cmd : c = s.winCmd p) (counted : x = s.countTable src c)
    (free : s.blocked src (s.tcwWait p) c = false) (now : s.mustWait c = false) (open_ : x.winOk p = true)
    (passes : x.cmdCheck c = none) (allowed : x.changeDenied src c = false) (isOp : c.op = op) :
    s.tableCmd op src data true 0 slot full =
      ((x.tableRuns c slot full).2.tableTold c).winReply p (x.tableRuns c slot full).1 := by
  subst window cmd isOp
  have own : 65536 + p - 65536 = p := Nat.add_sub_cancel_left _ _
  have noRing : ¬ 65536 + p < 65536 := by omega
  have isPf : ¬ 8 ≤ p := by omega
  have runs := State.tableDo_runs (slot := slot) (full := full) true rfl counted (.inr (by rw [own]; exact open_)) passes allowed
  have some : ¬ (s.tcwStart p).isNone = true := by simpa [Option.isSome_iff_ne_none] using begun
  simp only [State.tableCmd, noRing, own, isPf, some, free, now, runs, ne_eq, not_true_eq_false, Bool.false_eq_true, or_self,
    if_false]

/-- A window's command that waited tTCW ends with TIMEOUT. -/
theorem State.tcwTimeout_late {s : State} {p t0 : Nat} (begun : s.tcwStart p = some t0) :
    s.tcwTimeout p = (s.reach (t0 + 100000)).winReply p { status := 8 } := by
  unfold State.tcwTimeout
  obtain ⟨R, reached⟩ : ∃ R, @State.reach = R := ⟨_, rfl⟩
  rw [reached]
  simp only [begun]

/-- Settles O40: the nine commands are one row of a ring each. -/
theorem tableCommandsAnswer : Obligations.TableCommandsAnswer := by
  unfold Obligations.TableCommandsAnswer
  intro s src slot data full d runs c x bad r t fin passes allowed
  have row {op} (ready : s.tblReady src op d data) : s.act (s.tableCmd op src data true 0 slot full) = fin :=
    State.act_eq runs (State.tableCmd_ring ready rfl rfl passes allowed)
  exact ⟨row, row, row, row, row, row, row, row, row⟩

/-- Settles O41: the six commands are one row of a window each; its timeout is the seventh. -/
theorem tableWindowsAnswer : Obligations.TableWindowsAnswer := by
  unfold Obligations.TableWindowsAnswer
  intro s src p slot data full runs pf window begun c x bad r t fin
  refine ⟨fun t0 start => ?late, fun free now open_ passes allowed => ?runs⟩
  case late =>
    have isPf : p % 8 = p := Nat.mod_eq_of_lt (by omega)
    have row := State.act_eq runs (State.tcwTimeout_late start)
    show s.act (s.tcwTimeout (p % 8)) = _
    rwa [isPf]
  case runs =>
    have row {op} (isOp : c.op = op) : s.act (s.tableCmd op src data true 0 slot full) = fin :=
      State.act_eq runs (State.tableCmd_window pf window begun rfl rfl free now open_ passes allowed isOp)
    exact ⟨row, row, row, row, row, row⟩

end Sys2Proof.Machine
end

section
/-! ## Generation commands (R161–R170) -/

open Sys2Proof Sys2Proof.Machine
namespace Sys2Proof.Machine

/-- GEN_ABORT in order, with no rehash under way, goes to a paired peer and begins a sweep. -/
theorem State.abortCmd_ready {s t : State} {src operand : Nat} {d : Desc} (ready : s.genReady src opABORT operand d)
    (noRehash : s.gen.rehash = none)
    (begun : t = (s.countTable src (tcmdOf d.w0 d.w1 d.w2 (leBytes operand 8))).setDesc src d.idx fun d => { d with begun := true })
    (own : ((t.ring src).descs.find? fun d => d.begun && d.comp.isNone && d.op == opABORT) = some { d with begun := true }) :
    s.abortCmd src operand true = (t.mirror d.w0 d.w1 d.w2 (leBytes operand 8)).startAbort src := by
  subst begun
  simp only [State.abortCmd, noRehash, Bool.false_eq_true, if_false, State.genCmd_ready ready, own]

/-- A COMMIT at the head of the queue is accepted once no rehash runs; a paired peer is asked. -/
theorem State.commitAccept_head {s x : State} {src : Nat} (head : s.gen.commitHead = some src) (noRehash : s.gen.rehash = none)
    (accepted : x = (s.modGen fun g => { g with commitHead := none, commit := some (src, s.ns), alone := false
                                                twinOk := !s.mirroring, twinOkAt := s.ns }).setF uTG F.GEN_STATUS_STATE 1) :
    s.commitAccept = if s.mirroring then x.twinSend 3 (beBytes (x.getF uTG F.GEN_STATUS_COMMIT_SEQ) 8) else x := by
  subst accepted
  simp only [State.commitAccept, head, noRehash, Bool.false_eq_true, if_false, State.when]

/-- A peer silent for tTWC ends the COMMIT. -/
theorem State.commitTwinTimeout_silent {s x y : State} {src acc : Nat} (commit : s.gen.commit = some (src, acc))
    (silent : s.gen.twinOk = false) (late : x = (s.reach (acc + 5000000)).setF uTG F.GEN_STATUS_STATE 0)
    (dropped : y = x.modGen fun g => { g with commit := none }) :
    s.commitTwinTimeout = (y.event 0x23 0x210 uTG (y.getF uTG F.GEN_STATUS_COMMIT_SEQ) 0).endBegun src opCOMMIT (comp 0x4A 8 0) := by
  subst late dropped
  unfold State.commitTwinTimeout
  obtain ⟨R, reached⟩ : ∃ R, @State.reach = R := ⟨_, rfl⟩
  rw [reached]
  simp only [commit, silent, Bool.false_eq_true, if_false]

/-- GEN_WAIT completes in OPEN with the time of the last opening. -/
theorem State.genWait_open {s : State} {src : Nat} {d : Desc} (next : s.tblDesc src opGENWAIT = some d)
    (free : s.blocked src d.wait (tcmdOf d.w0 d.w1 d.w2 []) = false) (turn : s.genTurn d = true) (len : d.len = 8)
    (resv : d.w2 % 2 ^ 64 = 0) (on : s.fwdOn = true) (isOpen : s.genState = 0) :
    s.genWait src = (s.countTable src (tcmdOf d.w0 d.w1 d.w2 [])).tableReply src d { status := 0, data := leBytes s.gen.openAt 8 } := by
  simp only [State.genWait, next, free, turn, len, resv, on, isOpen, ne_eq, not_true_eq_false, Bool.not_true, Bool.false_eq_true,
    or_self, if_false]

/-- A command that waited tGENQ ends. -/
theorem State.genQueueTimeout_late {s : State} {src : Nat} {d : Desc}
    (waits : ((s.ring src).descs.find? fun d => d.wait.isSome && !d.begun && d.comp.isNone && d.op != opGENWAIT &&
      s.mustWait (tcmdOf d.w0 d.w1 d.w2 [])) = some d) :
    s.genQueueTimeout src = (s.reach ((d.wait.getD 0) + 20000000)).complete src d.idx (comp 0x48 0 0) := by
  unfold State.genQueueTimeout
  obtain ⟨R, reached⟩ : ∃ R, @State.reach = R := ⟨_, rfl⟩
  rw [reached]
  simp only [waits]

/-- EM_REHASH whose turn it is sets REHASH_BUSY and begins. -/
theorem State.rehashCmd_ready {s x : State} {src seeds : Nat} {d : Desc} {c : TCmd}
    (ready : s.tblReady src opREHASH d (leBytes seeds 8)) (cmd : c = tcmdOf d.w0 d.w1 d.w2 (leBytes seeds 8))
    (counted : x = s.countTable src c) (passes : x.cmdCheck c = none) (allowed : x.changeDenied src c = false)
    (idle : x.bit uTG F.EM_STATUS_REHASH_BUSY = false) :
    s.rehashCmd src seeds true =
      ((x.modGen fun g => { g with rehash := some (c.seg, seeds % 2 ^ 64, true) }).setF uTG F.EM_STATUS_REHASH_BUSY 1).setDesc
        src d.idx fun d => { d with begun := true } := by
  obtain ⟨-, next, free, now⟩ := ready
  subst counted cmd
  simp only [State.rehashCmd, next, free, now, passes, allowed, idle, Bool.not_true, Bool.false_eq_true, if_false]

/-- The end of a rehash runs the copy, or ends with the words it could not read, and completes. -/
theorem State.rehashDone_runs {s v : State} {x : TReply × State} {seg seeds r ecc slot : Nat} {d : Desc} {bad : Option Nat}
    (rehash : s.gen.rehash = some (seg, seeds, true))
    (begun : s.hif.rings.findSome? (fun r =>
      (r.2.descs.find? fun d => d.begun && d.comp.isNone && d.op == opREHASH).map fun d => (r.1, d)) = some (r, d))
    (spoiled : bad = ((s.segEntries seg s.stagingGen).map (·.1)).find? fun i => s.spoiled 0x10 i)
    (read : v = s.wordEcc 0x10 (if bad.isSome then 2 else ecc) (bad.getD slot))
    (copied : x = if bad.isSome ∨ ecc = 2 then v.rehashEcc else v.rehashRun seg seeds (d.len = 8388616)) :
    s.rehashDone ecc slot = (x.2.mirror d.w0 d.w1 d.w2 (leBytes seeds 8)).tableReply r { d with w1 := d.w1 + 8 } x.1 := by
  subst copied read
  simp only [State.rehashDone, rehash, begun, ← spoiled]
  cases bad with
  | none => simp
  | some i => simp

theorem State.when_true (s : State) (f : State → State) : s.when true f = f s := rfl

theorem State.when_false (s : State) (f : State → State) : s.when false f = s := rfl

/-- Setting a field takes no time. -/
theorem State.ns_when_setF (s : State) (b : Bool) (u : Nat) (f : Fld) (v : Nat) : (s.when b fun s => s.setF u f v).ns = s.ns := by
  have clock : (s.when b fun s => s.setF u f v).clk = s.clk := by
    cases b with
    | false => exact congrArg State.clk (s.when_false _)
    | true => exact (congrArg State.clk (s.when_true _)).trans (s.setF_clk u f v)
  rw [State.ns, clock, State.ns]

/-- The end of a sweep with no GEN_ABORT outstanding reports the words it could not read and opens the generations. -/
theorem State.sweepEnd_opens {s z x y : State} {bad all : List (Nat × Nat)} (sweeping : s.genState = 3)
    (unread : all = bad ++ ((s.flt.badWords.map (·.2)).filter fun w => s.spoiled w.1 w.2 && !bad.contains w))
    (told : z = s.each all fun s b => s.badWord uTG 0 b.1 (b.2 % 2 ^ 24)) (noAbort : z.gen.abort = none)
    (swept : x = (z.sweepRehash all).sweep all) (still : x.gen.abort = none)
    (opened : y = ((x.when x.gen.rehash.isSome fun s => s.setF uTG F.EM_STATUS_REHASH_BUSY 0).modGen fun g =>
      { g with abort := none, rehash := none, rehashOld := none, openAt := x.ns }).setF uTG F.GEN_STATUS_STATE 0) :
    s.sweepEnd bad = y.event 0x22 0x210 uTG (y.getF uTG F.GEN_STATUS_COMMIT_SEQ) 0 := by
  subst opened told unread
  simp only [State.sweepEnd, sweeping, ne_eq, not_true_eq_false, if_false, noAbort, Option.isSome_none, Option.isNone_none,
    State.when_false, State.when_true, ← swept, still, State.ns_when_setF]

/-- Settles O42: each generation command in its state, and the end of each wait. -/
theorem generationCommandsRun : Obligations.GenerationCommandsRun := by
  unfold Obligations.GenerationCommandsRun
  refine fun s src operand seeds d runs => ⟨fun ready => ?commit, fun ready noRehash own => ?abort, fun head noRehash => ?accepted,
    fun acc commit silent => ?silent, fun next free turn len resv on isOpen => ?wait, fun ring noTwin waits => ?late,
    fun retiring => ?horizon, fun ready passes allowed idle => ?rehash,
    fun seg r ecc slot rehash begun => ?rehashed, fun bad sweeping noAbort still => ?swept⟩
  case commit => exact State.act_eq runs (State.genCmd_ready ready)
  case abort => exact State.act_eq runs (State.abortCmd_ready ready noRehash rfl own)
  case accepted => exact State.act_eq runs (State.commitAccept_head head noRehash rfl)
  case silent => exact State.act_eq runs (State.commitTwinTimeout_silent commit silent rfl rfl)
  case wait => exact State.act_eq runs (State.genWait_open next free turn len resv on isOpen)
  case late => exact State.act_eq runs ((if_neg noTwin).trans (State.genQueueTimeout_late waits))
  case horizon => exact State.act_eq runs (if_pos retiring)
  case rehash => exact State.act_eq runs (State.rehashCmd_ready ready rfl rfl passes allowed idle)
  case rehashed => exact State.act_eq runs (State.rehashDone_runs rehash begun rfl rfl rfl)
  case swept =>
    exact State.act_eq runs (congrArg State.twinRun (State.sweepEnd_opens sweeping rfl rfl noAbort rfl still rfl))

end Sys2Proof.Machine
end

section
/-! ## Fences, compares, scrubs, boundaries and records (R171–R175, R350–R362, R412) -/

open Sys2Proof Sys2Proof.Machine
namespace Sys2Proof.Machine

/-! ### Fences -/

/-- EGRESS_FENCE behind only fences takes its fence time now, unless 64 are outstanding. -/
theorem State.egressFence_behindFences {s x y z : State} {src : Nat} {d : Desc} (next : s.tblDesc src opFENCE = some d)
    (len : d.len = 16) (resv : d.w2 % 2 ^ 64 = 0)
    (fences : ∀ e ∈ (s.ring src).descs.takeWhile (fun e => e.idx != d.idx),
      (e.comp.isNone && !(e.op == opFENCE && e.begun)) = false)
    (counted : x = s.countTable src (tcmdOf d.w0 d.w1 d.w2 [])) (on : x.fwdOn = true)
    (begun : y = x.setDesc src d.idx fun d => { d with begun := true })
    (kept : z = y.modGen fun g => { g with fences := y.gen.fences ++ [(⟨src, d.idx, y.ns, y.maxAge⟩ : FenceSt)] }) :
    s.egressFence src = if 64 ≤ x.gen.fences.length then x.tableReply src d { status := 0x4B }
      else z.setF uTG F.FENCE_STATUS_OUTSTANDING z.gen.fences.length := by
  have none : (((s.ring src).descs.takeWhile fun e => e.idx != d.idx).any fun e =>
      e.comp.isNone && !(e.op == opFENCE && e.begun)) = false := by
    rw [List.any_eq_false]
    exact fun e ahead => Bool.eq_false_iff.1 (fences e ahead)
  subst kept begun counted
  simp only [State.egressFence, next, none, len, resv, on, ne_eq, not_true_eq_false, Bool.not_true, Bool.false_eq_true, or_self,
    if_false]

theorem State.egressFenceDone_clear {s : State} {f : FenceSt} {rest : List FenceSt} (fences : s.gen.fences = f :: rest)
    (clear : s.fenceClear f = true) : s.egressFenceDone = s.fenceEnd f false := by
  simp only [State.egressFenceDone, fences, clear, if_true]

theorem State.egressFenceBound_oldest {s : State} {f : FenceSt} {rest : List FenceSt} (fences : s.gen.fences = f :: rest) :
    s.egressFenceBound = (s.reach (f.tf + f.amax + 1000)).fenceEnd f true := by
  unfold State.egressFenceBound
  obtain ⟨R, reached⟩ : ∃ R, @State.reach = R := ⟨_, rfl⟩
  rw [reached]
  simp only [fences]

/-! ### Compares and scrubs -/

/-- With its check unit not Active a compare does nothing (log entry 79). -/
theorem State.compareSlice_down {s : State} {tid : Nat} {data : List Byte} {ok finished : Bool}
    (down : s.up (uCU (if tid = 0x30 then 57 else 56)) = false) : s.compareSlice tid data ok finished = s := by
  unfold State.compareSlice
  exact if_pos (.inr (.inl (by rw [down]; rfl)))

/-- A slice of an enabled compare, once per work period, asks the host for its bytes; done, it compares each unit. -/
theorem State.compareSlice_due {s x y : State} {tid total size pos n : Nat} {data : List Byte} (ok : Bool)
    (units : shadowUnits tid = (total, size)) (shadowed : total ≠ 0)
    (up : s.up (uCU (if tid = 0x30 then 57 else 56)) = true) (enabled : s.getFS uTG (cmpRegs tid).sel (cmpRegs tid).en ≠ 0)
    (due : s.gen.cmpAt.get (fun _ => 0) tid ≠ s.clk.wpNum + 1)
    (marked : x = s.modGen fun g => { g with cmpAt := s.gen.cmpAt.put (fun _ => 0) tid (s.clk.wpNum + 1) })
    (at_ : pos = x.getFS uTG (cmpRegs tid).sel (cmpRegs tid).pos)
    (slice : n = min (64 * 2 ^ x.getFS uTG (cmpRegs tid).sel (cmpRegs tid).slice) (total - pos))
    (asked : y = x.hostRead 1 (x.shadowAt tid pos) (n * size)) :
    s.compareSlice tid data ok true =
      if ok then (y.each (List.range n) fun s i => s.compareUnit tid (pos + i) (sliceBytes data (i * size) size)).setFS
        uTG (cmpRegs tid).sel (cmpRegs tid).pos (if total ≤ pos + n then 0 else pos + n)
      else y.addFS uTG (cmpRegs tid).sel (cmpRegs tid).aband 1 := by
  have acts : ¬ (total = 0 ∨ (!s.up (uCU (if tid = 0x30 then 57 else 56))) = true ∨
      s.getFS uTG (cmpRegs tid).sel (cmpRegs tid).en = 0 ∨ s.gen.cmpAt.get (fun _ => 0) tid = s.clk.wpNum + 1) := by
    simp [shadowed, up, enabled, due]
  subst asked slice at_ marked
  unfold State.compareSlice
  rw [units]
  refine (if_neg acts).trans ?_
  cases ok with
  | false => exact if_pos (.inl rfl)
  | true => exact if_neg (by decide)

/-- With its check unit not Active, or in footing mode, no scrub is done (log entry 79). -/
theorem State.camScrub_down {s : State} {finished dram : Bool} {flips corr bad : List Nat}
    (down : s.up (uCU 58) = false ∨ s.footing = true) : s.camScrub finished dram flips corr bad = s := by
  unfold State.camScrub
  rcases down with down | footing
  · exact if_pos (.inl (by rw [down]; rfl))
  · exact if_pos (.inr (.inl footing))

/-- A slice of an enabled scrub, once per work period, needs its copy from DRAM and then checks each row. -/
theorem State.camScrub_due {s x : State} {pos n : Nat} (finished dram : Bool) (flips corr bad : List Nat)
    (up : s.up (uCU 58) = true) (noFooting : s.footing = false) (enabled : s.getF uCAMG F.CAM_SCRUB_CFG_EN ≠ 0)
    (due : s.gen.cmpAt.get (fun _ => 0) 0x38 ≠ s.clk.wpNum + 1)
    (marked : x = s.modGen fun g => { g with cmpAt := s.gen.cmpAt.put (fun _ => 0) 0x38 (s.clk.wpNum + 1) })
    (at_ : pos = x.getF uCAMG F.CAM_SCRUB_STATUS_POS)
    (slice : n = min (64 * 2 ^ x.getF uCAMG F.CAM_SCRUB_CFG_SLICE_LOG2) (4096 * camBanks.length - pos)) :
    s.camScrub finished dram flips corr bad =
      if finished then match x.scrubCopy pos n (if dram then 2 else 0) with
        | (none, y) => y.addF uCAMG F.CAM_SCRUB_ABANDON_COUNT 1
        | (some copy, y) => (y.each (List.range n) fun s i =>
            s.scrubOne (pos + i) copy (flips.contains i) (corr.contains i) (bad.contains i)).setF uCAMG F.CAM_SCRUB_STATUS_POS
              (if 4096 * camBanks.length ≤ pos + n then 0 else pos + n)
      else x.addF uCAMG F.CAM_SCRUB_ABANDON_COUNT 1 := by
  subst slice at_ marked
  unfold State.camScrub
  rw [if_neg (by simp [up, noFooting, enabled, due])]
  cases finished <;> rfl

/-- Settles O44: fences, compares and scrubs, with the check units of log entry 79. -/
theorem fencesComparesAndScrubs : Obligations.FencesComparesAndScrubs := by
  unfold Obligations.FencesComparesAndScrubs
  refine fun s src tid d f rest runs => ⟨fun next len resv fences on => ⟨fun room => ?fence, fun full => ?full⟩,
    fun fences clear => ?clear, fun fences => ?bound, fun down data ok finished => ?compareDown,
    fun down finished dram flips corr bad => ?scrubDown,
    fun shadowed up enabled due data => ⟨?compareFails, ?compares⟩,
    fun up noFooting enabled due => ⟨fun dram flips corr bad => ?unfinished, fun dram flips corr bad y copy => ?noCopy,
      fun dram flips corr bad copy y read => ?scrubs⟩⟩
  case fence =>
    exact State.act_eq runs ((State.egressFence_behindFences next len resv fences rfl on rfl rfl).trans (if_neg (Nat.not_le.2 room)))
  case full => exact State.act_eq runs ((State.egressFence_behindFences next len resv fences rfl on rfl rfl).trans (if_pos full))
  case clear => exact State.act_eq runs (State.egressFenceDone_clear fences clear)
  case bound => exact State.act_eq runs (State.egressFenceBound_oldest fences)
  case compareDown => exact State.act_eq runs (State.compareSlice_down down)
  case scrubDown => exact State.act_eq runs (State.camScrub_down down)
  case compareFails =>
    exact State.act_eq runs ((State.compareSlice_due false rfl shadowed up enabled due rfl rfl rfl rfl).trans
      (if_neg Bool.false_ne_true))
  case compares =>
    exact State.act_eq runs ((State.compareSlice_due true rfl shadowed up enabled due rfl rfl rfl rfl).trans (if_pos rfl))
  case unfinished =>
    exact State.act_eq runs ((State.camScrub_due false dram flips corr bad up noFooting enabled due rfl rfl rfl).trans
      (if_neg Bool.false_ne_true))
  case noCopy =>
    refine State.act_eq runs ((State.camScrub_due true dram flips corr bad up noFooting enabled due rfl rfl rfl).trans
      ((if_pos rfl).trans ?_))
    rw [copy]
  case scrubs =>
    refine State.act_eq runs ((State.camScrub_due true dram flips corr bad up noFooting enabled due rfl rfl rfl).trans
      ((if_pos rfl).trans ?_))
    rw [read]

/-! ### Boundaries -/

/-- At a boundary of a running device the steps of R412 follow one another. -/
theorem State.boundary_runs {s a x y : State} (clock : s.clk.running = true)
    (reached : a = (s.elapse (s.reachRaw s.clk.nextWp)).modClk fun c => { c with wpNum := s.clk.wpNum + 1 })
    (runs : a.running = true) (applied : x = a.closePeriod.configApply)
    (next : y = x.modClk fun c => { c with nextWp := s.clk.nextWp + x.periodLen }) (still : y.running = true) :
    s.boundary = y.commitSwitch.boundaryStarts.footSwitch.startDrain.twinRun.twinPump := by
  subst next applied reached
  simp only [State.boundary, clock, runs, still, Bool.not_true, Bool.false_eq_true, if_false]

/-- Otherwise it only counts (log entry 114). -/
theorem State.boundary_stopped {s a : State} (clock : s.clk.running = true)
    (reached : a = (s.elapse (s.reachRaw s.clk.nextWp)).modClk fun c => { c with wpNum := s.clk.wpNum + 1 })
    (stopped : a.running = false) : s.boundary = a.modClk fun c => { c with nextWp := s.clk.nextWp + a.periodLen } := by
  subst reached
  simp only [State.boundary, clock, stopped, Bool.not_true, Bool.not_false, Bool.false_eq_true, if_false, if_true]

/-! ### Records -/

theorem State.tallyWrite_run {s : State} {i : Nat} {vs : List Nat} {rest : List (Nat × List Nat)} (runs : s.running = true)
    (next : s.tal.runs = (i, vs) :: rest) :
    s.tallyWrite = (s.modTal fun t => { t with runs := rest, written := s.tal.written +
        (if (s.ringUp (s.getF uTAL F.TAL_CFG_RING) 0x14 && !s.ringFull (s.getF uTAL F.TAL_CFG_RING)) = true
          then 1 else 0) }).recordNow (s.getF uTAL F.TAL_CFG_RING) 0x14
      (wordsBytes ([2 ^ 60 + vs.length * 2 ^ 57 + i * 2 ^ 32 + s.tal.period % 2 ^ 32, s.tal.periodAt] ++
        (List.range 6).map fun k => vs.getD k 0)) := by
  simp only [State.tallyWrite, runs, next, Bool.not_true, Bool.false_eq_true, if_false]

theorem State.tallyWrite_end {s : State} (runs : s.running = true) (none : s.tal.runs = []) (due : s.tal.endDue = true) :
    s.tallyWrite = s.periodEnd 0 := by
  simp only [State.tallyWrite, runs, none, due, Bool.not_true, Bool.false_eq_true, if_false, if_true]

theorem State.telWrite_next {s : State} {k : Nat} {d : List Byte} {rest : List (List Byte)} (runs : s.running = true)
    (next : s.tal.telem.get (fun _ => []) k = d :: rest) :
    s.telWrite k = (s.modTal fun t => { t with telem := s.tal.telem.put (fun _ => []) k rest }).recordNow
      (s.getF (uTMQ k) F.TMQ_TELEM_CFG_RING) 0x15 d := by
  simp only [State.telWrite, runs, next, Bool.not_true, Bool.false_eq_true, if_false]

theorem State.captureWrite_next {s : State} {d : List Byte} {rest : List (List Byte)} (runs : s.running = true)
    (next : s.bas.captureOut = d :: rest) :
    s.captureWrite = (s.modBas fun b => { b with captureOut := rest }).recordNow (s.getF uBSN F.BSN_CAPTURE_CFG_RING) 0x17 d := by
  simp only [State.captureWrite, runs, next, Bool.not_true, Bool.false_eq_true, if_false]

/-! ### Flow write-backs -/

theorem State.flowEvict_held {s : State} {cache ctr : Nat} {d : FlowDelta}
    (held : (s.tal.flows.find? fun d => d.cache == cache && d.ctr == ctr) = some d) :
    s.flowEvict cache ctr =
      s.modTal fun t => { t with flows := s.tal.flows.erase d, flowOut := s.tal.flowOut ++ [{ d with at_ := s.ns }] } := by
  simp only [State.flowEvict, held]

theorem State.flowDone_oldest {s : State} {n ecc : Nat} {d : FlowDelta} (oldest : s.oldestFlow n = some d) :
    s.flowDone n ecc = ((s.modTal fun t => { t with flowOut := s.tal.flowOut.eraseIdx n }).flowAdd d ecc).flowSync := by
  simp only [State.flowDone, oldest]

theorem State.flowDone_none {s : State} {n ecc : Nat} (none : s.oldestFlow n = none) : s.flowDone n ecc = s := by
  simp only [State.flowDone, none]

/-- A write-back past tFWB is lost and counted. -/
theorem State.flowLost_out {s x : State} {n : Nat} {d : FlowDelta} (out : s.tal.flowOut[n]? = some d)
    (late : x = (s.reach (d.at_ + 100000)).addF uTAL F.TAL_FLOW_LOST_COUNT 1) :
    s.flowLost n = (x.modTal fun t => { t with flowOut := x.tal.flowOut.eraseIdx n }).flowSync := by
  subst late
  unfold State.flowLost
  obtain ⟨R, reached⟩ : ∃ R, @State.reach = R := ⟨_, rfl⟩
  rw [reached]
  simp only [out]

/-- A write-back adds its packets and bytes to the 16 bytes at its counter's DRAM address. -/
theorem State.flowAdd_read {s y : State} {d : FlowDelta} {bs : List Byte}
    (read : s.dramRead (6 * 4096 + d.cache) (s.flowAddr d.ctr) 16 0 = (some bs, y)) : s.flowAdd d 0 = y.flowSum d (some bs) := by
  unfold State.flowAdd
  rw [read]

/-- Settles O45: the boundary, each record row, and the flow write-backs. -/
theorem boundariesAndRecords : Obligations.BoundariesAndRecords := by
  unfold Obligations.BoundariesAndRecords
  refine fun s => ⟨fun clock runs reached still => ?runs, fun clock runs stopped => ?counts,
    fun runs => ⟨fun i vs rest next => ?tally, fun none due => ?periodEnd, fun k d rest quadrant next => ?telemetry,
      fun d rest next => ?capture, fun cache ctr d held => ?evicted,
      fun n d out => ⟨fun oldest => ?written, fun behind => ?waits, ?lost⟩⟩,
    fun d bs y read => State.flowAdd_read read⟩
  case runs => exact State.actPln_eq clock (State.boundary_runs clock rfl reached rfl rfl still)
  case counts => exact State.actPln_eq clock (State.boundary_stopped clock rfl stopped)
  case tally => exact State.act_eq runs (State.tallyWrite_run runs next)
  case periodEnd => exact State.act_eq runs (State.tallyWrite_end runs none due)
  case telemetry =>
    have row := State.act_eq runs (State.telWrite_next runs next)
    show s.act (s.telWrite (k % 4)) = _
    rwa [Nat.mod_eq_of_lt quadrant]
  case capture => exact State.act_eq runs (State.captureWrite_next runs next)
  case evicted => exact State.act_eq runs (State.flowEvict_held held)
  case written =>
    exact State.act_eq runs (State.flowDone_oldest (by simp only [State.oldestFlow, out, oldest, Bool.false_eq_true, if_false]))
  case waits => exact State.act_eq runs (State.flowDone_none (by simp only [State.oldestFlow, out, behind, if_true]))
  case lost => exact State.act_eq runs (State.flowLost_out out rfl)

end Sys2Proof.Machine
end

section
/-! ## The fabric interface (R310–R325) -/

open Sys2Proof Sys2Proof.Machine
namespace Sys2Proof.Machine

/-- A cell is first read for its header. -/
theorem State.fabCellReceive_badHeader {s x : State} {cell : List Byte} (drained : x = s.fabDrain) (on : x.fabOn = true)
    (bad : readCell cell = none) : s.fabCellReceive cell = x.addF uFAB F.FAB_RX_HDR_ERR 1 := by
  subst drained
  simp only [State.fabCellReceive, on, bad, Bool.not_true, Bool.false_eq_true, if_false]

theorem State.fabCellReceive_misrouted {s x : State} {cell : List Byte} {h : CellHdr} (drained : x = s.fabDrain)
    (on : x.fabOn = true) (read : readCell cell = some h) (data : h.type = 0) (other : h.dst ≠ x.devId) :
    s.fabCellReceive cell = x.addF uFAB F.FAB_RX_MISROUTE 1 := by
  subst drained
  simp only [State.fabCellReceive, on, read, data, other, ne_eq, not_true_eq_false, not_false_eq_true, Bool.not_true,
    Bool.false_eq_true, if_false, if_true]

/-- A SYNC cell starts its flow at its number. -/
theorem State.fabCellReceive_sync {s x g : State} {cell : List Byte} {h : CellHdr} (drained : x = s.fabDrain)
    (on : x.fabOn = true) (read : readCell cell = some h) (data : h.type = 0) (here : h.dst = x.devId) (sync : h.sync = true)
    (gap : g = x.fabGap h.src 0x59) :
    s.fabCellReceive cell = ((((g.setFlowIn h.src { g.flowIn h.src with
      synced := true, exp := h.seq, held := [], overrun := [] }).fabHold h).fabReleaseAll h.src).fcCheck h.src) := by
  subst gap drained
  simp only [State.fabCellReceive, on, read, data, here, sync, ne_eq, not_true_eq_false, Bool.not_true, Bool.false_eq_true,
    if_false, if_true]

/-- A cell of a synchronised flow within its window is held, and those in order leave. -/
theorem State.fabCellReceive_inWindow {s x : State} {cell : List Byte} {h : CellHdr} (drained : x = s.fabDrain)
    (on : x.fabOn = true) (read : readCell cell = some h) (data : h.type = 0) (here : h.dst = x.devId) (noSync : h.sync = false)
    (synced : (x.flowIn h.src).synced = true) (near : (h.seq + 65536 - (x.flowIn h.src).exp) % 65536 < 4096) :
    s.fabCellReceive cell = ((x.fabHold h).fabReleaseAll h.src).fcCheck h.src := by
  subst drained
  simp only [State.fabCellReceive, on, read, data, here, noSync, synced, near, ne_eq, not_true_eq_false, Bool.not_true,
    Bool.false_eq_true, if_false, if_true]

/-- WAIT_NS with the next cell missing counts it as lost and goes on. -/
theorem State.reorderExpire_missing {s y z : State} {d : Nat} {c : RxCell} {r : List RxCell} (held : (s.flowIn d).held = c :: r)
    (missing : ((s.flowIn d).held.any fun y => y.seq == (s.flowIn d).exp) = false)
    (late : y = (s.reach (r.foldl (fun a y => min a y.at_) c.at_ + s.getF uFAB F.FAB_REORDER_WAIT_NS)).fabDrain)
    (lost : z = (y.fabGap d 0x59).addF uFAB F.FAB_RX_LOST_CELLS 1) :
    s.reorderExpire d =
      ((z.setFlowIn d { z.flowIn d with exp := ((s.flowIn d).exp + 1) % 65536 }).fabReleaseAll d).fcCheck d := by
  rw [held] at missing
  subst lost late
  unfold State.reorderExpire
  obtain ⟨R, reached⟩ : ∃ R, @State.reach = R := ⟨_, rfl⟩
  rw [reached]
  simp only [held, missing, Bool.false_eq_true, if_false]

theorem State.xoffExpire_due {s y : State} {n t : Nat} (till : s.fab.xoffTill.get (fun _ => 0) n = t) (due : t ≠ 0)
    (late : y = (s.reach t).fabDrain) :
    s.xoffExpire n = y.modFab fun f => { f with xoffTill := y.fab.xoffTill.put (fun _ => 0) n 0 } := by
  subst late till
  unfold State.xoffExpire
  exact if_neg due

theorem State.fcRepeat_due {s y : State} {d t : Nat} (sent : (s.flowIn d).fcAt = some t)
    (late : y = (s.reach (t + s.getF uFAB F.FAB_FC_HOLD_NS / 2)).fabDrain) :
    s.fcRepeat d = (y.sendFc d).setFlowIn d { y.flowIn d with fcAt := some y.ns } := by
  subst late
  unfold State.fcRepeat
  obtain ⟨R, reached⟩ : ∃ R, @State.reach = R := ⟨_, rfl⟩
  rw [reached]
  simp only [sent]

/-- A lane with no cell that goes down leaves the map. -/
theorem State.fabLaneDown_empty {s x y : State} {k : Nat} (drained : x = s.fabDrain) (lane : x.fabLanes.contains k = true)
    (left : y = x.setF uFAB (F.FAB_LANE_UP_MAP.i (k / 32))
      (setBitsOf (x.getF uFAB (F.FAB_LANE_UP_MAP.i (k / 32))) (k % 32) 1 0)) (empty : y.fabLane k = []) : s.fabLaneDown k = y := by
  subst left drained
  simp only [State.fabLaneDown, lane, not_true_eq_false, if_false, empty]

/-- One with cells loses its first and moves the others. -/
theorem State.fabLaneDown_cells {s x y : State} {k : Nat} {h : LaneCell} {r : List LaneCell} (drained : x = s.fabDrain)
    (lane : x.fabLanes.contains k = true)
    (left : y = x.setF uFAB (F.FAB_LANE_UP_MAP.i (k / 32))
      (setBitsOf (x.getF uFAB (F.FAB_LANE_UP_MAP.i (k / 32))) (k % 32) 1 0)) (cells : y.fabLane k = h :: r) :
    s.fabLaneDown k = ((y.each h.ends fun s p => s.mcDone p false).setFabLane k r).moveCells := by
  subst left drained
  simp only [State.fabLaneDown, lane, not_true_eq_false, if_false, cells]

/-- Settles O46: cells sent and received, the timers, and lanes that come and go. -/
theorem fabricCellsAndLanes : Obligations.FabricCellsAndLanes := by
  unfold Obligations.FabricCellsAndLanes
  refine fun s runs => ⟨fun port err on => ?sends, fun cell on bad => ?bad,
    fun cell h on read data => ⟨fun other => ?misrouted, fun here noSync synced near => ?placed, fun here sync => ?synced⟩,
    fun d c r held missing => ?missing, fun n t till due => ?xoff, fun d t sent => ?repeats,
    fun k lane => ⟨fun empty => ?emptyLane, fun h r cells => ?laneLost⟩, fun k isLane card up => ?joins⟩
  case sends => exact State.act_eq runs (if_neg (by rw [on]; decide))
  case bad => exact State.act_eq runs (State.fabCellReceive_badHeader rfl on bad)
  case misrouted => exact State.act_eq runs (State.fabCellReceive_misrouted rfl on read data other)
  case placed => exact State.act_eq runs (State.fabCellReceive_inWindow rfl on read data here noSync synced near)
  case synced => exact State.act_eq runs (State.fabCellReceive_sync rfl on read data here sync rfl)
  case missing => exact State.act_eq runs (State.reorderExpire_missing held missing rfl rfl)
  case xoff => exact State.act_eq runs (State.xoffExpire_due till due rfl)
  case repeats => exact State.act_eq runs (State.fcRepeat_due sent rfl)
  case emptyLane => exact State.act_eq runs (State.fabLaneDown_empty rfl lane rfl empty)
  case laneLost => exact State.act_eq runs (State.fabLaneDown_cells rfl lane rfl cells)
  case joins => exact State.act_eq runs (if_pos ⟨isLane, card, up⟩)

end Sys2Proof.Machine
end

section
/-! ## DRAM channels (R330–R348) -/

open Sys2Proof Sys2Proof.Machine
namespace Sys2Proof.Machine

/-- A key that is not kept reads as the default. -/
theorem KMap.get_keep_dropped {α : Type} (d : Nat → α) (p : Nat → Bool) {k : Nat} (dropped : p k = false) :
    ∀ m : KMap α, (m.keep p).get d k = d k
  | [] => rfl
  | (j, v) :: r => by
    have rest := KMap.get_keep_dropped d p dropped r
    by_cases kept : p j = true
    · have other : k ≠ j := by rintro rfl; exact Bool.false_ne_true (dropped.symm.trans kept)
      have front : KMap.keep p ((j, v) :: r) = (j, v) :: KMap.keep p r := List.filter_cons_of_pos kept
      rw [front, KMap.get, KMap.find, if_neg other]
      exact rest
    · have front : KMap.keep p ((j, v) :: r) = KMap.keep p r := List.filter_cons_of_neg kept
      rw [front]
      exact rest

/-! ### Ranks, pages and scrubs -/

/-- A rank idle for IDLE_NS enters power-down then. -/
theorem State.rankDown_idle {s x : State} {ch rank : Nat} (idle : s.getF (uDMC ch) F.DMC_PD_IDLE_NS ≠ 0) (on : s.chanOn ch = true)
    (up : s.dram.down.contains (2 * ch + rank) = false)
    (late : x = s.reach ((s.dram.banks.filter fun b => b.1 / 32 == 2 * ch + rank).foldl (fun a b => max a b.2.at_) 0 +
      s.getF (uDMC ch) F.DMC_PD_IDLE_NS)) :
    s.rankDown ch rank = x.modDram fun d => { d with down := (2 * ch + rank) :: x.dram.down } := by
  subst late
  unfold State.rankDown
  exact if_neg (by simp only [idle, on, up, Bool.not_true, Bool.false_eq_true, or_self, not_false_eq_true])

/-- A scrub slice, one in a work period, accesses its lines; one that finishes moves the address on. -/
theorem State.scrubSlice_due {s w : State} {ch cap a n last : Nat} {corr unc : List Nat} (enabled : s.getF (uDMC ch) F.DMC_SCRUB_EN ≠ 0)
    (on : s.chanOn ch = true) (due : s.dram.scrubAt.get (fun _ => 0) ch ≠ s.clk.wpNum + 1)
    (marked : w = s.modDram fun d => { d with scrubAt := s.dram.scrubAt.put (fun _ => 0) ch (s.clk.wpNum + 1) })
    (size : cap = w.getF (uDMC ch) F.DMC_CFG_CAP_GIB * 2 ^ 30) (at_ : a = w.dram.scrub.get (fun _ => 0) ch)
    (slice : n = min (65536 * 2 ^ w.getF (uDMC ch) F.DMC_SCRUB_SLICE_LOG2) (cap - a))
    (found : last = ((corr ++ unc).filter fun x => decide (a ≤ x) && decide (x < a + n)).foldl max 0) :
    s.scrubSlice ch false corr unc = (w.each (if a ≤ last then lines a (last + 1 - a) else [])
      fun s l => s.scrubLine ch corr unc l).addF (uDMC ch) F.DMC_SCRUB_ABANDON 1 ∧
    s.scrubSlice ch true corr unc =
      let x := w.each (lines a n) fun s l => s.scrubLine ch corr unc l
      x.modDram fun d => { d with scrub := x.dram.scrub.put (fun _ => 0) ch (if cap ≤ a + n then 0 else a + n) } := by
  have acts : ¬ (s.getF (uDMC ch) F.DMC_SCRUB_EN = 0 ∨ (!s.chanOn ch) = true ∨
      s.dram.scrubAt.get (fun _ => 0) ch = s.clk.wpNum + 1) := by simp [enabled, on, due]
  subst found slice at_ size marked
  unfold State.scrubSlice
  exact ⟨(if_neg acts).trans (if_pos rfl), (if_neg acts).trans (if_neg (by decide))⟩

/-! ### The training helper -/

theorem kindOf_dmc {ch : Nat} (isChan : ch < 12) : kindOf (uDMC ch) = some .dmc := by
  have all : ∀ ch < 12, kindOf (uDMC ch) = some .dmc := by decide
  exact all ch isChan

/-- An accepted write of DMC_TRN_CTL with GO starts the helper, its error counts 0. -/
theorem State.busWrite_trainGo {s : State} {m ch v : Nat} (isChan : ch < 12) (ok : s.writeOk m (uDMC ch) 0x200 v)
    (go : bitsOf v 31 1 = 1) :
    s.busWrite m 0 (4096 * uDMC ch + 0x200) 4 v = (s.stored m (uDMC ch) 0x200 v).trainGo ch := by
  have own : uDMC ch - uDMC 0 = ch := by simp only [uDMC]; omega
  rw [State.busWrite_ok ok]
  unfold State.wrote State.regEffect
  rw [if_neg (by decide), if_neg (by omega), if_neg (by decide), kindOf_dmc isChan]
  refine (if_pos ⟨rfl, go⟩).trans ?_
  rw [own]

/-- A word with bit 31 set by addition has it set. -/
theorem bitsOf_top (v : Nat) : bitsOf (v % 2 ^ 31 + 2 ^ 31) 31 1 = 1 := by
  unfold bitsOf
  omega

/-- The error counts of the lanes `n` and up, as the helper's end stores them. -/
def State.laneErrors (s : State) (ch : Nat) (errs : List Nat) (n : Nat) : State :=
  s.each (errs.zipIdx n) fun s e => s.setF (uDMC ch) (F.DMC_TRN_ERR_COUNT.i e.2) (min 65535 e.1)

/-- Two lanes count apart. -/
theorem State.getF_setF_laneError (s : State) (ch : Nat) {j k : Nat} (v : Nat) (other : j ≠ k) :
    (s.setF (uDMC ch) (F.DMC_TRN_ERR_COUNT.i k) v).getF (uDMC ch) (F.DMC_TRN_ERR_COUNT.i j) =
      s.getF (uDMC ch) (F.DMC_TRN_ERR_COUNT.i j) := by
  refine s.getF_setF_reg _ _ _ _ v (regKey_ne_of_off_ne ?_)
  simp only [Fld.i, F.DMC_TRN_ERR_COUNT]
  omega

/-- The lanes below the first one stored are left. -/
theorem State.laneErrors_below (s : State) (ch : Nat) (errs : List Nat) {n k : Nat} (below : k < n) :
    (s.laneErrors ch errs n).getF (uDMC ch) (F.DMC_TRN_ERR_COUNT.i k) = s.getF (uDMC ch) (F.DMC_TRN_ERR_COUNT.i k) := by
  induction errs generalizing s n with
  | nil => rfl
  | cons e r ih =>
    exact (ih (s.setF (uDMC ch) (F.DMC_TRN_ERR_COUNT.i n) (min 65535 e)) (Nat.lt_succ_of_lt below)).trans
      (s.getF_setF_laneError ch _ below.ne)

/-- Each lane's count holds what was found, up to 65,535. -/
theorem State.laneErrors_found (s : State) (ch : Nat) {errs : List Nat} (n : Nat) {k e : Nat} (found : errs[k]? = some e) :
    (s.laneErrors ch errs n).getF (uDMC ch) (F.DMC_TRN_ERR_COUNT.i (n + k)) = min 65535 e := by
  induction errs generalizing s n k with
  | nil => simp at found
  | cons a r ih =>
    cases k with
    | zero =>
      obtain rfl : a = e := by simpa using found
      have stored := (s.setF (uDMC ch) (F.DMC_TRN_ERR_COUNT.i n) (min 65535 a)).laneErrors_below ch r (Nat.lt_succ_self n)
      have own := s.getF_setF_self (uDMC ch) (F.DMC_TRN_ERR_COUNT.i n) (min 65535 a) (by simp [Fld.i, F.DMC_TRN_ERR_COUNT])
      refine stored.trans (own.trans (Nat.mod_eq_of_lt ?_))
      simp only [Fld.i, F.DMC_TRN_ERR_COUNT]
      omega
    | succ k =>
      have later := ih (s.setF (uDMC ch) (F.DMC_TRN_ERR_COUNT.i n) (min 65535 a)) (n + 1) (by simpa using found)
      rw [Nat.add_right_comm, Nat.add_assoc] at later
      exact later

/-- A 64-byte line's key holds its channel and address. -/
theorem dramKey_parts (ch : Nat) {l : Nat} (line : l < 2 ^ 36) : dramKey ch l / 2 ^ 36 = ch ∧ dramKey ch l % 2 ^ 36 = l := by
  unfold dramKey
  omega

/-- The helper's end counts what its lanes found, and holds no byte of the row it used. -/
theorem State.trainEnd_go {s x y z : State} {ch b r : Nat} (errs : List Nat) (go : s.getF (uDMC ch) F.DMC_TRN_CTL_GO ≠ 0)
    (counted : x = s.laneErrors ch (errs.take 80) 0)
    (bank : b = 64 * ch + 32 * x.getF (uDMC ch) F.DMC_TRN_CTL_RANK + x.getF (uDMC ch) F.DMC_TRN_CTL_BANK)
    (row : r = x.getF (uDMC ch) F.DMC_TRN_CTL_ROW) (bursts : y = (x.trainBursts ch b r).draw.2)
    (forgot : z = y.modDram fun d => { d with
      bytes := y.dram.bytes.keep fun k => !(k / 2 ^ 36 == ch && y.bankOf ch (k % 2 ^ 36) == b && rowOf ch (k % 2 ^ 36) == r)
      lost := y.dram.lost.put (fun _ => 0) (b * 2 ^ 18 + r) y.draws }) :
    s.trainEnd ch errs = z.setF (uDMC ch) F.DMC_TRN_CTL_GO 0 := by
  subst forgot bursts row bank counted
  unfold State.trainEnd
  exact if_neg go

/-- No byte of a row that was forgotten reads any more. -/
theorem State.bytes_forgotten {y : State} {ch b r l : Nat} (lost : KMap Nat) (line : l < 2 ^ 36) (bank : y.bankOf ch l = b)
    (row : rowOf ch l = r) :
    (y.modDram fun d => { d with
      bytes := y.dram.bytes.keep fun k => !(k / 2 ^ 36 == ch && y.bankOf ch (k % 2 ^ 36) == b && rowOf ch (k % 2 ^ 36) == r)
      lost := lost }).dram.bytes.get (fun _ => none) (dramKey ch l) = none := by
  obtain ⟨channel, address⟩ := dramKey_parts ch line
  have dropped : (!(dramKey ch l / 2 ^ 36 == ch && y.bankOf ch (dramKey ch l % 2 ^ 36) == b &&
      rowOf ch (dramKey ch l % 2 ^ 36) == r)) = false := by
    simp only [channel, address, bank, row, beq_self_eq_true, Bool.and_self, Bool.not_true]
  exact KMap.get_keep_dropped (fun _ => none)
    (fun k => !(k / 2 ^ 36 == ch && y.bankOf ch (k % 2 ^ 36) == b && rowOf ch (k % 2 ^ 36) == r)) dropped y.dram.bytes

/-- Settles O48: refresh, power-down, the idle close, scrubs, and the training helper from GO to its end. -/
theorem dramChannelsKeepTheirRanks : Obligations.DramChannelsKeepTheirRanks := by
  unfold Obligations.DramChannelsKeepTheirRanks
  intro s ch isChan
  have own : ch % 12 = ch := Nat.mod_eq_of_lt isChan
  refine ⟨fun rank isRank runs => ⟨?refresh, fun idle on up => ?down⟩, fun b isBank runs openPage row => ?close,
    fun runs enabled on due corr unc => ⟨?abandoned, ?scrubbed⟩, fun s corr unc l => rfl, fun m v ok => ?go,
    fun runs go errs => ⟨?trained, ?idle, fun k e lane found => ?counted, fun l line bank row => ?forgot⟩⟩
  case refresh =>
    show s.act (s.refreshRank (ch % 12) (rank % 2)) = _
    rw [own, Nat.mod_eq_of_lt isRank]
    exact State.act_eq runs rfl
  case down =>
    show s.act (s.rankDown (ch % 12) (rank % 2)) = _
    rw [own, Nat.mod_eq_of_lt isRank]
    exact State.act_eq runs (State.rankDown_idle idle on up rfl)
  case close =>
    show s.act (s.idleClose (ch % 12) (b % 64)) = _
    rw [own, Nat.mod_eq_of_lt isBank]
    exact State.act_eq runs (if_pos ⟨openPage, row⟩)
  case abandoned =>
    show s.act (s.scrubSlice (ch % 12) false corr unc) = _
    rw [own]
    exact State.act_eq runs (State.scrubSlice_due enabled on due rfl rfl rfl rfl rfl).1
  case scrubbed =>
    show s.act (s.scrubSlice (ch % 12) true corr unc) = _
    rw [own]
    exact State.act_eq runs (State.scrubSlice_due enabled on due rfl rfl rfl rfl rfl).2
  case go =>
    show State.actAny (s.busWrite m 0 (4096 * uDMC (ch % 12) + 0x200) 4 (v % 2 ^ 31 + 2 ^ 31)) = _
    rw [own]
    exact State.actAny_eq (State.busWrite_trainGo isChan ok (bitsOf_top v))
  case trained =>
    show s.act (s.trainEnd (ch % 12) errs) = _
    rw [own]
    exact State.act_eq runs (State.trainEnd_go errs go rfl rfl rfl rfl rfl)
  case idle => exact State.getF_setF_self _ _ _ _ (by decide)
  case counted =>
    have stored := s.laneErrors_found ch (errs := errs.take 80) 0 (by rwa [List.getElem?_take_of_lt lane])
    rwa [Nat.zero_add] at stored
  case forgot =>
    rw [State.setF_dram]
    exact State.bytes_forgotten _ line bank row

end Sys2Proof.Machine
end

section
/-! ## Movers (R340–R349) -/

open Sys2Proof Sys2Proof.Machine
namespace Sys2Proof.Machine

/-- H2D whose DRAM takes every byte waits for its read-back. -/
theorem State.moveH2D_whole {s x : State} {m n : Nat} {d : Desc} {data : List Byte} (next : s.moverDesc m 0x50 = some d)
    (wrote : (s.hostRead 1 d.w1 d.len).dramWrite (mvSrc m) d.w2 (sliceBytes data 0 d.len) = (n, x))
    (whole : n = (sliceBytes data 0 d.len).length) :
    s.moveH2D m data true = x.moverBegin m d d.w1 d.w2 n 0 (lastEight (sliceBytes data 0 d.len)) := by
  subst whole
  simp only [State.moveH2D, next, if_true, wrote, lt_irrefl, if_false]

theorem State.moveD2H_read {s x : State} {m ecc : Nat} {d : Desc} {bs : List Byte} (next : s.moverDesc m 0x51 = some d)
    (read : s.dramRead (mvSrc m) d.w1 d.len ecc = (some bs, x)) :
    s.moveD2H m ecc = (x.send (.hostWrite 1 d.w2 bs)).moverBegin m d d.w2 d.w1 d.len 0 (lastEight bs) := by
  simp only [State.moveD2H, next, read]

theorem State.moveD2D_whole {s x y : State} {m ecc n : Nat} {d : Desc} {bs : List Byte} (next : s.moverDesc m 0x52 = some d)
    (read : s.dramRead (mvSrc m) d.w1 d.len ecc = (some bs, x)) (wrote : x.dramWrite (mvSrc m) d.w2 bs = (n, y))
    (whole : n = bs.length) : s.moveD2D m ecc = y.moverBegin m d 0 d.w2 n 0 (lastEight bs) := by
  subst whole
  simp only [State.moveD2D, next, read, wrote, lt_irrefl, if_false]

/-- FILL writes its pattern over the range. -/
theorem State.moveFill_whole {s x : State} {m n : Nat} {d : Desc} {bs : List Byte} (next : s.moverDesc m 0x53 = some d)
    (pattern : bs = (List.replicate (d.len / 8) (leBytes d.w2 8)).flatten) (wrote : s.dramWrite (mvSrc m) d.w1 bs = (n, x))
    (whole : n = bs.length) : s.moveFill m = x.moverBegin m d 0 d.w1 n 0 (lastEight bs) := by
  subst whole pattern
  simp only [State.moveFill, next, wrote, lt_irrefl, if_false]

/-- GATE in a trigger mode waits gated, or passes at once where a trigger is pending. -/
theorem State.moveGate_waits {s x y : State} {m : Nat} {d : Desc} (next : s.moverDesc m 0x54 = some d)
    (begun : x = s.setDesc (s.getF (uMV m) F.MV_CFG_RING) d.idx fun d => { d with begun := true })
    (mode : x.getF (uMV m) F.MV_TRIG_MODE ≠ 0)
    (gated : y = (x.setMover m (some ⟨d.idx, 0x54, d.w1, 0, 8, [], 0, x.ns⟩)).setF (uMV m) F.MV_STATUS_GATED 1) :
    s.moveGate m = if y.bit (uMV m) F.MV_STATUS_PENDING then (y.setF (uMV m) F.MV_STATUS_PENDING 0).openGate m else y := by
  subst gated begun
  simp only [State.moveGate, next, mode, if_false]

/-- SIGNAL writes the time, completes, and triggers the channels that watch its mover. -/
theorem State.moveSignal_next {s x : State} {m : Nat} {d : Desc} (next : s.moverDesc m 0x55 = some d)
    (begun : x = s.setDesc (s.getF (uMV m) F.MV_CFG_RING) d.idx fun d => { d with begun := true }) :
    s.moveSignal m = ((x.send (.hostWrite 1 d.w1 (leBytes x.ns 8))).moverEnd m d.idx 0 8).each (List.range 32) fun s c =>
      if s.getF (uMV c) F.MV_TRIG_MODE = 2 ∧ s.getF (uMV c) F.MV_TRIG_SRC = m then s.trigger c else s := by
  subst begun
  simp only [State.moveSignal, next]

/-! ### Read-backs and gates -/

/-- D2H reads its last bytes back from the host. -/
theorem State.moverDone_host {s x : State} {m ecc : Nat} {r : MvRun} {host : List Byte} (run : s.mover m = some r)
    (noFooting : s.footing = false) (op : r.op = 0x51)
    (asked : x = s.hostRead 1 (r.host + r.len - r.tail.length) r.tail.length) :
    s.moverDone m host true ecc = x.moverEnd m r.idx (if sliceBytes host 0 r.tail.length = r.tail then 0 else 0x45) r.len := by
  subst asked
  simp only [State.moverDone, run, noFooting, op, Bool.false_eq_true, or_self, if_false, if_true,
    show ¬ ((0x51 : Nat) = 0x54) by decide]

theorem State.moverDone_hostFails {s x : State} {m ecc : Nat} {r : MvRun} {host : List Byte} (run : s.mover m = some r)
    (noFooting : s.footing = false) (op : r.op = 0x51)
    (asked : x = s.hostRead 1 (r.host + r.len - r.tail.length) r.tail.length) :
    s.moverDone m host false ecc = x.moverEnd m r.idx 0x03 r.len := by
  subst asked
  simp only [State.moverDone, run, noFooting, op, Bool.false_eq_true, or_self, if_false, if_true,
    show ¬ ((0x51 : Nat) = 0x54) by decide]

/-- The other transfers read them back from DRAM. -/
theorem State.moverDone_dram {s x : State} {m ecc : Nat} {r : MvRun} {bs host : List Byte} {ok : Bool}
    (run : s.mover m = some r) (noFooting : s.footing = false) (noHost : r.op ≠ 0x51) (noGate : r.op ≠ 0x54)
    (read : s.dramRead (mvSrc m) (r.dst + r.len - r.tail.length) r.tail.length ecc = (some bs, x)) :
    s.moverDone m host ok ecc = x.moverEnd m r.idx (if bs = r.tail then 0 else 0x45) r.len := by
  simp only [State.moverDone, run, noFooting, noGate, noHost, read, Bool.false_eq_true, or_self, if_false]

theorem State.moverDone_dramFails {s x : State} {m ecc : Nat} {r : MvRun} {host : List Byte} {ok : Bool}
    (run : s.mover m = some r) (noFooting : s.footing = false) (noHost : r.op ≠ 0x51) (noGate : r.op ≠ 0x54)
    (read : s.dramRead (mvSrc m) (r.dst + r.len - r.tail.length) r.tail.length ecc = (none, x)) :
    s.moverDone m host ok ecc = x.moverEnd m r.idx 0x47 r.len := by
  simp only [State.moverDone, run, noFooting, noGate, noHost, read, Bool.false_eq_true, or_self, if_false]

/-- A gate that waited LIMIT_MS ends, unless a timer trigger comes no later or footing mode stops it. -/
theorem State.gateLimit_gate {s : State} {m limit : Nat} {r : MvRun} (run : s.mover m = some r) (gate : r.op = 0x54)
    (due : limit = r.since + s.getF (uMV m) F.MV_GATE_LIMIT_MS * 1000000) :
    s.gateLimit m =
      if s.footing = false ∧ ¬ (s.timerFires (s.clk.wpNum + 1) m = true ∧ s.clk.nextWp ≤ limit * 65536) then
        ((s.reach limit).setF (uMV m) F.MV_STATUS_GATED 0).moverEnd m r.idx 0x46 0 else s := by
  subst due
  unfold State.gateLimit
  obtain ⟨R, reached⟩ : ∃ R, @State.reach = R := ⟨_, rfl⟩
  rw [reached]
  simp only [run, gate, true_and, Bool.not_eq_true', Bool.and_eq_false_iff, decide_eq_false_iff_not, not_and_or,
    Bool.not_eq_true]

/-- Settles O49: each transfer, GATE, SIGNAL, the read-backs and the gate's limit. -/
theorem moversMoveBytes : Obligations.MoversMoveBytes := by
  unfold Obligations.MoversMoveBytes
  intro s m d runs isMover
  have row {f : Nat → State} {t : State} (does : f m = t) : s.act (f (m % 32)) = .next (s.after t) := by
    rw [Nat.mod_eq_of_lt isMover]
    exact State.act_eq runs does
  refine ⟨fun next data n x wrote whole => ?h2d, fun next ecc bs x read => ?d2h,
    fun next ecc n bs x y read wrote whole => ?d2d, fun next n x wrote whole => ?fill,
    fun next mode => ⟨fun idle => ?gated, fun pending => ?passes⟩, fun next => ?signal,
    fun r run noFooting => ⟨fun op host ecc => ⟨?host, ?hostFails⟩,
      fun noHost noGate host bs ok ecc x => ⟨fun read => ?dram, fun read => ?dramFails⟩⟩,
    fun r run gate => ⟨fun noFooting late => ?limit, fun stays => ?stays⟩⟩
  case h2d => exact row (f := fun m => s.moveH2D m data true) (State.moveH2D_whole next wrote whole)
  case d2h => exact row (f := fun m => s.moveD2H m ecc) (State.moveD2H_read next read)
  case d2d => exact row (f := fun m => s.moveD2D m ecc) (State.moveD2D_whole next read wrote whole)
  case fill => exact row (f := s.moveFill) (State.moveFill_whole next rfl wrote whole)
  case gated =>
    exact row (f := s.moveGate) ((State.moveGate_waits next rfl mode rfl).trans (if_neg (Bool.eq_false_iff.1 idle)))
  case passes => exact row (f := s.moveGate) ((State.moveGate_waits next rfl mode rfl).trans (if_pos pending))
  case signal => exact row (f := s.moveSignal) (State.moveSignal_next next rfl)
  case host => exact row (f := fun m => s.moverDone m host true ecc) (State.moverDone_host run noFooting op rfl)
  case hostFails => exact row (f := fun m => s.moverDone m host false ecc) (State.moverDone_hostFails run noFooting op rfl)
  case dram => exact row (f := fun m => s.moverDone m host ok ecc) (State.moverDone_dram run noFooting noHost noGate read)
  case dramFails =>
    exact row (f := fun m => s.moverDone m host ok ecc) (State.moverDone_dramFails run noFooting noHost noGate read)
  case limit => exact row (f := s.gateLimit) ((State.gateLimit_gate run gate rfl).trans (if_pos ⟨noFooting, late⟩))
  case stays =>
    refine row (f := s.gateLimit) ((State.gateLimit_gate run gate rfl).trans (if_neg ?_))
    rintro ⟨noFooting, late⟩
    exact stays.elim (fun footing => Bool.false_ne_true (noFooting.symm.trans footing)) late

end Sys2Proof.Machine
end

section
/-! ## Faults, substitution, footing mode and check units (R26–R38, R385–R390) -/

open Sys2Proof Sys2Proof.Machine
namespace Sys2Proof.Machine

theorem State.faultReport_source {s : State} {u src detail : Nat} (isSrc : src < 16)
    (has : (kindOf u).any (fun k => (srcDefault k src).isSome) = true) : s.faultReport u src detail = s.report u src detail := by
  have own : src % 16 = src := Nat.mod_eq_of_lt isSrc
  unfold State.faultReport
  rw [own]
  exact if_pos has

/-- At the end of a table bank's copy the words that could not be copied are told and the spare serves its position (log entries
78 and 115). -/
theorem State.substEnd_table {s v w x y : State} {u b sp pos : Nat} {bad : List Nat} {all : List (Nat × Nat)}
    (subst : (s.flt.subst.find? fun x => x.1 == u) = some (b, sp)) (kind : kindOf u = some .tableBank)
    (removed : v = s.modFlt fun f => { f with subst := s.flt.subst.filter fun x => x.1 ≠ u })
    (lost : all = bad.map (fun a => (a / 2 ^ 32, a % 2 ^ 32)) ++ (v.flt.badWords.filter fun w => w.1 == u).map (·.2))
    (told : w = v.each all fun s w => s.event 0x85 0x301 u u w.2)
    (marked : x = w.modFlt fun f => { f with
      badWords := w.flt.badWords.filter (fun w => w.1 ≠ u && w.1 ≠ sp) ++ all.map fun w => (sp, w.1, w.2) })
    (place : pos = (x.servesAs u).getD u)
    (swapped : y = x.modFlt fun f => { f with
      swapped := (x.flt.swapped.filter fun w => w.1 ≠ pos) ++ (if pos = sp then [] else [(pos, sp)])
      blank := (x.flt.blank.filter fun (b : Nat × Nat) => b.1 ≠ sp).map fun (b : Nat × Nat) =>
        if b.1 = u then (sp, b.2) else b }) :
    s.substEnd u bad = (((y.setUst sp 4).retireUnit u).preempt u).event 0x83 0x301 sp u 0 := by
  have noCam : (some Kind.tableBank == some Kind.camBank) = false := by decide
  subst swapped place marked told lost removed
  simp only [State.substEnd, subst, kind, noCam, Bool.false_eq_true, false_and, if_false]

/-- An accepted write of a FLT register makes FLT's effect. -/
theorem State.busWrite_flt {s : State} {m off v : Nat} (ok : s.writeOk m uFLT off v) (low : 0x100 ≤ off) (high : off < 0xE80) :
    s.busWrite m 0 (4096 * uFLT + off) 4 v = (s.stored m uFLT off v).fltEffect off v := by
  have kind : kindOf uFLT = some .flt := rfl
  rw [State.busWrite_ok ok]
  unfold State.wrote State.regEffect
  rw [if_neg (by omega), if_neg (by omega), if_neg (by omega), kind]

theorem State.fltEffect_unfreeze (t : State) : t.fltEffect 0x108 (2 ^ 31) = t.histUnfreeze := by
  unfold State.fltEffect
  exact if_pos (by decide)

theorem State.fltEffect_enter (t : State) : t.fltEffect 0x140 1 = t.footEnter 4 := by
  unfold State.fltEffect
  exact if_pos (by decide)

theorem State.fltEffect_exit (t : State) : t.fltEffect 0x140 2 = t.setF uFLT F.FOOT_STATUS_EXIT_PENDING 1 := by
  unfold State.fltEffect
  exact if_neg (by decide)

/-- UNGATE restarts what was gated and marks it ready. -/
theorem State.ungateDone_pending {s x : State} (pending : s.bit uFLT F.FOOT_STATUS_EXIT_PENDING = true) (notYet : s.flt.ready = false)
    (restarted : x = s.each ((List.range 16).flatMap fun c => (List.range 17).map fun e => uENG c e) fun s u =>
      if s.up u then s.masterStart (engNo u) else s) :
    s.ungateDone [] = ((x.modDram fun d => { d with selfRef := [] }).modPwr fun p => { p with dmcDrainAt := none }).modFlt fun f =>
      { f with ready := true } := by
  subst restarted
  unfold State.ungateDone
  exact if_neg (by simp only [pending, notYet, Bool.not_true, Bool.false_eq_true, or_self, not_false_eq_true])

/-- At tHAND a course that was handed back releases each block it still holds, with EVT_HANDBACK_LATE. -/
theorem State.handbackTimeout_held {s x : State} {n t : Nat} (held : (s.course n).heldAt = some t)
    (late : x = (s.reach (t + 600000)).courseHandback n) :
    s.handbackTimeout n = (x.setCourse n { x.course n with heldBlocks := [], heldAt := none }).each (x.course n).heldBlocks fun s b =>
      s.event 0x89 0x301 (uCRS n) (b * 256 + n) 0 := by
  subst late
  unfold State.handbackTimeout
  obtain ⟨R, reached⟩ : ∃ R, @State.reach = R := ⟨_, rfl⟩
  rw [reached]
  simp only [held]

/-! ### Scans -/

/-- The scan of check unit `u`, as `c` had it, has taken the bytes of its next `n` words: it goes on with the CRC or ends. -/
def State.scanTook (s : State) (u n : Nat) (c : CuRun) (bs : List Byte) : State :=
  let y := s.setCu u { s.cu u with pos := c.pos + n, crc := scanCrc (s.bit (uCU u) F.CU_CFG_ALG) c.crc bs }
  if y.getF (uCU u) F.CU_LEN_WORDS ≤ c.pos + n then y.scanEnd u false else y

section
variable {s x : State} {u n a : Nat} (data : List Byte) (runs : s.cuRuns u 0 = true)
  (busy : s.bit (uCU u) F.CU_STATUS_BUSY = true) (due : (s.cu u).slicedAt ≠ s.clk.wpNum + 1)
  (marked : x = s.setCu u { s.cu u with slicedAt := s.clk.wpNum + 1 })
  (slice : n = min (8192 * 2 ^ x.getF (uCU u) F.CU_CFG_SLICE_LOG2) (x.getF (uCU u) F.CU_LEN_WORDS - (s.cu u).pos))
  (at_ : a = x.getF (uCU u) F.CU_ADDR_LO_ADDR * 8 + x.getF (uCU u) F.CU_ADDR_HI_ADDR * 2 ^ 32 + 8 * (s.cu u).pos)
include runs busy due marked slice at_

/-- What a slice of a scan does: unfinished it is only counted, else it reads its words from the host or DRAM. -/
theorem State.cuScan_busy (ok finished : Bool) :
    s.cuScan u data ok finished =
      if finished then
        let r := if x.bit (uCU u) F.CU_CFG_SPACE then
            (if ok then some (sliceBytes data 0 (8 * n)) else none, x.hostRead 1 a (8 * n))
          else x.dramRead (9 * 4096 + u) a (8 * n) (if ok then 0 else 2)
        r.1.elim (r.2.scanEnd u true) fun bs => r.2.scanTook u n (s.cu u) bs
      else x.addF (uCU u) F.CU_ABANDON 1 := by
  have acts : ¬ ((!s.cuRuns u 0) = true ∨ (!s.bit (uCU u) F.CU_STATUS_BUSY) = true ∨ (s.cu u).slicedAt = s.clk.wpNum + 1) := by
    simp [runs, busy, due]
  unfold State.cuScan
  obtain ⟨D, read⟩ : ∃ D, @State.dramRead = D := ⟨_, rfl⟩
  obtain ⟨H, asked⟩ : ∃ H, @State.hostRead = H := ⟨_, rfl⟩
  rw [read, asked]
  simp only [acts, if_false, ← marked, ← slice, ← at_]
  cases finished with
  | false => simp only [Bool.not_false, Bool.false_eq_true, if_false, if_true]
  | true =>
    simp only [Bool.not_true, Bool.false_eq_true, if_false, if_true]
    generalize (if x.bit (uCU u) F.CU_CFG_SPACE = true then _ else _) = r
    obtain ⟨_ | bs, z⟩ := r <;> rfl

theorem State.cuScan_host (host : x.bit (uCU u) F.CU_CFG_SPACE = true) :
    s.cuScan u data true true = (x.hostRead 1 a (8 * n)).scanTook u n (s.cu u) (sliceBytes data 0 (8 * n)) := by
  refine (State.cuScan_busy data runs busy due marked slice at_ true true).trans ((if_pos rfl).trans ?_)
  simp only [host, if_true, Option.elim_some]

theorem State.cuScan_hostFails (host : x.bit (uCU u) F.CU_CFG_SPACE = true) :
    s.cuScan u data false true = (x.hostRead 1 a (8 * n)).scanEnd u true := by
  refine (State.cuScan_busy data runs busy due marked slice at_ false true).trans ((if_pos rfl).trans ?_)
  simp only [host, if_true, Bool.false_eq_true, if_false, Option.elim_none]

theorem State.cuScan_dram {z : State} {bs : List Byte} (dram : x.bit (uCU u) F.CU_CFG_SPACE = false)
    (read : x.dramRead (9 * 4096 + u) a (8 * n) 0 = (some bs, z)) :
    s.cuScan u data true true = z.scanTook u n (s.cu u) bs := by
  refine (State.cuScan_busy data runs busy due marked slice at_ true true).trans ((if_pos rfl).trans ?_)
  simp only [dram, Bool.false_eq_true, if_false, if_true, read, Option.elim_some]

theorem State.cuScan_dramFails {z : State} (dram : x.bit (uCU u) F.CU_CFG_SPACE = false)
    (read : x.dramRead (9 * 4096 + u) a (8 * n) 2 = (none, z)) : s.cuScan u data false true = z.scanEnd u true := by
  refine (State.cuScan_busy data runs busy due marked slice at_ false true).trans ((if_pos rfl).trans ?_)
  simp only [dram, Bool.false_eq_true, if_false, read, Option.elim_none]

end

/-- An ALIVE check unit with no message for TIMEOUT_US counts it as stale. -/
theorem State.aliveTimeout_runs {s x : State} {u : Nat} (runs : s.cuRuns u 1 = true)
    (late : x = s.reach ((s.cu u).msgAt + s.getF (uCU u) F.CU_ALIVE_CFG_TIMEOUT_US * 1000)) :
    s.aliveTimeout u = ((x.setCu u { s.cu u with msgAt := x.ns }).addF (uCU u) F.CU_ALIVE_STALE 1).evtAlive u 2 0 := by
  subst late
  unfold State.aliveTimeout
  exact if_pos runs

/-- Settles O50: reports, the end of a copy, the FLT writes, the ungate, hand-backs, scans and ALIVE. -/
theorem faultsSparesAndFooting : Obligations.FaultsSparesAndFooting := by
  unfold Obligations.FaultsSparesAndFooting
  refine fun s => ⟨fun u src detail runs isSrc has => ?reported, fun u runs => State.act_eq runs rfl,
    fun u b sp runs subst kind bad => ?substituted, fun m ok => ?unfreeze, fun m ok => ?enter, fun m ok => ?exit,
    fun runs pending notYet => ?ungated, fun n isCourse runs => ?handback, fun n t isCourse runs held => ?handbackLate,
    fun u data isUnit runs scans busy due => ?scan, fun u isUnit runs alive => ?alive⟩
  case reported => exact State.act_eq runs (State.faultReport_source isSrc has)
  case substituted => exact State.act_eq runs (State.substEnd_table subst kind rfl rfl rfl rfl rfl rfl)
  case unfreeze => exact State.actAny_eq ((State.busWrite_flt ok (by decide) (by decide)).trans (State.fltEffect_unfreeze _))
  case enter => exact State.actAny_eq ((State.busWrite_flt ok (by decide) (by decide)).trans (State.fltEffect_enter _))
  case exit => exact State.actAny_eq ((State.busWrite_flt ok (by decide) (by decide)).trans (State.fltEffect_exit _))
  case ungated => exact State.act_eq runs (State.ungateDone_pending pending notYet rfl)
  case handback =>
    show s.act (s.courseHandback (n % 8)) = _
    rw [Nat.mod_eq_of_lt isCourse]
    exact State.act_eq runs rfl
  case handbackLate =>
    show s.act (s.handbackTimeout (n % 8)) = _
    rw [Nat.mod_eq_of_lt isCourse]
    exact State.act_eq runs (State.handbackTimeout_held held rfl)
  case scan =>
    have row (ok finished : Bool) : exec (.checkUnitScan u data ok finished) s = s.act (s.cuScan u data ok finished) := by
      show s.act (s.cuScan (u % 64) data ok finished) = _
      rw [Nat.mod_eq_of_lt isUnit]
    refine ⟨?unfinished, fun host => ⟨?host, ?hostFails⟩, fun dram bs z => ⟨fun read => ?dram, fun read => ?dramFails⟩⟩
    case unfinished =>
      exact (row true false).trans (State.act_eq runs
        ((State.cuScan_busy data scans busy due rfl rfl rfl true false).trans (if_neg Bool.false_ne_true)))
    case host => exact (row true true).trans (State.act_eq runs (State.cuScan_host data scans busy due rfl rfl rfl host))
    case hostFails => exact (row false true).trans (State.act_eq runs (State.cuScan_hostFails data scans busy due rfl rfl rfl host))
    case dram => exact (row true true).trans (State.act_eq runs (State.cuScan_dram data scans busy due rfl rfl rfl dram read))
    case dramFails =>
      exact (row false true).trans (State.act_eq runs (State.cuScan_dramFails data scans busy due rfl rfl rfl dram read))
  case alive =>
    show s.act (s.aliveTimeout (u % 64)) = _
    rw [Nat.mod_eq_of_lt isUnit]
    exact State.act_eq runs (State.aliveTimeout_runs alive rfl)

end Sys2Proof.Machine
end

section
/-! ## Resets: how they begin and how they end (R420–R437) -/

open Sys2Proof Sys2Proof.Machine
namespace Sys2Proof.Machine

theorem State.chipResetNow_awake {s : State} (awake : s.pwr.mode ≠ 3) (bits : Nat) : s.chipResetNow bits = s.chipReset bits := by
  unfold State.chipResetNow
  exact if_neg awake

theorem State.chipResetNow_asleep {s : State} (asleep : s.pwr.mode = 3) (bits : Nat) :
    s.chipResetNow bits = s.coreOn.chipReset (bits ||| 0x80) := by
  unfold State.chipResetNow
  exact if_pos asleep

theorem State.wakeUp_asleep {s : State} (asleep : s.pwr.mode = 3) : s.wakeUp = s.coreOn.chipReset 0x80 := by
  unfold State.wakeUp
  exact (if_pos asleep).trans (State.chipResetNow_asleep asleep 0x80)

theorem State.railLoss_powered {s : State} (powered : s.pwr.coreEn = true) :
    s.railLoss = (s.chipReset 0x02).modPwr fun p => { p with lowRails := s.pwr.lowRails ||| 7 } := by
  unfold State.railLoss
  exact if_pos powered

/-- The loss of CORE_REFCLK acts as RESET_N while CORE_PWR_EN is high. -/
theorem State.clockLoss_core {s : State} (powered : s.pwr.coreEn = true) :
    s.clockLoss 1 = (s.chipReset 0x02).modPwr fun p => { p with coreClkLost := true } := by
  unfold State.clockLoss
  exact (if_neg (by decide)).trans ((if_pos rfl).trans (if_pos powered))

/-- The loss of PLN_XTAL is a chip reset that stops the clock. -/
theorem State.clockLoss_plinth {s : State} (awake : s.pwr.mode ≠ 3) :
    s.clockLoss 0 = (s.chipReset 0).modClk fun c => { c with running := false } := by
  unfold State.clockLoss
  refine (if_pos rfl).trans ?_
  simp only [awake, if_false]

theorem State.brownOut_low {s : State} {mv : Nat} (awake : s.pwr.mode ≠ 3)
    (low : mv * 100 < s.getF uPLN F.PLN_SUPPLY_TARGET_MV * 91) :
    s.brownOut mv = (((((s.setF uPLN F.PLN_SUPPLY_VDD_MV mv).report uPLN 4 mv).react).addF
      uPLN F.PLN_WEAR_BROWNOUTS 1).chipReset 0x10).coreFell := by
  unfold State.brownOut
  exact if_neg (not_or.mpr ⟨awake, by omega⟩)

/-! ### The release of a reset -/

section
variable {s x : State} {split twinId testMode rails : Nat} (held : s.pwr.mode = 1) (powered : s.pwr.coreEn = true)
  (sampled : x = s.modPwr fun p => { p with lowRails := rails % 32, enAt := if rails % 32 = 0 then none else s.pwr.enAt })
include held powered sampled

/-- RESET_RELEASE with a rail low, or with something else that holds the reset, only notes the rails. -/
theorem State.resetRelease_held (still : rails % 32 ≠ 0 ∨ x.resetHeld = true) : s.resetRelease split twinId testMode rails = x := by
  subst sampled
  unfold State.resetRelease
  exact (if_neg (by simp [held, powered])).trans (if_pos still)

/-- RESET_RELEASE with every rail valid and nothing that holds the reset ends it, outside TEST_MODE with the straps and the
firmware. -/
theorem State.resetRelease_free {y : State} (valid : rails % 32 = 0) (free : x.resetHeld = false)
    (waited : y = if bitsOf x.pwr.resetBy 4 1 = 1 then x.reach (x.pwr.coreOkAt + 1000000) else x) :
    s.resetRelease split twinId testMode rails =
      if testMode % 2 = 1 then y else ((y.setF uHIF F.HIF_LINK_SPLIT split).setF uTWN F.TWN_STATUS_TWIN_ID twinId).afterReset := by
  have clear : ¬ (rails % 32 ≠ 0 ∨ x.resetHeld = true) := by simp [valid, free]
  subst waited sampled
  unfold State.resetRelease
  exact (if_neg (by simp [held, powered])).trans (if_neg clear)

end

/-- A power-up whose rails stay low drops CORE_PWR_EN; the third in a row stays Plinth-only. -/
theorem State.railTimeout_waits {s x : State} {t : Nat} (held : s.pwr.mode = 1) (powered : s.pwr.coreEn = true)
    (waits : s.pwr.enAt = some t) (late : x = s.reach (t + 100000000)) :
    s.railTimeout = (if x.pwr.railTries + 1 = 3
        then (x.modPwr fun p => { p with coreEn := false, enAt := none, railTries := 0, mode := 3 }).setTap 1
        else x.modPwr fun p => { p with coreEn := false, enAt := none, railTries := x.pwr.railTries + 1, coreOffAt := x.ns }).drivePin 4 false := by
  subst late
  unfold State.railTimeout
  obtain ⟨R, reached⟩ : ∃ R, @State.reach = R := ⟨_, rfl⟩
  rw [reached]
  simp only [held, powered, waits, and_self, if_true]

theorem State.coreRetry_off {s : State} (held : s.pwr.mode = 1) (off : s.pwr.coreEn = false) :
    s.coreRetry = (s.reach (s.pwr.coreOffAt + 100000000)).coreOn := by
  unfold State.coreRetry
  exact if_neg (by simp [held, off])

/-- Settles O51: how resets begin, what holds them and how they end. -/
theorem resetsBeginAndEnd : Obligations.ResetsBeginAndEnd := by
  unfold Obligations.ResetsBeginAndEnd
  refine fun s => ⟨rfl, fun awake => ⟨?pin0, ?pin1⟩, fun asleep => ⟨?wake0, ?wake1, fun clock => ?wake⟩,
    fun clock powered => ⟨?rail, ?coreClock⟩, ⟨rfl, rfl⟩, fun clock awake => ?xtal, fun mv clock awake low => ?brown,
    fun m ok => ?soft, fun soft => ?softEnd, fun split twinId testMode rails held powered => ⟨fun still => ?stays,
      fun valid free => ⟨fun test => ?test, fun noTest => ?boots⟩⟩,
    fun t clock held powered waits => ?railTimeout, fun clock held off => ?retry⟩
  case pin0 => exact State.actAny_eq (State.chipResetNow_awake awake 0x02)
  case pin1 => exact State.actAny_eq (State.chipResetNow_awake awake 0x04)
  case wake0 => exact State.actAny_eq (State.chipResetNow_asleep asleep 0x02)
  case wake1 => exact State.actAny_eq (State.chipResetNow_asleep asleep 0x04)
  case wake => exact State.actPln_eq clock (State.wakeUp_asleep asleep)
  case rail => exact State.actPln_eq clock (State.railLoss_powered powered)
  case coreClock => exact State.actPln_eq clock (State.clockLoss_core powered)
  case xtal => exact State.actPln_eq clock (State.clockLoss_plinth awake)
  case brown => exact State.actPln_eq clock (State.brownOut_low awake low)
  case soft => exact State.actAny_eq (State.busWrite_dev ok (by decide) (by decide))
  case softEnd => exact State.actAny_eq (if_pos soft)
  case stays => exact State.actAny_eq (State.resetRelease_held held powered rfl still)
  case test => exact State.actAny_eq ((State.resetRelease_free held powered rfl valid free rfl).trans (if_pos test))
  case boots =>
    exact State.actAny_eq ((State.resetRelease_free held powered rfl valid free rfl).trans
      (if_neg (by rw [noTest]; exact Nat.zero_ne_one)))
  case railTimeout => exact State.actPln_eq clock (State.railTimeout_waits held powered waits rfl)
  case retry => exact State.actPln_eq clock (State.coreRetry_off held off)

end Sys2Proof.Machine
end

section
/-! ## Supplies, temperature and the states of power (R438–R447) -/

open Sys2Proof Sys2Proof.Machine
namespace Sys2Proof.Machine

theorem State.supplyLow_below {s x : State} {mv : Nat} (awake : s.pwr.mode ≠ 3) (first : s.pwr.supplyWarn = false)
    (low : mv * 100 < s.getF uPLN F.PLN_SUPPLY_TARGET_MV * 95)
    (warned : x = (((s.setF uPLN F.PLN_SUPPLY_VDD_MV mv).coreFell.modPwr fun p => { p with supplyWarn := true }).addF
      uPLN F.PLN_SUPPLY_WARNS_COUNT 1)) :
    s.supplyLow mv = (x.event 0xA3 0x402 uPLN mv (x.getF uPLN F.PLN_SUPPLY_TARGET_MV)).report uPLN 3 mv := by
  subst warned
  unfold State.supplyLow
  exact if_neg (not_or.mpr ⟨awake, not_or.mpr ⟨by simp [first], by omega⟩⟩)

theorem State.supplyOk_above {s : State} {mv : Nat} (high : s.getF uPLN F.PLN_SUPPLY_TARGET_MV * 95 ≤ mv * 100) :
    s.supplyOk mv = (s.modPwr fun p => { p with
      supplyWarn := false, coreLow := false, coreOkAt := if s.pwr.coreLow then s.ns else s.pwr.coreOkAt }).setF
        uPLN F.PLN_SUPPLY_VDD_MV mv := by
  unfold State.supplyOk
  exact if_neg (by omega)

/-! ### Thermal samples -/

section
variable {s x y z : State} {tj : Int} {sensor : Nat} (late : x = s.reach (s.pwr.thermAt + 10000))
  (shown : y = (x.setF uPLN F.PLN_THERM_TJ (tj % 65536).toNat).setF uPLN F.PLN_THERM_SENSOR (sensor % 32))
  (counted : z = y.modPwr fun p => { p with
    thermAt := y.ns, hot120 := if 1920 ≤ tj then y.pwr.hot120 + 1 else 0, hot125 := if 2000 ≤ tj then y.pwr.hot125 + 1 else 0 })
include late shown counted

/-- A thermal sample below 115 C on an Active device only drives the steps. -/
theorem State.thermSample_cool (cool : tj < 1840) (active : z.pwr.mode = 0) :
    s.thermSample tj sensor = (z.thermSteps tj).modPwr fun p => { p with thermFoot := false } := by
  have below : (if 2000 ≤ tj then y.pwr.hot125 + 1 else 0) ≠ 2 := by rw [if_neg (by omega)]; decide
  have acts : ¬ ((z.pwr.mode = 1 ∨ z.pwr.mode = 3) ∧ ((if 2000 ≤ tj then y.pwr.hot125 + 1 else 0) ≠ 2 ∨
      (z.pwr.mode = 1 ∧ bitsOf z.pwr.resetBy 5 1 = 1))) := by simp [active]
  subst counted shown late
  unfold State.thermSample
  exact (if_neg acts).trans ((if_neg below).trans ((if_pos cool).trans (congrArg (State.modPwr · _) (if_pos active))))

/-- The second sample in a row at 125 C or above trips: reported, counted and a reset. -/
theorem State.thermSample_trip {w : State} (second : z.pwr.hot125 = 2) (free : z.pwr.mode ≠ 1)
    (tripped : w = ((z.report uPLN 2 (tj % 65536).toNat).react).addF uPLN F.PLN_WEAR_TRIPS 1) :
    s.thermSample tj sensor = (if w.pwr.mode = 3 then w.coreOn else w).chipReset 0x20 := by
  have hot : (if 2000 ≤ tj then y.pwr.hot125 + 1 else 0) = 2 := by rw [counted] at second; exact second
  have acts : ¬ ((z.pwr.mode = 1 ∨ z.pwr.mode = 3) ∧ ((if 2000 ≤ tj then y.pwr.hot125 + 1 else 0) ≠ 2 ∨
      (z.pwr.mode = 1 ∧ bitsOf z.pwr.resetBy 5 1 = 1))) := by simp [hot, free]
  subst tripped counted shown late
  unfold State.thermSample
  exact (if_neg acts).trans (if_pos hot)

end

/-- Every core second out of Plinth-only with forwarding on counts in wear bin 0, and in no other below 100 C. -/
theorem State.wearSecond_cool {s x : State} (late : x = s.reachCore ((s.clk.core / 65536000000000 + 1) * 65536000000000))
    (awake : x.pwr.mode ≠ 3) (fwd : x.pwr.fwdOff = false) (cool : signedOf (x.getF uPLN F.PLN_THERM_TJ) 16 < 1600) :
    s.wearSecond = x.addF uPLN (F.PLN_WEAR_SECONDS.i 0) 1 := by
  have counts : ¬ (x.pwr.mode = 3 ∨ x.pwr.fwdOff = true) := by simp [awake, fwd]
  subst late
  unfold State.wearSecond
  exact (if_pos cool).trans (if_neg counts)

/-! ### Drains and the end of a Banked exit -/

theorem State.powerDrainDone_drain {s : State} {t : Nat} (runs : s.running = true) (drains : s.pwr.drainAt = some t) :
    s.powerDrainDone = if s.heldCount ≠ 0 then s else s.powerOff := by
  unfold State.powerDrainDone
  exact (if_neg (by simp [runs])).trans (if_pos (by rw [drains]; rfl))

theorem State.powerDrainDone_dram {s : State} {t : Nat} (runs : s.running = true) (done : s.pwr.drainAt = none)
    (drains : s.pwr.dmcDrainAt = some t) (empty : s.heldReads = []) : s.powerDrainDone = s.dmcSleep := by
  unfold State.powerDrainDone
  exact (if_neg (by simp [runs])).trans ((if_neg (by simp [done])).trans (if_pos (by simp [drains, empty])))

theorem State.powerDrainTimeout_drain {s : State} {t : Nat} (runs : s.running = true) (drains : s.pwr.drainAt = some t) :
    s.powerDrainTimeout = (s.reach (t + s.getF uDEV F.DEV_DRAIN_TIMEOUT_US * 1000)).forceDrain.powerOff := by
  unfold State.powerDrainTimeout
  obtain ⟨R, reached⟩ : ∃ R, @State.reach = R := ⟨_, rfl⟩
  rw [reached]
  simp only [runs, drains, if_true]

theorem State.powerDrainTimeout_dram {s : State} {t : Nat} (runs : s.running = true) (done : s.pwr.drainAt = none)
    (drains : s.pwr.dmcDrainAt = some t) :
    s.powerDrainTimeout = (s.reach (t + s.getF uDEV F.DEV_DRAIN_TIMEOUT_US * 1000)).forceReads.dmcSleep := by
  unfold State.powerDrainTimeout
  obtain ⟨R, reached⟩ : ∃ R, @State.reach = R := ⟨_, rfl⟩
  rw [reached]
  simp only [runs, done, drains, if_true]

/-- The end of a Banked exit without a failing unit or channel makes every unit that was up Ready and the state Active. -/
theorem State.bankedExit_good {s x y : State} (runs : s.running = true) (exits : s.getF uDEV F.DEV_POWER_STATUS_STATE = 4)
    (noneOut : s.pwr.wasRet = []) (woken : x = s.modDram fun d => { d with selfRef := [] })
    (tested : y = x.each s.pwr.wasUp fun s u =>
      (((s.setF u F.UCB_TEST_RESULT_DONE 1).setF u F.UCB_TEST_RESULT_PASS 1).setF u F.UCB_TEST_RESULT_CODE 0).setUst u 3) :
    s.bankedExit [] [] = (y.modPwr fun p => { p with wasUp := [], wasRet := [] }).setPower 0 := by
  have same : x.each x.pwr.wasRet (fun s u => s.setUst u 6) = x := by
    rw [show x.pwr.wasRet = [] by rw [woken]; exact noneOut]; rfl
  have up : s.pwr.wasUp = x.pwr.wasUp := by rw [woken]; rfl
  rw [tested, up]
  unfold State.bankedExit
  refine (if_neg (by simp [runs, exits])).trans ?_
  simp only [← woken, same, List.any_nil, List.find?_nil, Bool.false_eq_true, if_false]

/-- Settles O53: supplies, temperature, the governor, wear and the states of power. -/
theorem suppliesTemperatureAndPower : Obligations.SuppliesTemperatureAndPower := by
  unfold Obligations.SuppliesTemperatureAndPower
  refine fun s => ⟨fun mv clock awake first low => ?warn, fun mv clock high => ?warnEnd,
    fun tj sensor clock => ⟨fun cool active => ?cool, fun second free awake => ?trip, fun second free asleep => ?tripAsleep⟩,
    fun mw clock active => ⟨fun same => ?govSame, fun other => ?govOther⟩, fun mw => ⟨rfl, rfl, rfl, rfl⟩,
    fun clock _ awake fwd cool => ?wear, fun m => ⟨fun ok => ?banked, fun ok => ?active, fun ok => ?plinth⟩,
    fun t runs drains => ⟨fun empty => ?drained, fun holds => ?holds, ?forced⟩,
    fun t runs done drains => ⟨fun empty => ?slept, ?forcedReads⟩, fun runs exits noneOut => ?exit⟩
  case warn => exact State.actPln_eq clock (State.supplyLow_below awake first low rfl)
  case warnEnd => exact State.actPln_eq clock (State.supplyOk_above high)
  case cool => exact State.actPln_eq clock (State.thermSample_cool rfl rfl rfl cool active)
  case trip =>
    exact State.actPln_eq clock ((State.thermSample_trip rfl rfl rfl second free rfl).trans
      (congrArg (State.chipReset · 0x20) (if_neg awake)))
  case tripAsleep =>
    exact State.actPln_eq clock ((State.thermSample_trip rfl rfl rfl second free rfl).trans
      (congrArg (State.chipReset · 0x20) (if_pos asleep)))
  case govSame => exact State.actPln_eq clock ((if_neg (not_not.mpr active)).trans (if_pos same))
  case govOther => exact State.actPln_eq clock ((if_neg (not_not.mpr active)).trans (if_neg other))
  case wear => exact State.actPln_eq clock (State.wearSecond_cool rfl awake fwd cool)
  case banked => exact State.actAny_eq (State.busWrite_dev ok (by decide) (by decide))
  case active => exact State.actAny_eq (State.busWrite_dev ok (by decide) (by decide))
  case plinth => exact State.actAny_eq (State.busWrite_dev ok (by decide) (by decide))
  case drained => exact State.act_eq runs ((State.powerDrainDone_drain runs drains).trans (if_neg (not_not.mpr empty)))
  case holds => exact State.act_eq runs ((State.powerDrainDone_drain runs drains).trans (if_pos holds))
  case forced => exact State.act_eq runs (State.powerDrainTimeout_drain runs drains)
  case slept => exact State.act_eq runs (State.powerDrainDone_dram runs done drains empty)
  case forcedReads => exact State.act_eq runs (State.powerDrainTimeout_dram runs done drains)
  case exit => exact State.act_eq runs (State.bankedExit_good runs exits noneOut rfl rfl)

end Sys2Proof.Machine
end

section
/-! ## Plinth time and the image descriptors (R380–R384, R415–R419) -/

open Sys2Proof Sys2Proof.Machine
namespace Sys2Proof.Machine

theorem State.slewDone_absorbs {s : State} {acc : Int} (slews : s.clk.slew ≠ 0)
    (sum : acc = (s.clk.acc : Int) + s.clk.slew.natAbs * (1000000000 + signedOf (s.getF uPLN F.PLN_FREQ_PPB) 32) + s.clk.slew * 1000000) :
    s.slewDone = s.modClk fun c => { c with
      now := s.clk.now + (acc / 1000000000).toNat, acc := (acc % 1000000000).toNat, slew := 0
      core := s.clk.core + s.clk.slew.natAbs } := by
  subst sum
  unfold State.slewDone
  exact if_neg (Int.natAbs_ne_zero.mpr slews)

theorem State.cmpFire_enabled {s : State} {k : Nat} (isCmp : k < 8) (enabled : s.getF uPLN (F.PLN_CMP_CTL_EN.i k) ≠ 0) :
    s.cmpFire k = ((s.reach (s.cmpTime k)).cmpAct k).cmpRearm k false := by
  unfold State.cmpFire
  exact if_neg (not_or.mpr ⟨by omega, enabled⟩)

/-! ### Edges on PPS_IN -/

/-- An enabled capture takes the edges its EDGE names and no other. -/
theorem State.ppsEdge_taken {s x y : State} {i : Nat} {falling : Bool} (isPin : i < 2)
    (enabled : s.getF uPLN (F.PLN_CAP_CTL_EN.i i) ≠ 0) (edge : s.getF uPLN (F.PLN_CAP_CTL_EDGE.i i) = 1 ↔ falling = true)
    (loaded : x = (s.setF uPLN (F.PLN_CAP_LO_NS.i i) ((s.ns - 20) % 2 ^ 32)).setF uPLN (F.PLN_CAP_HI_NS.i i) ((s.ns - 20) / 2 ^ 32))
    (counted : y = (x.setF uPLN (F.PLN_CAP_CTL_FRAC.i i) x.frac).addF uPLN (F.PLN_CAP_COUNT_COUNT.i i) 1) :
    s.ppsEdge i falling = if y.getF uPLN (F.PLN_CAP_CTL_EVT.i i) = 1 then y.event 0xA8 (0x40C + i) uPLN i (s.ns - 20) else y := by
  subst counted loaded
  unfold State.ppsEdge
  exact if_neg (not_or.mpr ⟨by omega, not_or.mpr ⟨enabled, not_not.mpr (propext edge)⟩⟩)

theorem State.ppsEdge_other {s : State} {i : Nat} {falling : Bool}
    (other : ¬ (s.getF uPLN (F.PLN_CAP_CTL_EDGE.i i) = 1 ↔ falling = true)) : s.ppsEdge i falling = s := by
  unfold State.ppsEdge
  exact if_pos (.inr (.inr fun same => other (iff_of_eq same)))

theorem State.ppsEdge_off {s : State} {i : Nat} {falling : Bool} (off : 2 ≤ i ∨ s.getF uPLN (F.PLN_CAP_CTL_EN.i i) = 0) :
    s.ppsEdge i falling = s := by
  unfold State.ppsEdge
  exact if_pos (off.imp_right .inl)

theorem State.plnEffect_set (s0 t : State) : s0.plnEffect 0x114 (2 ^ 31) t = t.timeSet := by
  unfold State.plnEffect
  exact if_pos (by decide)

/-- Settles O54: plinth time is set, slewed, compared with and captured. -/
theorem plinthTimeIsKept : Obligations.PlinthTimeIsKept := by
  unfold Obligations.PlinthTimeIsKept
  refine fun s => ⟨fun m ok => ?set, fun m v ok => ?slew, fun clock => ⟨fun slews => ?absorbed, fun k isCmp enabled => ?fires,
    fun i falling isPin enabled edge => ⟨fun evt => ?event, fun noEvt => ?noEvent⟩, fun i falling _ _ other => ?other,
    fun i falling off => ?off⟩⟩
  case set => exact State.actAny_eq ((State.busWrite_pln ok (by decide) (by decide)).trans (State.plnEffect_set _ _))
  case slew => exact State.actAny_eq (State.busWrite_pln ok (by decide) (by decide))
  case absorbed => exact State.actPln_eq clock (State.slewDone_absorbs slews rfl)
  case fires => exact State.actPln_eq clock (State.cmpFire_enabled isCmp enabled)
  case event => exact State.actPln_eq clock ((State.ppsEdge_taken isPin enabled edge rfl rfl).trans (if_pos evt))
  case noEvent => exact State.actPln_eq clock ((State.ppsEdge_taken isPin enabled edge rfl rfl).trans (if_neg noEvt))
  case other => exact State.actPln_eq clock (State.ppsEdge_other other)
  case off => exact State.actPln_eq clock (State.ppsEdge_off off)

/-! ### Image descriptors -/

section
variable {s : State} {r : Nat} {data img : List Byte} {d : Desc}

section
variable (next : s.imgDesc r 0x32 = some (d, true)) (image : img = sliceBytes data 0 d.len)
include next

theorem State.wardenLoad_running (noRecovery : s.bit uWDN F.WDN_FW_STATUS_RECOVERY = false) (ok : Bool) (slot : d.w2 % 2 = s.getF uWDN F.WDN_FW_STATUS_SLOT) :
    s.wardenLoad r data ok = s.complete r d.idx (comp 1 0 0) := by
  unfold State.wardenLoad
  simp only [next, noRecovery, slot, Bool.not_true, Bool.not_false, Bool.false_eq_true, if_false, and_self, if_true]

theorem State.wardenLoad_failed (slot : d.w2 % 2 ≠ s.getF uWDN F.WDN_FW_STATUS_SLOT) :
    s.wardenLoad r data false = s.complete r d.idx (comp 3 0 0) := by
  unfold State.wardenLoad
  simp only [next, slot, Bool.not_true, Bool.not_false, Bool.false_eq_true, if_false, and_false, if_true]

include image

theorem State.wardenLoad_refused (slot : d.w2 % 2 ≠ s.getF uWDN F.WDN_FW_STATUS_SLOT) (why : s.imgReason img 1 ≠ 0) :
    s.wardenLoad r data true = s.complete r d.idx (comp 0x47 0 (s.imgReason img 1)) := by
  subst image
  unfold State.wardenLoad
  simp only [next, slot, Bool.not_true, Bool.false_eq_true, if_false, and_false]
  exact if_pos why

theorem State.wardenLoad_accepted (noRecovery : s.bit uWDN F.WDN_FW_STATUS_RECOVERY = false)
    (slot : d.w2 % 2 ≠ s.getF uWDN F.WDN_FW_STATUS_SLOT) (why : s.imgReason img 1 = 0) :
    s.wardenLoad r data true = (s.modSec fun c => { c with
      slotImg := s.sec.slotImg.put (fun _ => []) (d.w2 % 2) img }).complete r d.idx (comp 0 d.len 0) := by
  subst image
  unfold State.wardenLoad
  simp only [next, noRecovery, slot, Bool.not_true, Bool.false_eq_true, if_false, and_false]
  exact if_neg (not_not.mpr why)

end

theorem State.wardenSwitch_refused {why : Nat} (next : s.imgDesc r 0x33 = some (d, true))
    (checked : why = s.imgReason (s.slotImage (1 - s.getF uWDN F.WDN_FW_STATUS_SLOT)) 1) (bad : why ≠ 0) :
    s.wardenSwitch r = s.complete r d.idx (comp 0x47 0 why) := by
  unfold State.wardenSwitch
  simp only [next, ← checked, bad, Bool.not_true, Bool.false_eq_true, if_false, ne_eq, not_false_eq_true, if_true]

theorem State.wardenSwitch_begins {x : State} {why : Nat} (next : s.imgDesc r 0x33 = some (d, true))
    (checked : why = s.imgReason (s.slotImage (1 - s.getF uWDN F.WDN_FW_STATUS_SLOT)) 1) (good : why = 0)
    (freed : x = (s.setDesc r d.idx fun d => { d with begun := true }).each (List.range 64) fun s k =>
      if (s.claim k).any fun c => c.owner == 0 then s.setClaim k none else s) :
    s.wardenSwitch r = x.modSec fun c => { c with switching := some ⟨r, d.idx, x.ns⟩ } := by
  unfold State.wardenSwitch
  simp only [next, ← checked, ← freed, good, Bool.not_true, Bool.false_eq_true, if_false, ne_eq, not_true_eq_false]

theorem State.switchDone_switching {x : State} {w : SwRun} {k : Nat} (runs : s.running = true) (switching : s.sec.switching = some w)
    (other : k = 1 - s.getF uWDN F.WDN_FW_STATUS_SLOT) (switched : x = (s.switchEnd w).runSlot k) :
    s.switchDone = ((x.modSec fun c => { c with bootPtr := k, switches := x.sec.switches + 1 }).extend 7
      (Config.countDigest (x.sec.switches + 1))).complete w.ring w.idx (comp 0 0 0) := by
  unfold State.switchDone
  simp only [switching, runs, ← other, ← switched, Bool.not_true, Bool.false_eq_true, if_false]

theorem State.switchTimeout_switching {w : SwRun} (runs : s.running = true) (switching : s.sec.switching = some w) :
    s.switchTimeout = ((s.reach (w.at_ + 20000000000)).switchEnd w).complete w.ring w.idx (comp 8 0 0) := by
  unfold State.switchTimeout
  obtain ⟨R, reached⟩ : ∃ R, @State.reach = R := ⟨_, rfl⟩
  rw [reached]
  simp only [switching, runs, Bool.not_true, Bool.false_eq_true, if_false]

section
variable (next : s.imgDesc r 0x34 = some (d, true)) (image : img = sliceBytes data 0 d.len)
include next

theorem State.configImage_failed : s.configImage r data false = s.complete r d.idx (comp 3 0 0) := by
  unfold State.configImage
  simp only [next, Bool.not_true, Bool.not_false, Bool.false_eq_true, if_false, if_true]

include image

theorem State.configImage_refused (why : s.imgReason img 3 ≠ 0) :
    s.configImage r data true = s.complete r d.idx (comp 0x47 0 (s.imgReason img 3)) := by
  unfold State.configImage
  simp only [next, ← image, Bool.not_true, Bool.false_eq_true, if_false]
  exact if_pos why

theorem State.configImage_accepted (why : s.imgReason img 3 = 0) :
    s.configImage r data true = ((s.setDesc r d.idx fun d => { d with begun := true }).extend 5 (imgDigest img)).modSec fun c =>
      { c with image := some ⟨some (r, d.idx), imgPayload img, 0⟩ } := by
  unfold State.configImage
  simp only [next, ← image, Bool.not_true, Bool.false_eq_true, if_false]
  exact if_neg (not_not.mpr why)

end

section
variable (next : s.imgDesc r 0x35 = some (d, true)) (image : img = sliceBytes data 0 d.len)
include next

theorem State.fuseUpdate_failed : s.fuseUpdate r data false = s.complete r d.idx (comp 3 0 0) := by
  unfold State.fuseUpdate
  simp only [next, Bool.not_true, Bool.not_false, Bool.false_eq_true, if_false, if_true]

include image

theorem State.fuseUpdate_refused (why : s.imgReason img 4 ≠ 0) :
    s.fuseUpdate r data true = s.complete r d.idx (comp 0x47 0 (s.imgReason img 4)) := by
  unfold State.fuseUpdate
  simp only [next, ← image, Bool.not_true, Bool.false_eq_true, if_false]
  exact if_pos why

/-- A fuse image that authenticates is blown if its fuses may be, else refused by check 1 of its payload. -/
theorem State.fuseUpdate_checked (why : s.imgReason img 4 = 0) :
    s.fuseUpdate r data true = if s.fuseOk (imgPayload img) (imgSlot img) (imgSvn img) then
      (s.setDesc r d.idx fun d => { d with begun := true }).modSec fun c => { c with fusing := some (fuseRun r d (imgPayload img)) }
      else s.complete r d.idx (comp 0x46 0 (2 ^ 24)) := by
  unfold State.fuseUpdate
  simp only [next, ← image, Bool.not_true, Bool.false_eq_true, if_false]
  exact if_neg (not_not.mpr why)

end

theorem State.fuseDone_fusing {f : FuseRun} (fusing : s.sec.fusing = some f) :
    s.fuseDone = ((s.blow f).modSec fun c => { c with fusing := none }).complete f.ring f.idx (comp 0 f.len 0) := by
  unfold State.fuseDone
  simp only [fusing]

/-! ### Without the secure session every image descriptor ends with DENIED -/

theorem State.wardenLoad_denied {ok : Bool} (next : s.imgDesc r 0x32 = some (d, false)) :
    s.wardenLoad r data ok = s.complete r d.idx (comp 4 0 0) := by
  unfold State.wardenLoad
  simp only [next, Bool.not_false, if_true]

theorem State.wardenSwitch_denied (next : s.imgDesc r 0x33 = some (d, false)) :
    s.wardenSwitch r = s.complete r d.idx (comp 4 0 0) := by
  unfold State.wardenSwitch
  simp only [next, Bool.not_false, if_true]

theorem State.configImage_denied {ok : Bool} (next : s.imgDesc r 0x34 = some (d, false)) :
    s.configImage r data ok = s.complete r d.idx (comp 4 0 0) := by
  unfold State.configImage
  simp only [next, Bool.not_false, if_true]

theorem State.fuseUpdate_denied {ok : Bool} (next : s.imgDesc r 0x35 = some (d, false)) :
    s.fuseUpdate r data ok = s.complete r d.idx (comp 4 0 0) := by
  unfold State.fuseUpdate
  simp only [next, Bool.not_false, if_true]

end

/-- Settles O55: the four image descriptors check their image, act and end with the status of the rules. -/
theorem imageDescriptorsEnd : Obligations.ImageDescriptorsEnd := by
  unfold Obligations.ImageDescriptorsEnd
  refine fun s r data runs => ⟨fun d next noRecovery => ⟨fun slot ok => ?loadRunning, fun slot => ⟨?loadFailed, fun why => ?loadRefused,
    fun why => ?loadAccepted⟩⟩, fun d next => ⟨fun bad => ?switchRefused, fun good => ?switchBegins⟩,
    fun w switching => ⟨?switched, ?switchTimeout⟩,
    fun d next => ⟨?configFailed, fun why => ?configRefused, fun why => ?configAccepted⟩,
    fun d next => ⟨?fuseFailed, fun why => ?fuseRefused, fun why may => ?fuseBlown, fun why mayNot => ?fuseBad⟩,
    fun f fusing => State.fuseDone_fusing fusing,
    fun d ok => ⟨fun next => ?loadDenied, fun next => ?switchDenied, fun next => ?configDenied, fun next => ?fuseDenied⟩⟩
  case loadRunning => exact State.act_eq runs (State.wardenLoad_running next noRecovery ok slot)
  case loadFailed => exact State.act_eq runs (State.wardenLoad_failed next slot)
  case loadRefused => exact State.act_eq runs (State.wardenLoad_refused next rfl slot why)
  case loadAccepted => exact State.act_eq runs (State.wardenLoad_accepted next rfl noRecovery slot why)
  case switchRefused => exact State.act_eq runs (State.wardenSwitch_refused next rfl bad)
  case switchBegins => exact State.act_eq runs (State.wardenSwitch_begins next rfl good rfl)
  case switched => exact State.act_eq runs (State.switchDone_switching runs switching rfl rfl)
  case switchTimeout => exact State.act_eq runs (State.switchTimeout_switching runs switching)
  case configFailed => exact State.act_eq runs (State.configImage_failed next)
  case configRefused => exact State.act_eq runs (State.configImage_refused next rfl why)
  case configAccepted => exact State.act_eq runs (State.configImage_accepted next rfl why)
  case fuseFailed => exact State.act_eq runs (State.fuseUpdate_failed next)
  case fuseRefused => exact State.act_eq runs (State.fuseUpdate_refused next rfl why)
  case fuseBlown => exact State.act_eq runs ((State.fuseUpdate_checked next rfl why).trans (if_pos may))
  case fuseBad =>
    exact State.act_eq runs ((State.fuseUpdate_checked next rfl why).trans (if_neg (by rw [mayNot]; exact Bool.false_ne_true)))
  case loadDenied => exact State.act_eq runs (State.wardenLoad_denied next)
  case switchDenied => exact State.act_eq runs (State.wardenSwitch_denied next)
  case configDenied => exact State.act_eq runs (State.configImage_denied next)
  case fuseDenied => exact State.act_eq runs (State.fuseUpdate_denied next)

end Sys2Proof.Machine
end

section
/-! ## Mailboxes, services and the secure session (R400–R414) -/

open Sys2Proof Sys2Proof.Machine
namespace Sys2Proof.Machine

/-! ### Accepted writes of BAR 4 -/

/-- A 4-byte write of BAR 4 that no check rejects is done. -/
theorem State.busWrite_bar4 {s x : State} {m a v : Nat} (runs : s.running = true) (pf0 : m = 1) (reaches : s.reaches m = true)
    (inBar : a < 0x1000) (aligned : a % 4 = 0) (word : v < 2 ^ 32) (counted : x = s.occur uHIF 0x101 4 (some m) a 1)
    (accepted : x.bar4Reason a v = 0) : s.busWrite m 4 a 4 v = x.bar4Do a v := by
  subst pf0 counted
  unfold State.busWrite
  refine (if_neg (by decide)).trans ((if_neg ?_).trans ((if_neg ?_).trans ?_))
  · rw [reaches]; simp [show barSize 1 4 = 0x1000 from rfl]; omega
  · simp [runs]
  · simp only [State.bar4Write, aligned, Nat.mod_eq_of_lt word, accepted]
    rfl

theorem State.bar4Do_out {s : State} {k : Nat} (isChannel : k < 32) (v : Nat) : s.bar4Do (16 * k) v = s.mbOutWrite k v := by
  have low : 16 * k % 16 = 0 := by omega
  have high : 16 * k / 16 = k := by omega
  unfold State.bar4Do
  rw [if_pos (by omega), low, high]
  rfl

theorem State.bar4Do_inAck {s : State} {k : Nat} (isChannel : k < 32) : s.bar4Do (16 * k + 8) (2 ^ 30) = s.mbInAck k := by
  have low : (16 * k + 8) % 16 = 8 := by omega
  have high : (16 * k + 8) / 16 = k := by omega
  unfold State.bar4Do
  have acks : bitsOf (2 ^ 30) 30 1 = 1 := by decide
  rw [if_pos (by omega), low, high]
  simp only [acks, if_true]

theorem State.bar4Do_go (s : State) (slot : Nat) :
    s.bar4Do 0x4C0 (2 ^ 31 + slot % 2) = (s.withWritten uBAR4 0 0x4C0 (2 ^ 31 + slot % 2) allBits).authGo := by
  have go : bitsOf (2 ^ 31 + slot % 2) 31 1 = 1 := by unfold bitsOf; omega
  have noClose : bitsOf (2 ^ 31 + slot % 2) 30 1 ≠ 1 := by unfold bitsOf; omega
  unfold State.bar4Do
  exact (if_neg (by decide)).trans ((if_pos rfl).trans ((if_neg noClose).trans (if_pos go)))

theorem State.bar4Do_close (s : State) :
    s.bar4Do 0x4C0 (2 ^ 30) = (s.withWritten uBAR4 0 0x4C0 (2 ^ 30) allBits).closeSession := by
  unfold State.bar4Do
  exact (if_neg (by decide)).trans ((if_pos rfl).trans ((if_pos (by decide)).trans
    (congrArg State.closeSession (if_neg (by decide)))))

theorem State.mbOutWrite_full {s : State} {k : Nat} (full : s.mbFlag k F.MB_STATUS_OUT_FULL = true) (v : Nat) :
    s.mbOutWrite k v = (s.addF uBAR4 (F.MB_DROPPED_COUNT.i k) 1).event 0xC1 0x410 uWDN (0 * 32 + k) 0 := by
  unfold State.mbOutWrite
  exact if_pos full

theorem State.mbOutWrite_free {s : State} {k : Nat} (free : s.mbFlag k F.MB_STATUS_OUT_FULL = false) (v : Nat) :
    s.mbOutWrite k v = ((s.setF uBAR4 (F.MB_OUT_DATA.i k) v).setF uBAR4 (F.MB_STATUS_OUT_FULL.i k) 1).mbBoth k := by
  unfold State.mbOutWrite
  exact if_neg (by rw [free]; exact Bool.false_ne_true)

theorem mbOutWrite_row (m v : Nat) (s : State) {k : Nat} (isChannel : k < 32) :
    exec (.mbOutWrite m k v) s = (s.busWrite m 4 (16 * k) 4 v).actAny := by
  show (s.busWrite m 4 (0 + 16 * (k % 32)) 4 v).actAny = _
  rw [Nat.mod_eq_of_lt isChannel, Nat.zero_add]

theorem mbInAck_row (m : Nat) (s : State) {k : Nat} (isChannel : k < 32) :
    exec (.mbInAck m k) s = (s.busWrite m 4 (16 * k + 8) 4 (2 ^ 30)).actAny := by
  show (s.busWrite m 4 (8 + 16 * (k % 32)) 4 (2 ^ 30)).actAny = _
  rw [Nat.mod_eq_of_lt isChannel, Nat.add_comm]

/-! ### The warden's side of a channel -/

theorem State.mbInWrite_reply {s : State} {k w : Nat} {rest : List Nat} (isChannel : k < 32) (up : s.wardenUp = true)
    (free : s.mbFlag k F.MB_STATUS_IN_FULL = false) (next : s.replies k = w :: rest) :
    s.mbInWrite k none = (s.setReplies k rest).mbIn k w := by
  unfold State.mbInWrite
  refine (if_neg (by simp [up]; omega)).trans ?_
  simp only [next, free, Bool.false_eq_true, if_false]

theorem State.mbInWrite_overrun {s : State} {k : Nat} (isChannel : k < 32) (up : s.wardenUp = true)
    (full : s.mbFlag k F.MB_STATUS_IN_FULL = true) (w : Nat) :
    s.mbInWrite k (some w) = (s.addF uBAR4 (F.MB_DROPPED_COUNT.i k) 1).event 0xC1 0x410 uWDN (1 * 32 + k) 0 := by
  unfold State.mbInWrite State.mbIn
  exact (if_neg (by simp [up]; omega)).trans (if_pos full)

theorem State.mbReq_setF (s : State) (u : Nat) (f : Fld) (v k : Nat) : (s.setF u f v).mbReq k = s.mbReq k := by
  unfold State.mbReq
  rw [State.setF_sec]

theorem State.mbReq_bothAt (s : State) (m : KMap Nat) (k : Nat) :
    (s.modSec fun c => { c with bothAt := m }).mbReq k = s.mbReq k := rfl

/-- Noting when both words of a channel are full touches no request. -/
theorem State.mbReq_mbBoth (s : State) (k j : Nat) : (s.mbBoth k).mbReq j = s.mbReq j := by
  unfold State.mbBoth
  split
  · split
    · exact State.mbReq_bothAt ..
    · rfl
  · exact (State.mbReq_setF ..).trans (State.mbReq_bothAt ..)

/-- A word that opens a request is its header: the host's ALIVE, the operation and the length. -/
theorem State.mbOutAck_header {s : State} {k w : Nat} (isChannel : k < 32) (up : s.wardenUp = true)
    (full : s.mbFlag k F.MB_STATUS_OUT_FULL = true) (noReq : s.mbReq k = none) (noReply : s.replies k = [])
    (word : w = s.getF uBAR4 (F.MB_OUT_DATA.i k)) :
    s.mbOutAck k = (((((s.setF uBAR4 (F.MB_STATUS_OUT_FULL.i k) 0).mbBoth k).hostAlive k
      (bitsOf w 16 16)).setReq k (some ⟨bitsOf w 8 8, w % 256, []⟩)).mbAnswer k) := by
  have stillNone : ((s.setF uBAR4 (F.MB_STATUS_OUT_FULL.i k) 0).mbBoth k).mbReq k = none :=
    (State.mbReq_mbBoth _ k k).trans ((State.mbReq_setF ..).trans noReq)
  unfold State.mbOutAck
  refine (if_neg (by simp [up, full]; omega)).trans ((if_neg (by simp [noReq, noReply])).trans ?_)
  simp only [stillNone, ← word]

theorem State.mbCross_due {s : State} {k : Nat} (isChannel : k < 32) (both : s.sec.bothAt.get (fun _ => 0) k ≠ 0)
    (noSwitch : s.sec.switching = none) (notYet : s.mbFlag k F.MB_STATUS_CROSSED = false) :
    s.mbCross k = ((s.reach (s.sec.bothAt.get (fun _ => 0) k - 1 +
      s.getF uBAR4 F.MB_CROSS_TIME_US * 1000)).setF uBAR4 (F.MB_STATUS_CROSSED.i k) 1).secEventBoth 0xC0 k 0 := by
  unfold State.mbCross
  exact if_neg (by simp [both, noSwitch, notYet]; omega)

/-! ### Services -/

/-- A service answers a whole request of its own. -/
theorem State.serve_whole {s : State} {k : Nat} {x : MbReq} (words : State → MbReq → List Nat) (after : State → State)
    (up : s.wardenUp = true) (req : s.mbReq k = some x) (whole : x.len ≤ x.words.length) :
    s.serve k x.op words after = ((after s).setReq k none).reply k x.op (words s x) := by
  unfold State.serve
  simp only [req]
  exact if_neg (by simp [up, MbReq.whole, whole])

theorem State.ping_request {s : State} {k : Nat} {x : MbReq} (up : s.wardenUp = true) (req : s.mbReq k = some x)
    (whole : x.len ≤ x.words.length) (op : x.op = 1) : s.ping k = (s.setReq k none).reply k 1 [0] := by
  have answer := State.serve_whole (fun _ _ => [0]) id up req whole
  rw [op] at answer
  exact answer

theorem State.fwStatus_request {s : State} {k : Nat} {x : MbReq} (up : s.wardenUp = true) (req : s.mbReq k = some x)
    (whole : x.len ≤ x.words.length) (op : x.op = 2) :
    s.fwStatus k = (s.setReq k none).reply k 2 [0, s.getF uWDN F.WDN_FW_STATUS_RECOVERY * 2 +
      s.getF uWDN F.WDN_FW_STATUS_SLOT, s.getF uWDN F.SEC_ARB_COUNT] := by
  have answer := State.serve_whole (fun s _ => [0, s.getF uWDN F.WDN_FW_STATUS_RECOVERY * 2 +
    s.getF uWDN F.WDN_FW_STATUS_SLOT, s.getF uWDN F.SEC_ARB_COUNT]) id up req whole
  rw [op] at answer
  exact answer

theorem State.attest_signs {s : State} {k : Nat} {x : MbReq} (up : s.wardenUp = true) (req : s.mbReq k = some x)
    (whole : x.len ≤ x.words.length) (op : x.op = 16) (low : k < 16) :
    s.attest k = (s.signed.setReq k none).reply k 16 (0 :: words32 (s.attestation (x.words.flatMap fun w => leBytes w 4))) := by
  have answer := State.serve_whole (fun s x => 0 :: words32 (s.attestation (x.words.flatMap fun w => leBytes w 4)))
    State.signed up req whole
  rw [op] at answer
  unfold State.attest
  exact (if_pos low).trans answer

theorem State.attest_denied {s : State} {k : Nat} {x : MbReq} (up : s.wardenUp = true) (req : s.mbReq k = some x)
    (whole : x.len ≤ x.words.length) (op : x.op = 16) (high : 16 ≤ k) : s.attest k = (s.setReq k none).reply k 16 [1] := by
  have answer := State.serve_whole (fun _ _ => [1]) id up req whole
  rw [op] at answer
  unfold State.attest
  exact (if_neg (by omega)).trans answer

/-! ### The end of a verification -/

/-- The warden's verdict on the signature of the challenge under the operator key of `slot`. -/
def State.authGood (s : State) (slot : Nat) : Bool :=
  bitsOf (s.getF uWDN F.SEC_KEYS_OP_PRESENT) slot 1 == 1 && bitsOf (s.getF uWDN F.SEC_KEYS_OP_REVOKED) slot 1 == 0 &&
    ecdsaVerify (s.sec.opPub.get (fun _ => []) slot) (sha384 (s.challengeBytes ++ leBytes s.deviceId 8 ++ leBytes slot 1))
      ((List.range 24).flatMap fun i => leBytes (s.getF uBAR4 (F.MB_AUTH_SIG_DATA.i i)) 4)

section
variable {s x : State} {slot : Nat} (runs : s.running = true) (busy : s.bit uBAR4 F.MB_AUTH_STATUS_BUSY = true)
  (noSwitch : s.sec.switching = none) (which : slot = s.getF uBAR4 F.MB_AUTH_CTL_OP_SLOT)
  (renewed : x = (s.setF uBAR4 F.MB_AUTH_STATUS_BUSY 0).newChallenge)
include runs busy noSwitch which renewed

theorem State.authDone_good (good : s.authGood slot = true) :
    s.authDone = (((x.setF uBAR4 F.MB_AUTH_STATUS_OPEN 1).setF uBAR4 F.MB_AUTH_STATUS_FAILS 0).modSec fun c =>
      { c with failRun := 0 }).event 0xC4 0x410 uWDN slot 0 := by
  subst which renewed
  unfold State.authDone
  exact (if_neg (by simp [busy, runs, noSwitch])).trans (if_pos good)

/-- A failed verification is counted; every third one locks out for 1 s. -/
theorem State.authDone_bad {n run : Nat} {y z : State} (bad : s.authGood slot = false)
    (fails : n = min 255 (x.getF uBAR4 F.MB_AUTH_STATUS_FAILS + 1)) (shown : y = x.setF uBAR4 F.MB_AUTH_STATUS_FAILS n)
    (streak : run = x.sec.failRun + 1)
    (noted : z = y.modSec fun c => { c with
      failRun := run, lockTill := if run % 3 = 0 then y.ns + 1000000000 else y.sec.lockTill }) :
    s.authDone = (z.when (run % 3 == 0) fun s => s.setF uBAR4 F.MB_AUTH_STATUS_LOCKOUT 1).event 0xC6 0x410 uWDN n 0 := by
  subst which noted streak shown fails renewed
  unfold State.authDone
  exact (if_neg (by simp [busy, runs, noSwitch])).trans (if_neg (ne_true_of_eq_false bad))

end

theorem State.lockoutEnd_locked {s : State} (locked : s.bit uBAR4 F.MB_AUTH_STATUS_LOCKOUT = true) :
    s.lockoutEnd = (s.reach s.sec.lockTill).setF uBAR4 F.MB_AUTH_STATUS_LOCKOUT 0 := by
  unfold State.lockoutEnd
  exact if_pos locked

/-- Settles O56: mailbox words, crossings, the services and the secure session. -/
theorem mailboxesServicesAndTheSession : Obligations.MailboxesServicesAndTheSession := by
  unfold Obligations.MailboxesServicesAndTheSession
  refine fun s k runs => ⟨fun m v isChannel word pf0 reaches accepted => ⟨fun free => ?outFree, fun full => ?outFull⟩,
    fun m isChannel pf0 reaches accepted => ?inAck, fun isChannel up free w rest next => ?inReply,
    fun isChannel up full w => ?inOverrun, fun isChannel up full noReq noReply => ?outAck,
    fun isChannel both noSwitch notYet => ?cross, fun code a b => rfl,
    fun x up req whole => ⟨fun op => ?ping, fun op => ?status, fun op low => ?attest, fun op high => ?denied⟩,
    fun m pf0 reaches => ⟨fun slot accepted => ?go, fun accepted => ?close⟩,
    fun busy noSwitch => ⟨fun good => ?good, fun bad => ⟨fun noThird => ?bad, fun third => ?locks⟩⟩, fun locked => ?lockoutEnd⟩
  case outFree =>
    exact (mbOutWrite_row m v s isChannel).trans (State.actAny_eq ((State.busWrite_bar4 runs pf0 reaches (by omega) (by omega) word rfl accepted).trans
      ((State.bar4Do_out isChannel v).trans (State.mbOutWrite_free free v))))
  case outFull =>
    exact (mbOutWrite_row m v s isChannel).trans (State.actAny_eq ((State.busWrite_bar4 runs pf0 reaches (by omega) (by omega) word rfl accepted).trans
      ((State.bar4Do_out isChannel v).trans (State.mbOutWrite_full full v))))
  case inAck =>
    exact (mbInAck_row m s isChannel).trans (State.actAny_eq ((State.busWrite_bar4 runs pf0 reaches (by omega) (by omega) (by decide) rfl accepted).trans
      (State.bar4Do_inAck isChannel)))
  case inReply => exact State.act_eq runs (State.mbInWrite_reply isChannel up free next)
  case inOverrun => exact State.act_eq runs (State.mbInWrite_overrun isChannel up full w)
  case outAck => exact State.act_eq runs (State.mbOutAck_header isChannel up full noReq noReply rfl)
  case cross => exact State.act_eq runs (State.mbCross_due isChannel both noSwitch notYet)
  case ping => exact State.act_eq runs (State.ping_request up req whole op)
  case status => exact State.act_eq runs (State.fwStatus_request up req whole op)
  case attest => exact State.act_eq runs (State.attest_signs up req whole op low)
  case denied => exact State.act_eq runs (State.attest_denied up req whole op high)
  case go =>
    exact State.actAny_eq ((State.busWrite_bar4 runs pf0 reaches (by decide) (by decide) (by omega) rfl accepted).trans
      (State.bar4Do_go _ slot))
  case close =>
    exact State.actAny_eq ((State.busWrite_bar4 runs pf0 reaches (by decide) (by decide) (by decide) rfl accepted).trans
      (State.bar4Do_close _))
  case good => exact State.act_eq runs (State.authDone_good runs busy noSwitch rfl rfl good)
  case bad =>
    refine State.act_eq runs ((State.authDone_bad runs busy noSwitch rfl rfl bad rfl rfl rfl rfl).trans ?_)
    rw [beq_eq_false_iff_ne.mpr noThird, State.when_false, if_neg noThird]
  case locks =>
    refine State.act_eq runs ((State.authDone_bad runs busy noSwitch rfl rfl bad rfl rfl rfl rfl).trans ?_)
    rw [beq_iff_eq.mpr third, State.when_true, if_pos third]
  case lockoutEnd => exact State.act_eq runs (State.lockoutEnd_locked locked)

end Sys2Proof.Machine
end

section
/-! ## SPDM requests over DOE (R410–R411, log entry 50) -/

open Sys2Proof Sys2Proof.Machine
namespace Sys2Proof.Machine

section
variable {s : State} {pf code : Nat} {m : List Byte} (runs : s.running = true) (function : pf = 0 ∨ pf = 2)
include runs function

/-- On a running device PF0 and PF2 take requests. -/
theorem State.spdm_taken : ¬ ((pf ≠ 0 ∧ pf ≠ 2) ∨ s.pwr.mode = 1 ∨ s.pwr.mode = 3) := by
  have mode : s.pwr.mode = 0 := beq_iff_eq.mp runs
  omega

/-- ERROR Busy while the warden is away. -/
theorem State.spdm_away (away : s.wardenUp = false) : s.spdm pf code m = s.send (.doe [0x12, 0x7F, 3, 0]) := by
  unfold State.spdm
  exact (if_neg (State.spdm_taken runs function)).trans (if_pos (by rw [away]; rfl))

section
variable (up : s.wardenUp = true)
include up

/-- ERROR UnsupportedRequest for bytes of another request or version. -/
theorem State.spdm_unsupported (other : reqByte m 1 ≠ code ∨ reqByte m 0 ≠ (if code = 0x84 then 0x10 else 0x12)) :
    s.spdm pf code m = s.send (.doe [0x12, 0x7F, 7, byteOf (reqByte m 1)]) := by
  unfold State.spdm
  exact (if_neg (State.spdm_taken runs function)).trans ((if_neg (by simp [up])).trans (if_pos other))

variable (request : reqByte m 1 = code) (version : reqByte m 0 = (if code = 0x84 then 0x10 else 0x12))
include request version

/-- ERROR UnexpectedRequest before the turn of the request. -/
theorem State.spdm_unexpected {turn : Nat} (later : code ≠ 0x84) (step : spdmStep code = turn)
    (early : if turn < 3 then (s.spdmConn pf).step ≠ turn else (s.spdmConn pf).step < 3) :
    s.spdm pf code m = s.send (.doe [0x12, 0x7F, 4, 0]) := by
  subst step
  unfold State.spdm
  exact (if_neg (State.spdm_taken runs function)).trans ((if_neg (by simp [up])).trans
    ((if_neg (not_or.mpr ⟨not_not.mpr request, not_not.mpr version⟩)).trans (if_pos ⟨later, early⟩)))

/-- In its turn a request is answered by its rule. -/
theorem State.spdm_answers {turn : Nat} (step : spdmStep code = turn)
    (inTurn : code ≠ 0x84 → ¬ (if turn < 3 then (s.spdmConn pf).step ≠ turn else (s.spdmConn pf).step < 3)) :
    s.spdm pf code m = (s.spdmAnswer pf code m).2.send (.doe (s.spdmAnswer pf code m).1) := by
  subst step
  unfold State.spdm
  exact (if_neg (State.spdm_taken runs function)).trans ((if_neg (by simp [up])).trans
    ((if_neg (not_or.mpr ⟨not_not.mpr request, not_not.mpr version⟩)).trans (if_neg fun early => inTurn early.1 early.2)))

end

/-- The errors of a request that does not depend on the connection. -/
theorem exec_spdm_errors {i : Instr} (row : exec i s = s.act (s.spdm pf code m)) :
    (s.wardenUp = false → exec i s = .next (s.after (s.send (.doe [0x12, 0x7F, 3, 0])))) ∧
    (s.wardenUp = true → (reqByte m 1 ≠ code ∨ reqByte m 0 ≠ (if code = 0x84 then 0x10 else 0x12)) →
      exec i s = .next (s.after (s.send (.doe [0x12, 0x7F, 7, byteOf (reqByte m 1)])))) :=
  ⟨fun away => row.trans (State.act_eq runs (State.spdm_away runs function away)),
    fun up other => row.trans (State.act_eq runs (State.spdm_unsupported runs function up other))⟩

/-- A request after GET_VERSION is answered in its turn and refused before it. -/
theorem exec_spdm_turn {i : Instr} {turn : Nat} (row : exec i s = s.act (s.spdm pf code m)) (later : code ≠ 0x84)
    (step : spdmStep code = turn) (up : s.wardenUp = true) (request : reqByte m 1 = code) (version : reqByte m 0 = 0x12) :
    ((if turn < 3 then (s.spdmConn pf).step ≠ turn else (s.spdmConn pf).step < 3) →
      exec i s = .next (s.after (s.send (.doe [0x12, 0x7F, 4, 0])))) ∧
    (¬ (if turn < 3 then (s.spdmConn pf).step ≠ turn else (s.spdmConn pf).step < 3) →
      exec i s = .next (s.after ((s.spdmAnswer pf code m).2.send (.doe (s.spdmAnswer pf code m).1)))) := by
  have version' : reqByte m 0 = (if code = 0x84 then 0x10 else 0x12) := version.trans (if_neg later).symm
  exact ⟨fun early => row.trans (State.act_eq runs (State.spdm_unexpected runs function up request version' later step early)),
    fun inTurn => row.trans (State.act_eq runs (State.spdm_answers runs function up request version' step fun _ => inTurn))⟩

end

theorem State.spdmAnswer_version (s : State) (pf : Nat) (m : List Byte) :
    s.spdmAnswer pf 0x84 m = (([0x10, 0x04, 0, 0, 0, 1, 0x00, 0x12] : List Byte),
      s.setSpdm pf { step := 1, a := m ++ [0x10, 0x04, 0, 0, 0, 1, 0x00, 0x12] }) := rfl

theorem State.spdmAnswer_algorithms (s : State) (pf : Nat) (m : List Byte) :
    s.spdmAnswer pf 0xE3 m = (spdmSetup m 0xE3, s.setSpdm pf { s.spdmConn pf with
      step := 3, a := (s.spdmConn pf).a ++ m ++ spdmSetup m 0xE3 }) := rfl

/-- A connection is the warden's state; nothing has left the device by it. -/
theorem State.setSpdm_out (s : State) (pf : Nat) (c : SpdmConn) : (s.setSpdm pf c).out = s.out := rfl

/-- A field that stands behind `before` in a byte list is read there. -/
theorem sliceBytes_field (before field rest : List Byte) :
    sliceBytes (before ++ field ++ rest) before.length field.length = field := by
  simp [sliceBytes]

theorem leNat_field {before rest : List Byte} {n at_ : Nat} (len : before.length = at_) :
    leNat (sliceBytes (before ++ leBytes n 4 ++ rest) at_ 4) = n % 256 ^ 4 := by
  have slice := sliceBytes_field before (leBytes n 4) rest
  rw [leBytes_length, len] at slice
  rw [slice, leNat_leBytes]

theorem bitsOf_one_lt (n i : Nat) : bitsOf n i 1 < 2 := Nat.mod_lt _ (by decide)

/-- The answer to NEGOTIATE_ALGORITHMS selects ECDSA P-384 if it was offered. -/
theorem spdmSetup_asym (m : List Byte) :
    leNat (sliceBytes (spdmSetup m 0xE3) 12 4) = bitsOf (leNat (sliceBytes m 8 4)) 7 1 * 2 ^ 7 := by
  have small := bitsOf_one_lt (leNat (sliceBytes m 8 4)) 7
  have shape : spdmSetup m 0xE3 = ([byteOf 0x12, byteOf 0x63, 0, 0] ++ leBytes 36 2 ++ [byteOf (reqByte m 6 &&& 1), 0] ++ leBytes 4 4) ++
      leBytes (leNat (sliceBytes m 8 4) &&& 2 ^ 7) 4 ++
        (leBytes (leNat (sliceBytes m 12 4) &&& 2 ^ 1) 4 ++ List.replicate 16 0) := by
    rw [← List.append_assoc]; rfl
  rw [shape, leNat_field (by rfl), and_two_pow_eq_bitsOf]
  omega

/-- The answer to NEGOTIATE_ALGORITHMS selects SHA-384 if it was offered. -/
theorem spdmSetup_hash (m : List Byte) :
    leNat (sliceBytes (spdmSetup m 0xE3) 16 4) = bitsOf (leNat (sliceBytes m 12 4)) 1 1 * 2 := by
  have small := bitsOf_one_lt (leNat (sliceBytes m 12 4)) 1
  have shape : spdmSetup m 0xE3 = ([byteOf 0x12, byteOf 0x63, 0, 0] ++ leBytes 36 2 ++ [byteOf (reqByte m 6 &&& 1), 0] ++ leBytes 4 4 ++
      leBytes (leNat (sliceBytes m 8 4) &&& 2 ^ 7) 4) ++ leBytes (leNat (sliceBytes m 12 4) &&& 2 ^ 1) 4 ++ List.replicate 16 0 := rfl
  rw [shape, leNat_field (by rfl), and_two_pow_eq_bitsOf]
  omega

/-- Settles O57: every SPDM request is answered over DOE. -/
theorem spdmRequestsAreAnswered : Obligations.SpdmRequestsAreAnswered := by
  unfold Obligations.SpdmRequestsAreAnswered
  refine fun s pf m runs function => ⟨exec_spdm_errors runs function rfl, exec_spdm_errors runs function rfl,
    exec_spdm_errors runs function rfl, exec_spdm_errors runs function rfl, exec_spdm_errors runs function rfl,
    exec_spdm_errors runs function rfl, exec_spdm_errors runs function rfl,
    exec_spdm_turn runs function rfl (by decide) rfl, exec_spdm_turn runs function rfl (by decide) rfl,
    exec_spdm_turn runs function rfl (by decide) rfl, exec_spdm_turn runs function rfl (by decide) rfl,
    exec_spdm_turn runs function rfl (by decide) rfl, exec_spdm_turn runs function rfl (by decide) rfl,
    fun up request version => ?version, fun up request version step => ?algorithms⟩
  case version =>
    exact State.act_eq runs (State.spdm_answers runs function up request version rfl fun later => absurd rfl later)
  case algorithms =>
    have answers := State.spdm_answers runs function up request version rfl fun _ early => early step
    rw [State.spdmAnswer_algorithms] at answers
    refine ⟨_, spdmSetup m 0xE3, State.act_eq runs answers, ?_, spdmSetup_asym m, spdmSetup_hash m⟩
    exact congrArg (· ++ _) (State.setSpdm_out ..)

end Sys2Proof.Machine
end

section
/-! ## Messages of the twin link (R391–R399, log entries 43 and 118) -/

open Sys2Proof Sys2Proof.Machine
namespace Sys2Proof.Machine

section
variable {s : State} {type lead : Nat} {m : List Byte} {h : TwinHdr} {i : Instr}
  (row : exec i s = s.act (s.twinIn type m lead)) (reads : s.twinReads type m h)
include row reads

theorem exec_twin_heartbeat {t : State} (typed : type = 0) (paired : (s.heard h).twinPaired = true)
    (effect : (s.heard h).heartbeatIn h.body = t) : exec i s = .next (s.after t) := by
  obtain ⟨runs, _, _, _, hType, _⟩ := id reads
  exact row.trans (State.act_eq runs ((State.twinIn_reads lead reads).trans
    ((if_pos (hType.trans typed)).trans ((if_pos paired).trans effect))))

theorem exec_twin_nak (typed : type = 11) (paired : (s.heard h).twinPaired = true) :
    exec i s = .next (s.after (s.heard h).twinResend) := by
  obtain ⟨runs, _, _, _, hType, _⟩ := id reads
  exact row.trans (State.act_eq runs ((State.twinIn_reads lead reads).trans
    ((if_neg (by omega)).trans ((if_pos (by omega)).trans (if_pos paired)))))

theorem exec_twin_hello {t : State} (typed : type = 9) (effect : (s.heard h).helloIn (beNat h.body) h.ack = t) :
    exec i s = .next (s.after t) := by
  obtain ⟨runs, _, _, _, hType, _⟩ := id reads
  exact row.trans (State.act_eq runs ((State.twinIn_reads lead reads).trans
    ((if_neg (by omega)).trans ((if_neg (by omega)).trans ((if_pos (by omega)).trans effect)))))

/-- Any other message is numbered. -/
theorem exec_twin_numbered {t : State} (typed : type ≠ 0 ∧ type ≠ 9 ∧ type ≠ 11) (effect : (s.heard h).numbered h lead = t) :
    exec i s = .next (s.after t) := by
  obtain ⟨runs, _, _, _, hType, _⟩ := id reads
  exact row.trans (State.act_eq runs ((State.twinIn_reads lead reads).trans
    ((if_neg (by omega)).trans ((if_neg (by omega)).trans ((if_neg (by omega)).trans effect)))))

/-- The next numbered message takes its effect. -/
theorem exec_twin_next {t : State} (typed : type ≠ 0 ∧ type ≠ 9 ∧ type ≠ 11) (next : s.nextMsg h)
    (applied : (s.msgIn h lead).applyMsg ⟨h.seq, type, h.body, lead⟩ = some t) : exec i s = .next (s.after t.msgOut) := by
  obtain ⟨runs, _, _, _, hType, _⟩ := id reads
  obtain ⟨no0, no9, no11⟩ := typed
  exact row.trans (State.act_eq runs (State.twinIn_next lead reads no0 no11 no9 next (by rw [hType]; exact applied)))

/-- The next numbered message waits where its effect cannot be made yet. -/
theorem exec_twin_waits (typed : type ≠ 0 ∧ type ≠ 9 ∧ type ≠ 11) (next : s.nextMsg h)
    (waits : (s.msgIn h lead).applyMsg ⟨h.seq, type, h.body, lead⟩ = none) :
    exec i s = .next (s.after ((s.msgIn h lead).modTwin fun w => { w with
      waitAt := some ((s.msgIn h lead).twin.waitAt.getD (s.msgIn h lead).ns) })) := by
  obtain ⟨_, _, _, _, hType, _⟩ := id reads
  refine exec_twin_numbered row reads typed ((State.numbered_next lead next).trans ?_)
  rw [hType, waits]
  rfl

/-- A repeat has no effect. -/
theorem exec_twin_repeat (typed : type ≠ 0 ∧ type ≠ 9 ∧ type ≠ 11) (old : h.seq ≤ (s.heard h).twin.got) :
    exec i s = .next (s.after (s.heard h)) := by
  refine exec_twin_numbered row reads typed ?_
  unfold State.numbered
  exact if_pos (.inl old)

end

/-- A message with a wrong CRC only counts. -/
theorem State.twinIn_crc {s : State} {m : List Byte} (fwd : s.fwdOn = true) (bad : readTwin m = none) (type lead : Nat) :
    s.twinIn type m lead = s.addF uTWN F.TWN_CRC_ERR 1 := by
  unfold State.twinIn
  refine (if_neg (by simp [fwd])).trans ?_
  rw [bad]

/-! ### HEARTBEAT and HELLO -/

section
variable {x y z : State} {b : List Byte} {n : Nat} (bits : n = beNat b)
  (renewed : y = x.modTwin fun w => { w with lastHb := x.ns })
  (shown : z = ((y.setF uTWN F.TWN_PEER_ROLE (bitsOf n 126 2)).setF uTWN F.TWN_PEER_FOOTING (bitsOf n 124 1)).setF uTWN
    F.TWN_PEER_PEER_SEQ (bitsOf n 96 16))
include bits renewed shown

/-- A HEARTBEAT renews the loss timer and shows the peer's state; a peer that leaves Active is lost. -/
theorem State.heartbeatIn_shows : x.heartbeatIn b = if [2, 3, 5].contains (bitsOf n 121 3) then z.twinLose 2 else z := by
  subst shown renewed bits
  rfl

theorem State.heartbeatIn_leaves (leaves : bitsOf n 121 3 = 2 ∨ bitsOf n 121 3 = 3 ∨ bitsOf n 121 3 = 5) :
    x.heartbeatIn b = z.twinLose 2 :=
  (State.heartbeatIn_shows bits renewed shown).trans (if_pos (by simpa using leaves))

theorem State.heartbeatIn_stays (stays : ¬ (bitsOf n 121 3 = 2 ∨ bitsOf n 121 3 = 3 ∨ bitsOf n 121 3 = 5)) :
    x.heartbeatIn b = z :=
  (State.heartbeatIn_shows bits renewed shown).trans (if_neg (by simpa using stays))

end

section
variable {x y : State} {b ack : Nat} (pairing : x.twnState = 1)
  (answered : y = if ack = 0 then (x.modTwin fun w => { w with got := max w.got 1 }).sendHello else x)
include pairing answered

theorem State.helloIn_fails {code : Nat} (refused : x.helloCode b = code) (bad : code ≠ 0) :
    x.helloIn b ack = (y.setF uTWN F.TWN_STATUS_STATE 0).evtPaired code := by
  subst refused answered
  unfold State.helloIn
  exact (if_neg (not_not.mpr pairing)).trans (if_pos bad)

theorem State.helloIn_pairs (good : x.helloCode b = 0) : x.helloIn b ack = y.startResync (x.leads b) := by
  subst answered
  unfold State.helloIn
  exact (if_neg (not_not.mpr pairing)).trans (if_neg (not_not.mpr good))

end

/-- Out of PAIRING a HELLO is only answered, where it acknowledges none. -/
theorem State.helloIn_paired {x : State} {b ack : Nat} (noPairing : x.twnState ≠ 1) :
    x.helloIn b ack = if x.twinPaired ∧ ack = 0 then (x.modTwin fun w => { w with got := max w.got 1 }).sendHello else x := by
  unfold State.helloIn
  refine (if_pos noPairing).trans ?_
  by_cases paired : x.twinPaired = true
  · simp only [paired, if_true, true_and]
  · simp only [paired, Bool.false_eq_true, if_false, false_and]

section
variable {x : State} {b mode : Nat} (set : mode = x.getF uTWN F.TWN_CFG_MODE)
include set

theorem State.helloCode_apart (apart : mode = 0 ∨ bitsOf b 6 2 ≠ mode) : x.helloCode b = 1 := by
  subst set
  unfold State.helloCode
  exact if_pos apart

variable (joined : ¬ (mode = 0 ∨ bitsOf b 6 2 ≠ mode))
include joined

theorem State.helloCode_same (same : bitsOf b 4 1 = x.twinId) : x.helloCode b = 2 := by
  subst set
  unfold State.helloCode
  exact (if_neg joined).trans (if_pos same)

variable (other : ¬ bitsOf b 4 1 = x.twinId)
include other

theorem State.helloCode_late (late : bitsOf b 8 16 ≠ x.getF uPLN F.PLN_WP_CFG_PERIOD_US) : x.helloCode b = 3 := by
  subst set
  unfold State.helloCode
  exact (if_neg joined).trans ((if_neg other).trans (if_pos late))

variable (inTime : ¬ bitsOf b 8 16 ≠ x.getF uPLN F.PLN_WP_CFG_PERIOD_US)
include inTime

theorem State.helloCode_follower : x.helloCode b = if x.leads b = false ∧ (List.range 8).any x.courseUp = true then 4 else 0 := by
  subst set
  unfold State.helloCode
  refine (if_neg joined).trans ((if_neg other).trans ((if_neg inTime).trans ?_))
  simp only [Bool.not_eq_true']

end

/-! ### The numbered messages -/

section
variable {x : State} {seq lead : Nat} {b : List Byte}

/-- A table command of the lead runs; another status than the lead's diverges. -/
theorem State.applyCmdMsg_runs {w : Nat → Nat} {c : TCmd} {r : Nat × State} (words : w = fun i => beNat (sliceBytes b (8 * i) 8))
    (command : c = tcmdOf (w 0) (w 1) (w 2) (linkOperand (bitsOf (w 0) 56 8) (bitsOf (w 2) 56 8) (b.drop 32)))
    (now : x.mirrorWaits c = false) (ran : r = (x.modTwin fun w => { w with waitAt := none }).mirrorRun c) :
    x.applyMsg ⟨seq, 1, b, lead⟩ = some (if r.1 = lead then r.2 else r.2.diverge seq r.1 lead) := by
  subst ran command words
  show x.applyCmdMsg ⟨seq, 1, b, lead⟩ = _
  unfold State.applyCmdMsg
  exact if_neg (ne_true_of_eq_false now)

section
variable {q : Nat} (asked : q = beNat b % 65536)
include asked

theorem State.applyReq_confirms (open_ : x.genState = 0) (same : x.twin.diverged = false) (noFooting : x.footing = false)
    (mine : q = x.getF uTG F.GEN_STATUS_COMMIT_SEQ) :
    x.applyMsg ⟨seq, 3, b, lead⟩ = some ((x.modTwin fun w => { w with okSent := some q }).twinSend 4 (beBytes q 8)) := by
  have confirms : ¬ (x.twin.diverged = true ∨ x.footing = true ∨ q ≠ x.getF uTG F.GEN_STATUS_COMMIT_SEQ) := by
    simp [same, noFooting, mine]
  subst asked
  show x.applyReq ⟨seq, 3, b, lead⟩ = _
  unfold State.applyReq
  exact (if_neg (not_not.mpr open_)).trans (if_neg confirms)

theorem State.applyReq_silent (open_ : x.genState = 0)
    (silent : x.twin.diverged = true ∨ x.footing = true ∨ q ≠ x.getF uTG F.GEN_STATUS_COMMIT_SEQ)     :
    x.applyMsg ⟨seq, 3, b, lead⟩ = some x := by
  subst asked
  show x.applyReq ⟨seq, 3, b, lead⟩ = _
  unfold State.applyReq
  exact (if_neg (not_not.mpr open_)).trans (if_pos silent)

theorem State.applyOk_schedules (commits : x.gen.commit.isSome = true) (first : x.gen.twinOk = false)
    (mine : q = x.getF uTG F.GEN_STATUS_COMMIT_SEQ) :
    x.applyMsg ⟨seq, 4, b, lead⟩ = some ((x.modGen fun g => { g with twinOk := true, twinOkAt := x.ns }).twinSend 5 (beBytes q 8)) := by
  have schedules : x.gen.commit.isSome = true ∧ (!x.gen.twinOk) = true ∧ q = x.getF uTG F.GEN_STATUS_COMMIT_SEQ :=
    ⟨commits, by rw [first]; rfl, mine⟩
  subst asked
  show some (x.applyOk ⟨seq, 4, b, lead⟩) = _
  unfold State.applyOk
  exact congrArg some (if_pos schedules)

end

theorem State.applyGo_mine (mine : x.twin.okSent = some (beNat b % 65536)) :
    x.applyMsg ⟨seq, 5, b, lead⟩ = some ((x.modTwin fun w => { w with okSent := none, goAt := true }).setF
      uTG F.GEN_STATUS_STATE 1) := by
  show some (x.applyGo ⟨seq, 5, b, lead⟩) = _
  unfold State.applyGo
  exact congrArg some (if_pos mine)

theorem State.applyGo_other (other : x.twin.okSent ≠ some (beNat b % 65536)) : x.applyMsg ⟨seq, 5, b, lead⟩ = some x := by
  show some (x.applyGo ⟨seq, 5, b, lead⟩) = _
  unfold State.applyGo
  exact congrArg some (if_neg other)

/-- RELEASE starts a follower's window. -/
theorem State.applyRelease_follower (follower : x.twnRole = 2) :
    x.applyMsg ⟨seq, 10, b, lead⟩ = some (x.modTwin fun w => { w with window := some x.ns, low := false, released := true }) := by
  show some x.releaseIn = _
  unfold State.releaseIn
  exact congrArg some (if_pos follower)

theorem State.applyRelease_other (noFollower : x.twnRole ≠ 2) : x.applyMsg ⟨seq, 10, b, lead⟩ = some x := by
  show some x.releaseIn = _
  unfold State.releaseIn
  exact congrArg some (if_neg noFollower)

/-- A SNAPSHOT writes its values; its last message shows the period. -/
theorem State.applySnap_writes {n i base k : Nat} {bs : List Byte} (head : n = beNat (b.take 8)) (at_ : i = bitsOf n 0 19)
    (based : base = x.getF uTWN F.TWN_SNAP_BASE_LO_ADDR * 8 + x.getF uTWN F.TWN_SNAP_BASE_HI_ADDR * 2 ^ 32)
    (count : k = min ((b.drop 8).length / 8) (0x42C00 - i))
    (values : bs = (List.range k).flatMap fun j => (sliceBytes (b.drop 8) (8 * j) 8).reverse) (some_ : k ≠ 0) {y : State}
    (effect : (if bitsOf n 31 1 = 1 then
      (x.dramWrite (8 * 4096) (base + 8 * i) bs).2.setF uTWN F.TWN_SNAP_STATUS_PERIOD (bitsOf n 32 32)
      else (x.dramWrite (8 * 4096) (base + 8 * i) bs).2) = y) : x.applyMsg ⟨seq, 6, b, lead⟩ = some y := by
  refine Eq.trans ?_ (congrArg some effect)
  show some (x.applySnap ⟨seq, 6, b, lead⟩) = _
  unfold State.applySnap
  obtain ⟨W, written⟩ : ∃ W, @State.dramWrite = W := ⟨_, rfl⟩
  rw [written]
  simp only [← head, ← at_, ← based, ← count, ← values, some_, if_false]

section
variable {n t i img : Nat} (head : n = beNat (b.take 8)) (table : t = bitsOf n 56 8) (at_ : i = bitsOf n 0 32)
  (image : img = leNat (linkImage t (b.drop 8)))
include head table at_ image

/-- A RESYNC_ENTRY of a mirrored table writes both generations, or the index. -/
theorem State.applyResync_entry (isTable : t ≠ 0) (mirrored : mirroredTable t = true) {y : State}
    (effect : (if tblKeyed t then x.putKeyed t i (bothValid img)
      else if tblGen t then (x.putEnt t 0 i (img + validBit 0)).putEnt t 1 i (img + validBit 1)
      else (x.idxWrite t i img false).2) = y) : x.applyMsg ⟨seq, 7, b, lead⟩ = some y := by
  refine Eq.trans ?_ (congrArg some effect)
  show some (x.applyResync ⟨seq, 7, b, lead⟩) = _
  unfold State.applyResync
  simp only [← head, ← table, ← at_, ← image, isTable, mirrored, Bool.not_true, Bool.false_eq_true, if_false]

theorem State.applyResync_segment (noTable : t = 0) (segment : i < 8) :
    x.applyMsg ⟨seq, 7, b, lead⟩ = some ((x.bindSeg i 0 (img % 2 ^ 32) (bitsOf img 32 32) (bitsOf img 64 32)).bindSeg
      i 1 (img % 2 ^ 32) (bitsOf img 32 32) (bitsOf img 64 32)) := by
  show some (x.applyResync ⟨seq, 7, b, lead⟩) = _
  unfold State.applyResync
  simp only [← head, ← table, ← at_, noTable, segment, if_true]
  rw [← noTable, ← image]

theorem State.applyResync_generation (noTable : t = 0) (tail : 8 ≤ i) :
    x.applyMsg ⟨seq, 7, b, lead⟩ = some (((x.each (List.range 8) fun s n => s.setF (uADM n) F.ADM_GEN_STATUS_GEN (img % 2)).setF
      uTG F.GEN_STATUS_ACTIVE (img % 2)).setF uTG F.GEN_STATUS_COMMIT_SEQ (bitsOf img 32 16)) := by
  show some (x.applyResync ⟨seq, 7, b, lead⟩) = _
  unfold State.applyResync
  simp only [← head, ← table, ← at_, noTable, Nat.not_lt.mpr tail, if_true, if_false]
  rw [← noTable, ← image]

end
end

section
variable {s x : State} {m : List Byte} {h : TwinHdr} {lead : Nat} {w : Nat → Nat} {c : TCmd} {r : Nat × State}
  (reads : s.twinReads 1 m h) (next : s.nextMsg h) (words : w = fun i => beNat (sliceBytes h.body (8 * i) 8))
  (command : c = tcmdOf (w 0) (w 1) (w 2) (linkOperand (bitsOf (w 0) 56 8) (bitsOf (w 2) 56 8) (h.body.drop 32)))
  (taken : x = s.msgIn h lead) (ran : r = (x.modTwin fun w => { w with waitAt := none }).mirrorRun c)
  (now : x.mirrorWaits c = false)
include reads next words command taken ran now

/-- The table command that comes next and does not wait runs on the follower, and its status agrees with the lead's. -/
theorem exec_twinTableCmd_agrees (agrees : r.1 = lead) : exec (.twinTableCmd m lead) s = .next (s.after r.2.msgOut) := by
  subst taken
  exact exec_twin_next (lead := lead) rfl reads (by decide) next
    ((State.applyCmdMsg_runs words command now ran).trans (congrArg some (if_pos agrees)))

/-- Another status than the lead's diverges. -/
theorem exec_twinTableCmd_differs (differs : r.1 ≠ lead) :
    exec (.twinTableCmd m lead) s = .next (s.after (r.2.diverge h.seq r.1 lead).msgOut) := by
  subst taken
  exact exec_twin_next (lead := lead) rfl reads (by decide) next
    ((State.applyCmdMsg_runs words command now ran).trans (congrArg some (if_neg differs)))

end

/-- Settles O58: every type of twin message takes its effect when it comes next in order. -/
theorem twinMessagesTakeEffect : Obligations.TwinMessagesTakeEffect := by
  unfold Obligations.TwinMessagesTakeEffect
  refine fun s m h => ⟨fun reads paired => ⟨fun leaves => ?leaves, fun stays => ?stays⟩, fun reads paired => ?nak,
    fun reads pairing => ⟨fun apart => ?apart, fun joined same => ?same, fun joined other late => ?late,
      fun joined other inTime busy => ?busy, fun joined other inTime free => ?pairs⟩, fun reads noPairing => ?hello,
    fun lead reads next now => ⟨fun agrees => ?agrees, fun differs => ?differs⟩, fun reads next => ?cfg,
    fun reads next open_ => ⟨fun same noFooting mine => ?confirms, fun silent => ?silent⟩,
    fun reads next commits first mine => ?schedules, fun reads next => ⟨fun mine => ?switches, fun other => ?noSwitch⟩,
    fun reads next some_ => ⟨fun more => ?snap, fun last => ?snapLast⟩,
    fun reads next => ⟨fun isTable mirrored => ⟨fun keyed => ?keyed, fun index gen => ?generational, fun index noGen => ?indexed⟩,
      fun noTable segment => ?segment, fun noTable tail => ?tail⟩,
    fun reads next => ?done, fun reads next => ⟨fun follower => ?window, fun noFollower => ?noWindow⟩,
    fun reads old => ?old, fun runs fwd bad => ?crc⟩
  case leaves => exact exec_twin_heartbeat (lead := 0) rfl reads rfl paired (State.heartbeatIn_leaves rfl rfl rfl leaves)
  case stays => exact exec_twin_heartbeat (lead := 0) rfl reads rfl paired (State.heartbeatIn_stays rfl rfl rfl stays)
  case nak => exact exec_twin_nak (lead := 0) rfl reads rfl paired
  case apart =>
    exact exec_twin_hello (lead := 0) rfl reads rfl (State.helloIn_fails pairing rfl (State.helloCode_apart rfl apart) (by decide))
  case same =>
    exact exec_twin_hello (lead := 0) rfl reads rfl (State.helloIn_fails pairing rfl (State.helloCode_same rfl joined same) (by decide))
  case late =>
    exact exec_twin_hello (lead := 0) rfl reads rfl (State.helloIn_fails pairing rfl (State.helloCode_late rfl joined other late) (by decide))
  case busy =>
    exact exec_twin_hello (lead := 0) rfl reads rfl (State.helloIn_fails pairing rfl
      ((State.helloCode_follower rfl joined other inTime).trans (if_pos busy)) (by decide))
  case pairs =>
    exact exec_twin_hello (lead := 0) rfl reads rfl (State.helloIn_pairs pairing rfl
      ((State.helloCode_follower rfl joined other inTime).trans (if_neg free)))
  case hello => exact exec_twin_hello (lead := 0) rfl reads rfl (State.helloIn_paired noPairing)
  case agrees =>
    exact exec_twinTableCmd_agrees reads next rfl rfl rfl rfl now agrees
  case differs =>
    exact exec_twinTableCmd_differs reads next rfl rfl rfl rfl now differs
  case cfg => exact exec_twin_waits (lead := 0) rfl reads (by decide) next rfl
  case confirms =>
    exact exec_twin_next (lead := 0) rfl reads (by decide) next (State.applyReq_confirms rfl open_ same noFooting mine)
  case silent => exact exec_twin_next (lead := 0) rfl reads (by decide) next (State.applyReq_silent rfl open_ silent)
  case schedules =>
    exact exec_twin_next (lead := 0) rfl reads (by decide) next (State.applyOk_schedules rfl commits first mine)
  case switches => exact exec_twin_next (lead := 0) rfl reads (by decide) next (State.applyGo_mine mine)
  case noSwitch => exact exec_twin_next (lead := 0) rfl reads (by decide) next (State.applyGo_other other)
  case snap =>
    exact exec_twin_next (lead := 0) rfl reads (by decide) next (
      State.applySnap_writes rfl rfl rfl rfl rfl some_ (if_neg (by rw [more]; exact Nat.zero_ne_one)))
  case snapLast =>
    exact exec_twin_next (lead := 0) rfl reads (by decide) next (
      State.applySnap_writes rfl rfl rfl rfl rfl some_ (if_pos last))
  case keyed =>
    exact exec_twin_next (lead := 0) rfl reads (by decide) next (
      State.applyResync_entry rfl rfl rfl rfl isTable mirrored (if_pos keyed))
  case generational =>
    exact exec_twin_next (lead := 0) rfl reads (by decide) next (
      State.applyResync_entry rfl rfl rfl rfl isTable mirrored ((if_neg (ne_true_of_eq_false index)).trans (if_pos gen)))
  case indexed =>
    exact exec_twin_next (lead := 0) rfl reads (by decide) next (
      State.applyResync_entry rfl rfl rfl rfl isTable mirrored ((if_neg (ne_true_of_eq_false index)).trans (if_neg (ne_true_of_eq_false noGen))))
  case segment =>
    exact exec_twin_next (lead := 0) rfl reads (by decide) next (
      State.applyResync_segment rfl rfl rfl rfl noTable segment)
  case tail =>
    exact exec_twin_next (lead := 0) rfl reads (by decide) next (
      State.applyResync_generation rfl rfl rfl rfl noTable tail)
  case done => exact exec_twin_next (lead := 0) rfl reads (by decide) next rfl
  case window => exact exec_twin_next (lead := 0) rfl reads (by decide) next (State.applyRelease_follower follower)
  case noWindow => exact exec_twin_next (lead := 0) rfl reads (by decide) next (State.applyRelease_other noFollower)
  case old => exact exec_twin_repeat (lead := 0) rfl reads (by decide) old
  case crc => exact State.act_eq runs (State.twinIn_crc fwd bad 8 0)

end Sys2Proof.Machine
end

section
/-! ## The twin link keeps time and hands over (R391–R399) -/

open Sys2Proof Sys2Proof.Machine
namespace Sys2Proof.Machine

theorem State.heartbeatSend_paired {s x : State} {b : Nat} (paired : s.twinPaired = true)
    (late : x = s.reach ((s.ns / 10000 + 1) * 10000))
    (bits : b = x.twnRole * 2 ^ 126 + x.getF uTWN F.TWN_STATUS_HOLD_OUT * 2 ^ 125 + (if x.footing then 2 ^ 124 else 0) +
      x.getF uDEV F.DEV_POWER_STATUS_STATE * 2 ^ 121 + x.getF uTG F.GEN_STATUS_COMMIT_SEQ * 2 ^ 96 + x.clk.wpNum % 2 ^ 32 * 2 ^ 64) :
    s.heartbeatSend = (x.twinPut (twinBytes 0 x.twin.hbAlive 0 x.twin.got (beBytes b 16)) true).modTwin
      fun w => { w with hbAlive := w.hbAlive + 1 } := by
  subst bits late
  unfold State.heartbeatSend
  exact if_neg (by simp [paired])

theorem State.twinRetx_kept {s : State} (paired : s.twinPaired = true) (kept : s.twin.store ≠ []) :
    s.twinRetx = (s.reach (s.twin.ackAt + 20000)).twinResend := by
  unfold State.twinRetx
  exact if_pos ⟨paired, by simp [kept]⟩

theorem State.twinTimeout_paired {s : State} (paired : s.twinPaired = true) :
    s.twinTimeout = (s.reach (s.twin.lastHb + 30000)).twinLose 0 := by
  unfold State.twinTimeout
  exact if_pos paired

theorem State.helloResend_pairing {s : State} (pairing : s.twnState = 1) :
    s.helloResend = (s.reach (s.twin.helloAt + 10000)).sendHello := by
  unfold State.helloResend
  exact if_pos pairing

/-! ### The back-off window and TWIN_HOLD -/

/-- At the end of its window a follower that saw TWIN_HOLD high takes over, else it stays. -/
theorem State.windowEnd_follower {s x : State} {t : Nat} (waits : s.twin.window = some t) (follower : s.twnRole = 2)
    (late : x = s.reach (t + 2000 + 4000 * s.twinId)) :
    s.windowEnd = if x.twin.low = true ∨ x.getF uTWN F.TWN_STATUS_HOLD_IN = 0 then
      (x.modTwin fun w => { w with window := if x.twnState = 4 then some (t + 10000) else none, low := false }).event 0xE3 0x420 uTWN 0 0
      else x.takeOver := by
  have isFollower : ¬ s.twnRole ≠ 2 := not_not.mpr follower
  subst late
  unfold State.windowEnd
  obtain ⟨R, reached⟩ : ∃ R, @State.reach = R := ⟨_, rfl⟩
  rw [reached]
  simp only [waits, isFollower, if_false]

section
variable {s x : State} {high : Bool} (shown : x = s.setF uTWN F.TWN_STATUS_HOLD_IN (if high then 1 else 0))
include shown

/-- An edge of TWIN_HOLD spoils a window that has begun. -/
theorem State.holdEdge_window {t : Nat} (waits : x.twin.window = some t) (begun : t ≤ x.ns) :
    s.holdEdge high = x.modTwin fun w => { w with low := true } := by
  unfold State.holdEdge
  simp only [← shown, waits, begun, if_true]

theorem State.holdEdge_noWindow (none_ : x.twin.window = none) : s.holdEdge high = x := by
  unfold State.holdEdge
  simp only [← shown, none_]

end

/-! ### Lanes and commands -/

theorem State.twinLaneDown_lane {s : State} {l : Nat} (isLane : l < 8) : s.twinLaneDown l = s.twinLaneOut l := by
  unfold State.twinLaneDown
  exact if_pos isLane

theorem State.twinLaneUp_lane {s : State} {l : Nat} (isLane : l < 8) (ok : s.laneOk (0x10 + l) = true) :
    s.twinLaneUp l = s.setF uTWN F.TWN_STATUS_LANES_UP (setBitsOf (s.getF uTWN F.TWN_STATUS_LANES_UP) l 1 1) := by
  unfold State.twinLaneUp
  exact if_pos ⟨isLane, ok⟩

theorem State.twnRelease_lead {x y z : State} (lead : x.twnRole = 1) (paired : x.twnState = 3) (told : y = x.twinSend 10 [])
    (quiet : z = if y.getF uTWN F.TWN_CFG_MODE = 1 then (y.modTwin fun w => { w with squelched := true }) else y) :
    x.twnRelease = (z.driveHold false).setF uTWN F.TWN_STATUS_ROLE 2 := by
  subst quiet told
  unfold State.twnRelease
  exact if_pos ⟨lead, paired⟩

/-- PAIR forgets everything of the link but its lanes, its ALIVE numbers and the twin's work under way. -/
theorem State.twinFresh_next {s x : State} (dropped : x = s.dropSnap) :
    (s.twinFresh.modTwin fun w => { w with next := 2, squelched := false }) =
      { x with twin := { ({} : Twin) with lanes := x.twin.lanes, next := 2, alive := x.twin.alive, hbAlive := x.twin.hbAlive,
                                          goAt := x.twin.goAt, adaptAt := x.twin.adaptAt } } := by
  unfold State.twinFresh
  rw [← dropped]
  rfl

theorem State.pair_fresh {s x : State} (dropped : x = s.dropSnap) :
    s.pair = (({ x with twin := { ({} : Twin) with lanes := x.twin.lanes, next := 2, alive := x.twin.alive, hbAlive := x.twin.hbAlive,
                                                   goAt := x.twin.goAt, adaptAt := x.twin.adaptAt } } : State).setF
      uTWN F.TWN_STATUS_STATE 1).sendHello := by
  exact congrArg (fun x => (State.setF x uTWN F.TWN_STATUS_STATE 1).sendHello) (State.twinFresh_next dropped)

theorem State.twnEffect_pair (t : State) : State.twnEffect 0x114 1 t = t.pair := by
  unfold State.twnEffect
  obtain ⟨P, paired⟩ : ∃ P, @State.pair = P := ⟨_, rfl⟩
  rw [paired]
  rfl

/-- Settles O59: the twin link's timers, its hand-over, its lanes and its commands. -/
theorem twinLinkKeepsTimeAndHandsOver : Obligations.TwinLinkKeepsTimeAndHandsOver := by
  unfold Obligations.TwinLinkKeepsTimeAndHandsOver
  refine fun s => ⟨fun runs paired => ?heartbeat, fun runs paired kept => ?resend, fun runs paired => ?lost,
    fun runs pairing => ?hello, fun t runs waits follower => ⟨fun high hold => ?takesOver, fun blocked => ?blocked⟩,
    fun high runs => ⟨fun t waits begun => ?edge, fun none_ => ?edgeOnly⟩, fun l runs isLane => ?laneDown,
    fun l runs isLane ok => ?laneUp, fun m ok => ?pair, fun m ok => ?unpair, fun m ok => ?takeover,
    fun m ok lead paired => ?release⟩
  case heartbeat => exact State.act_eq runs (State.heartbeatSend_paired paired rfl rfl)
  case resend => exact State.act_eq runs (State.twinRetx_kept paired kept)
  case lost => exact State.act_eq runs (State.twinTimeout_paired paired)
  case hello => exact State.act_eq runs (State.helloResend_pairing pairing)
  case takesOver =>
    exact State.act_eq runs ((State.windowEnd_follower waits follower rfl).trans
      (if_neg (not_or.mpr ⟨ne_true_of_eq_false high, hold⟩)))
  case blocked => exact State.act_eq runs ((State.windowEnd_follower waits follower rfl).trans (if_pos blocked))
  case edge => exact State.act_eq runs (State.holdEdge_window rfl waits begun)
  case edgeOnly => exact State.act_eq runs (State.holdEdge_noWindow rfl none_)
  case laneDown => exact State.act_eq runs (State.twinLaneDown_lane isLane)
  case laneUp => exact State.act_eq runs (State.twinLaneUp_lane isLane ok)
  case pair =>
    exact State.actAny_eq ((State.busWrite_twn ok).trans ((State.twnEffect_pair _).trans (State.pair_fresh rfl)))
  case unpair => exact State.actAny_eq (State.busWrite_twn ok)
  case takeover => exact State.actAny_eq (State.busWrite_twn ok)
  case release => exact State.actAny_eq ((State.busWrite_twn ok).trans (State.twnRelease_lead lead paired rfl rfl))

end Sys2Proof.Machine
end

section
/-! ## SMBus and the test access port (R454–R456, log entries 52 and 53) -/

open Sys2Proof Sys2Proof.Machine
namespace Sys2Proof.Machine

/-! ### SMBus -/

/-- What a read of SMBus sends: a block with its length first, and a packet error code last where the master reads one. -/
theorem State.smbRead_sends {s : State} {addr code : Nat} {p block : Bool} {data body : List Byte} (mine : addr = 0x58 + s.pwr.smbAddr)
    (framed : body = (if block then [BitVec.ofNat 8 data.length] else []) ++ data) :
    s.smbRead addr code p block data = s.send (.smb (body ++ if p then
      [BitVec.ofNat 8 (pec ([BitVec.ofNat 8 (2 * addr), BitVec.ofNat 8 code, BitVec.ofNat 8 (2 * addr + 1)] ++ body))] else [])) := by
  subst framed
  unfold State.smbRead
  exact if_neg (not_not.mpr mine)

theorem State.smbRead_other {s : State} {addr code : Nat} {p block : Bool} {data : List Byte} (other : addr ≠ 0x58 + s.pwr.smbAddr) :
    s.smbRead addr code p block data = s := by
  unfold State.smbRead
  exact if_pos other

/-- Every read of Table 7, at the device's address and at another. -/
theorem exec_smbRead {s : State} {i : Instr} {addr code : Nat} {p block : Bool} {data : List Byte} (clock : s.clk.running = true)
    (row : exec i s = s.actPln (s.smbRead addr code p block data)) :
    (addr ≠ 0x58 + s.pwr.smbAddr → exec i s = .next (s.after s)) ∧
    (addr = 0x58 + s.pwr.smbAddr →
      let body := (if block then [BitVec.ofNat 8 data.length] else []) ++ data
      exec i s = .next (s.after (s.send (.smb (body ++ if p then
        [BitVec.ofNat 8 (pec ([BitVec.ofNat 8 (2 * addr), BitVec.ofNat 8 code, BitVec.ofNat 8 (2 * addr + 1)] ++ body))] else []))))) :=
  ⟨fun other => row.trans (State.actPln_eq clock (State.smbRead_other other)),
    fun mine => row.trans (State.actPln_eq clock (State.smbRead_sends mine rfl))⟩

section
variable {s : State} {addr v : Nat} {c : Option Nat}

theorem State.smbSelect_other (other : addr ≠ 0x58 + s.pwr.smbAddr) : s.smbSelect addr v c = s := by
  unfold State.smbSelect
  exact if_pos other

/-- HIST_SEL of 0 to 31 without a code or with the right one selects. -/
theorem State.smbSelect_selects (mine : addr = 0x58 + s.pwr.smbAddr) (record : v < 32)
    (good : c = none ∨ c = some (pec [BitVec.ofNat 8 (2 * addr), 0x0B, BitVec.ofNat 8 v])) :
    s.smbSelect addr v c = (s.modPwr fun p => { p with smbSel := v }).send (.smbAck true) := by
  have right : c.getD (pec [BitVec.ofNat 8 (2 * addr), 0x0B, BitVec.ofNat 8 v]) = pec [BitVec.ofNat 8 (2 * addr), 0x0B, BitVec.ofNat 8 v] := by
    obtain rfl | rfl := good
    · exact Option.getD_none
    · exact Option.getD_some
  unfold State.smbSelect
  exact (if_neg (not_not.mpr mine)).trans (if_neg (not_or.mpr ⟨by omega, not_not.mpr right⟩))

theorem State.smbSelect_range (mine : addr = 0x58 + s.pwr.smbAddr) (noRecord : 32 ≤ v) :
    s.smbSelect addr v c = s.send (.smbAck false) := by
  unfold State.smbSelect
  exact (if_neg (not_not.mpr mine)).trans (if_pos (.inl noRecord))

theorem State.smbSelect_code {b : Nat} (mine : addr = 0x58 + s.pwr.smbAddr) (given : c = some b)
    (wrong : b ≠ pec [BitVec.ofNat 8 (2 * addr), 0x0B, BitVec.ofNat 8 v]) : s.smbSelect addr v c = s.send (.smbAck false) := by
  subst given
  unfold State.smbSelect
  exact (if_neg (not_not.mpr mine)).trans (if_pos (.inr wrong))

end

theorem State.alertAnswer_high {s : State} (high : s.pwr.alertOn = false) : s.alertAnswer = s := by
  unfold State.alertAnswer
  exact if_pos (by rw [high]; rfl)

theorem State.alertAnswer_low {s : State} (low : s.pwr.alertOn = true) :
    s.alertAnswer = (s.modPwr fun p => { p with alertAns := true }).send (.smb [BitVec.ofNat 8 (2 * (0x58 + s.pwr.smbAddr))]) := by
  unfold State.alertAnswer
  exact if_neg (by rw [low]; decide)

/-! ### The test access port -/

/-- The instruction a TAP holds after it was loaded. -/
theorem State.setTap_tapIr (s : State) (ir : Nat) : (s.setTap ir).pwr.tapIr = ir := by
  unfold State.setTap
  split
  · rfl
  · split <;> rfl

theorem tapDrive_cells {ir : Nat} (cells : ir = 3 ∨ ir = 4 ∨ 6 ≤ ir) : tapDrive ir = 1 := by
  unfold tapDrive
  rw [if_neg (by omega), if_pos (by omega)]

theorem tapDrive_none {ir : Nat} (core : ir < 3) : tapDrive ir = 0 := by
  unfold tapDrive
  rw [if_neg (by omega), if_neg (by omega)]

/-- An instruction drives no pin exactly below EXTEST, and only HIGHZ floats them. -/
theorem tapDrive_eq_zero_iff (ir : Nat) : 0 = tapDrive ir ↔ ir < 3 := by
  unfold tapDrive
  split
  · omega
  · split <;> omega

theorem tapDrive_eq_two_iff (ir : Nat) : 2 = tapDrive ir ↔ ir = 5 := by
  unfold tapDrive
  split
  · omega
  · split <;> omega

/-- What a loaded instruction does to the pins. -/
theorem State.setTap_drives {s t : State} (ir : Nat) (loaded : t = s.modPwr fun p => { p with tapIr := ir }) :
    s.setTap ir = if ir = 3 ∨ ir = 4 ∨ 6 ≤ ir then t.send (.boundary 1 s.pwr.tapCells)
      else if ir = 5 then (if s.pwr.tapIr = 5 then t else t.send (.boundary 2 0))
      else if s.pwr.tapIr < 3 then t else t.send (.boundary 0 0) := by
  subst loaded
  unfold State.setTap
  by_cases cells : ir = 3 ∨ ir = 4 ∨ 6 ≤ ir
  · simp only [tapDrive_cells cells, cells, if_true]
  · by_cases float : ir = 5
    · have drive : tapDrive 5 = 2 := rfl
      subst float
      simp only [drive, tapDrive_eq_two_iff, OfNat.ofNat_ne_one, if_false, cells, if_true]
    · simp only [tapDrive_none (show ir < 3 by omega), tapDrive_eq_zero_iff, zero_ne_one, if_false, cells, float]

section
variable {s : State}

/-- Outside chip reset only BYPASS, IDCODE and SAMPLE/PRELOAD load; the others are BYPASS. -/
theorem State.tapLoad_always {ir : Nat} (always : ir ≤ 2) : s.tapLoad ir = s.setTap ir := by
  unfold State.tapLoad
  rw [if_pos (.inl always)]

theorem State.tapLoad_reset {ir : Nat} (reset : s.pwr.mode = 1) : s.tapLoad ir = s.setTap ir := by
  unfold State.tapLoad
  rw [if_pos (.inr reset)]

theorem State.tapLoad_refused {ir : Nat} (test : 2 < ir) (noReset : s.pwr.mode ≠ 1) : s.tapLoad ir = s.setTap 0 := by
  unfold State.tapLoad
  rw [if_neg (not_or.mpr ⟨by omega, noReset⟩)]

section
variable (io : s.ioOn = true)
include io

theorem State.tapSample_scans (pins cells : Nat) :
    s.tapSample pins cells = ((s.setTap 2).modPwr fun p => { p with tapCells := cells }).send (.tap pins) := by
  have quiet : tapDrive (s.setTap 2).pwr.tapIr ≠ 1 := by rw [State.setTap_tapIr]; decide
  unfold State.tapSample State.tapScan
  rw [if_pos io, State.tapLoad_always (by decide)]
  exact if_neg quiet

theorem State.tapExtest_drives {ir : Nat} (reset : s.pwr.mode = 1) (drives : tapDrive ir = 1) (pins cells : Nat) :
    s.tapExtest ir pins cells =
      (((s.setTap ir).modPwr fun p => { p with tapCells := cells }).send (.tap pins)).send (.boundary 1 cells) := by
  have loaded := State.setTap_tapIr s ir
  have drives' : tapDrive (s.setTap ir).pwr.tapIr = 1 := by rw [loaded]; exact drives
  unfold State.tapExtest State.tapScan
  rw [State.tapLoad_reset reset]
  exact (if_neg (by rw [io]; decide)).trans ((if_pos loaded).trans (if_pos drives'))

theorem State.tapExtest_bypass {ir : Nat} (noReset : s.pwr.mode ≠ 1) (test : 2 < ir) (pins cells : Nat) :
    s.tapExtest ir pins cells = (s.setTap 0).send (.tap 0) := by
  have other : (s.setTap 0).pwr.tapIr ≠ ir := by rw [State.setTap_tapIr]; omega
  unfold State.tapExtest
  rw [State.tapLoad_refused test noReset]
  exact (if_neg (by rw [io]; decide)).trans (if_neg other)

theorem State.tapQuiet_loads {ir : Nat} (reset : s.pwr.mode = 1) : s.tapQuiet ir = (s.setTap ir).send (.tap 0) := by
  unfold State.tapQuiet
  rw [if_pos io, State.tapLoad_reset reset]

theorem State.tapQuiet_bypass {ir : Nat} (noReset : s.pwr.mode ≠ 1) (test : 2 < ir) : s.tapQuiet ir = (s.setTap 0).send (.tap 0) := by
  unfold State.tapQuiet
  rw [if_pos io, State.tapLoad_refused test noReset]

theorem State.tapBypass_loads : s.tapBypass = (s.setTap 0).send (.tap 0) := by
  unfold State.tapBypass
  rw [if_pos io, State.tapLoad_always (by decide)]

theorem State.tapId_loads : s.tapId = (s.setTap 1).send (.tap 0x02560347) := by
  unfold State.tapId
  rw [if_pos io, State.tapLoad_always (by decide)]

theorem State.tapReset_loads : s.tapReset = s.setTap 1 := by
  unfold State.tapReset
  exact if_pos io

/-- Outside chip reset the test instructions are BYPASS. -/
theorem exec_tap_bypass {i : Instr} {pins cells : Nat} (noReset : s.pwr.mode ≠ 1)
    (test : i = .extest pins cells ∨ i = .extestPulse pins cells ∨ i = .extestTrain pins cells ∨ i = .clamp ∨ i = .highz) :
    exec i s = .next ((s.setTap 0).send (.tap 0)).ended := by
  obtain rfl | rfl | rfl | rfl | rfl := test
  · exact State.actAny_eq (State.tapExtest_bypass io noReset (by decide) pins cells)
  · exact State.actAny_eq (State.tapExtest_bypass io noReset (by decide) pins cells)
  · exact State.actAny_eq (State.tapExtest_bypass io noReset (by decide) pins cells)
  · exact State.actAny_eq (State.tapQuiet_bypass io noReset (by decide))
  · exact State.actAny_eq (State.tapQuiet_bypass io noReset (by decide))

end

/-- Without VDD_IO the test access port does nothing. -/
theorem exec_tap_off {i : Instr} (off : s.ioOn = false)
    (tap : i = .bypass ∨ i = .idcode ∨ i = .tapReset ∨ i = .clamp ∨ i = .highz ∨ ∃ pins cells,
      i = .samplePreload pins cells ∨ i = .extest pins cells ∨ i = .extestPulse pins cells ∨ i = .extestTrain pins cells) :
    exec i s = .next s.ended := by
  have closed := ne_true_of_eq_false off
  have notOn : (!s.ioOn) = true := by rw [off]; rfl
  obtain rfl | rfl | rfl | rfl | rfl | ⟨pins, cells, rfl | rfl | rfl | rfl⟩ := tap
  · exact State.actAny_eq (if_neg closed)
  · exact State.actAny_eq (if_neg closed)
  · exact State.actAny_eq (if_neg closed)
  · exact State.actAny_eq (if_neg closed)
  · exact State.actAny_eq (if_neg closed)
  · exact State.actAny_eq (if_neg closed)
  · exact State.actAny_eq (if_pos notOn)
  · exact State.actAny_eq (if_pos notOn)
  · exact State.actAny_eq (if_pos notOn)

end

/-- Settles O60: SMBus answers and changes nothing else; the test access port scans. -/
theorem smbusReadsAndTestAccess : Obligations.SmbusReadsAndTestAccess := by
  unfold Obligations.SmbusReadsAndTestAccess
  refine fun s addr p => ⟨fun clock => ⟨exec_smbRead clock rfl, exec_smbRead clock rfl, exec_smbRead clock rfl,
      exec_smbRead clock rfl, exec_smbRead clock rfl, exec_smbRead clock rfl, exec_smbRead clock rfl, exec_smbRead clock rfl,
      exec_smbRead clock rfl, exec_smbRead clock rfl, exec_smbRead clock rfl⟩,
    fun clock v c => ⟨fun other => ?selOther, fun mine => ⟨fun record good => ?selects, fun noRecord => ?selRange,
      fun b given wrong => ?selCode⟩⟩,
    fun clock => ⟨State.actPln_eq clock rfl, fun high => ?alertHigh, fun low => ?alertLow⟩,
    fun io => ⟨State.actAny_eq (State.tapBypass_loads io), State.actAny_eq (State.tapId_loads io),
      State.actAny_eq (State.tapReset_loads io), fun pins cells => ⟨State.actAny_eq (State.tapSample_scans io pins cells),
        fun reset => ⟨?extest, ?pulse, ?train⟩, fun noReset i test => exec_tap_bypass io noReset test⟩,
      fun reset => ⟨State.actAny_eq (State.tapQuiet_loads io reset), State.actAny_eq (State.tapQuiet_loads io reset)⟩⟩,
    fun off i tap => exec_tap_off off tap, fun ir => State.setTap_drives ir rfl⟩
  case selOther => exact State.actPln_eq clock (State.smbSelect_other other)
  case selects => exact State.actPln_eq clock (State.smbSelect_selects mine record good)
  case selRange => exact State.actPln_eq clock (State.smbSelect_range mine noRecord)
  case selCode => exact State.actPln_eq clock (State.smbSelect_code mine given wrong)
  case alertHigh => exact State.actPln_eq clock (State.alertAnswer_high high)
  case alertLow => exact State.actPln_eq clock (State.alertAnswer_low low)
  case extest => exact State.actAny_eq (State.tapExtest_drives io reset rfl pins cells)
  case pulse => exact State.actAny_eq (State.tapExtest_drives io reset rfl pins cells)
  case train => exact State.actAny_eq (State.tapExtest_drives io reset rfl pins cells)

end Sys2Proof.Machine
end

section
/-! ## The sweep of the generations (R169, R170) -/

open Sys2Proof Sys2Proof.Machine
namespace Sys2Proof.Machine

/-! ### Reads of a map whose entries were rewritten or kept -/

namespace KMap
variable {α : Type}

/-- A key that is kept reads as before. -/
theorem get_keep_kept (d : Nat → α) (p : Nat → Bool) {k : Nat} (kept : p k = true) : ∀ m : KMap α, (m.keep p).get d k = m.get d k
  | [] => rfl
  | (j, v) :: r => by
    have rest := get_keep_kept d p kept r
    by_cases front : p j = true
    · have cons : keep p ((j, v) :: r) = (j, v) :: keep p r := List.filter_cons_of_pos front
      by_cases same : k = j
      · subst same; rw [cons, get_front, get_front]
      · rw [cons, get_behind d v _ same, get_behind d v _ same]; exact rest
    · have other : k ≠ j := by rintro rfl; exact front kept
      have skip : keep p ((j, v) :: r) = keep p r := List.filter_cons_of_neg front
      rw [skip, get_behind d v _ other]
      exact rest

variable [DecidableEq α]

/-- A rewrite that leaves defaults alone rewrites what every key of a canonical map reads as. -/
theorem get_remap (d : Nat → α) (f : Nat → α → α) {k : Nat} (dflt : f k (d k) = d k) :
    ∀ {m : KMap α} {lo : Option Nat}, wfFrom d lo m = true → (m.remap d f).get d k = f k (m.get d k)
  | [], _, _ => dflt.symm
  | (j, v) :: r, lo, h => by
    obtain ⟨-, -, rest⟩ := (wfFrom_cons d lo j v r).1 h
    have ih := get_remap d f dflt rest
    rw [remap]
    by_cases same : k = j
    · subst same
      have absent : (KMap.remap d f r).get d k = d k := by rw [ih, get_of_wfFrom d le_rfl rest, dflt]
      split
      · next dropped => rw [get_front, absent, dropped]
      · rw [get_front, get_front]
    · rw [get_behind d v r same]
      split
      · exact ih
      · rw [get_behind d _ _ same]; exact ih

omit [DecidableEq α] in
/-- A key that is not found is not listed. -/
theorem not_mem_of_find_none {k : Nat} {v : α} : ∀ {m : KMap α}, find m k = none → (k, v) ∉ m
  | [], _, listed => by cases listed
  | (j, w) :: r, absent, listed => by
    rw [find] at absent
    split at absent
    · cases absent
    · next other =>
      obtain front | behind := List.mem_cons.1 listed
      · exact other (Prod.mk.inj front).1
      · exact not_mem_of_find_none absent behind

/-- A listed entry of a canonical map is what its key reads as. -/
theorem get_of_mem (d : Nat → α) {k : Nat} {v : α} :
    ∀ {m : KMap α} {lo : Option Nat}, wfFrom d lo m = true → (k, v) ∈ m → m.get d k = v
  | (j, w) :: r, lo, h, listed => by
    obtain ⟨-, -, rest⟩ := (wfFrom_cons d lo j w r).1 h
    obtain front | behind := List.mem_cons.1 listed
    · obtain ⟨rfl, rfl⟩ := Prod.mk.inj front
      exact get_front d k v r
    · have other : k ≠ j := by
        rintro rfl
        exact not_mem_of_find_none (find_none_of_wfFrom d le_rfl rest) behind
      rw [get_behind d w r other]
      exact get_of_mem d rest behind

omit [DecidableEq α] in
/-- A key that reads as something else than its default is listed. -/
theorem mem_of_get_ne (d : Nat → α) {k : Nat} : ∀ {m : KMap α}, m.get d k ≠ d k → (k, m.get d k) ∈ m
  | [], reads => absurd rfl reads
  | (j, v) :: r, reads => by
    by_cases same : k = j
    · subst same; rw [get_front]; exact List.mem_cons_self
    · rw [get_behind d v r same] at reads ⊢
      exact List.mem_cons_of_mem _ (mem_of_get_ne d reads)

end KMap

/-! ### Doing something for every member of a list -/

/-- What every step leaves unchanged, all of them do. -/
theorem State.each_keeps {α β : Type} (obs : State → β) (f : State → α → State) (keeps : ∀ s a, obs (f s a) = obs s) :
    ∀ (l : List α) (s : State), obs (s.each l f) = obs s
  | [], _ => rfl
  | a :: l, s => (State.each_keeps obs f keeps l (f s a)).trans (keeps s a)

section
variable {α : Type} {key val : α → Nat} {f : State → α → State}
  (writes : ∀ s e, (f s e).tbl = s.tbl.put (fun _ => 0) (key e) (val e))
include writes

/-- Writes of the table store at other keys leave a key alone. -/
theorem State.tbl_each_other {k : Nat} : ∀ (l : List α) (s : State), (∀ e ∈ l, key e ≠ k) →
    (s.each l f).tbl.get (fun _ => 0) k = s.tbl.get (fun _ => 0) k
  | [], _, _ => rfl
  | e :: l, s, others => by
    have rest := State.tbl_each_other l (f s e) fun e' listed => others e' (List.mem_cons_of_mem _ listed)
    refine rest.trans ?_
    rw [writes]
    exact KMap.get_put_ne _ _ _ _ _ (others e List.mem_cons_self).symm

/-- A key that some of the writes name, and to which they all write one value, reads as it. -/
theorem State.tbl_each_value {k v : Nat} : ∀ (l : List α) (s : State), (∃ e ∈ l, key e = k) → (∀ e ∈ l, key e = k → val e = v) →
    (s.each l f).tbl.get (fun _ => 0) k = v
  | [], _, ⟨_, listed, _⟩, _ => by cases listed
  | e :: l, s, written, agree => by
    by_cases later : ∃ e' ∈ l, key e' = k
    · exact State.tbl_each_value l (f s e) later fun e' listed => agree e' (List.mem_cons_of_mem _ listed)
    · have others : ∀ e' ∈ l, key e' ≠ k := fun e' listed same => later ⟨e', listed, same⟩
      have same : key e = k := by
        obtain ⟨e', listed, same⟩ := written
        obtain rfl | behind := List.mem_cons.1 listed
        · exact same
        · exact absurd same (others e' behind)
      refine (State.tbl_each_other writes l (f s e) others).trans ?_
      rw [writes, same, KMap.get_put_self]
      exact agree e List.mem_cons_self same

theorem State.tbl_each_wf : ∀ (l : List α) (s : State), s.tbl.wf (fun _ => 0) = true → (s.each l f).tbl.wf (fun _ => 0) = true
  | [], _, canonical => canonical
  | e :: l, s, canonical => State.tbl_each_wf l (f s e) (by rw [writes]; exact KMap.wf_put _ _ _ _ canonical)

end

/-! ### The parts of the sweep -/

/-- The sweep of the keyed tables. -/
def State.sweepKeys (a : Nat) (bad : List (Nat × Nat)) (s : State) : State :=
  { s with tbl := KMap.remap (fun _ => 0) (fun k e =>
      if tblKeyed (k / 2 ^ 32) && !isLRN (k / 2 ^ 32) && !bad.contains (k / 2 ^ 32, k % 2 ^ 31)
      then sweptKeyed a (k / 2 ^ 32) e else e) s.tbl }

/-- The image of an indexed entry in the retired generation after the sweep. -/
def sweptImage (a e : Nat) : Nat := setBitsOf e 62 2 (if genValid e a then 1 + (1 - a) else 0)

/-- The keys that the sweep of table `tid` does not clear: those outside its retired generation and the words of `bad`. -/
def sweepKeeps (a : Nat) (bad : List (Nat × Nat)) (tid k : Nat) : Bool :=
  k < tblKey tid (1 - a) 0 || tblKey tid (1 - a) 0 + 2 ^ 31 ≤ k || bad.contains (tid, k - tblKey tid (1 - a) 0)

/-- The retired generation of indexed table `tid` becomes a copy of the active one, `a`, but for the words of `bad`. -/
def State.sweepTable (a : Nat) (bad : List (Nat × Nat)) (s : State) (tid : Nat) : State :=
  ({ s with tbl := s.tbl.keep (sweepKeeps a bad tid) } : State).each ((s.entries tid a).filter fun e => !bad.contains (tid, e.1))
    fun s e => s.setEnt tid (1 - a) e.1 (sweptImage a e.2)

theorem State.bindSeg_tbl (s : State) (seg g area s1 s2 : Nat) : (s.bindSeg seg g area s1 s2).tbl = s.tbl := by
  unfold State.bindSeg
  rw [State.modGen_tbl, State.setF_tbl]

/-- The sweep is the sweep of the keyed tables, then of the four indexed ones, as far as the store shows. -/
theorem State.sweep_tbl (s : State) (bad : List (Nat × Nat)) : ∃ x : State, x.tbl = s.tbl ∧
    (s.sweep bad).tbl = ((x.sweepKeys s.activeGen bad).each [0x01, 0x02, 0x30, 0x40] (State.sweepTable s.activeGen bad)).tbl :=
  ⟨s.each s.sieveChanged fun s i => s.markWrote 0x30 i,
    State.each_keeps State.tbl (fun s i => s.markWrote 0x30 i) (fun _ _ => rfl) _ _, by
    unfold State.sweep
    exact State.each_keeps State.tbl _ (fun _ _ => State.bindSeg_tbl ..) _ _⟩

/-- A word of 0 is valid in no generation. -/
theorem genValid_zero (a : Nat) : genValid 0 a = false := by
  unfold genValid ent bitsOf
  simp

/-- What the sweep of the keyed tables leaves at a key. -/
theorem State.sweepKeys_get {s : State} (canonical : s.tbl.wf (fun _ => 0) = true) (a : Nat) (bad : List (Nat × Nat)) (k : Nat) :
    (s.sweepKeys a bad).tbl.get (fun _ => 0) k =
      if tblKeyed (k / 2 ^ 32) && !isLRN (k / 2 ^ 32) && !bad.contains (k / 2 ^ 32, k % 2 ^ 31)
      then sweptKeyed a (k / 2 ^ 32) (s.tbl.get (fun _ => 0) k) else s.tbl.get (fun _ => 0) k := by
  have free (tid : Nat) : sweptKeyed a tid 0 = 0 := by
    have noPoison : camPoison 0 = false := rfl
    unfold sweptKeyed
    simp only [genValid_zero, noPoison, Bool.and_false, Bool.false_eq_true, if_false]
  refine KMap.get_remap _ _ ?_ canonical
  split
  · exact free _
  · rfl

/-! ### One indexed table -/

/-- The entries of one generation of a table are those listed between its keys. -/
theorem State.mem_entries {s : State} {tid gen i v : Nat} :
    (i, v) ∈ s.entries tid gen ↔ i < 2 ^ 31 ∧ (tblKey tid gen i, v) ∈ s.tbl := by
  unfold State.entries tblKey
  simp only [List.mem_map, List.mem_filter, Bool.and_eq_true, decide_eq_true_eq, Prod.exists, Prod.mk.injEq]
  constructor
  · rintro ⟨k, w, ⟨listed, low, high⟩, rfl, rfl⟩
    refine ⟨by omega, ?_⟩
    rwa [show tid * 2 ^ 32 + gen * 2 ^ 31 + (k - (tid * 2 ^ 32 + gen * 2 ^ 31 + 0)) = k by omega]
  · rintro ⟨small, listed⟩
    exact ⟨_, v, ⟨listed, by omega, by omega⟩, by omega, rfl⟩

/-- Key `k` is one that the sweep of table `tid` rewrites. -/
def sweptKey (a : Nat) (bad : List (Nat × Nat)) (tid k : Nat) : Prop :=
  ∃ i, i < 2 ^ 31 ∧ k = tblKey tid (1 - a) i ∧ bad.contains (tid, i) = false

/-- The keys rewritten are those cleared. -/
theorem sweepKeeps_eq_false_iff (a : Nat) (bad : List (Nat × Nat)) (tid k : Nat) :
    sweepKeeps a bad tid k = false ↔ sweptKey a bad tid k := by
  unfold sweepKeeps sweptKey tblKey
  simp only [Bool.or_eq_false_iff, decide_eq_false_iff_not]
  constructor
  · rintro ⟨⟨notBelow, notAbove⟩, good⟩
    exact ⟨_, by omega, by omega, good⟩
  · rintro ⟨i, small, rfl, good⟩
    rw [show tid * 2 ^ 32 + (1 - a) * 2 ^ 31 + i - (tid * 2 ^ 32 + (1 - a) * 2 ^ 31 + 0) = i by omega]
    exact ⟨⟨by omega, by omega⟩, good⟩

section
variable {s : State} {a tid : Nat} {bad : List (Nat × Nat)}

/-- The sweep of a table leaves every other key alone. -/
theorem State.sweepTable_other {k : Nat} (other : ¬ sweptKey a bad tid k) :
    (s.sweepTable a bad tid).tbl.get (fun _ => 0) k = s.tbl.get (fun _ => 0) k := by
  have kept : sweepKeeps a bad tid k = true := by
    rw [← sweepKeeps_eq_false_iff] at other
    exact Bool.not_eq_false _ ▸ other
  refine (State.tbl_each_other (key := fun e => tblKey tid (1 - a) e.1) (fun _ _ => rfl) _ _ ?_).trans
    (KMap.get_keep_kept (fun _ => 0) (sweepKeeps a bad tid) kept s.tbl)
  rintro ⟨i, v⟩ listed same
  obtain ⟨isEntry, good⟩ := List.mem_filter.1 listed
  exact other ⟨i, (State.mem_entries.1 isEntry).1, same.symm, by simpa using good⟩

/-- The sweep of a table copies the active generation. -/
theorem State.sweepTable_copies (canonical : s.tbl.wf (fun _ => 0) = true) {i : Nat} (small : i < 2 ^ 31)
    (good : bad.contains (tid, i) = false) :
    (s.sweepTable a bad tid).tbl.get (fun _ => 0) (tblKey tid (1 - a) i) =
      sweptImage a (s.tbl.get (fun _ => 0) (tblKey tid a i)) := by
  have inj {j : Nat} (same : tblKey tid (1 - a) j = tblKey tid (1 - a) i) : j = i := Nat.add_left_cancel same
  by_cases unlisted : ∀ v, (tblKey tid a i, v) ∉ s.tbl
  · have free : s.tbl.get (fun _ => 0) (tblKey tid a i) = 0 :=
      by_contra fun reads => unlisted _ (KMap.mem_of_get_ne (fun _ => 0) reads)
    have cleared := (sweepKeeps_eq_false_iff a bad tid (tblKey tid (1 - a) i)).2 ⟨i, small, rfl, good⟩
    have image : sweptImage a 0 = 0 := by
      unfold sweptImage setBitsOf
      simp [genValid_zero]
    rw [free, image]
    refine (State.tbl_each_other (key := fun e => tblKey tid (1 - a) e.1) (fun _ _ => rfl) _ _ ?_).trans
      (KMap.get_keep_dropped (fun _ => 0) _ cleared s.tbl)
    rintro ⟨j, v⟩ listed same
    obtain rfl := inj same
    exact unlisted v (State.mem_entries.1 (List.mem_filter.1 listed).1).2
  · obtain ⟨v, listed⟩ := not_forall_not.mp unlisted
    have isImage : (i, v) ∈ (s.entries tid a).filter fun e => !bad.contains (tid, e.1) :=
      List.mem_filter.2 ⟨State.mem_entries.2 ⟨small, listed⟩, by simpa using good⟩
    refine State.tbl_each_value (key := fun e => tblKey tid (1 - a) e.1) (val := fun e => sweptImage a e.2) (fun _ _ => rfl) _ _
      ⟨(i, v), isImage, rfl⟩ ?_
    rintro ⟨j, w⟩ listed' same
    obtain rfl := inj same
    obtain ⟨-, inStore⟩ := State.mem_entries.1 (List.mem_filter.1 listed').1
    rw [KMap.get_of_mem (fun _ => 0) canonical inStore]

theorem State.sweepTable_wf (canonical : s.tbl.wf (fun _ => 0) = true) : (s.sweepTable a bad tid).tbl.wf (fun _ => 0) = true := by
  exact State.tbl_each_wf (key := fun e => tblKey tid (1 - a) e.1) (val := fun e => sweptImage a e.2) (fun _ _ => rfl) _ _
    (KMap.wf_keep _ _ _ canonical)

end

end Sys2Proof.Machine
end

section
/-! ## After the sweep (R169, R170) -/

open Sys2Proof Sys2Proof.Machine
namespace Sys2Proof.Machine

/-- A key belongs to one generation of one table. -/
theorem tblKey_inj {tid tid' g g' i i' : Nat} (hg : g < 2) (hg' : g' < 2) (hi : i < 2 ^ 31) (hi' : i' < 2 ^ 31)
    (same : tblKey tid g i = tblKey tid' g' i') : tid = tid' ∧ g = g' ∧ i = i' := by
  unfold tblKey at same
  omega

/-- The table and the index of a key of generation 0. -/
theorem tblKey_div {tid i : Nat} (small : i < 2 ^ 31) : tblKey tid 0 i / 2 ^ 32 = tid ∧ tblKey tid 0 i % 2 ^ 31 = i := by
  unfold tblKey
  omega

/-- A key of either generation names its table. -/
theorem tblKey_div_table {tid g i : Nat} (gen : g < 2) (small : i < 2 ^ 31) : tblKey tid g i / 2 ^ 32 = tid := by
  unfold tblKey
  omega

/-! ### The four indexed tables one after the other -/

section
variable {a : Nat} {bad : List (Nat × Nat)}

/-- A key that no table's sweep rewrites stays. -/
theorem State.sweepTables_other {k : Nat} : ∀ (tids : List Nat) (s : State), (∀ tid ∈ tids, ¬ sweptKey a bad tid k) →
    (s.each tids (State.sweepTable a bad)).tbl.get (fun _ => 0) k = s.tbl.get (fun _ => 0) k
  | [], _, _ => rfl
  | tid :: tids, s, others =>
    (State.sweepTables_other tids (s.sweepTable a bad tid) fun tid' listed => others tid' (List.mem_cons_of_mem _ listed)).trans
      (State.sweepTable_other (others tid List.mem_cons_self))

/-- The active generation is never rewritten. -/
theorem not_sweptKey_active (active : a < 2) {tid tid' i : Nat} (small : i < 2 ^ 31) : ¬ sweptKey a bad tid (tblKey tid' a i) := by
  rintro ⟨j, hj, same, -⟩
  have gens := (tblKey_inj active (by omega) small hj same).2.1
  omega

/-- Each swept table holds a copy of its active generation. -/
theorem State.sweepTables_copies (active : a < 2) {tid i : Nat} (small : i < 2 ^ 31) (good : bad.contains (tid, i) = false) :
    ∀ (tids : List Nat) (s : State), tids.Nodup → tid ∈ tids → s.tbl.wf (fun _ => 0) = true →
      (s.each tids (State.sweepTable a bad)).tbl.get (fun _ => 0) (tblKey tid (1 - a) i) =
        sweptImage a (s.tbl.get (fun _ => 0) (tblKey tid a i))
  | [], _, _, listed, _ => by cases listed
  | h :: tids, s, distinct, listed, canonical => by
    obtain ⟨once, distinct⟩ := List.nodup_cons.1 distinct
    obtain rfl | behind := List.mem_cons.1 listed
    · refine (State.sweepTables_other tids (s.sweepTable a bad tid) ?_).trans (State.sweepTable_copies canonical small good)
      rintro tid' later ⟨j, hj, same, -⟩
      obtain ⟨rfl, -, -⟩ := tblKey_inj (by omega) (by omega) small hj same
      exact once later
    · refine (State.sweepTables_copies active small good tids (s.sweepTable a bad h) distinct behind
        (State.sweepTable_wf canonical)).trans ?_
      rw [State.sweepTable_other (not_sweptKey_active active small)]

end

/-! ### What the sweep leaves of an entry -/

section
variable {s : State} {bad : List (Nat × Nat)} (canonical : s.tbl.wf (fun _ => 0) = true)
include canonical

/-- A keyed table is rewritten by the sweep of the keyed tables alone. -/
theorem State.sweep_ent_keyed {tid i : Nat} (keyed : tblKeyed tid = true) (noLearn : isLRN tid = false) (small : i < 2 ^ 31) :
    (s.sweep bad).ent tid 0 i = if bad.contains (tid, i) then s.ent tid 0 i else sweptKeyed s.activeGen tid (s.ent tid 0 i) := by
  obtain ⟨x, sameStore, swept⟩ := State.sweep_tbl s bad
  obtain ⟨table, index⟩ := tblKey_div (tid := tid) small
  have noIndexed : ∀ tid' ∈ [0x01, 0x02, 0x30, 0x40], ¬ sweptKey s.activeGen bad tid' (tblKey tid 0 i) := by
    rintro tid' listed ⟨j, hj, same, -⟩
    obtain ⟨rfl, -, -⟩ := tblKey_inj (by decide) (by omega) small hj same
    have unkeyed : ∀ t ∈ [0x01, 0x02, 0x30, 0x40], tblKeyed t = false := by decide
    rw [unkeyed tid listed] at keyed
    exact Bool.false_ne_true keyed
  unfold State.ent
  rw [swept, State.sweepTables_other _ _ noIndexed, State.sweepKeys_get (by rw [sameStore]; exact canonical), table, index, keyed,
    noLearn, sameStore]
  cases bad.contains (tid, i) <;> rfl

/-- The sweep of the keyed tables leaves the indexed ones alone. -/
theorem State.sweepKeys_indexed {x : State} (sameStore : x.tbl = s.tbl) {tid g i : Nat}
    (indexed : [0x01, 0x02, 0x30, 0x40].contains tid = true) (small : i < 2 ^ 31) (gen : g < 2) (a : Nat) :
    (x.sweepKeys a bad).tbl.get (fun _ => 0) (tblKey tid g i) = s.ent tid g i := by
  have unkeyed : ∀ t ∈ [0x01, 0x02, 0x30, 0x40], tblKeyed t = false := by decide
  rw [State.sweepKeys_get (by rw [sameStore]; exact canonical), tblKey_div_table gen small,
    unkeyed tid (List.contains_iff_mem.1 indexed), sameStore]
  rfl

section
variable {tid i : Nat} (indexed : [0x01, 0x02, 0x30, 0x40].contains tid = true) (small : i < 2 ^ 31)
include indexed small

/-- A word of `bad` of an indexed table stays, in both generations. -/
theorem State.sweep_ent_bad {g : Nat} (gen : g < 2) (unread : bad.contains (tid, i) = true) :
    (s.sweep bad).ent tid g i = s.ent tid g i := by
  obtain ⟨x, sameStore, swept⟩ := State.sweep_tbl s bad
  unfold State.ent
  rw [swept, State.sweepTables_other]
  · exact State.sweepKeys_indexed canonical sameStore indexed small gen _
  · rintro tid' listed ⟨j, hj, same, good⟩
    obtain ⟨rfl, -, rfl⟩ := tblKey_inj gen (by omega) small hj same
    exact Bool.false_ne_true (good.symm.trans unread)

variable (active : s.activeGen < 2)
include active

/-- The active generation of an indexed table stays. -/
theorem State.sweep_ent_active : (s.sweep bad).ent tid s.activeGen i = s.ent tid s.activeGen i := by
  obtain ⟨x, sameStore, swept⟩ := State.sweep_tbl s bad
  unfold State.ent
  rw [swept, State.sweepTables_other _ _ fun _ _ => not_sweptKey_active active small]
  exact State.sweepKeys_indexed canonical sameStore indexed small active _

/-- The retired generation of an indexed table is a copy of the active one. -/
theorem State.sweep_ent_retired (good : bad.contains (tid, i) = false) :
    (s.sweep bad).ent tid (1 - s.activeGen) i = sweptImage s.activeGen (s.ent tid s.activeGen i) := by
  obtain ⟨x, sameStore, swept⟩ := State.sweep_tbl s bad
  have canonical' : (x.sweepKeys s.activeGen bad).tbl.wf (fun _ => 0) = true :=
    KMap.wf_remap _ _ _ (by rw [sameStore]; exact canonical)
  have copied := State.sweepTables_copies active small good [0x01, 0x02, 0x30, 0x40] (x.sweepKeys s.activeGen bad) (by decide)
    (List.contains_iff_mem.1 indexed) canonical'
  rw [State.sweepKeys_indexed canonical sameStore indexed small active] at copied
  unfold State.ent
  rw [swept]
  exact copied

end
end

/-! ### Valid bits -/

/-- The valid bits of an entry whose bits 63:62 have been set to `v`. -/
theorem genValid_setBitsOf (e v g : Nat) : genValid (setBitsOf e 62 2 v) g = (v / 2 ^ (g % 2) % 2 == 1) := by
  have gen : g % 2 = 0 ∨ g % 2 = 1 := by omega
  unfold genValid ent bitsOf setBitsOf
  obtain even | odd := gen
  · rw [even]
    congr 1
    omega
  · rw [odd]
    congr 1
    omega

/-- A keyed entry after the sweep is valid in both generations or in neither, as it was in the active one. -/
theorem genValid_sweptKeyed (a tid e g : Nat) (gen : g < 2) : genValid (sweptKeyed a tid e) g = genValid e a := by
  have bit : g = 0 ∨ g = 1 := by omega
  unfold sweptKeyed bothValid
  split
  · next valid =>
    rw [valid, genValid_setBitsOf]
    obtain rfl | rfl := bit <;> rfl
  · next invalid =>
    rw [Bool.eq_false_of_not_eq_true invalid]
    split
    · rw [genValid_setBitsOf]
      obtain rfl | rfl := bit <;> rfl
    · exact genValid_zero g

/-- A copied entry is valid in the retired generation exactly if it was in the active one. -/
theorem genValid_sweptImage {a : Nat} (active : a < 2) (e : Nat) : genValid (sweptImage a e) (1 - a) = genValid e a := by
  have bit : a = 0 ∨ a = 1 := by omega
  unfold sweptImage
  rw [genValid_setBitsOf]
  cases genValid e a
  · obtain rfl | rfl := bit <;> rfl
  · obtain rfl | rfl := bit <;> rfl

/-- Settles O43: after the sweep both generations hold what the active one held, but for the words that could not be read. -/
theorem sweepMakesTheGenerationsEqual : Obligations.SweepMakesTheGenerationsEqual := by
  unfold Obligations.SweepMakesTheGenerationsEqual
  refine fun s bad canonical active => ⟨fun tid i keyed noLearn small unread => ?keyedBad,
    fun tid i g indexed small gen unread => State.sweep_ent_bad canonical indexed small gen unread,
    fun tid i keyed noLearn small good => ?keyed, fun tid i indexed small good => ?indexed⟩
  case keyedBad => rw [State.sweep_ent_keyed canonical keyed noLearn small, if_pos unread]
  case keyed =>
    rw [State.sweep_ent_keyed canonical keyed noLearn small, if_neg (ne_true_of_eq_false good)]
    refine ⟨?_, genValid_sweptKeyed _ _ _ 0 (by decide), rfl⟩
    rw [genValid_sweptKeyed _ _ _ 0 (by decide), genValid_sweptKeyed _ _ _ 1 (by decide)]
  case indexed =>
    have gens : 1 + (1 - s.activeGen) = 2 - s.activeGen := by omega
    rw [State.sweep_ent_retired canonical indexed small active good, State.sweep_ent_active canonical indexed small active]
    refine ⟨genValid_sweptImage active _, rfl, ?_⟩
    unfold sweptImage
    rw [gens]

end Sys2Proof.Machine
end

section
/-! ## A chip reset (R392, R420) -/

open Sys2Proof Sys2Proof.Machine
namespace Sys2Proof.Machine

/-! ### Words with fields at their reset values -/

theorem testBit_bitsOf (n lo w i : Nat) : (bitsOf n lo w).testBit i = (decide (i < w) && n.testBit (lo + i)) := by
  unfold bitsOf
  rw [Nat.testBit_mod_two_pow, Nat.testBit_div_two_pow, Nat.add_comm]

/-- Two words hold the same field exactly if they hold the same bits there. -/
theorem bitsOf_eq_iff (x r lo w : Nat) : bitsOf x lo w = bitsOf r lo w ↔ ∀ i < w, x.testBit (lo + i) = r.testBit (lo + i) := by
  constructor
  · intro same i inside
    have bit := congrArg (Nat.testBit · i) same
    simpa [testBit_bitsOf, inside] using bit
  · intro same
    refine Nat.eq_of_testBit_eq fun i => ?_
    rw [testBit_bitsOf, testBit_bitsOf]
    by_cases inside : i < w
    · rw [same i inside]
    · simp [inside]

/-- A field set to what `r` holds there makes its bits those of `r` and leaves the others. -/
theorem testBit_setBitsOf_bitsOf (a r lo w i : Nat) :
    (setBitsOf a lo w (bitsOf r lo w)).testBit i = if lo ≤ i ∧ i < lo + w then r.testBit i else a.testBit i := by
  rw [Bool.eq_iff_iff]
  split
  · next inside =>
    have field : bitsOf (setBitsOf a lo w (bitsOf r lo w)) lo w = bitsOf r lo w := by
      rw [bitsOf_setBitsOf_self]
      exact Nat.mod_eq_of_lt (Nat.mod_lt _ (Nat.two_pow_pos w))
    have bit := (bitsOf_eq_iff _ _ _ _).1 field (i - lo) (by omega)
    rw [show lo + (i - lo) = i by omega] at bit
    rw [bit]
  · next outside =>
    rw [← bitsOf_one_iff_testBit, ← bitsOf_one_iff_testBit]
    by_cases below : i < lo
    · rw [bitsOf_setBitsOf_below _ _ _ _ _ _ (by omega)]
    · rw [bitsOf_setBitsOf_above _ _ _ _ _ _ (by omega)]

/-- One field of a word at its reset value, if its classes list `cls`. -/
def revertField (cls r a : Nat) (f : FieldDef) : Nat :=
  if f.cls / cls % 2 = 1 then setBitsOf a f.lo f.w (bitsOf r f.lo f.w) else a

/-- A bit that holds its reset value keeps it. -/
theorem testBit_revertField {cls r a i : Nat} (f : FieldDef) (reset : a.testBit i = r.testBit i) :
    (revertField cls r a f).testBit i = r.testBit i := by
  unfold revertField
  split
  · rw [testBit_setBitsOf_bitsOf]
    split
    · rfl
    · exact reset
  · exact reset

theorem testBit_revertFields {cls r i : Nat} : ∀ (l : List FieldDef) {a : Nat}, a.testBit i = r.testBit i →
    (l.foldl (revertField cls r) a).testBit i = r.testBit i
  | [], _, reset => reset
  | f :: l, _, reset => testBit_revertFields l (testBit_revertField f reset)

/-- Every field that lists the class reads its reset value. -/
theorem bitsOf_revertFields {cls r : Nat} {f : FieldDef} (lists : f.cls / cls % 2 = 1) :
    ∀ (l : List FieldDef) (a : Nat), f ∈ l → bitsOf (l.foldl (revertField cls r) a) f.lo f.w = bitsOf r f.lo f.w
  | [], _, listed => by cases listed
  | g :: l, a, listed => by
    obtain rfl | behind := List.mem_cons.1 listed
    · refine (bitsOf_eq_iff _ _ _ _).2 fun i inside => testBit_revertFields l ?_
      unfold revertField
      rw [if_pos lists, testBit_setBitsOf_bitsOf, if_pos ⟨by omega, by omega⟩]
    · exact bitsOf_revertFields lists l _ behind

theorem revertWord_listed {cls k : Nat} {d : RegDef} (table : regDefAt (keyUid k) (keyOff k) = some d) (w : Word) :
    revertWord cls k w = BitVec.ofNat 32 (d.fields.foldl (revertField cls (regDflt k).toNat) w.toNat) := by
  unfold revertWord
  rw [table]
  rfl

/-- A register that holds its reset word keeps it. -/
theorem revertWord_regDflt (cls k : Nat) : revertWord cls k (regDflt k) = regDflt k := by
  cases table : regDefAt (keyUid k) (keyOff k) with
  | none =>
    unfold revertWord
    rw [table]
    exact ite_self _
  | some d =>
    have same : d.fields.foldl (revertField cls (regDflt k).toNat) (regDflt k).toNat = (regDflt k).toNat :=
      Nat.eq_of_testBit_eq fun _ => testBit_revertFields d.fields rfl
    rw [revertWord_listed table, same, BitVec.ofNat_toNat, BitVec.setWidth_eq]

/-- A field that lists the class reads its reset value after the revert. -/
theorem bitsOf_revertWord {cls k : Nat} {d : RegDef} {f : FieldDef} (table : regDefAt (keyUid k) (keyOff k) = some d)
    (field : f ∈ d.fields) (lists : f.cls / cls % 2 = 1) (w : Word) :
    bitsOf (revertWord cls k w).toNat f.lo f.w = bitsOf (regDflt k).toNat f.lo f.w := by
  have reset := (bitsOf_eq_iff _ _ _ _).1 (bitsOf_revertFields (r := (regDflt k).toNat) lists d.fields w.toNat field)
  have cut : (regDflt k).toNat % 2 ^ 32 = (regDflt k).toNat := Nat.mod_eq_of_lt (regDflt k).isLt
  rw [revertWord_listed table, BitVec.toNat_ofNat]
  refine (bitsOf_eq_iff _ _ _ _).2 fun i inside => ?_
  have bit : (d.fields.foldl (revertField cls (regDflt k).toNat) w.toNat % 2 ^ 32).testBit (f.lo + i) =
      ((regDflt k).toNat % 2 ^ 32).testBit (f.lo + i) := by
    rw [Nat.testBit_mod_two_pow, Nat.testBit_mod_two_pow, reset i inside]
  rw [cut] at bit
  exact bit

/-- What a register of a canonical file reads as after a revert. -/
theorem State.rd_revertRegs {s : State} (canonical : s.regs.wf regDflt = true) (cls k : Nat) :
    (s.revertRegs cls fun _ => true).rd k = revertWord cls k (s.rd k) :=
  KMap.get_remap regDflt _ (revertWord_regDflt cls k) canonical

/-! ### Keys of registers -/

/-- The window and the offset of a register's key. -/
theorem regKey_parts {u sel off : Nat} (unit : u < 2 ^ 14) (select : sel < 2 ^ 18) (offset : off < 4096) :
    keyUid (regKey u sel off) = u ∧ keyOff (regKey u sel off) = off := by
  have small : regKey u sel off < 2 ^ 44 := by unfold regKey; omega
  have sel_ : keySel (regKey u sel off) = sel := by
    unfold keySel
    rw [if_pos small]
    unfold regKey
    omega
  have uid : keyUid (regKey u sel off) = u := by
    unfold keyUid
    rw [if_pos small]
    unfold regKey
    omega
  refine ⟨uid, ?_⟩
  unfold keyOff
  rw [sel_, uid]
  unfold regKey
  omega

/-- Registers of different windows have different keys. -/
theorem regKey_ne_of_unit_ne {u u' sel off off' : Nat} (unit : u < 2 ^ 14) (unit' : u' < 2 ^ 14) (offset : off < 4096)
    (offset' : off' < 4096) (other : u ≠ u') : regKey u sel off ≠ regKey u' 0 off' := by
  unfold regKey
  omega

/-- A field of another window leaves a register alone. -/
theorem State.rd_setF_unit {s : State} {u u' sel off : Nat} {f : Fld} (v : Nat) (unit : u < 2 ^ 14) (unit' : u' < 2 ^ 14)
    (offset : off < 4096) (offset' : f.off < 4096) (other : u ≠ u') :
    (s.setF u' f v).rd (regKey u sel off) = s.rd (regKey u sel off) :=
  State.rd_wr_ne s _ (regKey_ne_of_unit_ne unit unit' offset offset' other)

theorem State.setF_wf {s : State} (canonical : s.regs.wf regDflt = true) (u : Nat) (f : Fld) (v : Nat) :
    (s.setF u f v).regs.wf regDflt = true :=
  State.wr_wf s _ _ canonical

end Sys2Proof.Machine
end

section
/-! ## What a chip reset leaves (R392, R420) -/

open Sys2Proof Sys2Proof.Machine
namespace Sys2Proof.Machine

/-! ### The end of a command without a report -/

theorem State.ppsLow_eq (s : State) (o : Nat) : ∃ p out, s.ppsLow o = { s with pwr := p, out := out } ∧ p.mode = s.pwr.mode := by
  unfold State.ppsLow
  split
  · exact ⟨s.pwr, s.out, rfl, rfl⟩
  · obtain ⟨out, driven⟩ := State.drivePin_eq (s.modPwr fun p => { p with outUntil := s.pwr.outUntil.put (fun _ => 0) o 0 }) (o + 1) false
    exact ⟨_, out, driven, rfl⟩

/-- A command without a report ends with what its pins say changed alone. -/
theorem State.ended_eq {t : State} (quiet : t.reports = []) :
    ∃ p out, t.ended = { t with pwr := p, out := out } ∧ p.mode = t.pwr.mode := by
  obtain ⟨_, alert⟩ := t.alertSync_eq
  obtain ⟨p1, out1, low1, mode1⟩ := t.alertSync.ppsLow_eq 1
  obtain ⟨p2, out2, low2, mode2⟩ := (t.alertSync.ppsLow 1).ppsLow_eq 2
  have still : t.react = t := if_pos (by rw [quiet]; rfl)
  refine ⟨p2, out2, ?_, ?_⟩
  · rw [State.ended, still, State.ppsDrain_eq, low2, low1, alert]
  · rw [mode2, low1, mode1, alert]

/-- A command without a report ends with its registers as they were. -/
theorem State.rd_ended {t : State} (quiet : t.reports = []) (k : Nat) : t.ended.rd k = t.rd k := by
  obtain ⟨_, _, ended, -⟩ := State.ended_eq quiet
  rw [ended]
  rfl

/-! ### What a reset does before its registers revert -/

/-- `t` is `s` but for its registers, in canonical form if those of `s` are, its pins, its security part and what has been drawn. -/
def State.onlyFuses (s t : State) : Prop :=
  ∃ regs out sec draws, t = { s with regs := regs, out := out, sec := sec, draws := draws } ∧
    (s.regs.wf regDflt = true → regs.wf regDflt = true)

theorem State.onlyFuses_refl (s : State) : s.onlyFuses s := ⟨s.regs, s.out, s.sec, s.draws, rfl, id⟩

theorem State.setF_regs (s : State) (u : Nat) (f : Fld) (v : Nat) :
    ∃ regs, s.setF u f v = { s with regs := regs } ∧ (s.regs.wf regDflt = true → regs.wf regDflt = true) :=
  ⟨_, rfl, fun canonical => State.setF_wf canonical ..⟩

section
variable {s t : State} (only : s.onlyFuses t)
include only

theorem State.onlyFuses.setF (u : Nat) (f : Fld) (v : Nat) : s.onlyFuses (t.setF u f v) := by
  obtain ⟨_, out, sec, draws, rfl, keeps⟩ := only
  obtain ⟨regs, set, keeps'⟩ := State.setF_regs { s with regs := _, out := out, sec := sec, draws := draws } u f v
  exact ⟨regs, out, sec, draws, set, keeps' ∘ keeps⟩

theorem State.onlyFuses.modSec (f : Sec → Sec) : s.onlyFuses (t.modSec f) := by
  obtain ⟨regs, out, _, draws, rfl, keeps⟩ := only
  exact ⟨regs, out, _, draws, rfl, keeps⟩

theorem State.onlyFuses.drawn (n : Nat) : s.onlyFuses { t with draws := n } := by
  obtain ⟨regs, out, sec, _, rfl, keeps⟩ := only
  exact ⟨regs, out, sec, n, rfl, keeps⟩

theorem State.onlyFuses.drivePin (pin : Nat) (level : Bool) : s.onlyFuses (t.drivePin pin level) := by
  obtain ⟨regs, _, sec, draws, rfl, keeps⟩ := only
  obtain ⟨out, driven⟩ := State.drivePin_eq { s with regs := regs, out := _, sec := sec, draws := draws } pin level
  exact ⟨regs, out, sec, draws, driven, keeps⟩

/-- The reset of the twin's hold changes a register and a pin. -/
theorem State.onlyFuses.driveHold (on : Bool) : s.onlyFuses (t.driveHold on) := by
  unfold State.driveHold
  split
  · exact only
  · exact (only.setF ..).drivePin ..

theorem State.onlyFuses.partBlown (old new : Nat) : s.onlyFuses (t.partBlown old new).2 := only.drawn _

end

/-- The operator key of an update that a reset cuts off is blown in part. -/
def State.cutKey (s : State) (k : Nat) (key : List Byte) : State :=
  let v := s.partBlown (leNat (s.sec.opPub.get (fun _ => []) k)) (leNat key)
  v.2.modSec fun c => { c with opPub := v.2.sec.opPub.put (fun _ => []) k (leBytes v.1 96) }

theorem State.onlyFuses_cutKey (s : State) (k : Nat) (key : List Byte) : s.onlyFuses (s.cutKey k key) := by
  unfold State.cutKey
  exact (s.onlyFuses_refl.partBlown ..).modSec _

/-- The other fuses of an update that a reset cuts off are blown in part, and the update is over. -/
def State.cutFuses (s : State) (f : FuseRun) : State :=
  let r := s.partBlown (s.getF uWDN F.SEC_KEYS_REVOKED) f.revoke
  let o := r.2.partBlown (r.2.getF uWDN F.SEC_KEYS_OP_REVOKED) f.opRevoke
  let d := o.2.draw
  let n := d.2.getF uWDN F.SEC_ARB_COUNT
  (((d.2.setF uWDN F.SEC_KEYS_REVOKED r.1).setF uWDN F.SEC_KEYS_OP_REVOKED o.1).setF uWDN F.SEC_ARB_COUNT
    (n + d.1 % (f.count - n + 1))).modSec fun c => { c with fusing := none }

theorem State.fuseCut_fusing {s : State} {f : FuseRun} (fusing : s.sec.fusing = some f) :
    s.fuseCut = (f.enrol.elim s fun e => s.cutKey e.1 e.2).cutFuses f := by
  unfold State.fuseCut
  rw [fusing]
  obtain ⟨_, _, _, _ | e, _, _, _⟩ := f
  · rfl
  · rfl

theorem State.fuseCut_none {s : State} (noUpdate : s.sec.fusing = none) : s.fuseCut = s := by
  unfold State.fuseCut
  rw [noUpdate]

/-- An update of the fuses that a reset cuts off changes registers, the security part and what has been drawn. -/
theorem State.onlyFuses_fuseCut (s : State) : s.onlyFuses s.fuseCut := by
  cases fusing : s.sec.fusing with
  | none =>
    rw [State.fuseCut_none fusing]
    exact s.onlyFuses_refl
  | some f =>
    have key : s.onlyFuses (f.enrol.elim s fun e => s.cutKey e.1 e.2) := by
      cases f.enrol with
      | none => exact s.onlyFuses_refl
      | some e => exact s.onlyFuses_cutKey e.1 e.2
    rw [State.fuseCut_fusing fusing]
    unfold State.cutFuses
    exact (((((key.partBlown ..).partBlown ..).drawn _).setF ..).setF ..).setF .. |>.modSec _

/-! ### What a chip reset reverts and empties -/

theorem State.keepLink_chip (x old : State) : ∃ split twinId, x.keepLink old 2 =
    (x.setF uHIF F.HIF_LINK_SPLIT split).setF uTWN F.TWN_STATUS_TWIN_ID twinId :=
  ⟨old.getF uHIF F.HIF_LINK_SPLIT, old.getF uTWN F.TWN_STATUS_TWIN_ID, by
    unfold State.keepLink
    exact if_neg (by decide)⟩

/-- A chip reset leaves of the state before it, its registers reverted and its straps kept, the clock, the registers and the fault
history. -/
theorem State.wipe_eq {s x : State}
    (kept : x = ((s.fuseCut.driveHold false).revertRegs 2 fun _ => true).keepLink (s.fuseCut.driveHold false) 2) :
    ∃ latch repairs pwr fab sec, s.wipe 2 = { x with
      ctrs := [], latch := latch, claims := [], hif := {}, flt := { hist := x.flt.hist, repairs := repairs }, pwr := pwr, ports := []
      rx := [], courses := [], tbl := [], meters := [], gen := {}, bas := {}, eng := {}, punts := [], reports := [], tal := {}
      dram := {}, fab := fab, twin := {}, sec := sec } := by
  unfold State.wipe
  dsimp only
  rw [← kept]
  exact ⟨_, _, _, _, _, rfl⟩

/-- The registers of a chip reset: class C reverts, and the straps stay. -/
theorem State.wipe_regs (s : State) : ∃ split twinId,
    (s.wipe 2).regs = ((((s.fuseCut.driveHold false).revertRegs 2 fun _ => true).setF uHIF F.HIF_LINK_SPLIT split).setF
      uTWN F.TWN_STATUS_TWIN_ID twinId).regs := by
  obtain ⟨split, twinId, kept⟩ := State.keepLink_chip ((s.fuseCut.driveHold false).revertRegs 2 fun _ => true) (s.fuseCut.driveHold false)
  obtain ⟨x, isKept⟩ : ∃ x, x = ((s.fuseCut.driveHold false).revertRegs 2 fun _ => true).keepLink (s.fuseCut.driveHold false) 2 := ⟨_, rfl⟩
  obtain ⟨_, _, _, _, _, wiped⟩ := State.wipe_eq isKept
  refine ⟨split, twinId, ?_⟩
  rw [wiped, ← kept, ← isKept]

/-- Class C fields of every unit but those that hold the straps read their reset values. -/
theorem State.rd_wipe {s : State} (canonical : s.regs.wf regDflt = true) {u sel off : Nat} (unit : u < 2 ^ 14) (offset : off < 4096)
    (noHif : u ≠ uHIF) (noTwn : u ≠ uTWN) :
    ∃ w, (s.wipe 2).rd (regKey u sel off) = revertWord 2 (regKey u sel off) w := by
  obtain ⟨split, twinId, regs⟩ := s.wipe_regs
  obtain ⟨_, _, _, _, before, keeps⟩ := s.onlyFuses_fuseCut.driveHold false
  have canonical' : (s.fuseCut.driveHold false).regs.wf regDflt = true := by rw [before]; exact keeps canonical
  refine ⟨(s.fuseCut.driveHold false).rd (regKey u sel off), ?_⟩
  have same : (s.wipe 2).rd (regKey u sel off) = ((((s.fuseCut.driveHold false).revertRegs 2 fun _ => true).setF uHIF
      F.HIF_LINK_SPLIT split).setF uTWN F.TWN_STATUS_TWIN_ID twinId).rd (regKey u sel off) := by
    unfold State.rd
    rw [regs]
  rw [same, State.rd_setF_unit twinId unit (by decide) offset (by decide) noTwn,
    State.rd_setF_unit split unit (by decide) offset (by decide) noHif, State.rd_revertRegs canonical']

/-- What a chip reset empties. -/
theorem State.wipe_empty (s : State) : (s.wipe 2).tbl = [] ∧ (s.wipe 2).meters = [] ∧ (s.wipe 2).claims = [] ∧ (s.wipe 2).hif = {} ∧
    (s.wipe 2).courses = [] ∧ (s.wipe 2).bas = {} ∧ (s.wipe 2).punts = [] ∧ (s.wipe 2).ctrs = [] ∧ (s.wipe 2).dram = {} ∧
    (s.wipe 2).reports = [] := by
  obtain ⟨x, isKept⟩ : ∃ x, x = ((s.fuseCut.driveHold false).revertRegs 2 fun _ => true).keepLink (s.fuseCut.driveHold false) 2 := ⟨_, rfl⟩
  obtain ⟨_, _, _, _, _, wiped⟩ := State.wipe_eq isKept
  rw [wiped]
  exact ⟨rfl, rfl, rfl, rfl, rfl, rfl, rfl, rfl, rfl, rfl⟩

/-- The registers of a chip reset beside its cause are those of the wipe. -/
theorem State.rd_chipReset {s : State} (bits : Nat) {u sel off : Nat} (unit : u < 2 ^ 14) (offset : off < 4096) (noPln : u ≠ uPLN) :
    (s.chipReset bits).rd (regKey u sel off) = (s.wipe 2).rd (regKey u sel off) := by
  unfold State.chipReset State.cause
  obtain ⟨w, wiped⟩ : ∃ w, s.wipe 2 = w := ⟨_, rfl⟩
  rw [wiped]
  exact State.rd_setF_unit (s := w) _ unit (by decide) offset (by decide) noPln

/-- Plinth time and the fault history outlast a chip reset. -/
theorem State.wipe_keeps (s : State) : (s.wipe 2).clk = s.clk ∧ (s.wipe 2).flt.hist = s.flt.hist := by
  obtain ⟨regs, out, sec, draws, before, -⟩ := s.onlyFuses_fuseCut.driveHold false
  obtain ⟨split, twinId, kept⟩ := State.keepLink_chip ((s.fuseCut.driveHold false).revertRegs 2 fun _ => true) (s.fuseCut.driveHold false)
  obtain ⟨x, isKept⟩ : ∃ x, x = ((s.fuseCut.driveHold false).revertRegs 2 fun _ => true).keepLink (s.fuseCut.driveHold false) 2 := ⟨_, rfl⟩
  obtain ⟨_, _, _, _, _, wiped⟩ := State.wipe_eq isKept
  rw [wiped]
  refine ⟨?_, ?_⟩
  · show x.clk = s.clk
    rw [isKept, kept, State.setF_clk, State.setF_clk, before]
    rfl
  · show x.flt.hist = s.flt.hist
    rw [isKept, kept, State.setF_flt, State.setF_flt, before]
    rfl

/-- A chip reset leaves the wiped state, its cause set, in reset. -/
theorem State.chipReset_eq (s : State) (bits : Nat) : ∃ regs pwr, s.chipReset bits = { s.wipe 2 with regs := regs, pwr := pwr } ∧
    pwr.mode = 1 := by
  unfold State.chipReset State.cause
  obtain ⟨w, wiped⟩ : ∃ w, s.wipe 2 = w := ⟨_, rfl⟩
  obtain ⟨regs, set, -⟩ := State.setF_regs w uPLN F.PLN_RESET_CAUSE_CAUSE (w.getF uPLN F.PLN_RESET_CAUSE_CAUSE ||| bits)
  rw [wiped, set]
  exact ⟨regs, _, rfl, rfl⟩

/-- Settles O52: after a chip reset the fields of class C read their reset values and the memories are empty. -/
theorem chipResetRevertsItsClasses : Obligations.ChipResetRevertsItsClasses := by
  unfold Obligations.ChipResetRevertsItsClasses
  intro s pin canonical awake
  obtain ⟨bits, row⟩ : ∃ bits, exec (.chipReset pin) s = .next (s.chipReset bits).ended :=
    ⟨_, State.actAny_eq (State.chipResetNow_awake awake _)⟩
  obtain ⟨regs, pwr, reset, held⟩ := s.chipReset_eq bits
  obtain ⟨tbl, meters, claims, hif, courses, bas, punts, ctrs, dram, reports⟩ := s.wipe_empty
  obtain ⟨clk, hist⟩ := s.wipe_keeps
  have quiet : (s.chipReset bits).reports = [] := by rw [reset]; exact reports
  obtain ⟨pwr', out, ended, mode⟩ := State.ended_eq quiet
  rw [reset] at mode
  refine ⟨_, row, ?mode, ?tbl, ?meters, ?claims, ?hif, ?courses, ?bas, ?punts, ?ctrs, ?bytes, ?clk, ?hist, ?fields⟩
  case fields =>
    intro u sel off d f unit select offset table field lists noHif noTwn noPln
    obtain ⟨uid, at_⟩ := regKey_parts unit select offset
    obtain ⟨w, reverted⟩ := State.rd_wipe canonical (sel := sel) unit offset noHif noTwn
    rw [State.rd_ended quiet, State.rd_chipReset bits unit offset noPln, reverted]
    exact bitsOf_revertWord (by rw [uid, at_]; exact table) field lists w
  all_goals rw [ended, reset]
  case mode => exact mode.trans held
  case tbl => exact tbl
  case meters => exact meters
  case claims => exact claims
  case hif => exact hif
  case courses => exact courses
  case bas => exact bas
  case punts => exact punts
  case ctrs => exact ctrs
  case bytes => exact congrArg Dram.bytes dram
  case clk => exact clk
  case hist => exact hist

end Sys2Proof.Machine
end
